-- ==== Sys2Proof/Word.lean ====
section
/-! DEFINITION. Word.lean: the words of the register maps and formats (R17) and their plainest arithmetic. -/
namespace Sys2Proof

/-- A *word* is 32 bits (R17). -/
abbrev Word := BitVec 32
/-- A byte of a format (R18). -/
abbrev Byte := BitVec 8
/-- The 16-bit units of data-store rows, tiles and regions (R24, R158, R170). -/
abbrev Half := BitVec 16
/-- A 64-bit quantity of a format. -/
abbrev DWord := BitVec 64
/-- An SM3 digest (R580): 32 bytes, the first byte most significant. -/
abbrev Digest := BitVec 256

end Sys2Proof
end

