-- ==== Sys2Proof/Machine/Bits.lean ====
section
/-! DEFINITION. Machine/Bits.lean: bit fields, two's complement and the little-endian byte order of R18. -/
namespace Sys2Proof.Machine

/-- Bits [hi:lo] of a number, as the manual writes a field. -/
def fld (v hi lo : Nat) : Nat := (v >>> lo) % 2 ^ (hi + 1 - lo)

/-- Bits [hi:lo] of a bit vector. -/
def wfld {n : Nat} (w : BitVec n) (hi lo : Nat) : Nat := fld w.toNat hi lo

/-- Bit i of a number. -/
def bitOf (v i : Nat) : Bool := v.testBit i

/-- A Bool as the bit it stands for. -/
def b2n (b : Bool) : Nat := if b then 1 else 0

/-- A word from its fields, each (lowest bit, width, value); a value is cut to its width (R20: the rest reads 0). -/
def packW : List (Nat × Nat × Nat) → Word
  | [] => 0
  | (lo, w, v) :: fs => BitVec.ofNat 32 ((v % 2 ^ w) <<< lo) ||| packW fs

/-- The low 32 bits of a count. -/
def lo32 (n : Nat) : Word := BitVec.ofNat 32 n
/-- Bits [63:32] of a count. -/
def hi32 (n : Nat) : Word := BitVec.ofNat 32 (n >>> 32)
/-- A 64-bit number from its low and high words. -/
def ofLoHi (lo hi : Word) : Nat := lo.toNat + hi.toNat * 2 ^ 32

/-- An n-bit number read as two's complement (R23). -/
def sgn (n v : Nat) : Int := if v % 2 ^ n < 2 ^ (n - 1) then ((v % 2 ^ n : Nat) : Int) else ((v % 2 ^ n : Nat) : Int) - ((2 ^ n : Nat) : Int)

/-- An integer as the n-bit two's complement number, wrapping. -/
def unsgn (n : Nat) (i : Int) : Nat := (i % ((2 ^ n : Nat) : Int)).toNat

/-- An integer clamped to n-bit two's complement. -/
def clampS (n : Nat) (i : Int) : Int :=
  if i < -((2 ^ (n - 1) : Nat) : Int) then -((2 ^ (n - 1) : Nat) : Int)
  else if ((2 ^ (n - 1) : Nat) : Int) ≤ i then ((2 ^ (n - 1) : Nat) : Int) - 1 else i

/-- A count that stops at its field's highest value (saturates). -/
def satAdd (width v d : Nat) : Nat := min (v + d) (2 ^ width - 1)

/-- The bytes of an n-byte little-endian number (R18). -/
def leBytes : Nat → Nat → List Byte
  | 0, _ => []
  | n + 1, v => BitVec.ofNat 8 v :: leBytes n (v / 256)

/-- A little-endian number from its bytes (R18). -/
def ofLe : List Byte → Nat
  | [] => 0
  | b :: bs => b.toNat + 256 * ofLe bs

/-- The bytes of words, each little-endian (R18). -/
def wordBytes (ws : List Word) : List Byte := ws.flatMap (fun w => leBytes 4 w.toNat)

/-- Words from bytes, the last one filled with zeros. -/
def bytesWords : List Byte → List Word
  | b0 :: b1 :: b2 :: b3 :: rest => BitVec.ofNat 32 (ofLe [b0, b1, b2, b3]) :: bytesWords rest
  | [] => []
  | bs => [BitVec.ofNat 32 (ofLe bs)]

/-- The first word of a list, 0 where there is none. -/
def nth {α : Type} (d : α) : List α → Nat → α
  | [], _ => d
  | a :: _, 0 => a
  | _ :: as, n + 1 => nth d as n

/-- Word i of a parameter list; an absent word is 0. -/
def par (ws : List Word) (i : Nat) : Nat := (nth 0 ws i).toNat

/-- Parameters i and i + 1 as one 64-bit number. -/
def par64 (ws : List Word) (i : Nat) : Nat := par ws i + par ws (i + 1) * 2 ^ 32

/-- Ceiling of a quotient. -/
def cdiv (a b : Nat) : Nat := (a + b - 1) / b

/-- The numbers 0 to n − 1 that satisfy a test. -/
def numsWhere (n : Nat) (p : Nat → Bool) : List Nat := (List.range n).filter p

/-- The number with the bits that a test gives, bits 0 to n − 1. -/
def bitsWhere : Nat → (Nat → Bool) → Nat
  | 0, _ => 0
  | n + 1, p => bitsWhere n p + (if p n then 2 ^ n else 0)

end Sys2Proof.Machine
end

