-- ==== Sys2Proof/Image.lean ====
section
/-! DEFINITION. Image.lean: the emulation image (R189 to R195, R112 to R114, R158, R215, R216, R223, R261, R285, R319, R398,
R399) as the loader sees it: the header and the section table field by field, each section as the entries it holds. A
section byte string is not held; what the loader measures of it (its digest, the instruction words whose stored check bits
do not match, the first non-zero reserved byte) is part of the value (log 6, log 7, log 16). Numbers that name a place are
global within the device: cluster gc = 64 die + 16 quadrant + cluster, group gg = 32 gc + group, EP ge = 16 gg + EP; an
entry for step t of unit u has key 4096 u + t. -/
namespace Sys2Proof

/-- Image header (R190). `reserved` is the offset of the first reserved byte that is not 0. -/
structure ImageHeader where
  magic : Nat
  fmtMajor : Nat
  fmtMinor : Nat
  hdrBytes : Nat
  flags : BitVec 32
  imageBytes : Nat
  setId : DWord
  depth : Nat
  devicePos : Nat
  devices : Nat
  actQuota : Nat
  secTable : Nat
  sigDigest : Digest
  bodyDigest : Digest
  /-- The STEP_SHARE bytes that are not 0: (8 d + c, value). -/
  stepShare : List (Nat × Nat)
  /-- The VN2_RESERVE bytes that are not 0: (die, value). -/
  vn2 : List (Nat × Nat)
  reserved : Option Nat
  deriving DecidableEq, Repr

/-- Section table entry (R191); `reserved`, `reserved18`: the reserved bytes at 0x02, and those at 0x18, are not 0. -/
structure SectionEntry where
  typ : Nat
  scope : Word
  offset : Nat
  length : Nat
  reserved : Bool
  reserved18 : Bool := false
  deriving DecidableEq, Repr

/-- One 64-bit egress list entry (R114) of a die and link code, in list order. -/
structure EgressEntry where
  die : Nat
  code : Nat
  w0 : Word
  w1 : Word
  deriving DecidableEq, Repr

/-- Boundary map entry (R399). -/
structure BoundaryEntry where
  loc : Word
  w1 : Word
  deriving DecidableEq, Repr

/-- Port-cell map entry (R398). -/
structure PortCellEntry where
  loc : Word
  w1 : Word
  deriving DecidableEq, Repr

/-- Probe table entry (R223) of a die: entry index, LOCATION and word 1. -/
structure ProbeEntry where
  die : Nat
  index : Nat
  loc : Word
  w1 : Word
  deriving DecidableEq, Repr

/-- The 8-byte header of a boundary map, port-cell map or transactor channel map section (R319, R398, R399): COUNT, and whether a reserved
byte is not 0. -/
structure SectionHead where
  count : Nat
  reserved : Bool
  deriving DecidableEq, Repr

/-- Transactor channel map entry (R319). -/
structure ChannelEntry where
  channel : BitVec 16
  dir : Byte
  source : Byte
  inLoc : Word
  readyLoc : Word
  outLoc : Word
  inMaxW : Nat
  outMaxW : Nat
  fgroup : Nat
  outRing : Nat
  inDepth : Nat
  outDepth : Nat
  maxPkt : Nat
  format : Nat
  link : Nat
  /-- A byte at 0x1B to 0x1F is not 0. -/
  reserved : Bool
  deriving DecidableEq, Repr

/-- Churn section of one die (R285). -/
structure ChurnSection where
  die : Nat
  ctrl : Word
  program : List Word
  coeff : List Word
  deriving DecidableEq, Repr

/-- Region declaration (R170): size in granules and words. -/
structure RegionDecl where
  index : Nat
  granules : Nat
  words : Nat
  deriving DecidableEq, Repr

/-- Capture and trigger configuration (R261): the registers CAP_CTRL to CAP_AUTO_HI in offset order, and the TRG_ registers
of every die that are not 0: (die, offset, value). -/
structure CaptureConfig where
  cap : List Word
  trg : List (Nat × Nat × Word)
  deriving DecidableEq, Repr

/-- Freshness entry (R216) of a cluster. -/
structure FreshEntry where
  gc : Nat
  w : Word
  deriving DecidableEq, Repr

/-- Customer signature section (Security, R586): key slot and what the loader's verification finds. -/
structure CustomerSig where
  slot : Nat
  /-- Public key under which the signature verifies, where there is one (log 7). -/
  key : Option Digest
  /-- Offset of the first byte of FMT, FLAGS and the reserved bytes that is wrong. -/
  bad : Option Nat
  /-- CONTENT_DIGEST is that of the staged bytes. -/
  contentOk : Bool
  /-- EPHEMERAL and NONCE, each as a byte string with its first byte most significant (R586). -/
  ephemeral : BitVec 512 := 0
  nonce : DWord := 0
  deriving DecidableEq, Repr

/-- The image of one device (R189, R192). Entries that a section does not list hold: an EP entry HOLD alone, a group or
cluster entry 0, an in-port entry 0, a store, tile or region unit 0 (log 16). -/
structure Image where
  hdr : ImageHeader
  table : List SectionEntry
  /-- SM3 of the section bytes in table order, as the loader measures it. -/
  measured : Digest
  /-- First byte between sections that is not 0 (R189). -/
  gap : Option Nat
  sig : List Byte
  /-- Data bits [79:0] of EP entries, key 4096 ge + step. -/
  ep : List (Nat × BitVec 80)
  /-- Data bits [63:0] of group entries, key 4096 gg + step. -/
  grp : List (Nat × DWord)
  /-- Data bits [127:0] of cluster entries, key 4096 gc + step. -/
  clu : List (Nat × BitVec 128)
  /-- EP, group and cluster entries whose stored check bits differ from those of their data bits: (section type, key). -/
  badCheck : List (Nat × Nat)
  /-- Cluster entries whose bits [143:137] are not 0, by key. -/
  cluPad : List Nat
  /-- In-port source entries, key 4096 (16 gc + port) + step. -/
  inPort : List (Nat × Half)
  egress : List EgressEntry
  /-- Access descriptors, key 64 gc + index. A listed descriptor is one the image defines. -/
  desc : List (Nat × BitVec 128)
  bmapHead : SectionHead
  bmap : List BoundaryEntry
  /-- Initial rows, key 4096 gg + row. -/
  rows : List (Nat × Half)
  /-- Tile contents, key 2^20 gc + unit. -/
  tiles : List (Nat × Half)
  regions : List RegionDecl
  /-- Region contents, key 2^32 region + word. -/
  regionInit : List (Nat × Half)
  probes : List ProbeEntry
  capture : Option CaptureConfig
  churn : List ChurnSection
  cellHead : SectionHead
  portCells : List PortCellEntry
  chanHead : SectionHead
  channels : List ChannelEntry
  /-- Port marks bytes that are not 0, key 4096 gg + step. -/
  marks : List (Nat × Byte)
  fresh : List FreshEntry
  customer : Option CustomerSig
  /-- The bytes of each section in table order as staged, of an image with ENC set; what the lists above hold is what the sections hold once
  decrypted under the image's own key (log 7). -/
  stored : List (List Byte) := []
  deriving DecidableEq, Repr

end Sys2Proof
end

