-- ==== Sys2Proof/Design.lean ====
section
/-! DEFINITION. Design.lean: the design state that a checkpoint holds (R288) and the replay log's entries (R296 to R300),
as plain data. -/
namespace Sys2Proof

/-- Separator accumulator of one probe in the window in progress (R233). -/
structure WinAcc where
  last : Bool
  orV : Bool
  andV : Bool
  trans : Nat
  /-- Offset of the first cycle with a transition; none when there was none. -/
  first : Option Nat
  deriving DecidableEq, Repr

/-- Capture unit and trigger sequencer state that a checkpoint holds (R259), one compute die. -/
structure CapSaved where
  /-- Probe entries whose value in the last cycle is 1, rising. -/
  ones : List Nat
  /-- Window accumulators of the STORE probes. -/
  acc : List (Nat × WinAcc)
  /-- Trigger sequencer state 0 to 7 (R256). -/
  st : Nat
  /-- Occurrences counted for rule A in the current state. -/
  occ : Nat
  deriving DecidableEq, Repr

/-- Machine state of one churn engine that a checkpoint holds (R270, R284). -/
structure ChurnMach where
  en : Bool
  wexp : Nat
  /-- DCN at which EN took effect; windows that start earlier do not count (R265). -/
  since : Nat
  openB : List (Nat × Word)
  closedB : List (Nat × Word)
  y : List (Nat × Word)
  z : List (Nat × Word)
  /-- A0 to A15. -/
  a : List (BitVec 56)
  /-- K0 to K7. -/
  k : List Word
  px : Nat
  py : Nat
  pz : Nat
  xsh : Nat
  zsh : Nat
  mval : Word
  midx : Nat
  pc : Nat
  /-- Addresses in the instruction cache, the last used first. -/
  cache : List Nat
  /-- Engine cycles used by the window's program. -/
  used : Nat
  /-- Engine cycles that have come since the program started (R266). -/
  avail : Nat
  /-- Stepping ticks since the last engine cycle, 0 to 3. -/
  phase : Nat
  running : Bool
  winDcn : Nat
  /-- Time of the close of the window in process (R282). -/
  closeTime : BitVec 96
  windows : Nat
  seq : Nat
  outno : Nat
  /-- In a checkpoint: repetitions left of a REPEAT in progress (R284). -/
  rep : Nat
  /-- Saturation in the window: X while it was open, then X, accumulator and Z of its program. -/
  xOpen : Bool
  xSat : Bool
  accSat : Bool
  zSat : Bool
  deriving DecidableEq, Repr

/-- Sequence numbers and OPEN state of a channel (R288). -/
structure ChanSaved where
  inSeq : Word
  outSeq : Word
  isOpen : Bool
  deriving DecidableEq, Repr

/-- A checkpoint (R288): the state after DCN completed cycles. `cow` holds the granules saved since (R293), key
2^21 region + granule, each with its words that are not 0. -/
structure Checkpoint where
  dcn : Nat
  setId : DWord
  /-- Digest of the live signature (R288). -/
  sigDigest : Digest
  rows : List (Nat × Half)
  tiles : List (Nat × Half)
  caps : List (Nat × CapSaved)
  churn : List (Nat × ChurnMach)
  chans : List (Nat × ChanSaved)
  cow : List (Nat × List (Nat × Half))
  imported : Bool
  /-- Words in effect of R299, of a checkpoint taken in REPLAY, which has no marker in the log. -/
  effect : List (Nat × Word) := []
  /-- An uncorrectable word of its slot has been found: it cannot be restored (R314, R515). -/
  spoiled : Bool := false
  deriving DecidableEq, Repr

/-- An item of a log entry (R298). -/
structure LogItem where
  kind : Nat
  index : Nat
  payload : List Word
  deriving DecidableEq, Repr

/-- An entry of the replay log (R297). `pos`: the position in SOURCE; `bad`: it fails its SECDED check (R309). -/
structure LogEntry where
  typ : Nat
  pos : Nat
  dcn : Nat
  items : List LogItem
  time : BitVec 96
  seq : Nat
  bad : Bool
  deriving DecidableEq, Repr

/-- A unit whose state an export holds in a unit-state block (R315); the collector's and the recorder's is in no checkpoint, and the number
stands for what the device wrote. -/
inductive UnitState where
  | capture (v : CapSaved)
  | churn (m : ChurnMach)
  | collector (n : Nat)
  | recorder (n : Nat)

end Sys2Proof
end

