-- ==== Sys2Proof/Fabric.lean ====
section
/-! DEFINITION. Fabric.lean: the configuration of the logic fabric as plain data (R380 to R385, R392, R395, R401): what the frames of cells,
wires, taps, clock lines, port cells, pins and crossing registers choose. The spec gives the blocks and their choices and leaves the
places of the bits in a frame open: a frame is held as the choices that it makes (log 69). -/
namespace Sys2Proof

/-- The lengths and directions of wires (R382). -/
inductive WireLen where
  | one | four | twelve | dieLong
  deriving DecidableEq, Repr
inductive Dir where
  | north | east | south | west
  deriving DecidableEq, Repr

/-- A place of the fabric that has a value: cells and tiles by their number in the device, dies 0 to 7 and 8 for the I/O die. -/
inductive FabNode where
  /-- LUT output and flip-flop of a cell (R381). -/
  | lut (cell : Nat)
  | ff (cell : Nat)
  /-- A wire that a tile drives, an enabled tap, and a trunk line (R382, R383). -/
  | wire (tile : Nat) (len : WireLen) (dir : Dir) (k : Nat)
  | tap (tile line : Nat)
  | trunk (die line : Nat)
  /-- Far side of crossing register k of a compute die, towards the I/O die or from it (R384). -/
  | crossing (die : Nat) (toIo : Bool) (k : Nat)
  /-- Output port cell n; the bits that a MODE 3 pin presents, of the rising and of the falling edge (R387, R395). -/
  | outCell (n : Nat)
  | pin (p : Nat) (falling : Bool)
  /-- Engine signal: 0 OUT_STROBE, 1 IN_STROBE, 2 ENG_STEP, 3 to 10 DCN8, 11 LIVE (R388). -/
  | engine (k : Nat)
  /-- FABRIC_IN k after its synchroniser (R602). -/
  | utilIn (k : Nat)
  deriving DecidableEq, Repr

/-- Configuration of one cell (R381). An input that routing leaves unconnected reads 0. -/
structure FabCell where
  table : BitVec 16
  ins : List (Option FabNode)
  /-- The fifth input, and whether the flip-flop captures it. -/
  bypass : Option FabNode
  useBypass : Bool
  line : Nat
  enable : Option FabNode
  init : Bool
  /-- Synchronous set (true) or reset, and the routing input that drives it; none: unused. -/
  setReset : Option FabNode
  sets : Bool
  deriving DecidableEq, Repr

/-- Source of a regional clock line (R385). -/
inductive ClockSrc where
  | fabric
  | divided (k : Nat)
  | pin (k : Nat)
  | net (n : FabNode)
  deriving DecidableEq, Repr

/-- One choice that a frame makes. -/
inductive FabItem where
  /-- Cell 0 to 15 of the tile. -/
  | cell (k : Nat) (c : FabCell)
  /-- The multiplexer of a wire that the tile drives, and the input that it selects. -/
  | wire (len : WireLen) (dir : Dir) (k : Nat) (sel : Option FabNode)
  /-- An enabled tap of the tile. -/
  | tap (line : Nat) (src : FabNode)
  /-- FABRIC_OUT k (R602). -/
  | utilOut (k : Nat) (src : FabNode)
  /-- Clock line of the region. -/
  | clock (line : Nat) (src : ClockSrc)
  /-- The net that an input port cell samples. -/
  | port (n : Nat) (src : FabNode)
  /-- The nets that a MODE 3 pin drives: rising-edge and falling-edge bit. -/
  | pin (p : Nat) (rise fall : Option FabNode)
  /-- The net that a crossing register takes. -/
  | crossing (die : Nat) (toIo : Bool) (k : Nat) (src : FabNode)
  deriving DecidableEq, Repr

end Sys2Proof
end

