-- ==== Sys2Proof/Syntax.lean ====
section
/-! DEFINITION. Syntax.lean: the commands of the block, one constructor of `Instr` per row of spec/opcode_table.json, and
the operands that a row carries from outside the device: what the host wrote, what a pin or a link brought, what a sensor
or a check of the device's own analogue side found. -/
namespace Sys2Proof

/-- Where a command packet came from (R357, R358, R376): the PCIe rings, a management session, or relayed by the device at a
board position that has taken it on its own path. -/
inductive Path where
  | pcie
  | session (id : Word)
  | relay (pos : Nat) (mgmt : Bool)
  deriving DecidableEq, Repr

/-- A frame record (R417): its address, whether its check bits are right, and the choices that its data bits make (log 69). -/
structure FrameRec where
  addr : Word
  checkOk : Bool
  items : List FabItem
  deriving DecidableEq, Repr

/-- Base personality (R417) or firmware package (R548) as received: header fields and what the checks of R418 find of the
bytes (log 6, log 7). -/
structure BasePersonality where
  bytes : Nat
  magic : Nat
  fmtMajor : Nat
  totalBytes : Nat
  partMask : Word
  /-- FW_VERSION; its bits [29:24] are the security epoch (R594). -/
  fwVersion : Word
  reservedOk : Bool
  /-- SIGNATURE verifies under the Lenaux firmware key. -/
  sigOk : Bool
  digestOk : Bool
  bodyDigest : Digest
  /-- SM3 of the firmware section (R590). -/
  fwDigest : Digest
  frames : List FrameRec
  baseLock : Byte
  prKey : Nat
  /-- Utility crossbar registers that it loads (R610): (offset, value). -/
  utilMap : List (Nat × Word)
  /-- Target pins that its I/O cell frames configure (R393): (pin, FAB_IOCFG value). -/
  ioCells : List (Nat × Word)
  /-- Owners of service banks 0 to 15 that it assigns (R526). -/
  owners : List Nat
  /-- FMT_MINOR, FW_OFFSET, FW_BYTES and FRAME_OFFSET, which no check judges; FRAMES is the length of `frames`. -/
  fmtMinor : BitVec 16 := 0
  fwOffset : Word := 0xC0
  fwBytes : Word := 0
  frameOffset : Word := 0xC0
  deriving DecidableEq, Repr

/-- Partial bitstream (R429). `key`: the public key under which SIGNATURE verifies, where there is one. -/
structure PartialBits where
  bytes : Nat
  magic : Nat
  fmtMajor : Nat
  regionAddr : Word
  nFrames : Nat
  keySlot : Nat
  reservedOk : Bool
  key : Option Digest
  table : List Word
  records : List FrameRec
  digestOk : Bool
  bodyDigest : Digest
  ioCells : List (Nat × Word)
  /-- FMT_MINOR, which no check judges. -/
  fmtMinor : BitVec 16 := 0
  deriving DecidableEq, Repr

/-- Checkpoint export (R315), as written or as read from host memory: the header fields, the section table, and what the sections say. Its
bytes are those of `exportBody`. -/
structure CkpExport where
  magic : Nat
  fmtMajor : Nat
  fmtMinor : BitVec 16
  totalBytes : Nat
  position : Nat
  part : Nat
  logEnd : Nat
  /-- SIG_DIGEST of the images to which the checkpoint belongs. -/
  sigDigest : Digest := 0
  bodyDigest : Digest
  table : List SectionEntry
  /-- DCN and SET_ID are those of the header too. -/
  state : Checkpoint
  /-- What stands for the collector's and the recorder's state. -/
  ioUnits : Nat
  /-- Region contents, key 2^32 region + word. -/
  regions : List (Nat × Half)
  log : List LogEntry
  deriving DecidableEq, Repr

/-- What the device's DMA reads from host memory for a command (log 6). -/
inductive HostData where
  | nothing
  | image (i : Image)
  | words (ws : List Word)
  | base (b : BasePersonality)
  | frames (p : PartialBits)
  | ckp (e : CkpExport)
  deriving DecidableEq, Repr

/-- A command packet (R357) with its path and the host data it names. `nParams` is PARAM_WORDS as the header carries it. -/
structure Cmd where
  path : Path
  flags : BitVec 16
  nParams : Nat
  rsvd : Byte
  tag : BitVec 16
  target : Word
  seq : Word
  params : List Word
  data : HostData
  deriving DecidableEq, Repr

/-- Straps and lines that a cold reset samples (R409) with the board's own facts the device senses then. -/
structure Straps where
  pos : Nat
  boot : Bool
  pull : Nat
  slow : Bool
  deriving DecidableEq, Repr

/-- An address of a register write: an offset of BAR0 (R350) or a register address (R368). -/
inductive RegAddr where
  | bar0 (off size : Nat)
  | block (addr : Word)
  deriving DecidableEq, Repr

/-- A code word error that an access or a check meets (R65, R66, R84, R85). -/
inductive EccHit where
  | corrected
  | uncorrectable
  deriving DecidableEq, Repr

/-- Which store an error lies in. -/
inductive StoreKind where
  | epInstr | grpInstr | cluInstr | row | tile
  deriving DecidableEq, Repr

/-- An error met at a step: store, key of the word (as in Image.lean; a row code word by its group key 4096 gg + row) and
what the check found. -/
structure EccEvent where
  store : StoreKind
  key : Nat
  hit : EccHit
  deriving DecidableEq, Repr

/-- What comes from outside at a schedule step: errors met, DDR reads that meet a refresh and are predicted late (R181; by
64 die-wide cluster and port, 4 gc + port), the levels that the board gives the target pins (R394), and the pins that it leaves floating. -/
structure StepEnv where
  ecc : List EccEvent
  refresh : List Nat
  pads : BitVec 192
  floats : BitVec 192 := 0
  deriving DecidableEq, Repr

/-- What comes from outside at a boundary step: the levels that the board gives the target and utility pins, the target pins that it leaves
floating, errors met, and the dies of which a crossing-register transfer failed its check and was resent (R405). -/
structure BoundEnv where
  pads : BitVec 192
  util : BitVec 48
  ecc : List EccEvent
  floats : BitVec 192 := 0
  /-- Utility pins that it leaves floating, and those whose line it holds (R606). -/
  utilFloats : BitVec 48 := 0
  utilForced : BitVec 48 := 0
  crossErr : List Nat := []
  deriving DecidableEq, Repr

/-- Work that a planned hold may wait for (R142, R143). -/
inductive HoldWork where
  | checkpoint | hostAccess | ddrCommit
  deriving DecidableEq, Repr

/-- Queues of events waiting for the event ring (R360). -/
inductive EventQueue where
  | other | hazard | error
  deriving DecidableEq, Repr

/-- A block on a lane (R478): its sync header and its payload, as received or as sent. -/
structure LaneBlock where
  header : BitVec 2
  payload : BitVec 64
  deriving DecidableEq, Repr

/-- What a receiver met on one physical lane in a training (R479, R480, R490): whether the sync header at its candidate offset was valid, block
by block; the payload of a TS1 once locked; the payload of the ALIGN block and its arrival in ps after the first one of the bundle; the 8 taps
that the equaliser adapted to; and the last 58 payload bits before the first flit, the last one highest. -/
structure LaneHeard where
  lane : Nat
  tests : List Bool
  ts1 : BitVec 64
  align : BitVec 64
  alignPs : Nat := 0
  taps : List Int := []
  scr : BitVec 58
  deriving DecidableEq, Repr

/-- What a board link's training met (R479, R480, R487 to R491, R502): its lanes, the payload of a TS2, the lanes that fail the lane test,
the credit check, filter peaking and eye opening. -/
structure LinkTraining where
  lanes : List LaneHeard
  ts2 : BitVec 64
  tested : List Nat
  creditsOk : Bool
  peak : Nat
  eye : Nat
  deriving DecidableEq, Repr

/-- What a UCIe module's bring-up found (R440 to R444, R464): lanes that fail besides those of the fused spare map, in the order found, transmit
and receive as the first end of R438 sees them. -/
structure UcieTraining where
  sideband : Bool
  mainband : Bool
  txFailed : List Nat
  rxFailed : List Nat
  creditsOk : Bool
  deriving DecidableEq, Repr

/-- A UCIe parameter record (R441) and the end of the module that sent it: the second end of R438 or the first. -/
structure ParamRecord where
  second : Bool
  site : Nat
  ioDie : Bool
  proto : Nat
  caps : Nat
  stepping : Nat := 0
  serial : DWord
  fusedTx : Nat := 0
  fusedRx : Nat := 0
  deriving DecidableEq, Repr

/-- The accessory die's admission descriptor (R470); its signature verifies under the Lenaux admission key; its reserved fields are 0. -/
structure AdmissionDesc where
  magic : Nat
  fmt : Nat
  kind : Nat
  vendor : Word := 0
  model : Word := 0
  serial : DWord
  channels : Nat
  gbps : Nat
  capacity : Nat
  sigOk : Bool
  reservedOk : Bool
  deriving DecidableEq, Repr

/-- A packet of the packet network (R457, R458): network addresses, tag, positions, virtual network, STATUS of a response, address and
bytes of a request, data words. -/
structure Packet where
  src : Nat
  dst : Nat
  tag : Nat
  srcPos : Nat
  dstPos : Nat
  vn : Nat
  status : Nat
  addr : DWord
  bytes : Nat
  words : List Word
  poison : Bool
  /-- VN2: the die of this device where it stands, and the legs left of its route, 12 bits each (R457, R460). -/
  die : Nat := 0
  legs : List Nat := []
  deriving DecidableEq, Repr

/-- A retry of a UCIe module (R446): the lane of a direction, transmit or not, that the failure is attributed to, and the flits sent again. -/
structure UcieRetry where
  lane : Option (Nat × Bool)
  resent : Nat
  deriving DecidableEq, Repr

/-- An adaptation of the equalisers that has ended (R490): the smallest eye opening, and the taps by physical lane. -/
structure EqAdapted where
  eye : Nat
  taps : List (Nat × List Int)
  deriving DecidableEq, Repr

/-- A bundle leaves electrical idle (R506): the far end's burst came, and the sync headers of the first four blocks of each lane. -/
structure IdleWake where
  peer : Bool
  heads : List (BitVec 2)
  deriving DecidableEq, Repr

/-- A board link flit (R481): the block of each logical lane in ascending order; in a loop the block of each physical lane (R507). -/
structure LinkFlit where
  blocks : List LaneBlock
  adapted : Option EqAdapted := none
  /-- Arrival offset against the trained offset, in steps (R124). -/
  drift : Int
  /-- The far end holds the link: it is in SAFE HOLD (R508). -/
  held : Bool
  deriving DecidableEq, Repr

/-- SEQ, LENGTH in bytes and payload of an event that comes from another device (R358, R360). -/
structure EventData where
  seq : Word
  len : Nat
  words : List Word
  deriving DecidableEq, Repr

/-- Words read from an inbound ring and where they were read (R325). -/
structure RingRead where
  addr : Nat
  words : List Word
  deriving DecidableEq, Repr

/-- Firmware control messages between devices (R458, R41, R292, R294, R563). -/
inductive FwMsg where
  | boardTime (tick : Nat) (sec nsec frac : Nat) (incr : Word)
  | forcedReport (pos : Nat)
  | peerStatus (pos : Nat) (part : Nat) (mode : Nat) (dcn : Nat) (setId : DWord) (depth : Nat) (discipline : Bool)
      (sigDigest : Digest) (ckpDcn : Option Nat) (ckpImported : Bool) (share : List (Nat × Nat)) (logEnd : Nat)
      (busy stale : Bool) (wrote : Nat) (named : List (Nat × Nat))
  | peerGone (pos : Nat)
  | orderRunStart (sub : Nat) (debug : Bool) (n : Nat) (ckp : Bool)
  | orderResume (sub : Nat) (n : Nat) (ckp : Bool)
  | orderHalt (dcn : Nat)
  | orderStop (dcn : Nat)
  | holdRequest (pos : Nat)
  | orderHold (dcn : Nat)
  | orderCheckpoint (dcn : Nat) (forced : Bool)
  | orderArm (dcn : Option Nat) (cap : List Word)
  | orderReplay (target : Option Nat) (debug : Bool) (imported : Bool)
  | orderReplayStop (dcn : Nat)
  | orderRecovery (dcn : Nat)
  | ckpComplete (pos : Nat) (dcn : Nat)
  | haltRequest (dcn : Nat)
  | captureFrozen
  | imageChanged (pos : Nat)
  | cascadeRequest (stop : Bool)
  | cfgDoneHeld (pos : Nat) (low : Bool)
  | marked (pos : Nat) (steps : List Nat)
  | signaturePart (pos part : Nat) (topology : List (Nat × Nat)) (shorts : List Word)
  deriving DecidableEq, Repr

/-- Entry of a host inbound ring or a VN0 message (R324, R326, R342), as its words say. -/
structure RingEntry where
  typ : Nat
  len : Nat
  fenceId : Nat
  reserved : Bool
  words : List Word
  deriving DecidableEq, Repr

/-- A management datagram (R376): its packet is the command packet of `opcode` and `cmd`. -/
structure Datagram where
  session : Word
  counter : Nat
  opcode : Nat
  cmd : Cmd
  mac : Digest
  deriving DecidableEq, Repr

/-- What the trace event machine sees at a CTRL edge besides the device's own flags (R575): the four comparators' matches. -/
structure TraceInputs where
  cmp : BitVec 4
  deriving DecidableEq, Repr

/-- What a code word holds, where its class leaves more than one case: a DDR5 area (R515) with the region word, the log entry or the
block that the word belongs to, a frame address (R401), or a message of a channel's queue in a service bank (R345). -/
inductive ScrubPlace where
  | plain
  | region (key : Nat)
  | golden (store : StoreKind) (key : Nat)
  | instr (store : StoreKind) (key : Nat)
  | store
  | log (entry : Nat)
  | ring (block : Nat)
  | service
  | staging
  | frame (addr : Word)
  | inMsg (ch n : Nat)
  | outMsg (ch n : Nat)
  deriving DecidableEq, Repr

/-- What comes for a DDR5 read (R511): the syndrome of the word that came, and the bits in which its address differs from the one asked
for. -/
structure DdrWordFound where
  synd : BitVec 16
  wrong : BitVec 38
  deriving DecidableEq, Repr

/-- What a scrubber finds (R517): class 0 to 8, die, code word of the pass. -/
structure ScrubFinding where
  cls : Nat
  site : Nat
  addr : Nat
  place : ScrubPlace
  /-- What its decoder reports; of a DDR5 word the two fields that follow say it. -/
  hit : Option EccHit
  /-- Class 7 (R511): errors of the stored check bits and data as a syndrome, and the bits in which the address of the word that came differs. -/
  synd : BitVec 16
  wrong : BitVec 38
  /-- The scrubber's own voted state disagreed (R517). -/
  vote : Bool
  /-- A microcode word of sequencer A (false) or B (true) is uncorrectable (R517). -/
  micro : Option Bool
  deriving DecidableEq, Repr

/-- What a die's sensors read (R624, R632): hottest sensor in 0.125 °C, rails in mV, die power in 0.1 W. -/
structure ThermalReading where
  site : Nat
  temp : Int
  vcc : Nat
  vcs : Nat
  power : Nat
  deriving DecidableEq, Repr

/-- The commands (spec/opcode_table.json, in the table's order). -/
inductive Instr where
  | negotiate (c : Cmd)
  | identify (c : Cmd)
  | regRead (c : Cmd)
  | regWrite (c : Cmd)
  | regModify (c : Cmd)
  | signatureGet (c : Cmd)
  | resetWarm (c : Cmd)
  | resetDie (c : Cmd)
  | powerCap (c : Cmd)
  | eventMask (c : Cmd)
  | imageStatus (c : Cmd)
  | imageStage (c : Cmd)
  | imageLoad (c : Cmd)
  | imageLoadComplete (uncorrAt : Option Nat)
  | imageUnload (c : Cmd)
  | imageReset (c : Cmd)
  | imageResetComplete
  | imageDigest (c : Cmd)
  | runStart (c : Cmd)
  | runHalt (c : Cmd)
  | runResume (c : Cmd)
  | runStop (c : Cmd)
  | runStatus (c : Cmd)
  | rowRead (c : Cmd)
  | rowWrite (c : Cmd)
  | tileRead (c : Cmd)
  | tileWrite (c : Cmd)
  | regionRead (c : Cmd)
  | regionWrite (c : Cmd)
  | ddrInfo (c : Cmd)
  | regionDmaRead (c : Cmd)
  | regionDmaWrite (c : Cmd)
  | regionDmaComplete (found : List (Nat × DdrWordFound))
  | capInfo (c : Cmd)
  | capArm (c : Cmd)
  | capTrigger (c : Cmd)
  | capStop (c : Cmd)
  | capRead (c : Cmd)
  | capReadComplete (poisoned : List Nat)
  | chnInfo (c : Cmd)
  | chnRing (c : Cmd)
  | chnMemRead (c : Cmd)
  | chnMemWrite (c : Cmd)
  | ckpInfo (c : Cmd)
  | ckpTake (c : Cmd)
  | replayStart (c : Cmd)
  | replayStop (c : Cmd)
  | ckpExport (c : Cmd)
  | ckpExportComplete
  | ckpImport (c : Cmd)
  | ckpImportComplete
  | chStatus (c : Cmd)
  | chOpen (c : Cmd)
  | chClose (c : Cmd)
  | chFlush (c : Cmd)
  | flushTakesEffect (ch : Nat)
  | outRing (c : Cmd)
  | linkStatus (c : Cmd)
  | linkCounters (c : Cmd)
  | linkTrain (c : Cmd)
  | linkLoop (c : Cmd)
  | timeGet (c : Cmd)
  | timeSet (c : Cmd)
  | ptpConfig (c : Cmd)
  | ppsConfig (c : Cmd)
  | certGet (c : Cmd)
  | attest (c : Cmd)
  | attestComplete
  | sessionOpen (c : Cmd)
  | sessionClose (c : Cmd)
  | sessionSubscribe (c : Cmd)
  | keySlotInstall (c : Cmd)
  | keySlotLock (c : Cmd)
  | keySlotRevoke (c : Cmd)
  | keySlotReqSigned (c : Cmd)
  | authoriseChallenge (c : Cmd)
  | authorisePresent (c : Cmd)
  | svcStatus (c : Cmd)
  | serviceEnter (c : Cmd)
  | serviceExit (c : Cmd)
  | fwUpdate (c : Cmd)
  | fwUpdateComplete (ok : Bool)
  | traceCtrlHost (c : Cmd)
  | traceCtrlRestart (c : Cmd)
  | bankPower (c : Cmd)
  | mgmtConfig (c : Cmd)
  | diag (c : Cmd)
  | baseLoad (c : Cmd)
  | baseLoadComplete
  | prLoad (c : Cmd)
  | prLoadComplete
  | fabStatus (c : Cmd)
  | relayTimeout (tag : BitVec 16)
  | commandDoorbell (prod : Word)
  | replyRingConsume (cons : Word)
  | eventRingConsume (cons : Word)
  | eventPost (q : EventQueue)
  | ringEnable (w : Word)
  | ringDisable (w : Word)
  | hsbDcnLoRead
  | bulkSelWrite (w : Word)
  | bulkWindowRead (off : Nat) (w : DdrWordFound)
  | bulkWindowWrite (off : Nat) (w : Word)
  | trxDoorbell (ch : Nat) (prod : Word)
  | chnEnable (die : Nat) (w : Word)
  | chnDisable (die : Nat) (w : Word)
  | bootDeadlineWrite (w : Word)
  | utilMapWrite (off : Nat) (w : Word)
  | utilIoWrite (off : Nat) (w : Word)
  | fabIocfgWrite (pin : Nat) (w : Word)
  | trcEnable (w : Word)
  | timePreferWrite (w : Word)
  | registerWrite (a : RegAddr) (w : Word)
  | coldReset (st : Straps)
  | warmReset (cause : Nat)
  | endpointReset
  | configurationReady
  | bootDeadlineExpire
  | cfgDoneRelease
  | cfgDoneReleasedByAll
  | cfgDoneLow
  | epochPulse
  | tickEpoch
  | startupEnd
  | scheduleStep (e : StepEnv)
  | cycleBoundaryStep (e : BoundEnv)
  | cycleEnd
  | plannedHoldWorkEnd (w : HoldWork)
  | checkpointComplete
  | periodicCheckpoint
  | stepNExpiry
  | replayEnd
  | stallStep
  | sluiceSlotStart
  | sluiceSample (low : Bool)
  | sluiceFreeze
  | sluiceReopen
  | sluiceWatchdog
  | cascadeSample (low : BitVec 4)
  | cascadeDelivery
  | captureEnd
  | capAutoCycles
  | capAutoTime
  | churnWindowClose (die : Nat)
  | nop (die : Nat)
  | halt (die : Nat)
  | ldi (die : Nat) (ka : BitVec 3) (imm : BitVec 20)
  | sethi (die : Nat) (ka : BitVec 3) (imm : BitVec 12)
  | add (die : Nat) (ka kb kc : BitVec 3)
  | addi (die : Nat) (ka kb : BitVec 3) (imm : BitVec 16)
  | setp (die : Nat) (kb : BitVec 3) (p : BitVec 2)
  | getp (die : Nat) (ka : BitVec 3) (p : BitVec 2)
  | setsh (die : Nat) (xsh zsh : BitVec 5)
  | clra (die : Nat)
  | mac (die : Nat) (ystep : BitVec 5)
  | macs (die : Nat) (ystep : BitVec 5)
  | suma (die : Nat)
  | sta (die : Nat) (mode : BitVec 1)
  | ldz (die : Nat)
  | ldk (die : Nat) (ka : BitVec 3) (addr : BitVec 13)
  | stk (die : Nat) (ka : BitVec 3) (addr : BitVec 13)
  | max (die : Nat) (nm1 : BitVec 13)
  | min (die : Nat) (nm1 : BitVec 13)
  | getm (die : Nat) (ka : BitVec 3) (sel : BitVec 1)
  | repeatN (die : Nat) (nm1 : BitVec 10)
  | br (die : Nat) (ka kb : BitVec 3) (cond : BitVec 3) (target : BitVec 12)
  | jmp (die : Nat) (target : BitVec 12)
  | out (die : Nat) (nm1 : BitVec 10)
  | getw (die : Nat) (ka : BitVec 3) (sel : BitVec 2)
  | ddrResponseArrival (gc port : Nat) (w : DdrWordFound)
  | ddrResponseTimeout (gc port : Nat)
  | instructionRepair
  | groupFailure (gc group : Nat)
  | recoveryRestore
  | recoveryEnd
  | dieSupplyLoss (die : Nat)
  | railLoss (rail : Nat)
  | clockPathSwitch (die : Nat)
  | takeover
  | standbyRestart
  | safeHoldEntry
  | dieControllerRestart (die : Nat) (ok : Bool)
  | protocolEngineRestart (e : Nat)
  | heartbeat (b : Bool)
  | scrubWord (f : ScrubFinding)
  | bankTestRegion (bank : Nat) (pass : Bool)
  | thermalSample (t : ThermalReading)
  | packagePowerSample (deciwatts : Nat)
  | boardLinkTraining (die : Nat) (t : LinkTraining)
  | boardLinkUnconnected (die : Nat)
  | weirTraining (die code : Nat) (markers : List (Nat × Nat))
  | boardFlitReceive (die : Nat) (f : LinkFlit)
  | nakReceived (die ack : Nat) (nak : Bool)
  | retryTimeout (die ageNs : Nat)
  | cycleMarkerReceive (die code : Nat) (dcn16 : BitVec 16) (tag : BitVec 10)
  | linkMessage (die : Nat) (loopOn : Bool)
  | boardLaneFail (die lane : Nat) (tx lockLoss : Bool)
  | boardLosLol (die : Nat) (lol : Bool) (t : Option LinkTraining)
  | boardIdleEntry (die : Nat)
  | boardIdleExit (die : Nat) (w : IdleWake)
  | boardPeerDieReset (die : Nat)
  | ucieStartup (m : Nat) (t : UcieTraining)
  | ucieParameterRecord (m : Nat) (r : ParamRecord)
  | ucieFlitCrcFail (m : Nat) (r : UcieRetry)
  | ucieLaneFail (m : Nat) (lane : Option Nat) (tx : Bool)
  | spillwayRelease (die : Nat)
  | accessoryAdmission
  | admissionDescriptor (d : AdmissionDesc)
  | accessoryModuleLost
  | read (p : Packet)
  | postedWrite (p : Packet)
  | acknowledgedWrite (p : Packet)
  | transactorMessage (p : Packet) (ch : Nat) (ws : List Word)
  | readResponse (p : Packet)
  | writeAcknowledgement (p : Packet)
  | captureBlockPart (p : Packet) (pos die part : Nat)
  | traceRecord (p : Packet) (source : Nat)
  | relayedCommand (opcode : Nat) (c : Cmd)
  | relayedReply (pos : Nat) (tag : BitVec 16) (status flags : Nat) (dcnLo : Word) (results : List Word)
  | event (pos code status : Nat) (tag : BitVec 16) (dcnLo : Word) (payload : EventData)
  | churnResult (die : Nat)
  | firmwareControl (m : FwMsg)
  | creditReturn (unit : Nat) (vc n : Nat)
  | inboundRingEntry (ch : Nat) (e : RingRead)
  | messageStage (eng : Nat)
  | outboundPacketWrite (ring : Nat)
  | mgmtDatagram (d : Datagram)
  | ptpSync (dom : Nat) (offset : Int)
  | ptpHoldover (dom : Nat)
  | timeBoardSend
  | timeFollowerHoldover
  | ppsInEdge
  | ppsOutPulse
  | traceRuleFire (i : TraceInputs)
  | sourceClockGate (source : Nat)
  | sourceWake (source : Nat)
  | dieSupplyReturn (die : Nat)
  | ddr5Training (channels : Nat) (twoDpc : Bool) (identical : Bool) (gb : Nat)
  | groupSelfTest (failed : List (Nat × Nat))
  | controllerRestartTimeout
  | antiRollbackFloorBurn
  | logStagingBufferDrain (bytes : Nat)
  | ucieFlitReceive (m die step : Nat) (drift : Int)
  | tmrToggle (k : Nat)
  | diagComplete (status : Nat) (results : List Word)
  deriving DecidableEq, Repr

end Sys2Proof
end

