-- ==== Sys2Proof/Machine/State.lean ====
section
/-! DEFINITION. Machine/State.lean: the state of one device as plain data, the reasons a step can stop, and the state right
after reset. Sparse arrays are lists of (key, value) in rising key order without default entries (Machine/Cells.lean).
Global numbers: cluster gc = 64 die + 16 quadrant + cluster, group gg = 32 gc + group, EP ge = 16 gg + EP. -/
namespace Sys2Proof.Machine

/-- Why the machine stops with a fault. -/
inductive Fault where
  /-- A churn instruction row whose operand bits form an encoding that R277 calls reserved (COND 4 to 7, P 3, YSTEP above
  16, or a REPEAT of an instruction that R281 does not admit) has reached the engine, which only CHN_MEM_WRITE can bring
  about: the spec gives no effect. Safe: the hardware goes on in a way the spec leaves open. -/
  | reservedChurnEncoding
  deriving DecidableEq, Repr

/-- Why a command has no meaning in the model. -/
inductive Refusal where
  /-- Raised by an arm of `exec` whose row has no meaning yet. Safe. -/
  | notModelled (mnemonic : String)
  deriving DecidableEq, Repr

/-- Operating modes (R38). -/
inductive Mode where
  | boot | standby | loaded | run | replay | service
  deriving DecidableEq, Repr

/-- Sub-states of RUN (R38). -/
inductive Sub where
  | free | stepN | halted
  deriving DecidableEq, Repr

/-- What the next STEP tick of the sequencers is when nothing stalls it (R98). -/
inductive Tick where
  | idle
  | step (s : Nat)
  | bound (i : Nat)
  deriving DecidableEq, Repr

/-- Identity and fuses of the part (R3, R370, R371, R87, R489, R443). -/
structure Ident where
  /-- AED-9640: sites 4 to 7 absent. -/
  small : Bool
  grade : Nat
  accessory : Nat
  stepping : Nat
  serial : DWord
  /-- Groups that the fuse map lists as failed: (gc, physical group). -/
  badGroups : List (Nat × Nat)
  /-- Board link lanes that fuses mark failed: (die, lane), receive lanes as 18 + lane. -/
  badLanes : List (Nat × Nat)
  /-- UCIe spare maps fused at assembly test: module, and the lanes that spares replace, transmit and receive as the first end sees them
  (R443). -/
  ucieFused : List (Nat × List Nat × List Nat)
  /-- Groups that have failed in operation (R89, R91): they fail every later self-test (log 60). -/
  worn : List (Nat × Nat)
  deriving DecidableEq, Repr

/-- Causes that end stepping at an agreed DCN (R43, R373). -/
inductive StopKind where
  | runStop | replayStop | halt | trigger | hazard | stepN | replayTarget | replayLog
  deriving DecidableEq, Repr

/-- A stop that is fixed: the effective DCN, at whose end of B15 stepping ends. -/
structure Stop where
  dcn : Nat
  kind : StopKind
  deriving DecidableEq, Repr

/-- Mode, sub-state and what will change them (R38 to R45). -/
structure ModeState where
  mode : Mode
  sub : Sub
  debug : Bool
  /-- SAFE HOLD with its cause code. -/
  safeHold : Option Nat
  stops : List Stop
  deriving DecidableEq, Repr

/-- Step sequencers and tick count (R98 to R100, R126, R138). -/
structure SeqState where
  tick : Tick
  /-- The count of completed cycles (R12). -/
  dcn : Nat
  ticks : Nat
  epoch : Bool
  /-- Time since the last tick while the sequencers do not step, and since the last CTRL edge while they do, in units of 1/80
  of a CTRL period (log 3). -/
  frac : Nat
  ctl : Nat
  /-- The marked schedule steps (R126), rising. -/
  marked : List Nat
  /-- The tick after a marked step is due (R126). -/
  degrade : Bool
  /-- DCN of the cycle whose markers were sent last (R129). -/
  marker : Nat
  /-- The last schedule steps, newest first: (tick count [9:0], step), which a TAG names (R119, R485). -/
  recent : List (Nat × Nat)
  deriving DecidableEq, Repr

/-- One sluice slot: number, sampled low, the local sources that drove it (R133, R155). -/
structure SlotRec where
  k : Nat
  low : Bool
  srcs : List Nat
  deriving DecidableEq, Repr

/-- A planned hold (R142): the local work that still holds the line, slot s0, and whether the line has been seen high. -/
structure Hold where
  dcn : Nat
  work : List HoldWork
  /-- Source codes of its work as it began (R155), and whether a checkpoint is among it. -/
  srcs : List Nat
  ckp : Bool
  s0 : Nat
  /-- Stall steps of the hold so far. -/
  len : Nat
  deriving DecidableEq, Repr

/-- The sluice (R131 to R156). -/
structure SluState where
  /-- The slot whose start the device handled last; none before the first. -/
  slot : Option Nat
  /-- Requests with a fixed number of slots still to drive: (source code, slots). -/
  pulses : List (Nat × Nat)
  /-- Requests held until dropped: (source code, unit), and those of them that no slot start has seen yet (R546). -/
  held : List (Nat × Nat)
  unseen : List (Nat × Nat)
  /-- Drives the line in the current slot, and for which sources. -/
  own : Bool
  ownSrcs : List Nat
  /-- Level sampled in the last slot; true high. -/
  line : Bool
  /-- The last sampled slots, newest first, at most 9. -/
  hist : List SlotRec
  /-- The device holds the line low from reset until R421. -/
  bootLow : Bool
  hold : Option Hold
  /-- Planned holds agreed for the end of a cycle: (DCN, this device's work there, none when it has none). -/
  agreed : List (Nat × Option HoldWork)
  stalled : Bool
  /-- The watchdog has expired since the line went low (R140). -/
  wdog : Bool
  /-- Stall steps of the stall in progress, and of this cycle. -/
  len : Nat
  cyc : Nat
  total : Nat
  /-- An image load or reset has come since SLU_TOTAL was last cleared at a start (R156). -/
  fresh : Bool
  deriving DecidableEq, Repr

/-- A tile read whose row write is due (R162). -/
structure TileRead where
  due : Nat
  /-- Unit read, 2^20 gc + unit; none out of range. -/
  key : Option Nat
  gg : Nat
  bit0 : Nat
  width : Nat
  value : Half
  deriving DecidableEq, Repr

/-- A DDR read outstanding (R172 to R182). -/
structure DdrRead where
  gc : Nat
  port : Nat
  issue : Nat
  lead : Nat
  gg : Nat
  bit0 : Nat
  width : Nat
  /-- Data-store value the response delivers, in place; 0 when out of range. -/
  value : Half
  /-- Region word read: key 2^32 region + word. -/
  key : Nat
  /-- DDR5 channel over which it goes (R168). -/
  chan : Nat
  tick : Nat
  arrived : Bool
  deriving DecidableEq, Repr

/-- Step bits on their way or in a weir: receiving die and link code, send and due step, channels that carry 1. `wait` names the
modules (R438) over which part of the record still travels (R119). -/
structure WeirRec where
  die : Nat
  code : Nat
  sent : Nat
  due : Nat
  channels : List Nat
  wait : List Nat
  deriving DecidableEq, Repr

/-- Out-port bits of a cluster at a step (LC1 reads them 8 steps later). -/
structure OutRec where
  step : Nat
  gc : Nat
  bits : Half
  deriving DecidableEq, Repr

/-- Design data and the engine's step-level state (R54, R60, R71, R75, R80, R157, R170). -/
structure DataState where
  rows : List (Nat × Half)
  /-- EP result registers, 16 per group. -/
  epRes : List (Nat × Half)
  /-- Read-port output registers, key 4 gg + port. -/
  rpOut : List (Nat × Half)
  bcast : List (Nat × Word)
  inPort : List (Nat × Half)
  toggles : List (Nat × Half)
  tiles : List (Nat × Half)
  regions : List (Nat × Half)
  outHist : List OutRec
  weirs : List WeirRec
  tileReads : List TileRead
  /-- Ports in the second step of a write: 4 gc + port. -/
  tileBusy : List Nat
  ddr : List DdrRead
  /-- DDR operations of the last 512 schedule steps: (schedule step number D × DCN + s, die). -/
  budget : List (Nat × Nat)
  overrun : Bool
  /-- DDR5 words of 64 bits that hold poison (R511, R513): a quarter of the key 2^32 region + word of their first region word. -/
  poison : List Nat
  /-- Instruction words whose fetch found an uncorrectable error and that wait for repair (R85): (store, key). -/
  faulty : List (StoreKind × Nat)
  /-- Activity units of the current slot by quadrant 4 die + quad (R200, R619). -/
  slotAct : List (Nat × Nat)
  /-- Failed physical groups by cluster, rising (R87). -/
  failed : List (Nat × List Nat)
  /-- What each instruction-store entry of an unmapped spare group holds, by cluster: EP entry and group entry (R211). -/
  spares : List (Nat × BitVec 80 × DWord)
  deriving DecidableEq, Repr

/-- A load in progress (R208 to R212). -/
structure LoadJob where
  image : Image
  bytes : Nat
  /-- SEC_SLOTS as the load began (R589). -/
  slots : Nat
  /-- It uses the staging area that IMAGE_STAGE reserved. -/
  staged : Bool
  /-- MB of the log in DDR5 and GB of a copy-on-write area as the settings stood when the load began (R170). -/
  logMb : Nat
  cowGb : Nat
  /-- Check in progress as IMAGE_STATUS showed it last, 0 while the image is being copied (R370). -/
  check : Nat
  /-- A scrubber has found an uncorrectable word of the staged copy (R515). -/
  spoiled : Bool := false
  deriving DecidableEq, Repr

/-- Images (R189 to R213) and design-memory areas (R169, R170). -/
structure ImgState where
  resident : Option Image
  loading : Option LoadJob
  /-- IMAGE_RESET writing regions (R184). -/
  resetting : Bool
  /-- Staging area reserved by IMAGE_STAGE: its bytes, and the words written through BAR2 by word offset. -/
  stageBytes : Option Nat
  staged : List (Nat × Word)
  /-- Areas set aside at the load: capture spill GB, log MB (0 in host memory), COW GB per slot. -/
  spillGb : Nat
  logMb : Nat
  cowGb : Nat
  /-- Bytes of the golden copy (R169). -/
  golden : Nat
  /-- Design area and free part in granules (R169). -/
  area : Nat
  free : Nat
  /-- Installed DDR5, GB, as training found it. -/
  ddrGb : Nat
  /-- A warm reset has come since the last load, with a checkpoint in DDR5 (R434). -/
  warm : Bool
  /-- Words of the firmware and service area that hold poison, by word address (R515). -/
  poison : List Nat
  deriving DecidableEq, Repr

/-- A hazard record (R218). -/
structure HazRec where
  kind : Nat
  halts : Bool
  lost : Bool
  step : Nat
  loc : Word
  d1 : Word
  d2 : Word
  dcn : Nat
  time : BitVec 96
  qual : Nat
  seq : Nat
  /-- Number of its event (R360). -/
  ev : Word := 0
  deriving DecidableEq, Repr

/-- Hazard detector (R214 to R221). -/
structure HazState where
  queue : List HazRec
  seq : Nat
  lost : Bool
  first : Option Nat
  /-- Records made this cycle: (kind, cluster or die). -/
  made : List (Nat × Nat)
  /-- Step of the last take of a line or in-port this cycle: key 48 gc + line, or 48 gc + 32 + port. -/
  takes : List (Nat × Nat)
  noAnnot : Bool
  haltPending : Bool
  deriving DecidableEq, Repr

/-- A capture block (R227): records as word lists. -/
structure Block where
  pos : Nat
  die : Nat
  seq : Nat
  skim : Bool
  base : Nat
  last : Nat
  cont : Bool
  recs : List (List Word)
  /-- Records of cycle `last` that this block and the die's earlier ones hold. -/
  lastRecs : Nat
  /-- It holds the die's end marker. -/
  fin : Bool
  time : BitVec 96
  poison : Bool
  deriving DecidableEq, Repr

/-- What reached the ring of a die's stream (R635): the last cycle, its records there, the next block number, the end marker. -/
structure RingMark where
  dcn : Nat
  recs : Nat
  seq : Nat
  fin : Bool
  deriving DecidableEq, Repr

/-- Capture unit and trigger sequencer of one compute die (R226 to R258). -/
structure CapDie where
  saved : CapSaved
  opened : Option Block
  seq : Nat
  unsent : List Block
  fired : Bool
  /-- Cause this die raised for the trigger and for the stop in the delivered slots; none when it raised nothing. -/
  trigCause : Option Nat
  stopCause : Option Nat
  ended : Bool
  reached : RingMark
  /-- Committed mark (R635): DCN and how many records of that cycle are committed. -/
  markDcn : Nat
  markRecs : Nat
  deriving DecidableEq, Repr

/-- Capture states (R239). -/
inductive CapMode where
  | idle | armed | triggered | frozen
  deriving DecidableEq, Repr

/-- The ring header (R244): capture state, DCNs, cause, and the places of the oldest block and of the next one in the ring. -/
structure RingHeader where
  mode : CapMode
  armDcn : Nat
  trigDcn : Option Nat
  endDcn : Option Nat
  cause : Nat
  oldest : Nat
  next : Nat
  deriving DecidableEq, Repr

/-- Capture of the device and the collector's ring (R226 to R247). -/
structure CapState where
  mode : CapMode
  /-- CAP_STATUS.CAUSE. -/
  cause : Nat
  /-- CAP_POST as the arm took it. -/
  post : Nat
  armDcn : Nat
  trigDcn : Option Nat
  /-- First cycle committed after the trigger was delivered: the trigger markers stand in it (R242). -/
  trigAt : Option Nat
  stopDcn : Option Nat
  endDcn : Option Nat
  /-- An arm waits for the end of this cycle (R240). -/
  armAt : Option Nat
  dies : List (Nat × CapDie)
  ring : List Block
  /-- Header of the ring; none until a block has been written since the ring was discarded. -/
  hdr : Option RingHeader
  /-- Blocks written since the arm. -/
  put : Nat
  /-- CAP_OLDEST_DCN. -/
  oldest : Nat
  /-- Dies whose end marker block has reached the ring: (position, die). -/
  endsIn : List (Nat × Nat)
  /-- Block parts that wait for the rest: (16 pos + die, parts so far, words so far, poisoned). -/
  parts : List (Nat × Nat × List Word × Bool)
  /-- Blocks sent to the collector and not yet whole there. -/
  sent : List Block
  armTime : Nat
  autoDone : Bool
  deriving DecidableEq, Repr

/-- The cascade bus (R248 to R252, R635). -/
structure CascState where
  /-- Events waiting for the next slot: (line, cause, die that raised it; 15 the lead itself). -/
  drive : List (Nat × Nat × Nat)
  /-- Events this device drives in the current slot. -/
  driving : List (Nat × Nat × Nat)
  /-- Lines sampled low, newest first: (slot, lines, what this device drove in it). -/
  samples : List (Nat × BitVec 4 × List (Nat × Nat × Nat))
  /-- DCN at the first tick of the last slots: (slot, DCN). -/
  slotDcn : List (Nat × Nat)
  /-- Events delivered since the last checkpoint: (line, event DCN). -/
  delivered : List (Nat × Nat)
  /-- Cycle F that runs again after a recovery (R635). -/
  rerun : Option Nat
  deriving DecidableEq, Repr

/-- One churn engine with what a checkpoint does not hold (R262 to R287). -/
structure ChurnDie where
  m : ChurnMach
  /-- A write of EN that waits for the end of B15: (EN, WIN_EXP). -/
  pend : Option (Bool × Nat)
  prog : List (Nat × Word)
  progLen : Nat
  /-- Result buffer: records waiting to be sent. -/
  buf : List (List Word)
  lostNext : Bool
  fault : Bool
  /-- Words that hold poison (R513), as code words of class 4: program, Y, Z. -/
  poison : List Nat
  /-- Host ring (CHN_RING): base, bytes, write-back, vector, producer offset. -/
  ring : Option (Nat × Nat × Nat × Nat)
  ringProd : Nat
  /-- Records in the host ring, newest first. -/
  ringData : List (List Word)
  /-- WIN_DCN of the last record that left the buffer (R284). -/
  lastLeft : Option Nat
  /-- After a recovery: windows up to this WIN_DCN post no record again (R284). -/
  mute : Option Nat
  deriving DecidableEq, Repr

/-- A recovery in progress (R310 to R314): F and how far it is. -/
structure Recovery where
  f : Nat
  /-- The entry for DCN F + 1 had closed before the freeze. -/
  kept : Bool
  /-- The boundary of cycle F had collected its outbound messages before the freeze. -/
  collected : Bool
  /-- Restored and stepping from the log. -/
  stepping : Bool
  die : Option Nat
  /-- Stall steps counted under code 13 as it began. -/
  stall0 : Nat
  deriving DecidableEq, Repr

/-- REPLAY in progress (R306 to R308). -/
structure Replay where
  target : Option Nat
  debug : Bool
  deriving DecidableEq, Repr

/-- Replay recorder (R296 to R303). -/
structure LogState where
  entries : List LogEntry
  /-- Bytes of the entries released since the log was started: where the oldest one stands in the circular log (R302). -/
  freed : Nat
  seq : Nat
  /-- Closed entries not yet drained, bytes. -/
  stagedBytes : Nat
  /-- Words in effect (R299): key 2^20 kind + index. -/
  effect : List (Nat × Word)
  /-- The next cycle entry carries every word (R299). -/
  full : Bool
  /-- Items of the entry in progress. -/
  cur : List LogItem
  /-- Host writes served and not yet in a closed entry (R300), and those held after a replay (R308). -/
  host : List LogItem
  heldHost : List LogItem
  /-- DCN at which a replay ended and stepping has not yet resumed. -/
  cut : Option Nat
  deriving DecidableEq, Repr

/-- Checkpoint, replay and recovery (R288 to R316). -/
structure CkpState where
  last : Option Checkpoint
  busy : Option Checkpoint
  /-- Devices that have completed the checkpoint being written. -/
  doneBy : List Nat
  /-- DCNs of periodic checkpoints whose hold has not begun (R290). -/
  due : List Nat
  /-- Cycle at whose end a forced checkpoint is taken (R294). -/
  forcedAt : Option Nat
  /-- Code 7 request of a forced checkpoint is out (R294). -/
  wantForced : Bool
  recovery : Option Recovery
  /-- DCN F + 1 of an entry that closed before the freeze and gives cycle F its inputs again (R312). -/
  kept : Option Nat
  /-- DCN F of a cycle whose outbound messages were collected before the freeze (R312). -/
  collected : Option Nat
  replay : Option Replay
  /-- DCN F of the last recovery that a bad or missing DDR response asked for, until cycle F has run again (R182). -/
  badDcn : Option Nat
  /-- Channels that were OPEN in the recorded run at the boundary that is replayed next (R329). -/
  replayOpen : List Nat
  log : LogState
  /-- Bytes of host writes since the last checkpoint (R295), and those of them that the checkpoint being written holds. -/
  hostBytes : Nat
  hostAt : Nat
  /-- Regions and data stores describe different DCNs (R316). -/
  stale : Bool
  deriving DecidableEq, Repr

/-- Inbound message or fence token in a channel queue (R323, R332). `taken`: delivered, its entry not yet closed (R313). -/
structure InMsg where
  seq : Word
  fence : Option Nat
  words : List Word
  taken : Bool
  deriving DecidableEq, Repr

/-- Outbound message (R334, R335, R337). `done`: number of the completed packet it belongs to. -/
structure OutMsg where
  seq : Word
  words : List Word
  endF : Bool
  cut : Bool
  prio : Nat
  dcn : Nat
  replayed : Bool
  done : Option Nat
  deriving DecidableEq, Repr

/-- Host inbound ring of a channel (R324). -/
structure InRing where
  base : Nat
  entries : Nat
  wb : Nat
  prod : Nat
  cons : Nat
  deriving DecidableEq, Repr

/-- One transactor channel (R318 to R344). -/
structure Chan where
  cfg : ChannelEntry
  isOpen : Bool
  opening : Option InRing
  closing : Bool
  fmt : Nat
  inq : List InMsg
  inSeq : Word
  outSeq : Word
  outq : List OutMsg
  /-- DCN of the cycle at whose end an open or close that waits takes effect (R341, R343). -/
  changeAt : Nat
  /-- VN0 credits that the partner die or the peer holds for the channel: one for each free slot of its queue (R326). -/
  credits : Nat
  /-- A flush waits for its packet boundary (R340); flushes that took effect and are still to be completed: DCN, messages discarded. -/
  flush : Bool
  flushed : List (Nat × Nat)
  ring : InRing
  inErr : Nat
  outErr : Nat
  cuts : Nat
  deriving DecidableEq, Repr

/-- Outbound host ring (R337). -/
structure OutRing where
  base : Nat
  entries : Nat
  wb : Nat
  vec : Nat
  prod : Nat
  /-- Entries in host memory, by address: the 36 words of each (R337). -/
  data : List (Nat × List Word)
  deriving DecidableEq, Repr

/-- Transactor subsystem (R318 to R347). -/
structure TrxState where
  chans : List (Nat × Chan)
  rings : List (Nat × OutRing)
  /-- The channel that each protocol engine served last. -/
  engLast : List Nat
  /-- Channels whose head message is staged for the next boundary. -/
  staged : List Nat
  /-- Channels whose READY bit stood at 1 as the cycle left it, before the boundary writes rows (R328). -/
  readyCh : List Nat
  /-- Completed packets so far. -/
  packets : Nat
  /-- Complete packets that a discarded image's channels left to be written (R343): (ring, channel, number, PRIO, messages). -/
  left : List (Nat × Nat × Nat × Nat × List OutMsg)
  /-- IN_ERR, OUT_ERR and OUT_CUT of channels of earlier maps, by channel: they return to 0 when the channel opens (R347). -/
  past : List (Nat × Nat × Nat × Nat)
  /-- Protocol engines that the service controller restarts (R345). -/
  restarts : List Nat
  deriving DecidableEq, Repr

/-- A command that replied 0x0001 and awaits completion (R361). -/
structure Waiting where
  opcode : Nat
  tag : BitVec 16
  path : Path
  cmd : Cmd
  /-- An endpoint reset came after it was taken: its completion event is discarded (R407). -/
  quiet : Bool
  /-- A takeover came before it was answered (R365). -/
  tko : Bool
  deriving DecidableEq, Repr

/-- A reply (R359). -/
structure Reply where
  opcode : Nat
  status : Nat
  flags : Nat
  tag : BitVec 16
  dcnLo : Word
  seq : Word
  results : List Word
  deriving DecidableEq, Repr

/-- An event (R360). -/
structure Event where
  code : Nat
  status : Nat
  tag : BitVec 16
  dcnLo : Word
  seq : Word
  payload : List Word
  /-- LENGTH: payload bytes. -/
  len : Nat := 4 * payload.length
  /-- Another device raised it and numbered it (R358). -/
  foreign : Bool := false
  deriving DecidableEq, Repr

/-- A command taken and relayed to another device (R358). -/
structure Relayed where
  pos : Nat
  opcode : Nat
  tag : BitVec 16
  seq : Word
  accepted : Bool
  path : Path
  /-- A takeover came before it was answered (R365). -/
  tko : Bool
  /-- An endpoint reset discards what it still answers (R407). -/
  quiet : Bool := false
  deriving DecidableEq, Repr

/-- Host side (R348 to R379). -/
structure IoState where
  /-- Version agreed on the PCIe rings (R367). -/
  version : Option Word
  waiting : List Waiting
  /-- Reads of design state taken while stepping, served in the next planned hold (R94, R185). -/
  deferred : List Waiting
  /-- Reply and event ring contents by index modulo entries. -/
  replies : List (Nat × Reply)
  events : List (Nat × Event)
  /-- Events that wait for the event ring (R360), besides hazard and error records. -/
  queue : List Event
  evSeq : Word
  mask : Word
  /-- Write-back block as last written: CMDR_CONS, RPLR_PROD, EVTR_PROD (R356). -/
  wb : List Word
  /-- MSI-X messages sent by vector, and pending bits (R339, R350). -/
  sent : List (Nat × Nat)
  pba : List Nat
  /-- Host memory that the device has written by DMA besides its rings: words by address. -/
  dma : List (Nat × List Word)
  /-- Checkpoint exports that the device has written to host memory, by address (R315). -/
  exports : List (Nat × CkpExport)
  relayed : List Relayed
  /-- Answers of the last BAR0 and BAR2 read: none is Completer Abort. -/
  bar0 : Option Word
  bar2 : Option Word
  /-- EN is to clear when the command in progress has replied (R355). -/
  stopping : Bool
  /-- Source of the command taken last (R363). -/
  served : Option Path
  deriving DecidableEq, Repr

/-- An error record (R536). -/
structure ErrRec where
  cause : Nat
  cls : Nat
  flags : Nat
  unit : Word
  dcn : Nat
  time : BitVec 96
  seq : Nat
  memClass : Nat
  source : Nat
  stallUs : Nat
  address : Nat
  syndrome : Nat
  d1 : Nat
  d2 : Nat
  /-- Number of its event (R360). -/
  ev : Word := 0
  deriving DecidableEq, Repr

/-- A single fault in handling, which requests the sluice under its source code until its repair ends (R531). -/
structure Repair where
  code : Nat
  /-- What is repaired: a further failure of the same unit joins the repair (R447, R508). -/
  unit : Nat
  /-- Slots that the repair takes once the board stands and it is first in line; none where it lasts until a row ends it. -/
  left : Option Nat
  /-- Slots that its request has driven. -/
  driven : Nat
  /-- The instruction word that it rewrites (R86). -/
  word : Option (StoreKind × Nat)
  /-- The records that its end makes, one for each failure. -/
  recs : List ErrRec
  deriving DecidableEq, Repr

/-- Error record queue and what HSB_FAULT shows (R352, R535 to R540). -/
structure ErrState where
  queue : List ErrRec
  /-- Faults whose class is known only when their recovery ends (R535). -/
  pending : List ErrRec
  /-- Single faults in handling, in order of detection (R532). -/
  repairs : List Repair
  seq : Nat
  overflow : Nat
  /-- Classes seen, 1 to 5. -/
  seen : List Nat
  cause : Nat
  unit : Word
  /-- Scrubbers by 16 site + class: tick of the last account, and what was owed then, in words times ticks per second (R518). -/
  scrub : List (Nat × (Nat × Nat))
  /-- Scrub sequencers B (true) and A (false) whose microcode is reloaded, and the tick at which their classes go on (R517). -/
  scrubPause : List (Bool × Nat)
  deriving DecidableEq, Repr

/-- State of a fabric region (R402, R405). -/
inductive RegionSt where
  | valid | invalid | loading | unconfigured
  deriving DecidableEq, Repr

/-- The four stages of a crossing register (R384), newest first. -/
structure CrossPipe where
  /-- Region whose frames choose it: that of its sending end. -/
  region : Nat
  die : Nat
  toIo : Bool
  k : Nat
  stages : BitVec 4
  deriving DecidableEq, Repr

/-- A MODE 3 pad that its keeper holds while a new delay takes effect (R396): its level, and the FABRIC cycles left. -/
structure DelayHold where
  pin : Nat
  level : Bool
  left : Nat
  deriving DecidableEq, Repr

/-- The logic of the fabric (R380 to R396). -/
structure FabLogic where
  /-- Written frames by frame address (R401), with their choices. -/
  frames : List (Nat × List FabItem)
  /-- LUT outputs, cell outputs, wires and taps that carry 1, as the fabric has settled. -/
  on : List FabNode
  /-- Flip-flops that hold 1. -/
  ffs : List Nat
  cross : List CrossPipe
  /-- FABRIC cycles, modulo 256, and the clock lines that are high: (region, line). -/
  cycle : Nat
  high : List (Nat × Nat)
  /-- MODE 3 pins: input registers of the rising and falling edge, output register, and its bit for the falling edge (R395). -/
  inRise : BitVec 192
  inFall : BitVec 192
  out : BitVec 192
  outFall : BitVec 192
  /-- The output edge, the input edge and the second sample that wait for their FABRIC edge (R388, R390, R394). -/
  outDue : Bool
  inDue : Bool
  secondDue : Bool
  outStrobe : Bool
  inStrobe : Bool
  /-- VALID regions that their load releases at the next FABRIC edge (R433). -/
  fresh : List Nat
  /-- The global set/reset ends: flip-flops hold INIT until the next FABRIC edge (R424). -/
  gsrEnds : Bool
  /-- Synchroniser of FABRIC_IN (R602), and FABRIC_OUT. -/
  sync1 : BitVec 64
  sync2 : BitVec 64
  utilOut : BitVec 64
  /-- IDELAY and ODELAY in effect at a pin: bits [9:3] and [16:10] of its FAB_IOCFG, where they are not zero (R396). -/
  delays : List (Nat × Nat)
  holds : List DelayHold
  deriving DecidableEq, Repr

/-- Fabric, port cells and target pins (R380 to R405, R429 to R433). -/
structure FabState where
  /-- Regions that are not UNCONFIGURED. -/
  regions : List (Nat × RegionSt)
  loads : List (Nat × PartialBits)
  gsr : Bool
  /-- Output port cells that present 1, and input port cells whose register holds 1. -/
  outCells : List Nat
  inCells : List Nat
  /-- Values of the direct output pins, and the last first and second samples. -/
  pinOut : BitVec 192
  first : BitVec 192
  second : BitVec 192
  /-- Levels that the board gives the pads, as last seen; the pads that it leaves floating, and the level that each keeper has seen last
  (R392). -/
  pads : BitVec 192
  floats : BitVec 192
  kept : BitVec 192
  logic : FabLogic
  baseLock : Byte
  prKey : Nat
  /-- Utility pin levels of the last input edge, and the EXT sample of the last B12 (R611, R256). -/
  utilIn : BitVec 48
  ext : Bool
  deriving DecidableEq, Repr

/-- One PTP domain (R560 to R566, R569). -/
structure TimeDom where
  /-- P0 and P1 of PTP_CONFIG. -/
  cfg0 : Word
  cfg1 : Word
  /-- Grandmaster minus device time, ns. -/
  offset : Int
  /-- Consecutive Sync messages with |offset| below 100 ns. -/
  run : Nat
  locked : Bool
  holdover : Bool
  /-- The servo may still step once (R562, R564). -/
  mayStep : Bool
  deriving DecidableEq, Repr

/-- Device time (R554, R556) and what steers it. -/
structure TimeState where
  sec : Nat
  ns : Nat
  frac : Nat
  /-- QUAL of R558: selected domain (true B), locked, holdover, unset, slewing. -/
  domB : Bool
  locked : Bool
  holdover : Bool
  unset : Bool
  slewing : Bool
  a : TimeDom
  b : TimeDom
  /-- Board time to load at a tick (R563): tick, seconds, nanoseconds, fraction, increment. -/
  board : Option (Nat × Nat × Nat × Nat × Word)
  /-- CTRL cycles for which PPS_OUT stays high. -/
  ppsLeft : Nat
  /-- Value of the PPS_OUT copy signal that it keeps in SAFE HOLD (R610). -/
  ppsKept : Bool
  deriving DecidableEq, Repr

/-- Power manager, sensors and supplies (R202, R617 to R625). -/
structure PwrState where
  /-- Power cap in effect, watts. -/
  cap : Nat
  /-- Code 4 was raised for the last slot (R619). -/
  throttled : Bool
  /-- Sites whose sensors have been read. -/
  seen : List Nat
  /-- Microseconds that a compute die's rails have been in range again (R624). -/
  railUs : List (Nat × Nat)
  /-- Compute dies held in reset by a lost supply. -/
  lost : List Nat
  /-- Compute dies on their secondary clock path (R37). -/
  clk : List Nat
  /-- Every output is disabled after a lost rail (R617). -/
  disabled : Bool
  deriving DecidableEq, Repr

/-- A packet for another position (R457): the die of this device that sends it, where it goes, its fields and its data words. -/
structure OutPacket where
  die : Nat
  pos : Nat
  vn : Nat
  cmd : Nat
  status : Nat
  src : Nat
  dst : Nat
  tag : Nat
  words : List Word
  poison : Bool := false
  deriving DecidableEq, Repr

/-- What this device sends to others, each list the latest 16, newest first (R458, R376, R482). -/
structure NetState where
  /-- Firmware control messages. -/
  fwOut : List FwMsg
  /-- Packets that answer packets: (command, status, packet), command 0x21 or 0x22, status as R457. -/
  packets : List (Nat × Nat × Packet)
  /-- Commands relayed: (position, opcode, command). -/
  relayOut : List (Nat × Nat × Cmd)
  /-- Replies and events returned to a device that relayed the command here: (its position, reply or event). -/
  relayBack : List (Nat × (Reply ⊕ Event))
  /-- Datagrams on the management ports (R376): (session, counter, reply or event, MAC). -/
  mgmtOut : List (Word × Nat × (Reply ⊕ Event) × Digest)
  /-- Link flits sent that are not empty, newest first: (die, sequence number, block of each logical lane). -/
  flits : List (Nat × Nat × List LaneBlock)
  /-- Training blocks that a link's last training sent (R480): die, TS1 by physical lane, TS2, ALIGN by logical lane. -/
  training : List (Nat × List DWord × DWord × List DWord)
  /-- Control blocks sent outside training: (die, block of each logical lane) (R505). -/
  control : List (Nat × List LaneBlock)
  /-- Cycle markers from board links that their weirs hold: (die, cycle of the send step, DCN [15:0] carried) (R129, R485). -/
  marksIn : List (Nat × Nat × Nat)
  /-- Cycle markers of the last step 0 (R129): (die, module m or 32 + die of a bundle, DCN [15:0], send tick). -/
  markers : List (Nat × Nat × Nat × Nat)
  /-- Packets that wait to leave for another position. -/
  out : List OutPacket
  /-- Packets whose last flit a board link has brought: (die of the link, CMD, packet) (R457, R486). -/
  arrived : List (Nat × Nat × Packet)
  /-- Route tables: key 64 site + entry of a die of this device, and the legs of the route (R460, R461). -/
  routes : List (Nat × List Nat)
  /-- Responses that requesters of this device wait for: (network address, tag, flits of buffer space held) (R463). -/
  asked : List (Nat × Nat × Nat)
  /-- Sites that the spillway isolates (R465). -/
  spill : List Nat
  /-- Flits whose credit has not come back, by unit and VC: key 16 unit + VC (R464). -/
  credits : List (Nat × Nat)
  deriving DecidableEq, Repr

/-- Accessory site (R469 to R473). -/
structure AccState where
  st : Nat
  kind : Nat
  cause : Nat
  serial : DWord
  channels : Nat
  gbps : Nat
  /-- The parameter record named site 8 with the CAPS that the ordering code needs. -/
  identOk : Bool
  /-- Time, ns, up to which what the partner die has sent lasts at its largest injection rate (R470, R472). -/
  busyTo : Nat
  deriving DecidableEq, Repr

/-- A UCIe module (R438 to R447, R475). -/
structure UcieMod where
  st : Nat
  half : Nat
  peer : Nat
  proto : Nat
  cause : Nat
  txFused : Nat
  txTrained : Nat
  rxFused : Nat
  rxTrained : Nat
  failed : List Nat
  /-- P1 of LINK_LOOP in force, 0 without a loop (R474, R507). -/
  loopMode : Nat
  /-- CAPS that the ends agree on: the AND of what their records offer (R442). -/
  caps : Nat
  /-- Parameter records heard in the training in progress: end (1 the second end of R438), versions offered, CAPS (R441, R442). -/
  heard : List (Nat × Nat × Nat)
  /-- Parameter records that this device's ends sent in the last training, as bytes (R441). -/
  sent : List (List Byte)
  /-- Times, ns, of the last eight CRC failures attributed to a lane: lane l, 64 + l for the transmit direction (R446). -/
  crcAt : List (Nat × List Nat)
  deriving DecidableEq, Repr

/-- Receiver of one physical lane (R479): candidate offset, polarity, lock, invalid headers among the last 64 (newest at bit 0) and the
times of the last eight, ns (R499), the descrambler's last 58 bits, and the equaliser's taps (R490). -/
structure LaneRx where
  lane : Nat
  offset : Nat
  inverted : Bool
  locked : Bool
  window : BitVec 64
  badAt : List Nat
  scr : BitVec 58
  taps : List Int := []
  deriving DecidableEq, Repr

/-- Contents of a flit's BODY (R484): step records (TAG, step bits) and items of 144 bits. -/
structure FlitBody where
  records : List (Nat × Nat)
  items : List Nat
  deriving DecidableEq, Repr

/-- A flit in the retry buffer (R497): its sequence number, the slot that sent it, its contents. -/
structure SentFlit where
  seq : Nat
  slot : Nat
  body : FlitBody
  deriving DecidableEq, Repr

/-- Transmitter of a board link (R481 to R486, R492, R497). -/
structure LinkTx where
  /-- Work that waits: step records, markers and link messages, credits owed by VC, network flits by VN with their sideband. -/
  records : List (Nat × Nat)
  marks : List Nat
  owed : List Nat
  nets : List (Nat × Nat)
  /-- Items that a retrain took back out of unacknowledged flits. -/
  again : List Nat
  /-- Timing markers still to send (R120), and the last 31 bits of PRBS31 sent in a loop (R507). -/
  timing : Nat
  prbs : BitVec 31
  /-- Bits that VN3 and VN2 may still send under their rates; VN0 comes before VN1 next. -/
  room3 : Nat
  room2 : Nat
  turn0 : Bool
  /-- Next sequence number, block slots passed, units of 1/80 CTRL period since the last. -/
  seq : Nat
  slots : Nat
  phase : Nat
  retry : List SentFlit
  resend : List SentFlit
  nakDue : Bool
  /-- Slots until this receiver may send a NAK again (R497). -/
  nakWait : Nat
  /-- Scrambler of each logical lane: its last 58 bits. -/
  scr : List (BitVec 58)
  deriving DecidableEq, Repr

/-- A board link (R487 to R509). -/
structure BoardLink where
  st : Nat
  version : Nat
  width8 : Bool
  cause : Nat
  spill : Bool
  peerPos : Nat
  peerDie : Nat
  part : Nat
  txUsed : List Nat
  rxUsed : List Nat
  txFail : List Nat
  rxFail : List Nat
  peak : Nat
  eye : Nat
  /-- Flit sequence number expected, the last ACK received, and whether flits are discarded after a NAK until a good one (R483, R497). -/
  expect : Nat
  acked : Nat
  nakSent : Bool
  /-- P1 of LINK_LOOP in force; 4 while this end returns its lanes for the peer's far-end loop (R507). -/
  loopMode : Nat
  /-- The training in progress leaves out the lane test (R499, R506). -/
  quick : Bool
  /-- An end has been reset, or the link has been down, since it last came up: its credits start anew (R464). -/
  fresh : Bool
  /-- Flits of the packet that arrives on each VC, oldest first (R457). -/
  parts : List (Nat × List Nat)
  /-- Timing markers received since the weir's training began: send and arrival tick (R120). -/
  timing : List (Nat × Nat)
  rx : List LaneRx
  tx : LinkTx
  deriving DecidableEq, Repr

/-- Service controllers, die controllers and firmware (R541 to R551). -/
structure CtlState where
  activeB : Bool
  aFailed : Bool
  bFailed : Bool
  beatA : Word
  beatB : Word
  fwA : Word
  fwB : Word
  /-- Version of the running production firmware, as HSB_FW shows it. -/
  fw : Word
  order : Nat
  update : Option BasePersonality
  /-- Times in ns of a die controller's restarts that failed within the last second, by die, and dies whose controller has failed
  beyond restart once (R543). -/
  dieRestarts : List (Nat × List Nat)
  dieFailed : List Nat
  /-- Version and digest of the production firmware kept for SERVICE_EXIT. -/
  prod : Word
  prodDigest : Digest
  fwDigest : Digest
  /-- Management port settings by port: P1 to P6 of MGMT_CONFIG. -/
  mgmt : List (Nat × List Word)
  /-- The live signature as it was built last (R196). -/
  sig : List Byte
  deriving DecidableEq, Repr

/-- State of a customer key slot (R584). -/
inductive SlotSt where
  | empty | installed | locked | revoked
  deriving DecidableEq, Repr

/-- A management session (R376 to R378, R592). -/
structure Session where
  id : Word
  key : Digest
  slot : Nat
  ctrIn : Nat
  ctrOut : Nat
  nextSeq : Option Word
  version : Option Word
  mask : Word
  replies : List (Word × Reply)
  /-- SESSION OP 1 is being answered. -/
  closing : Bool
  deriving DecidableEq, Repr

/-- Security (R579 to R595). -/
structure SecState where
  /-- Slots that are not EMPTY: (slot, state, key). -/
  slots : List (Nat × SlotSt × Digest)
  reqSigned : Bool
  floor : Nat
  challenge : Option Digest
  authTrace : Bool
  authService : Bool
  sessions : List Session
  /-- BODY_DIGEST of the last partial bitstream by region, and of the base personality. -/
  prDigests : List (Nat × Digest)
  baseDigest : Digest
  deriving DecidableEq, Repr

/-- A read or a write under way at a port of a service bank: the request, the next 64-bit word, the words left, what was read, and whether a
word was poisoned (R521). -/
structure BankJob where
  pkt : Packet
  next : Nat
  left : Nat
  got : List (BitVec 64)
  bad : Bool
  deriving DecidableEq, Repr

/-- A service bank (R521 to R526). -/
structure Bank where
  power : Nat
  owner : Nat
  region : Nat
  used : Nat
  pinned : Bool
  /-- Regions that spare regions serve, in the order of the spares, and the one that the save buffer serves (R525). -/
  spares : List Nat
  saved : Option Nat
  /-- The tester has stopped for the bank (R525). -/
  stopped : Bool
  /-- Contents: 2^21 words of 64 bits; the words that hold poison. -/
  words : List (Nat × BitVec 64)
  poison : List Nat
  /-- Accesses at its read port and at its write port, oldest first. -/
  reads : List BankJob
  writes : List BankJob
  deriving DecidableEq, Repr

/-- Start-up (R406 to R428). -/
structure BootState where
  phase : Nat
  cause : Nat
  /-- Level of CFG_DONE, and whether this device has released it. -/
  line : Bool
  released : Bool
  /-- The epoch pulse has been sampled (R138). -/
  pulsed : Bool
  cfgErr : Bool
  /-- Configuration-ready; CTRL cycles since then until the last byte has come. -/
  ready : Bool
  received : Bool
  cycles : Nat
  /-- The deadline has expired. -/
  late : Bool
  /-- Conditions of R420: remap tables built, DDR5 READY. -/
  remap : Bool
  ddr : Bool
  base : Option BasePersonality
  accepted : Bool
  /-- Lead: positions other than its own that hold CFG_DONE low. -/
  wait : List Nat
  /-- A warm reset is due 1 s after the reply of RESET. -/
  resetDue : Bool
  deriving DecidableEq, Repr

/-- A utility pin in HOLD (R608): the level it keeps, CTRL cycles left, a further switch waiting (R609), and the values that the
input signals of the switch keep. -/
structure PinHold where
  pin : Nat
  level : Bool
  left : Nat
  again : Bool
  ins : List (Nat × Bool)
  deriving DecidableEq, Repr

/-- Utility crossbar besides its registers (R602 to R611). -/
structure UtilState where
  serviceEn : Bool
  userEn : Bool
  holds : List PinHold
  /-- Levels that the board gives the pads, as last seen; the pads that it leaves floating, and those whose line it holds against an output
  (R606, R607). -/
  pads : BitVec 48
  floats : BitVec 48
  forced : BitVec 48
  /-- PULL in effect by pin, where it is not 0, and the level that each keeper has seen last (R607, R609). -/
  pulls : List (Nat × Nat)
  kept : BitVec 48
  /-- TMR0 to TMR3. -/
  tmr : BitVec 4
  /-- CTRL cycles for which TRIG_OUT stays high. -/
  trigLeft : Nat
  /-- HEARTBEAT signal. -/
  beat : Bool
  deriving DecidableEq, Repr

/-- Service trace (R570 to R577). -/
structure TrcState where
  /-- Event machine: state, ON, records stored since it entered its state, and inputs true since the last CTRL edge. -/
  st : Nat
  on : Bool
  stored : Nat
  errIn : Bool
  modeIn : Bool
  hostIn : Bool
  /-- Record buffers by source: records of 8 words, oldest first. -/
  bufs : List (Nat × List (List Word))
  /-- Next record number by source, records since the last sync record by source. -/
  seqs : List (Nat × Nat)
  since : List (Nat × Nat)
  /-- Sources whose next stored record carries LOST. -/
  lost : List Nat
  /-- Sources whose clock is gated. -/
  gated : List Nat
  /-- Destination: records by byte offset. -/
  data : List (Nat × List Word)
  /-- A service authorisation for trace is in force (R574). -/
  priv : Bool
  deriving DecidableEq, Repr

/-- What the controllers' exchange has told of another device of the board (R41, R210; log 10). -/
structure Peer where
  pos : Nat
  part : Nat
  mode : Nat
  dcn : Nat
  setId : DWord
  depth : Nat
  discipline : Bool
  sigDigest : Digest
  ckpDcn : Option Nat
  imported : Bool
  share : List (Nat × Nat)
  logEnd : Nat
  /-- An image load or reset is in progress there (R212); its regions and data stores describe different DCNs (R316); bytes of host
  writes since its last checkpoint (R295). -/
  busy : Bool
  stale : Bool
  wrote : Nat
  /-- Board-link ingress channels that its image names: (die, the highest channel plus 1), by die (R199). -/
  named : List (Nat × Nat)
  /-- Its part of the live signature: TOPOLOGY entries by die, short-cluster entries; its marked steps (R126, R196). -/
  topology : List (Nat × Nat)
  shorts : List Word
  marked : List Nat
  deriving DecidableEq, Repr

/-- The state of one device. -/
structure State where
  /-- Commands that wait, first in first out. -/
  pending : List Instr
  /-- The model's own counter at which free values are read (log 9). -/
  freeCtr : Nat
  ident : Ident
  straps : Straps
  regs : List (Nat × Word)
  md : ModeState
  seq : SeqState
  slu : SluState
  ds : DataState
  img : ImgState
  haz : HazState
  cap : CapState
  casc : CascState
  chn : List (Nat × ChurnDie)
  ckp : CkpState
  trx : TrxState
  io : IoState
  err : ErrState
  fab : FabState
  time : TimeState
  pwr : PwrState
  net : NetState
  trc : TrcState
  util : UtilState
  peers : List Peer
  boot : BootState
  acc : AccState
  /-- UCIe modules that are not absent, by index m. -/
  ucie : List (Nat × UcieMod)
  /-- Board links by compute die. -/
  bl : List (Nat × BoardLink)
  ctl : CtlState
  sec : SecState
  /-- Service banks 0 to 15. -/
  banks : List Bank
  /-- Physical latency found by weir training: key 8 die + code (R120). -/
  phys : List (Nat × Nat)
  deriving DecidableEq, Repr

/-! ### Reset -/

/-- The parts of the state right after cold reset (R406, R409, R424); log 1 and log 2 name what the spec leaves open. -/
def State.resetDs : DataState := {
  rows := [], epRes := [], rpOut := [], bcast := [], inPort := [], toggles := [], tiles := [], regions := [], outHist := [], weirs := [],
  tileReads := [], tileBusy := [], ddr := [], budget := [], overrun := false, poison := [], faulty := [], slotAct := [], failed := [], spares := [] }

/-- No image, no area. -/
def State.resetImg : ImgState := {
  resident := none, loading := none, resetting := false, stageBytes := none, staged := [], spillGb := 0, logMb := 0, cowGb := 0, golden := 0, area := 0,
  free := 0, ddrGb := 0, warm := false, poison := [] }

/-- No checkpoint and an empty log. -/
def State.resetCkp : CkpState := {
  last := none, busy := none, doneBy := [], due := [], forcedAt := none, wantForced := false, recovery := none, kept := none,
  collected := none, replay := none, badDcn := none, replayOpen := []
  log := { entries := [], freed := 0, seq := 0, stagedBytes := 0, effect := [], full := true, cur := [], host := [], heldHost := [], cut := none }
  hostBytes := 0, hostAt := 0, stale := false }

/-- Capture idle, no ring. -/
def State.resetCap : CapState := {
  mode := .idle, cause := 0, post := 8, armDcn := 0, trigDcn := none, trigAt := none, stopDcn := none, endDcn := none, armAt := none
  dies := [], ring := [], hdr := none, put := 0, oldest := 0, endsIn := [], parts := [], sent := [], armTime := 0, autoDone := false }

/-- No rings, no commands. -/
def State.resetIo : IoState := {
  version := none, waiting := [], deferred := [], replies := [], events := [], queue := [], evSeq := 0, mask := 0, wb := [0, 0, 0],
  sent := [], pba := [], dma := [], exports := [], relayed := [], bar0 := none, bar2 := none, stopping := false, served := none }

/-- Every region UNCONFIGURED, GSR asserted. -/
def State.resetLogic : FabLogic := {
  frames := [], on := [], ffs := [], cross := [], cycle := 0, high := [], inRise := 0, inFall := 0, out := 0, outFall := 0, outDue := false,
  inDue := false, secondDue := false, outStrobe := false, inStrobe := false, fresh := [], gsrEnds := false, sync1 := 0, sync2 := 0, utilOut := 0, delays := [],
  holds := [] }

def State.resetFab : FabState := {
  regions := [], loads := [], gsr := true, outCells := [], inCells := [], pinOut := 0,
  first := 0, second := 0, pads := 0, floats := BitVec.allOnes 192, kept := 0, logic := State.resetLogic, baseLock := 0, prKey := 0, utilIn := 0, ext := false }

/-- A PTP domain disabled. -/
def State.resetDom : TimeDom := {
  cfg0 := 0, cfg1 := 0, offset := 0, run := 0, locked := false, holdover := false, mayStep := true }

/-- Time zero, UNSET (R555). -/
def State.resetTime : TimeState := {
  sec := 0, ns := 0, frac := 0, domB := false, locked := false, holdover := false, unset := true, slewing := false, a := State.resetDom,
  b := State.resetDom, board := none, ppsLeft := 0, ppsKept := false }

/-- Controllers on the ROM firmware. -/
def State.resetCtl : CtlState := {
  activeB := false, aFailed := false, bFailed := false, beatA := 0, beatB := 0, fwA := 0, fwB := 0, fw := 0, order := 0, update := none,
  dieRestarts := [], dieFailed := [], prod := 0, prodDigest := 0, fwDigest := 0, mgmt := [], sig := [] }

/-- Start-up in ROM, CFG_DONE held low. -/
def State.resetBoot : BootState := {
  phase := 0, cause := 0, line := false, released := false, pulsed := false, cfgErr := false, ready := false, received := false, cycles := 0, late := false,
  remap := false, ddr := false, base := none, accepted := false, wait := [], resetDue := false }

/-- A board link held in reset, before training (R487), and its transmitter. -/
def State.resetTx : LinkTx := {
  records := [], marks := [], owed := [0, 0, 0, 0, 0, 0, 0, 0, 0, 0], nets := [], again := [], timing := 0, prbs := 1, room3 := 0, room2 := 0, turn0 := false, seq := 0,
  slots := 0, phase := 0, retry := [], resend := [], nakDue := false, nakWait := 0, scr := [] }

def State.resetLink : BoardLink := {
  st := 0, version := 0, width8 := false, cause := 0, spill := false, peerPos := 0, peerDie := 0, part := 0, txUsed := [], rxUsed := [],
  txFail := [], rxFail := [], peak := 0, eye := 0, expect := 0, acked := 0, nakSent := false, loopMode := 0, quick := false, fresh := true, parts := [], timing := [], rx := [],
  tx := State.resetTx }

/-- A UCIe module held in reset, before training (R440). -/
def State.resetMod : UcieMod := {
  st := 0, half := 0, peer := 0, proto := 0, cause := 0, txFused := 0, txTrained := 0, rxFused := 0, rxTrained := 0, failed := [], loopMode := 0, caps := 0, heard := [], sent := [], crcAt := [] }

/-- A service bank, on. -/
def State.resetBank : Bank := {
  power := 0, owner := 0, region := 0, used := 0, pinned := false, spares := [], saved := none, stopped := false, words := [], poison := [], reads := [], writes := [] }

/-- Modules of a part: spoke modules 0 to 15, ring modules 16 to 23 (R438). -/
def State.resetUcie (small : Bool) (accessory : Nat) : List (Nat × UcieMod) :=
  ((List.range 25).filter (fun m =>
    if m < 16 then !small || m < 8 else if m < 24 then !small || m < 19 else accessory != 0x4E)).map (fun m => (m, State.resetMod))

/-- The machine right after cold reset: an AED-9680 of grade -2, accessory code N, at board position 0 (log 1). -/
def State.reset : State := {
  pending := [], freeCtr := 0
  ident := { small := false, grade := 2, accessory := 0x4E, stepping := 0, serial := 0, badGroups := [], badLanes := [], ucieFused := [], worn := [] }
  straps := { pos := 0, boot := false, pull := 0, slow := false }
  regs := []
  md := { mode := .boot, sub := .free, debug := false, safeHold := none, stops := [] }
  seq := { tick := .idle, dcn := 0, ticks := 0, epoch := false, frac := 0, ctl := 0, marked := [], degrade := false, marker := 0, recent := [] }
  slu := {
    slot := none, pulses := [], held := [], unseen := [], own := false, ownSrcs := [], line := false, hist := [], bootLow := true, hold := none, agreed := [],
    stalled := false, wdog := false, len := 0, cyc := 0, total := 0, fresh := true }
  ds := State.resetDs, img := State.resetImg
  haz := { queue := [], seq := 0, lost := false, first := none, made := [], takes := [], noAnnot := false, haltPending := false }
  cap := State.resetCap
  casc := { drive := [], driving := [], samples := [], slotDcn := [], delivered := [], rerun := none }
  chn := [], ckp := State.resetCkp
  trx := { chans := [], rings := [], engLast := [0, 1, 2, 3], staged := [], readyCh := [], packets := 0, left := [], past := [], restarts := [] }
  io := State.resetIo
  err := { queue := [], pending := [], repairs := [], seq := 0, overflow := 0, seen := [], cause := 0, unit := 0, scrub := [], scrubPause := [] }
  fab := State.resetFab, time := State.resetTime
  pwr := { cap := 620, throttled := false, seen := [], railUs := [], lost := [], clk := [], disabled := false }
  net := {
    fwOut := [], packets := [], relayOut := [], relayBack := [], mgmtOut := [], flits := [], training := [], control := [], marksIn := [], markers := [], out := [], arrived := [], routes := [],
    asked := [], spill := [], credits := [] }
  trc := {
    st := 0, on := false, stored := 0, errIn := false, modeIn := false, hostIn := false, bufs := [], seqs := [], since := [], lost := [],
    gated := [], data := [], priv := false }
  util := {
    serviceEn := false, userEn := false, holds := [], pads := 0, floats := 0, forced := 0, pulls := [], kept := 0, tmr := 0, trigLeft := 0, beat := false }
  peers := [], boot := State.resetBoot
  acc := { st := 0, kind := 0, cause := 0, serial := 0, channels := 0, gbps := 0, identOk := false, busyTo := 0 }
  ucie := State.resetUcie false 0x4E
  bl := (List.range 8).map (fun d => (d, State.resetLink))
  ctl := State.resetCtl
  sec := {
    slots := [], reqSigned := false, floor := 0, challenge := none, authTrace := false, authService := false, sessions := [],
    prDigests := [], baseDigest := 0 }
  banks := List.replicate 16 State.resetBank, phys := [] }

end Sys2Proof.Machine
end

