-- ==== Sys2Proof/Machine/LinkBits.lean ====
section
/-! DEFINITION. Machine/LinkBits.lean: the bits of a board link: lanes, scrambler, CRC, the layout of a flit, training blocks (R478 to R486).
Bit orders that the spec leaves open are in log 71. -/
namespace Sys2Proof.Machine

/-! ### Lanes (R478, R479) -/

/-- A sync header is valid: data or control. -/
def headerOk (h : BitVec 2) : Bool := h == 1 || h == 2

/-- Ones of a word. -/
def onesOf (w : BitVec 64) : Nat := ((List.range 64).filter (bitOf w.toNat)).length

/-- A receiver's search for block lock (R479): candidate offset, run of valid headers, invalid ones among the last 64 once locked, lock. -/
structure LockSearch where
  offset : Nat
  run : Nat
  window : BitVec 64
  locked : Bool
  deriving DecidableEq, Repr

/-- One header test at the candidate offset: 64 valid ones in a row lock, an invalid one before moves the offset, 16 of 64 lose the lock. -/
def lockStep (a : LockSearch) (ok : Bool) : LockSearch :=
  if a.locked then
    let w := BitVec.ofNat 64 (2 * a.window.toNat + b2n (!ok))
    if onesOf w < 16 then { a with window := w } else { a with run := 0, window := 0, locked := false }
  else if ok then { a with run := a.run + 1, locked := a.run + 1 == 64 }
  else { a with offset := (a.offset + 1) % 66, run := 0 }
def lockSearch (tests : List Bool) : LockSearch := tests.foldl lockStep { offset := 0, run := 0, window := 0, locked := false }

/-- A payload descrambled by x^58 + x^39 + 1, and the last 58 bits received; the lowest bit comes first. -/
def descramble (st : BitVec 58) (w : BitVec 64) : BitVec 64 × BitVec 58 :=
  let c := st.toNat + 2 ^ 58 * w.toNat
  (BitVec.ofNat 64 ((c >>> 58) ^^^ (c >>> 19) ^^^ c), BitVec.ofNat 58 (c >>> 64))

/-- A payload scrambled, and the last 58 bits sent: bit k is its data bit with the bits sent 39 and 58 before. -/
def scramble (st : BitVec 58) (w : BitVec 64) : BitVec 64 × BitVec 58 :=
  let c := (List.range 64).foldl (fun c k =>
    if xor (bitOf w.toNat k) (xor (bitOf c (19 + k)) (bitOf c k)) then c + 2 ^ (58 + k) else c) st.toNat
  (BitVec.ofNat 64 (c >>> 58), BitVec.ofNat 58 (c >>> 64))

/-- A receiver takes a block: polarity undone, the header noted at a time, lock lost when 16 of 64 are invalid, the payload descrambled. -/
def takeBlock (now : Nat) (l : LaneRx) (b : LaneBlock) : LaneRx × Bool × BitVec 64 :=
  let h := if l.inverted then ~~~b.header else b.header
  let p := if l.inverted then ~~~b.payload else b.payload
  let bad := !headerOk h
  let w : BitVec 64 := BitVec.ofNat 64 (2 * l.window.toNat + b2n bad)
  let (v, scr) := descramble l.scr p
  ({ l with window := w, locked := l.locked && onesOf w < 16, badAt := if bad then (now :: l.badAt).take 8 else l.badAt, scr := scr }, bad, v)

/-- A lane fails: it is not locked, or 8 invalid headers within 1 ms (R499). -/
def laneFails (now : Nat) (l : LaneRx) : Bool := !l.locked || (l.badAt.length == 8 && l.badAt.all (fun t => now ≤ t + 1000000))

/-! ### CRC and layout (R481 to R486) -/

/-- CRC-24, polynomial 0x5D6DCB, from a register that starts at the sequence number, over the low n bits in ascending order. -/
def crc24 (start v n : Nat) : Nat :=
  (List.range n).foldl (fun r i =>
    let x := 2 * r % 2 ^ 24
    if xor (bitOf r 23) (bitOf v i) then x ^^^ 0x5D6DCB else x) start

/-- Bits of CTL and BODY, and of BODY, at 16 lanes and at 8. -/
def coveredBits (wide : Bool) : Nat := if wide then 1000 else 488
def bodyBits (wide : Bool) : Nat := coveredBits wide - 8

/-- A flit from CTL and BODY: the CRC in its highest 24 bits. -/
def flitOf (wide : Bool) (seq ctl body : Nat) : Nat :=
  let v := ctl + 2 ^ 8 * body
  v + 2 ^ coveredBits wide * crc24 seq v (coveredBits wide)

/-- The CRC of a flit is right for a sequence number. -/
def flitGood (wide : Bool) (seq v : Nat) : Bool :=
  v / 2 ^ coveredBits wide == crc24 seq (v % 2 ^ coveredBits wide) (coveredBits wide)

/-- BODY of contents, with S step bits in a record (R484). -/
def bodyOf (S : Nat) (b : FlitBody) : Nat :=
  let n := b.records.length
  let recs := b.records.foldr (fun r a => r.1 % 2 ^ 10 + 2 ^ 10 * (r.2 % 2 ^ S) + 2 ^ (10 + S) * a) 0
  n + 2 ^ 6 * recs + 2 ^ (6 + n * (10 + S)) * b.items.foldr (fun x a => x + 2 ^ 144 * a) 0

/-- Items from position p of BODY on: until the End item, a reserved one, or the end of BODY (R486). -/
def itemsFrom (bits body : Nat) : Nat → Nat → List Nat
  | 0, _ => []
  | k + 1, p =>
    let x := (body >>> p) % 2 ^ 144
    if bits < p + 144 || fld x 143 140 == 0 || 5 < fld x 143 140 then [] else x :: itemsFrom bits body k (p + 144)

/-- Contents of a BODY. -/
def parseBody (wide : Bool) (S body : Nat) : FlitBody :=
  let n := min (body % 64) ((bodyBits wide - 6) / (10 + S))
  let p (j : Nat) : Nat := 6 + j * (10 + S)
  { records := (List.range n).map (fun j => (fld body (p j + 9) (p j), fld body (p j + 9 + S) (p j + 10)))
    items := itemsFrom (bodyBits wide) body 7 (p n) }

/-- Items (R486): a network flit with its sideband, credit returns, a cycle marker, a timing marker, a link message. -/
def itemFlit (f : Nat) : Nat := f % 2 ^ 135 + 2 ^ 140
def itemCredits (owed : List Nat) : Nat := (owed.take 10).foldr (fun n a => min n 255 + 2 ^ 8 * a) 0 + 2 * 2 ^ 140
def itemMarker (dcn tag : Nat) : Nat := dcn % 2 ^ 16 + 2 ^ 16 * (tag % 2 ^ 10) + 3 * 2 ^ 140
def itemTiming (tick : Nat) : Nat := tick % 2 ^ 32 + 4 * 2 ^ 140
def itemMessage (code : Nat) : Nat := code % 2 ^ 8 + 5 * 2 ^ 140

/-- The flit that the blocks of the logical lanes carry, and the payloads that lanes send (R481). -/
def ofLanes (ps : List (BitVec 64)) : Nat := ps.foldr (fun p a => p.toNat + 2 ^ 64 * a) 0
def toLanes (v n : Nat) : List (BitVec 64) := (List.range n).map (fun i => BitVec.ofNat 64 (v >>> (64 * i)))

/-! ### Training blocks (R480) -/

/-- A TS1 as it stands on a lane: its payload, inverted where P and M are swapped; none where it is no TS1. -/
def asTs1 (w : BitVec 64) : Option (Bool × BitVec 64) :=
  if wfld w 7 0 == 0x1E then some (false, w) else if wfld (~~~w) 7 0 == 0x1E then some (true, ~~~w) else none

/-- The payload of a TS1. -/
def ts1Word (versions pos die part lane : Nat) (rxFailed : List Nat) (slow : Bool) : BitVec 64 :=
  BitVec.ofNat 64 (0x1E + 2 ^ 8 * (versions % 256) + 2 ^ 16 * (pos % 16) + 2 ^ 20 * (die % 8) + 2 ^ 24 * (part % 256) + 2 ^ 32 * (lane % 256)
    + 2 ^ 40 * bitsWhere 18 (fun l => rxFailed.contains l) + 2 ^ 58 * b2n slow)

/-- The payload of a TS2. -/
def ts2Word (version : Nat) (used : List Nat) (width8 : Bool) (pos die : Nat) : BitVec 64 :=
  BitVec.ofNat 64 (0x2D + 2 ^ 8 * version + 2 ^ 16 * bitsWhere 18 (fun l => used.contains l) + 2 ^ 34 * b2n width8 + 2 ^ 36 * (pos % 16)
    + 2 ^ 40 * (die % 8))

/-- The payloads of ALIGN for a logical lane and of IDLE. -/
def alignWord (lane : Nat) : BitVec 64 := BitVec.ofNat 64 (0x33 + 2 ^ 8 * (lane % 64))
def idleWord : BitVec 64 := 0x4B

/-! ### PRBS31 (R507) -/

/-- The next 64 bits of PRBS31, x^31 + x^28 + 1, after the last 31 of it, oldest lowest: the bits, and the last 31 then. -/
def prbsNext (st : BitVec 31) : BitVec 64 × BitVec 31 :=
  let c := (List.range 64).foldl (fun c k => if xor (bitOf c k) (bitOf c (k + 3)) then c + 2 ^ (31 + k) else c) st.toNat
  (BitVec.ofNat 64 (c >>> 31), BitVec.ofNat 31 (c >>> 64))

/-- Bits in which a block differs from the PRBS31 that the last 31 bits received continue. -/
def prbsErrors (st : BitVec 31) (w : BitVec 64) : Nat := onesOf ((prbsNext st).1 ^^^ w)

/-! ### Packets as flits (R457) -/

/-- The header flit: ROUTE of a destination and legs, then the fields of a packet. -/
def headerFlit (dst : Nat) (legs : List Nat) (vn cmd len status src tag srcPos dstPos : Nat) : Nat :=
  dst % 2 ^ 16 + 2 ^ 16 * (legs.take 4).foldr (fun l a => l % 2 ^ 12 + 2 ^ 12 * a) 0 + 2 ^ 64 * (vn % 4) + 2 ^ 66 * (cmd % 64)
    + 2 ^ 72 * (len % 64) + 2 ^ 78 * (status % 4) + 2 ^ 80 * (src % 2 ^ 16) + 2 ^ 96 * (tag % 2 ^ 12) + 2 ^ 108 * (srcPos % 16)
    + 2 ^ 112 * (dstPos % 16)

/-- 128-bit data flits of words. -/
def dataFlits : List Word → List Nat
  | a :: b :: c :: d :: r => (a.toNat + 2 ^ 32 * b.toNat + 2 ^ 64 * c.toNat + 2 ^ 96 * d.toNat) :: dataFlits r
  | [] => []
  | [a] => [a.toNat]
  | [a, b] => [a.toNat + 2 ^ 32 * b.toNat]
  | [a, b, c] => [a.toNat + 2 ^ 32 * b.toNat + 2 ^ 64 * c.toNat]

/-- Flits of a packet with their 7 sideband bits on top: TYPE, POISON, VN, VC. -/
def withSideband (vn vc : Nat) (poison : Bool) : Nat → List Nat → List Nat
  | _, [] => []
  | k, f :: fs =>
    let typ := if k == 0 then (if fs.isEmpty then 3 else 0) else if fs.isEmpty then 2 else 1
    (f + 2 ^ 128 * (typ + 2 ^ 2 * b2n poison + 2 ^ 3 * (vn % 4) + 2 ^ 5 * (vc % 4))) :: withSideband vn vc poison (k + 1) fs

/-- A flit with its sideband is the head of a packet, or its tail. -/
def isHead (f : Nat) : Bool := fld f 129 128 == 0 || fld f 129 128 == 3
def isTail (f : Nat) : Bool := fld f 129 128 == 2 || fld f 129 128 == 3

/-- Words of data flits. -/
def flitWords (fs : List Nat) : List Word := fs.flatMap (fun f => (List.range 4).map (fun k => BitVec.ofNat 32 (f >>> (32 * k))))

/-- CMD and packet of the flits that a link has brought to a die, the header first; a write's data follow the flit of its address, and a
capture block part takes its data as they come (R457, R458). -/
def packetOf (d : Nat) (fs : List Nat) : Nat × Packet :=
  let h := fs.headD 0
  let data := (fs.drop 1).map (· % 2 ^ 128)
  let a := data.headD 0
  let cmd := fld h 71 66
  let vn := fld h 65 64
  (cmd, {
    src := fld h 95 80, dst := fld h 15 0, tag := fld h 107 96, srcPos := fld h 111 108, dstPos := fld h 115 112, vn := vn, status := fld h 79 78
    addr := BitVec.ofNat 64 a, bytes := if cmd == 1 then fld a 95 64 else 0
    words := if cmd == 1 then [] else flitWords (if cmd == 2 || cmd == 3 then data.drop 1 else data)
    poison := fs.any (fun f => bitOf f 130), die := d
    legs := if vn < 2 then [] else ((List.range 4).map (fun k => fld h (27 + 12 * k) (16 + 12 * k))).filter (· != 0) })

/-- A virtual channel among the ten of R486. -/
def vcIndex (vn vc : Nat) : Nat := match vn with | 0 => vc | 1 => 2 + vc | 2 => 4 + vc | _ => 8 + vc

end Sys2Proof.Machine
end

