-- ==== Sys2Proof/Config.lean ====
section
/-! DEFINITION. Config.lean: the values that the spec leaves open, as constants without a body (log 7, log 8, log 9, log 26).
A step reads them at the model's own counter `freeCtr` and advances it, so each use may give another value. -/
namespace Sys2Proof

/-- A free number: the lead device's choice of an effective DCN within its bound (R41, R42), a stall time within its bound. -/
opaque Config.freeNat : Nat → Nat
/-- A free word: a result the spec does not state. -/
opaque Config.freeWord : Nat → Word
/-- A free byte string as a digest: a signature the device makes, a challenge, a session key (R590 to R592). -/
opaque Config.freeDigest : Nat → Digest
/-- Syndrome of a code word with an error whose row brings none, by the number of the record (R511, R536). -/
opaque Config.freeSyndrome : Nat → BitVec 16
/-- Which 8-bit syndromes of odd weight above 1 are columns of the Hsiao code of R511: the spec gives no matrix. -/
opaque Config.hsiaoColumn : Nat → Bool
/-- Certificate words by certificate index and word offset (R583): X.509 bytes that the spec does not give. -/
opaque Config.certWord : Nat → Nat → Word
/-- Length in bytes of a certificate. -/
opaque Config.certBytes : Nat → Nat
/-- Flits of response buffer that a requester holds beyond those of one read, by its network address (R463). -/
opaque Config.bufferRoom : Nat → Nat
/-- The scrub sequencer, B (true) or A (false), that serves a class on the I/O die (R517 names none). -/
opaque Config.sequencerOf : Nat → Bool
/-- State in which a lane's scrambler begins after a training (R478). -/
opaque Config.scrambler : Nat → BitVec 58
/-- The device identity private key times a public key: the point of an image key agreement, x then y (R582, R587). -/
opaque Config.keyAgreement : BitVec 512 → BitVec 512
/-- Shared point of a session's key exchange, x then y, of the device's n-th ephemeral key and the host's public key (R592). -/
opaque Config.sessionPoint : Nat → BitVec 512 → BitVec 512
/-- Public key of Lenaux that authorisations are checked under (R581, R591). -/
opaque Config.lenauxKey : Digest
/-- Public key of Lenaux that slot 0 partial loads are checked under (R581). -/
opaque Config.firmwareKey : Digest

/-- Lenaux's PCI vendor ID, and what the DVSEC header holds beside it: capability version and next capability, DVSEC revision (R414). -/
opaque Config.vendorId : BitVec 16
opaque Config.dvsecLink : BitVec 16
opaque Config.dvsecRevision : BitVec 4
/-- Lenaux die protocol versions that a stepping after A0 offers (R442). -/
opaque Config.protoOffered : Nat → Nat
/-- CAPS that an end of a module offers, by module and end, 1 the second (R441). -/
opaque Config.endCaps : Nat → Nat → Nat
/-- Serial number of a die, by the device's serial number and the site (R441). -/
opaque Config.dieSerial : DWord → Nat → DWord

/-- Unit code of a unit-state block of an export, 0 capture unit, 1 churn engine, 2 collector, 3 recorder (R315). -/
opaque Config.unitCode : Nat → Word
/-- Saved registers and memories of a unit-state block: which they are and how wide, the spec does not give (R315). -/
opaque Config.unitWords : UnitState → List Word
/-- FMT_MINOR of an export (R315). -/
opaque Config.exportMinor : BitVec 16

end Sys2Proof
end

