-- ==== Sys2Proof/Machine/Cells.lean ====
section
/-! DEFINITION. Machine/Cells.lean: sparse arrays by key in one canonical form (keys strictly rising, no entry equal to
what an unlisted key reads as). Every addressed memory of the device is one of these. -/
namespace Sys2Proof.Machine

/-- A sparse array: (key, value) pairs. -/
abbrev Cells (α : Type) := List (Nat × α)

/-- What the array reads at a key; d gives what an unlisted key reads as. -/
def cget {α : Type} (d : Nat → α) : Cells α → Nat → α
  | [], k => d k
  | (k', v) :: m, k => if k' = k then v else cget d m k

/-- The array with a value at a key; writing the value an unlisted key reads as removes the entry, and any other of that key, so that a
read gives back what was written on every list, canonical or not. -/
def cset {α : Type} [DecidableEq α] (d : Nat → α) : Cells α → Nat → α → Cells α
  | [], k, v => if v = d k then [] else [(k, v)]
  | (k', v') :: m, k, v =>
    if k' < k then (k', v') :: cset d m k v
    else if k' = k then (if v = d k then cset d m k v else (k, v) :: m)
    else (if v = d k then (k', v') :: cset d m k v else (k, v) :: (k', v') :: m)

/-- Every key of the array is above a bound and the keys rise strictly. -/
def cascend {α : Type} : Option Nat → Cells α → Bool
  | _, [] => true
  | none, (k, _) :: m => cascend (some k) m
  | some b, (k, _) :: m => decide (b < k) && cascend (some k) m

/-- No entry equals what its key reads as when unlisted. -/
def cnondef {α : Type} [DecidableEq α] (d : Nat → α) : Cells α → Bool
  | [] => true
  | (k, v) :: m => decide (v ≠ d k) && cnondef d m

/-- The canonical form. -/
def Memory.wf {α : Type} [DecidableEq α] (d : Nat → α) (m : Cells α) : Bool := cascend none m && cnondef d m

/-- The default of the memories of words: 0 (log 2). -/
def zeroW {n : Nat} (_ : Nat) : BitVec n := 0

/-- Read of a memory of words. -/
def rd {n : Nat} (m : Cells (BitVec n)) (k : Nat) : BitVec n := cget zeroW m k
/-- Write of a memory of words. -/
def wr {n : Nat} (m : Cells (BitVec n)) (k : Nat) (v : BitVec n) : Cells (BitVec n) := cset zeroW m k v

/-- The entries whose key satisfies a test. -/
def ckeep {α : Type} (p : Nat → Bool) (m : Cells α) : Cells α := m.filter (fun e => p e.1)

/-- The array with the entries of a list written one after another. -/
def wrAll {n : Nat} (m : Cells (BitVec n)) : List (Nat × BitVec n) → Cells (BitVec n)
  | [] => m
  | (k, v) :: es => wrAll (wr m k v) es

/-- Find by key in a list of pairs. -/
def lookup {α : Type} : List (Nat × α) → Nat → Option α
  | [], _ => none
  | (k, v) :: m, x => if k = x then some v else lookup m x

/-- Replace or add the value of a key in a list of pairs that is kept in rising key order. -/
def put {α : Type} : List (Nat × α) → Nat → α → List (Nat × α)
  | [], k, v => [(k, v)]
  | (k', v') :: m, k, v =>
    if k' < k then (k', v') :: put m k v else if k' = k then (k, v) :: m else (k, v) :: (k', v') :: m

/-- Remove a key from a list of pairs. -/
def del {α : Type} (m : List (Nat × α)) (k : Nat) : List (Nat × α) := m.filter (fun e => e.1 != k)

/-- Add a number to a set kept as a rising list without repeats. -/
def ins : List Nat → Nat → List Nat
  | [], x => [x]
  | y :: ys, x => if y < x then y :: ins ys x else if y = x then y :: ys else x :: y :: ys

end Sys2Proof.Machine
end

