-- ==== Sys2Proof/Machine/Sm3.lean ====
section
/-! DEFINITION. Machine/Sm3.lean: the SM3 digest (R579, R580). The spec names the algorithm by its standard, GB/T 32905; its steps
are PRESUMED from that standard (log 7). -/
namespace Sys2Proof.Machine

/-- Permutations P0 and P1. -/
def sm3P0 (x : Word) : Word := x ^^^ x.rotateLeft 9 ^^^ x.rotateLeft 17
def sm3P1 (x : Word) : Word := x ^^^ x.rotateLeft 15 ^^^ x.rotateLeft 23

/-- Boolean functions of round j. -/
def sm3FF (j : Nat) (x y z : Word) : Word := if j < 16 then x ^^^ y ^^^ z else (x &&& y) ||| (x &&& z) ||| (y &&& z)
def sm3GG (j : Nat) (x y z : Word) : Word := if j < 16 then x ^^^ y ^^^ z else (x &&& y) ||| (~~~x &&& z)

/-- Expanded words, newest first: n more after those given. -/
def sm3Expand : Nat → List Word → List Word
  | 0, ws => ws
  | n + 1, ws =>
    let g (i : Nat) : Word := nth 0 ws i
    sm3Expand n ((sm3P1 (g 15 ^^^ g 8 ^^^ (g 2).rotateLeft 15) ^^^ (g 12).rotateLeft 7 ^^^ g 5) :: ws)

/-- The eight registers. -/
structure Sm3Reg where
  a : Word
  b : Word
  c : Word
  d : Word
  e : Word
  f : Word
  g : Word
  h : Word

/-- Round j with W and W'. -/
def sm3Round (j : Nat) (v : Sm3Reg) (w w' : Word) : Sm3Reg :=
  let t : Word := if j < 16 then 0x79CC4519 else 0x7A879D8A
  let ss1 := (v.a.rotateLeft 12 + v.e + t.rotateLeft (j % 32)).rotateLeft 7
  let ss2 := ss1 ^^^ v.a.rotateLeft 12
  let tt1 := sm3FF j v.a v.b v.c + v.d + ss2 + w'
  let tt2 := sm3GG j v.e v.f v.g + v.h + ss1 + w
  { a := tt1, b := v.a, c := v.b.rotateLeft 9, d := v.c, e := sm3P0 tt2, f := v.e, g := v.f.rotateLeft 19, h := v.g }

/-- The rounds from j on; ws are the expanded words from W_j on. -/
def sm3Rounds : Nat → Nat → Sm3Reg → List Word → Sm3Reg
  | 0, _, v, _ => v
  | n + 1, j, v, ws => sm3Rounds n (j + 1) (sm3Round j v (nth 0 ws 0) (nth 0 ws 0 ^^^ nth 0 ws 4)) (ws.drop 1)

/-- Compression of one block of 16 words. -/
def sm3Block (v : Sm3Reg) (ws : List Word) : Sm3Reg :=
  let r := sm3Rounds 64 0 v (sm3Expand 52 ws.reverse).reverse
  { a := v.a ^^^ r.a, b := v.b ^^^ r.b, c := v.c ^^^ r.c, d := v.d ^^^ r.d, e := v.e ^^^ r.e, f := v.f ^^^ r.f, g := v.g ^^^ r.g,
    h := v.h ^^^ r.h }

/-- Words, most significant byte first, of a byte string whose length is a multiple of 4. -/
def beWords : List Byte → List Word
  | b0 :: b1 :: b2 :: b3 :: bs => (b0 ++ b1 ++ b2 ++ b3) :: beWords bs
  | _ => []

/-- The padded message. -/
def sm3Pad (m : List Byte) : List Byte :=
  m ++ [0x80] ++ List.replicate ((119 - m.length % 64) % 64) 0 ++ (leBytes 8 (8 * m.length)).reverse

/-- Blocks of the padded message. -/
def sm3Blocks : Nat → Sm3Reg → List Word → Sm3Reg
  | 0, v, _ => v
  | n + 1, v, ws => sm3Blocks n (sm3Block v (ws.take 16)) (ws.drop 16)

/-- SM3 of a byte string. -/
def sm3 (m : List Byte) : Digest :=
  let ws := beWords (sm3Pad m)
  let v := sm3Blocks (ws.length / 16)
    { a := 0x7380166F, b := 0x4914B2B9, c := 0x172442D7, d := 0xDA8A0600, e := 0xA96F30BC, f := 0x163138AA, g := 0xE38DEE4D, h := 0xB0FB0E4E } ws
  v.a ++ v.b ++ v.c ++ v.d ++ v.e ++ v.f ++ v.g ++ v.h

/-- The bytes of a digest in the order of the standard (R580). -/
def digestBytes (d : Digest) : List Byte := (leBytes 32 d.toNat).reverse
/-- A digest in eight result words (R636). -/
def digestWords (d : Digest) : List Word := bytesWords (digestBytes d)
/-- A digest from eight words in that order. -/
def wordsDigest (ws : List Word) : Digest := BitVec.ofNat 256 (ofLe (wordBytes (ws.take 8)).reverse)

end Sys2Proof.Machine
end

