-- ==== Sys2Proof/Machine/Wire.lean ====
section
/-! DEFINITION. Machine/Wire.lean: command packets, reply and event entries as bytes, and the MAC of a management datagram (R357, R359, R360, R376).
The steps of HMAC, which the spec names, are PRESUMED (log 7). -/
namespace Sys2Proof.Machine

/-- A command packet (R357): the header and PARAM_WORDS parameter words. -/
def commandPacket (op : Nat) (c : Cmd) : List Byte :=
  wordBytes ([packW [(0, 16, op), (16, 16, c.flags.toNat)], packW [(0, 8, c.nParams), (8, 8, c.rsvd.toNat), (16, 16, c.tag.toNat)], c.target, c.seq]
    ++ (List.range c.nParams).map (fun i => nth 0 c.params i))

/-- A reply entry up to its result words (R359). -/
def replyPacket (r : Reply) : List Byte :=
  wordBytes ([packW [(0, 16, r.opcode), (16, 16, r.status)], packW [(0, 8, r.results.length), (8, 8, r.flags), (16, 16, r.tag.toNat)], r.dcnLo, r.seq]
    ++ r.results)

/-- An event entry (R360) trimmed to LENGTH, in whole words. -/
def eventPacket (e : Event) : List Byte :=
  wordBytes ([packW [(0, 16, e.code), (16, 16, e.status)], packW [(0, 16, e.len), (16, 16, e.tag.toNat)], e.dcnLo, e.seq]
    ++ e.payload.take ((e.len + 3) / 4))

/-- HMAC with SM3 under a key of 32 bytes. -/
def hmacSm3 (key : Digest) (m : List Byte) : Digest :=
  let k := digestBytes key ++ List.replicate 32 0
  sm3 (k.map (· ^^^ 0x5C) ++ digestBytes (sm3 (k.map (· ^^^ 0x36) ++ m)))

/-- MAC of a management datagram over SESSION, COUNTER and PACKET (R376). -/
def datagramMac (key : Digest) (session : Word) (counter : Nat) (packet : List Byte) : Digest :=
  hmacSm3 key (leBytes 4 session.toNat ++ leBytes 8 counter ++ packet)

/-- MAC of a reply or event in its own datagram. -/
def answerMac (key : Digest) (session : Word) (counter : Nat) (m : Reply ⊕ Event) : Digest :=
  datagramMac key session counter (match m with | .inl r => replyPacket r | .inr e => eventPacket e)

end Sys2Proof.Machine
end

