-- ==== Sys2Proof/Machine/Ops.lean ====
section
/-! DEFINITION. Machine/Ops.lean: the operations that the meanings share: what the device is, its register file, its time
stamps, stall requests, events, error records and SAFE HOLD. -/
namespace Sys2Proof.Machine

/-! ### The part and its place on the board -/

/-- Number of compute dies (R1). -/
def nDies (s : State) : Nat := if s.ident.small then 4 else 8
/-- Present compute dies. -/
def diesOf (s : State) : List Nat := List.range (nDies s)
/-- The board position (R409). -/
def posOf (s : State) : Nat := s.straps.pos
/-- The lead device has board-position straps 0 (R41). -/
def isLead (s : State) : Bool := s.straps.pos == 0
/-- Grade in effect (R7): 2 or 1. -/
def gradeEff (s : State) : Nat := if s.straps.slow || s.ident.grade == 1 then 1 else s.ident.grade
/-- PART byte of signatures and records (R195, R371). -/
def partByte (s : State) : Nat := if s.ident.small then 0x40 else 0x80
/-- Schedule depth of the resident image, 0 without one (R103). -/
def depthOf (s : State) : Nat := match s.img.resident with | some i => i.hdr.depth | none => 0
/-- STEP ticks in a wall time of us microseconds (R5). -/
def ticksUs (s : State) (us : Nat) : Nat := if gradeEff s == 2 then us * 1600 else us * 1280
/-- Microseconds of a number of ticks, rounded up. -/
def usTicks (s : State) (t : Nat) : Nat := if gradeEff s == 2 then cdiv t 1600 else cdiv t 1280

/-- The recovery steps cycles C to F − 1 from the log, in whatever mode the device is (R310). -/
def recoverySteps (s : State) : Bool :=
  match s.ckp.recovery with
  | some r => r.stepping && decide (s.seq.dcn < r.f)
  | none => false

/-- FREE, STEP-N or REPLAY (R38). -/
def modeSteps (s : State) : Bool :=
  match s.md.mode with
  | .run => s.md.sub != .halted
  | .replay => true
  | _ => false

/-- The board steps: FREE, STEP-N or REPLAY, or the cycles of a recovery in any mode. -/
def stepping (s : State) : Bool := recoverySteps s || modeSteps s

/-- HALTED sub-state. -/
def isHalted (s : State) : Bool := s.md.mode == .run && s.md.sub == .halted

/-- The device has entered SAFE HOLD (R45). -/
def inSafeHold (s : State) : Bool := s.md.safeHold.isSome

/-! ### Location addresses (R25) -/

/-- SITE, QUAD, CLUS, GROUP, EP and ROW of a location address. -/
def locSite (w : Word) : Nat := wfld w 31 28
def locQuad (w : Word) : Nat := wfld w 27 26
def locClus (w : Word) : Nat := wfld w 25 22
def locGroup (w : Word) : Nat := wfld w 21 17
def locEp (w : Word) : Nat := wfld w 16 13
def locRow (w : Word) : Nat := wfld w 11 0
/-- Global cluster, group and EP that a location address names. -/
def locGc (w : Word) : Nat := 64 * locSite w + wfld w 27 22
def locGg (w : Word) : Nat := 32 * locGc w + locGroup w
/-- The location address of a cluster, group, EP and row. -/
def mkLoc (gc g ep row : Nat) : Word := packW [(28, 4, gc / 64), (22, 6, gc % 64), (17, 5, g), (13, 4, ep), (0, 12, row)]
/-- The location address of a die or of the I/O die (site 15). -/
def siteLoc (site : Nat) : Word := packW [(28, 4, site)]

/-! ### The register file -/

/-- Key of a register: SITE in [31:28], BLOCK in [27:20], offset below (R368). -/
def rkey (site block off : Nat) : Nat := site * 2 ^ 28 + block * 2 ^ 20 + off
/-- Key of a BAR0 register. -/
def bkey (off : Nat) : Nat := 2 ^ 32 + off

/-- Scrub rates of a class: default, minimum, maximum (R520). -/
def scrubRate (c : Nat) : Nat × Nat × Nat :=
  match c with
  | 0 => (10000000, 1000000, 100000000)
  | 1 => (1000000, 100000, 10000000)
  | 2 => (4000000, 400000, 40000000)
  | 3 => (1000000, 100000, 10000000)
  | 4 => (100000, 10000, 1000000)
  | 5 => (2000000, 200000, 20000000)
  | 6 => (10000000, 1000000, 100000000)
  | 7 => (1000000000, 100000000, 2000000000)
  | 8 => (10000, 10000, 10000)
  | _ => (0, 0, 0)

/-- A class exists on a site (R510). -/
def scrubHere (site c : Nat) : Bool := if site == 15 then 5 ≤ c && c ≤ 8 else site < 8 && c ≤ 5

/-- STEP ticks in a second (R5). -/
def tickRate (s : State) : Nat := if gradeEff s == 2 then 1600000000 else 1280000000

/-- Reset value of the stored part of a register, where it is not 0 (R368 and the register maps); RWS fields are no part of it. -/
def blockReset (site block off : Nat) : Nat :=
  match block with
  | 0x02 => if off == 0x010 then 1000000 else 0
  | 0x05 => if off == 0x004 then 4 else if off == 0x008 then 8 else 0
  | 0x08 => if off == 0x000 then 24 else if off == 0x014 then 4 else if off == 0x01C then 4096 else 0
  | 0x10 => if off == 0x040 then 2000 else 0
  | 0x11 => if off == 0x100 then 0x10A01 else if off == 0x104 then 0x18 else 0
  | 0x13 =>
    if off == 0x010 then 1000
    else if 0x100 ≤ off && off < 0x220 && off % 32 == 0 && scrubHere site ((off - 0x100) / 32) then (scrubRate ((off - 0x100) / 32)).1
    else if 0x400 ≤ off && off < 0x500 && off % 16 == 0 then 4
    else 0
  | 0x14 => if off == 0x00C then 1 else 0
  | 0x15 => if off == 0x000 then 4 else if off == 0x014 then 163840 else if off == 0x02C then 0x6400 else 0
  | 0x16 => if off == 0x000 then 0x2000 else if off == 0x010 then 1 else 0
  | _ => 0

/-- Reset value of a register's stored part by key. -/
def regReset (k : Nat) : Word :=
  if k < 2 ^ 32 then BitVec.ofNat 32 (blockReset (fld k 31 28) (fld k 27 20) (fld k 19 0))
  else if k == bkey 0x100C then 0x100
  else if k == bkey 0x1018 || k == bkey 0x1038 then 4
  else if k == bkey 0x1058 then 6
  else if bkey 0x8000 ≤ k && k < bkey 0x8400 && k % 16 == 12 then 1
  else 0

/-- Stored value of a register. -/
def reg (s : State) (k : Nat) : Word := cget regReset s.regs k
/-- Set the stored value of a register. -/
def setReg (s : State) (k : Nat) (w : Word) : State := { s with regs := cset regReset s.regs k w }
/-- Stored value of an I/O-die register as a number. -/
def ioReg (s : State) (block off : Nat) : Nat := (reg s (rkey 15 block off)).toNat
/-- Set an I/O-die register. -/
def setIo (s : State) (block off v : Nat) : State := setReg s (rkey 15 block off) (BitVec.ofNat 32 v)
/-- A count of `width` bits that saturates grows by d. -/
def bump (s : State) (k width d : Nat) : State :=
  setReg s k (BitVec.ofNat 32 (satAdd width (reg s k).toNat d))
/-- The same on the I/O die. -/
def bumpIo (s : State) (block off width d : Nat) : State := bump s (rkey 15 block off) width d
/-- A register keeps the larger of its value and v. -/
def maxIo (s : State) (block off v : Nat) : State :=
  if ioReg s block off < v then setIo s block off v else s
/-- Set bits of an I/O-die register. -/
def orIo (s : State) (block off bits : Nat) : State := setIo s block off (ioReg s block off ||| bits)

/-! ### Free values and time stamps -/

/-- Advance the counter at which free values are read (log 9). -/
def tickFree (s : State) : State := { s with freeCtr := s.freeCtr + 1 }

/-- The 12-byte time format of device time now (R556, R557). -/
def stamp (s : State) : BitVec 96 :=
  BitVec.ofNat 96 (s.time.frac + s.time.ns * 2 ^ 16 + s.time.sec * 2 ^ 48)

/-- The words of a 96-bit value, low word first. -/
def words96 (t : BitVec 96) : List Word := [BitVec.ofNat 32 t.toNat, BitVec.ofNat 32 (t.toNat >>> 32), BitVec.ofNat 32 (t.toNat >>> 64)]

/-- SRC in effect (TIME_CTRL.SRC; SRC 2 on the lead acts as 0, R563). -/
def timeSrc (s : State) : Nat :=
  let v := fld (ioReg s 0x15 0x000) 1 0
  if v == 2 && isLead s then 0 else v

/-- The quality byte of the record format (R558). -/
def timeQual (s : State) : Nat :=
  timeSrc s + 4 * b2n s.time.domB + 8 * b2n s.time.locked + 16 * b2n s.time.holdover + 32 * b2n s.time.unset
    + 64 * b2n s.time.slewing

/-- Send a firmware control message on VN3 (R458); the state shows the latest 16. -/
def sendFw (s : State) (m : FwMsg) : State :=
  { s with net := { s.net with fwOut := (m :: s.net.fwOut).take 16 } }

/-- Nanoseconds of device time (R559). -/
def nowNs (s : State) : Nat := s.time.sec * 1000000000 + s.time.ns

/-- Words that a scrubber is behind its set rate, times the ticks of a second (R518); the tick count is its clock (log 25). -/
def scrubOwed (s : State) (site c : Nat) : Nat :=
  let e := (lookup s.err.scrub (16 * site + c)).getD (0, 0)
  e.2 + (s.seq.ticks - e.1) * (reg s (rkey site 0x13 (0x100 + 32 * c))).toNat

/-! ### The sluice as the meanings see it (R133 to R144) -/

/-- The current slot (R133). -/
def slotOf (s : State) : Nat := s.seq.ticks / 32

/-- The slot that makes the current tick a stall step or not (R134), with what this device sampled in it. -/
def slotBack (s : State) : Option SlotRec := s.slu.hist.find? (fun r => r.k + 8 == slotOf s)

/-- Usable groups of a cluster (R88, R195): 32, or 33 less the failed ones. -/
def usableGroups (s : State) (gc : Nat) : Nat := match lookup s.ds.failed gc with | some fs => min 32 (33 - fs.length) | none => 32

/-- The sequencers stand in a sluice stall or a planned hold (SLU_STATUS.FROZEN). -/
def frozen (s : State) : Bool :=
  s.slu.bootLow || !s.seq.epoch || s.slu.hold.isSome || (match slotBack s with | some r => r.low | none => false)

/-- Bump SLU_EVENTSc. -/
def countReq (s : State) (code : Nat) : State := bumpIo s 0x02 (0x080 + 4 * code) 16 1

/-- Raise a request that drives n slots (R135, R144). -/
def pulse (s : State) (code n : Nat) : State :=
  let s := countReq s code
  { s with slu := { s.slu with pulses := s.slu.pulses ++ [(code, n)] } }

/-- Raise a request that its unit holds until it drops it. Raising it again changes nothing. -/
def holdReq (s : State) (code unit : Nat) : State :=
  if s.slu.held.contains (code, unit) then s
  else
    let s := countReq s code
    { s with slu := { s.slu with held := s.slu.held ++ [(code, unit)], unseen := s.slu.unseen ++ [(code, unit)] } }

/-- Slots run: the board has an epoch and has left the start-up (R133). -/
def slotsRun (s : State) : Bool := s.seq.epoch && !s.slu.bootLow

/-- Drop a held request; one that no slot has seen yet still drives the next slot, so that none is lost (R546). -/
def dropReq (s : State) (code unit : Nat) : State :=
  { s with slu := { s.slu with
    held := s.slu.held.filter (fun r => r != (code, unit)), unseen := s.slu.unseen.filter (fun r => r != (code, unit))
    pulses := if slotsRun s && s.slu.unseen.contains (code, unit) then s.slu.pulses ++ [(code, 1)] else s.slu.pulses } }

/-- Local sources that hold a request: codes 0 to 14 (SLU_STATUS.SRC). -/
def srcHeld (s : State) (c : Nat) : Bool :=
  s.slu.pulses.any (fun r => r.1 == c) || s.slu.held.any (fun r => r.1 == c) || s.err.repairs.any (fun r => r.code == c)
    || (c == 7 && (match s.slu.hold with | some h => h.work.contains .checkpoint | none => false))
    || (c == 6 && (match s.slu.hold with | some h => h.work.contains .hostAccess || h.work.contains .ddrCommit | none => false))

/-- A saturating count in bits [31:16] of a register grows by one. -/
def bump16Hi (s : State) (k : Nat) : State :=
  let v := (reg s k).toNat
  setReg s k (BitVec.ofNat 32 (v % 2 ^ 16 + satAdd 16 (v / 2 ^ 16) 1 * 2 ^ 16))

/-- A code word error is counted by its class on its die: corrected, uncorrectable (R526). -/
def countEcc (s : State) (site cls : Nat) (unc : Bool) : State :=
  let k := rkey site 0x13 (0x100 + 32 * cls + (if unc then 0x10 else 0x0C))
  if unc then
    let v := (reg s k).toNat
    setReg s k (BitVec.ofNat 32 (satAdd 16 (v % 2 ^ 16) 1 + v / 2 ^ 16 * 2 ^ 16))
  else bump s k 32 1

/-! ### Events and the event ring (R356, R360) -/

/-- The PCIe endpoint answers accesses: the device is configuration-ready (R413), which one that ignores its PCIe balls never is (R426). -/
def pcieOpen (s : State) : Bool := s.boot.ready && !s.straps.boot
/-- A host access to BAR0 or BAR2 has an effect: the endpoint answers, and the device is not in SAFE HOLD, where the status block is the only
interface (R364). -/
def hostOpen (s : State) : Bool := pcieOpen s && !inSafeHold s
/-- Rings enabled. -/
def ringsOn (s : State) : Bool := pcieOpen s && bitOf (reg s (bkey 0x1000)).toNat 0

/-- Work of a command that goes on in the device stops in SAFE HOLD, where SRAM design state and DDR5 stay as they are (R364, R544). -/
def unlessHeld (s : State) (f : State → State) : State := if inSafeHold s then s else f s

/-- Room in the reply or event ring. -/
def ringRoom (s : State) (prod cons log2 : Nat) : Bool :=
  decide (((reg s (bkey prod)) - (reg s (bkey cons))).toNat < 2 ^ (reg s (bkey log2)).toNat)
/-- Room for a reply. -/
def replyRoom (s : State) : Bool := ringRoom s 0x103C 0x1040 0x1038
/-- Room for an event; none while the outputs are disabled (R617). -/
def eventRoom (s : State) : Bool := !s.pwr.disabled && ringRoom s 0x105C 0x1060 0x1058

/-- Signal an MSI-X vector, or set its pending bit when its table entry masks it (R339). -/
def signal (s : State) (v : Nat) : State :=
  if bitOf (reg s (bkey (0x8000 + 16 * v + 12))).toNat 0 then { s with io := { s.io with pba := ins s.io.pba v } }
  else { s with io := { s.io with sent := put s.io.sent v ((lookup s.io.sent v).getD 0 + 1) } }

/-- Write the indices to the write-back block (R356). -/
def writeBack (s : State) : State :=
  { s with io := { s.io with wb := [reg s (bkey 0x1020), reg s (bkey 0x103C), reg s (bkey 0x105C)] } }

/-- DCN [31:0] as replies and events carry it. -/
def dcnLo (s : State) : Word := lo32 s.seq.dcn
/-- A 64-bit count as two words. -/
def dwords (n : Nat) : List Word := [lo32 n, hi32 n]

/-- Send a reply or event to a management session under its next counter (R376); the state shows the latest 16. -/
def sendMgmt (s : State) (id : Word) (m : Reply ⊕ Event) : State :=
  match s.sec.sessions.find? (fun x => x.id == id) with
  | none => s
  | some x => { s with
      net := { s.net with mgmtOut := ((id, x.ctrOut + 1, m, answerMac x.key id (x.ctrOut + 1) m) :: s.net.mgmtOut).take 16 }
      sec := { s.sec with sessions := s.sec.sessions.map (fun y => if y.id == id then { y with ctrOut := y.ctrOut + 1 } else y) } }

/-- Copy an event to every session subscribed to its code (R379, R592). A device in SAFE HOLD sends no datagram. -/
def copyEvent (s : State) (e : Event) : State :=
  if inSafeHold s then s
  else (s.sec.sessions.filter (fun x => bitOf x.mask.toNat e.code)).foldl (fun s x => sendMgmt s x.id (.inr e)) s

/-- The next event number of this device is taken: an event is numbered when it is raised, so that its copies carry the number that its ring
entry does (R360, R379; DEDUCED, log 24). -/
def tickEvent (s : State) : State := { s with io := { s.io with evSeq := s.io.evSeq + 1 } }

/-- Queue an event (R360) for the event ring; it carries the DCN at which it was raised. -/
def queueEvent (s : State) (code status : Nat) (tag : BitVec 16) (payload : List Word) : State :=
  let e : Event := { code := code, status := status, tag := tag, dcnLo := dcnLo s, seq := s.io.evSeq, payload := payload }
  copyEvent (tickEvent { s with io := { s.io with queue := s.io.queue ++ [e] } }) e

/-- Queue an event whose payload is no whole number of words: LENGTH in bytes. -/
def queueShort (s : State) (code len : Nat) (payload : List Word) : State :=
  let e : Event := { code := code, status := 0, tag := 0, dcnLo := dcnLo s, seq := s.io.evSeq, payload := payload, len := len }
  copyEvent (tickEvent { s with io := { s.io with queue := s.io.queue ++ [e] } }) e

/-- Network address of the active service controller: its router and endpoint on the I/O die (R454, R455). -/
def ctlAddress (s : State) : Nat := 15 * 2 ^ 12 + (if s.ctl.activeB then 2 else 1) * 2 ^ 9 + 2 ^ 6 + 2

/-- A VN3 packet to a position: a relayed command, its reply, or an event (R358, R458). -/
def vn3Packet (s : State) (pos cmd : Nat) (ws : List Word) : OutPacket :=
  { die := 15, pos := pos, vn := 3, cmd := cmd, status := 0, src := ctlAddress s, dst := ctlAddress s, tag := 0, words := ws }

/-- The completion of a command that replied 0x0001 (R360, R361): an event here, or an event packet to the device that relayed
the command (R358). -/
def postCompletion (s : State) (w : Waiting) (status : Nat) (ws : List Word) : State :=
  if w.quiet then s
  else match w.path with
  | .relay p _ =>
    let e : Event := { code := 1, status := status, tag := w.tag, dcnLo := dcnLo s, seq := s.io.evSeq, payload := ws }
    let s := tickEvent s
    { s with
      net := { s.net with
        relayBack := ((p, .inr e) :: s.net.relayBack).take 16
        out := s.net.out ++ [vn3Packet s p 0x3A (bytesWords (eventPacket e))] } }
  | _ => queueEvent s 1 status w.tag ws

/-- Complete every waiting command that satisfies a test, with a status and result words. -/
def completeWhere (s : State) (p : Waiting → Bool) (status : Nat) (ws : List Word) : State :=
  let done := s.io.waiting.filter p
  let s := { s with io := { s.io with waiting := s.io.waiting.filter (fun w => !p w) } }
  done.foldl (fun s w => postCompletion s w status ws) s

/-- The list without its first element that satisfies a test. -/
def dropFirst {α : Type} (p : α → Bool) : List α → List α
  | [] => []
  | a :: as => if p a then as else a :: dropFirst p as

/-- The oldest waiting command that satisfies a test. -/
def firstWaiting (s : State) (p : Waiting → Bool) : Option Waiting := s.io.waiting.find? p

/-- Complete it. -/
def completeFirst (s : State) (p : Waiting → Bool) (status : Nat) (ws : List Word) : State :=
  match firstWaiting s p with
  | none => s
  | some w => postCompletion { s with io := { s.io with waiting := dropFirst p s.io.waiting } } w status ws

/-- Complete every waiting command of an opcode. -/
def completeAll (s : State) (opcode status : Nat) (ws : List Word) : State := completeWhere s (fun w => w.opcode == opcode) status ws

/-- A command of the rings is in progress: taken and not replied to. -/
def ringBusy (s : State) : Bool := s.io.deferred.any (fun w => w.path == .pcie) || s.io.relayed.any (fun r => r.path == .pcie && !r.accepted)

/-- EN clears, and with it the agreement of R367, once the command in progress has replied (R355). -/
def finishDisable (s : State) : State :=
  if s.io.stopping && !ringBusy s then
    setReg { s with io := { s.io with stopping := false, version := none } } (bkey 0x1000) (reg s (bkey 0x1000) &&& 0xFFFFFFFE)
  else s

/-- Write an event into the event ring, update the write-back block and signal the vector (R356). -/
def writeEvent (s : State) (e : Event) : State :=
  let prod := reg s (bkey 0x105C)
  let i := prod.toNat % 2 ^ (reg s (bkey 0x1058)).toNat
  let s := { s with io := { s.io with events := put s.io.events i e } }
  let s := setReg s (bkey 0x105C) (prod + 1)
  signal (writeBack s) (wfld (reg s (bkey 0x100C)) 13 8)

/-! ### Error records and fault classes (R527 to R545) -/

/-- The two low halves of record words. -/
def errWords (r : ErrRec) : List Word :=
  [packW [(0, 16, r.cause), (16, 8, r.cls), (24, 8, r.flags)], r.unit, lo32 r.dcn, hi32 r.dcn]
    ++ words96 r.time ++ [lo32 r.seq, packW [(0, 8, r.memClass), (8, 8, r.source)], lo32 r.stallUs,
      lo32 r.address, hi32 r.address, lo32 r.syndrome, lo32 r.d1, lo32 r.d2, 0]

/-- The event that carries an error record (R536, R538). -/
def errEvent (r : ErrRec) : Event := { code := 3, status := 0, tag := 0, dcnLo := lo32 r.dcn, seq := r.ev, payload := errWords r }

/-- What a unit that detects a fault reports. -/
structure FaultInfo where
  cls : Nat
  cause : Nat
  unit : Word
  flags : Nat := 0
  memClass : Nat := 0xFF
  source : Nat := 0xFF
  stallUs : Nat := 0
  address : Nat := 0
  /-- Of a memory fault none is a free value (log 9). -/
  syndrome : Option Nat := none
  d1 : Nat := 0
  d2 : Nat := 0
  /-- A FATAL reached through the log or the checkpoint store asks for no replacement (R545). -/
  noReplace : Bool := false

/-- Post the oldest error record when the rings are enabled and the event ring has room (R538). -/
def postError (s : State) : State :=
  match s.err.queue with
  | [] => s
  | r :: rs =>
    if ringsOn s && eventRoom s && !inSafeHold s && !bitOf s.io.mask.toNat 3 then
      writeEvent { s with err := { s.err with queue := rs } } (errEvent r)
    else s

/-- Post up to n error records. -/
def postErrors : Nat → State → State
  | 0, s => s
  | n + 1, s => postErrors n (postError s)

/-- SAFE HOLD (R45, R152, R530, R544): the sluice closed under code 14, the board links held, the PPS_OUT copy as it stood (R610). The first
cause stands. -/
def enterSafeHold (s : State) (cause : Nat) : State :=
  if inSafeHold s then s
  else
    let bl := s.bl.map (fun e => (e.1, if e.2.st == 3 || e.2.st == 4 then { e.2 with st := 6 } else e.2))
    holdReq { s with md := { s.md with safeHold := some cause }, time := { s.time with holdover := true, ppsKept := decide (0 < s.time.ppsLeft) }, bl := bl } 14 0

/-- A record asks for replacement (R545). -/
def asksReplace (cls cause : Nat) (noReplace : Bool) : Bool :=
  cls == 4 || (cls == 5 && cause != 0x0205 && cause != 0x0803 && !noReplace)

/-- Assert REPLACE_REQ_N; FLT_REPLACE keeps the first cause (R545). -/
def assertReplace (s : State) (cause : Nat) : State :=
  if bitOf (ioReg s 0x14 0x008) 0 then s else setIo s 0x14 0x008 (1 + cause * 2 ^ 16)

/-- Store a record unless the queue has no slot it may use (R538, R539). -/
def storeErr (s : State) (r : ErrRec) : State :=
  if s.err.queue.length < (if 4 ≤ r.cls then 64 else 60) then
    let r := { r with ev := s.io.evSeq }
    copyEvent (tickEvent { s with err := { s.err with queue := s.err.queue ++ [r] } }) (errEvent r)
  else { s with err := { s.err with overflow := satAdd 16 s.err.overflow 1 } }

/-- Class counter and SEQ, for every fault (R539, R540). -/
def countFault (s : State) (cls : Nat) : State :=
  let s := bumpIo s 0x14 (0x010 + 4 * (cls - 1)) 32 1
  { s with err := { s.err with seq := s.err.seq + 1 } }

/-- Handling of a fault is in progress (R537). -/
def handling (s : State) : Bool :=
  s.ckp.recovery.isSome || !s.err.pending.isEmpty || !s.err.repairs.isEmpty || s.slu.held.any (fun r => 8 ≤ r.1 && r.1 ≤ 12)

/-- The record of a fault detected now. -/
def recordOf (s : State) (f : FaultInfo) : ErrRec := {
  cause := f.cause, cls := f.cls, flags := f.flags ||| b2n (handling s), unit := f.unit, dcn := s.seq.dcn, time := stamp s, seq := 0,
  memClass := f.memClass, source := f.source, stallUs := f.stallUs, address := f.address, d1 := f.d1, d2 := f.d2
  syndrome := f.syndrome.getD (if f.memClass == 0xFF then 0 else (Config.freeSyndrome (s.err.seq + s.err.pending.length + s.err.repairs.length)).toNat) }

/-- Make a record (R535): counters, HSB_FAULT and HSB_UNIT, the queue, the replacement request. -/
def addRecord (s : State) (r : ErrRec) (noReplace : Bool) : State :=
  let seq := s.err.seq
  let s := countFault s r.cls
  if r.cls == 1 && !bitOf (ioReg s 0x14 0x00C) 0 then s
  else
    let asks := asksReplace r.cls r.cause noReplace
    let flags := r.flags ||| (if asks then 8 else 0)
    let s := storeErr s { r with seq := seq, flags := flags }
    let e := { s.err with seen := ins s.err.seen r.cls }
    let e := if 4 ≤ r.cls then { e with cause := r.cause, unit := r.unit } else e
    let s := { s with err := e, trc := { s.trc with errIn := true } }
    let s := if asks then assertReplace s r.cause else s
    if r.cls == 3 || r.cls == 4 then maxIo s 0x14 0x024 r.stallUs else s

/-- Microseconds for which a number of slots held the sluice, rounded up. -/
def slotsUs (s : State) (n : Nat) : Nat := usTicks s (32 * n)

/-- Handling ends without a repair: every waiting record is made, so that none is lost (R535, R546). A fault that only a recovery mends is
FATAL then, since the recovery cannot complete (R314); the others keep the class that they were detected with (DESIGN CHOICE, log 74). -/
def flushRecords (s : State) : State :=
  let rs := s.err.pending ++ s.err.repairs.flatMap (fun r => r.recs.map (fun e => { e with stallUs := slotsUs s r.driven }))
  rs.foldl (fun s r => addRecord s (if r.source == 13 then { r with cls := 5, flags := r.flags ||| 16 } else r) (r.source == 13))
    { s with err := { s.err with pending := [], repairs := [] } }

/-- A record; a FATAL one enters SAFE HOLD, where nothing is handled any more, after posting its record where the event ring has room (R530,
R538). -/
def makeRecord (s : State) (r : ErrRec) (noReplace : Bool) : State :=
  if r.cls == 5 then enterSafeHold (postErrors 64 (addRecord (flushRecords s) r noReplace)) r.cause else addRecord s r noReplace

/-- Records of the faults in handling overlap with that of a new one (R537). -/
def noteOverlap (s : State) : State :=
  { s with err := { s.err with
      pending := s.err.pending.map (fun r => { r with flags := r.flags ||| 1 })
      repairs := s.err.repairs.map (fun r => { r with recs := r.recs.map (fun e => { e with flags := e.flags ||| 1 }) }) } }

/-- A fault whose class is known at once. -/
def fault (s : State) (f : FaultInfo) : State := makeRecord (noteOverlap s) (recordOf s f) f.noReplace

/-- A fault whose record is made when its handling ends (R535). -/
def pendFault (s : State) (f : FaultInfo) : State :=
  let r := recordOf s f
  let s := noteOverlap s
  { s with err := { s.err with pending := s.err.pending ++ [r] } }

/-- Make the waiting records that satisfy a test, with the class that the end gives them. -/
def endFault (s : State) (p : ErrRec → Bool) (f : ErrRec → ErrRec) : State :=
  let rs := s.err.pending.filter p
  rs.foldl (fun s r => makeRecord s (f r) false) { s with err := { s.err with pending := s.err.pending.filter (fun r => !p r) } }

/-- Slots of 20 µs, and those of them in which the board stands as the repair is made: it freezes eight slots after the request (R134). -/
def boundSlots (s : State) : Nat := (if gradeEff s == 2 then 1000 else 800) - 8

/-- Slots that a repair takes in the freeze, which the spec leaves to the unit: a free value within 20 µs, and enough of them for a weir's markers
(R531; log 9, log 56). -/
def repairSlots (s : State) : Nat := 64 + Config.freeNat s.freeCtr % (boundSlots s - 63)

/-- A single fault goes into handling (R531, R532): its code is requested until its repair ends. -/
def startRepair (s : State) (r : Repair) : State :=
  let s := countReq (noteOverlap s) r.code
  { s with err := { s.err with repairs := s.err.repairs ++ [r] } }

/-- A single fault of a unit (R531): a request under a source code until its repair has ended, and its record then; at once where no slots
run, or in SAFE HOLD, where no repair is made. -/
def unitFault (s : State) (code unit : Nat) (f : FaultInfo) : State :=
  if !slotsRun s || inSafeHold s then fault s { f with source := code }
  else
    startRepair (tickFree s) {
      code := code, unit := unit, left := some (repairSlots s), driven := 0, word := none, recs := [recordOf s { f with source := code }] }
/-- A single fault that no other joins. -/
def singleFault (s : State) (code : Nat) (f : FaultInfo) : State := unitFault s code 0 f

/-- A repair of a unit is in progress. -/
def inRepair (s : State) (code unit : Nat) : Bool := s.err.repairs.any (fun r => r.code == code && r.unit == unit)

/-- A lane that fails while its unit's lanes are remapped joins the remap, which starts again with both; each failure has its record
(R447, R508). -/
def joinRepair (s : State) (code unit : Nat) (f : FaultInfo) : State :=
  if inRepair s code unit && !inSafeHold s then
    let r := recordOf s { f with source := code }
    let n := repairSlots s
    let s := noteOverlap (tickFree s)
    { s with err := { s.err with repairs := s.err.repairs.map (fun x =>
      if x.code == code && x.unit == unit then { x with left := some n, recs := x.recs ++ [r] } else x) } }
  else unitFault s code unit f

/-- An uncorrectable instruction word (R85, R86): code 8 until the word is rewritten, at the latest 20 µs on; a second error of a word in
repair is FATAL (R516). -/
def wordFault (s : State) (store : StoreKind) (key : Nat) (f : FaultInfo) : State :=
  if s.ds.faulty.contains (store, key) then fault s { f with cls := 5, flags := f.flags ||| 16, source := 8 }
  else if !slotsRun s || inSafeHold s then fault s { f with cls := 3, source := 8 }
  else
    startRepair { s with ds := { s.ds with faulty := s.ds.faulty ++ [(store, key)] } } {
      code := 8, unit := 0, left := some (boundSlots s), driven := 0, word := some (store, key), recs := [recordOf s { f with cls := 3, source := 8 }] }

/-- The boundary of this cycle has closed its log entry, and has collected its outbound messages. -/
def entryClosed (s : State) : Bool := s.seq.tick == .bound 16
def collectedNow (s : State) : Bool := match s.seq.tick with | .bound i => decide (9 ≤ i) | _ => false

/-- RECOVERING begins at DCN F, the DCN that the board holds (R310). -/
def joinRecovery (s : State) : State :=
  { s with ckp := { s.ckp with
    recovery := some {
      f := s.seq.dcn, kept := entryClosed s, collected := collectedNow s, stepping := false, die := none, stall0 := ioReg s 0x02 0x074 } } }

/-- RECOVERING begins, and the other devices of the board are told. -/
def beginRecovery (s : State) : State := if s.ckp.recovery.isSome then s else sendFw (joinRecovery s) (.orderRecovery s.seq.dcn)

/-- A condition that only design-state recovery mends (R310): the request of code 13, and the record when the recovery ends. A
further cause during a recovery is FATAL (R314, R528). Where the board does not step the recovery begins at once. -/
def needRecovery (s : State) (f : FaultInfo) : State :=
  if s.ckp.recovery.isSome then fault s { f with cls := 5, flags := f.flags ||| 16, source := 13 }
  else
    let s := holdReq (pendFault s { f with cls := 3, source := 13 }) 13 0
    if stepping s then s else beginRecovery s

/-! ### Modes -/

/-- Number of a mode in HSB_MODE (R352). -/
def modeNum : Mode → Nat
  | .boot => 0 | .standby => 1 | .loaded => 2 | .run => 3 | .replay => 4 | .service => 5
/-- Number of a sub-state in HSB_MODE. -/
def subNum : Sub → Nat
  | .free => 0 | .stepN => 1 | .halted => 2

/-- SUB reads 0 outside RUN. -/
def subField (s : State) : Nat := if s.md.mode == .run then subNum s.md.sub else 0

/-- A mode change with its event 0x0004 (R360): the new mode and sub-state, then the effective DCN. -/
def modeEvent (s : State) (dcn : Nat) : State :=
  let s := { s with trc := { s.trc with modeIn := true } }
  queueEvent s 4 0 0 ([packW [(0, 3, modeNum s.md.mode), (3, 2, subField s)]] ++ dwords dcn)

/-- Every bundle leaves electrical idle, which exists in STANDBY and LOADED alone (R505). -/
def wakeLinks (s : State) : State :=
  let s := s.bl.foldl (fun s e => if e.2.st == 4 then bump s (rkey e.1 0x11 0x060) 32 1 else s) s
  { s with bl := s.bl.map (fun e => (e.1, if e.2.st == 4 then { e.2 with st := 3 } else e.2)) }

/-- Enter a mode; sub-state and debug flag exist in RUN alone (R38). -/
def setMode (s : State) (m : Mode) (sub : Sub) (debug : Bool) : State :=
  let s := { s with md := { s.md with mode := m, sub := if m == .run then sub else .free, debug := m == .run && debug } }
  if m == .standby || m == .loaded then s else wakeLinks s

/-- The DCN that a change in effect now reports: the last completed cycle while the board stands after one, else 0. -/
def lastDcn (s : State) : Nat := s.seq.dcn - 1

end Sys2Proof.Machine
end

