-- ==== Sys2Proof/Machine/DdrMap.lean ====
section
/-! DEFINITION. Machine/DdrMap.lean: the DDR5 map: channels, areas in ascending address order, the place of a region word, and the error records
of DDR5 words (R168 to R170, R511, R513, R514, R534). -/
namespace Sys2Proof.Machine

/-- Channel of a device byte address (R168). -/
def ddrChannel (x : Nat) : Nat :=
  let g := x / 2 ^ 12
  fld g 2 0 ^^^ fld g 5 3 ^^^ fld g 8 6

/-- Bytes of the instruction sections of an image, which the golden copy holds (R169). -/
def goldenBytes (i : Image) : Nat := ((i.table.filter (fun e => e.typ == 0x10 || e.typ == 0x11 || e.typ == 0x12)).map (·.length)).sum

/-- Bytes of the checkpoint store: two slots, each with a copy-on-write area of cow GB (R169, R293); none before the first load. -/
def storeBytes (s : State) (cow : Nat) : Nat := if cow == 0 then 0 else 2 * ((if s.ident.small then 568 else 1136) * 2 ^ 20 + cow * 2 ^ 30)

/-- Sizes of the areas before the design area in ascending address order (R169): firmware and service, golden copy, checkpoint store,
capture spill, replay log. -/
def areaSizes (s : State) : List Nat :=
  [4 * 2 ^ 30, s.img.golden, storeBytes s s.img.cowGb, s.img.spillGb * 2 ^ 30, s.img.logMb * 2 ^ 20]

/-- First byte of area k; area 5 is the design area. -/
def areaBase (s : State) (k : Nat) : Nat := ((areaSizes s).take k).sum

/-- The area that holds a device byte address. -/
def areaAt (s : State) (x : Nat) : Nat := (numsWhere 6 (fun k => decide (0 < k) && decide (areaBase s k ≤ x))).length

/-- First granule of a region within the design area: the device places the regions in ascending index (DESIGN CHOICE, log 66). -/
def regionBase (i : Image) (r : Nat) : Nat := ((i.regions.filter (fun d => decide (d.index < r))).map (·.granules)).sum

/-- Device byte address of a region word, key 2^32 region + word. -/
def ddrAddr (s : State) (key : Nat) : Nat :=
  areaBase s 5 + 4096 * (match s.img.resident with | some i => regionBase i (key / 2 ^ 32) | none => 0) + 2 * (key % 2 ^ 32)

/-- Word address of the DDR5 word that holds a region word (R511). -/
def ddrWordAddr (s : State) (key : Nat) : Nat := ddrAddr s key / 8

/-- An area without design data is written anew: it holds no poison (R513). -/
def clearArea (s : State) (k : Nat) : State :=
  { s with img := { s.img with poison := s.img.poison.filter (fun w => areaAt s (8 * w) != k) } }

/-- An error record of the DDR5 word at a word address. -/
def ddrInfo (cls cause flags : Nat) (unit : Word) (addr : Nat) : FaultInfo := {
  cls := cls, cause := cause, unit := unit, flags := flags, memClass := 7, address := addr }

/-! ### DDR5 words (R511) -/

/-- Number of set bits below bit n. -/
def weight (n v : Nat) : Nat := (numsWhere n (bitOf v)).length

/-- A single-bit syndrome: a check bit's, or a column of the code, of odd weight. -/
def singleSyndrome (v : Nat) : Bool := weight 8 v == 1 || (weight 8 v % 2 == 1 && Config.hsiaoColumn v)

/-- Outcomes of R511. -/
inductive DdrOutcome where
  | good | corrected | poisoned | addressError | uncorrectable
  deriving DecidableEq, Repr

/-- Outcome of a syndrome. -/
def ddrOutcome (y : BitVec 16) : DdrOutcome :=
  let lo := wfld y 7 0
  let t := wfld y 15 8
  if lo == 0xFF && t == 0xFF then .poisoned
  else if lo == 0 then (if t == 0 then .good else if weight 8 t == 1 then .corrected else .addressError)
  else if t == 0 && singleSyndrome lo then .corrected
  else .uncorrectable

/-- One bit of the CRC-8 with polynomial x^8 + x^2 + x + 1. -/
def crc8Bit (c : BitVec 8) (b : Bool) : BitVec 8 := if (c.getLsbD 7) != b then (c <<< 1) ^^^ 0x07 else c <<< 1
/-- Tag of a word address: its CRC-8 from the most significant bit down, initial value 0. -/
def ddrTag (w : BitVec 38) : BitVec 8 := (List.range 38).foldl (fun c j => crc8Bit c (w.getLsbD (37 - j))) 0

/-- Syndrome that the controller computes for the word it asked for: what is wrong with the word that came, and the tag of its address
against that of the address asked for. -/
def ddrSyndrome (addr : Nat) (synd : BitVec 16) (wrong : BitVec 38) : BitVec 16 :=
  let w := BitVec.ofNat 38 addr
  synd ^^^ ((ddrTag w ^^^ ddrTag (w ^^^ wrong)) ++ (0 : BitVec 8))

/-- The DDR5 word that holds a region word becomes poison: it is rewritten with data 0 (R513). -/
def poisonWord (s : State) (key : Nat) : State :=
  { s with ds := { s.ds with
      regions := wrAll s.ds.regions ((List.range 4).map (fun j => (key / 4 * 4 + j, 0))), poison := ins s.ds.poison (key / 4) } }

/-- A read for the host reads poison, which is no new fault: DEFERRED (R513, R514). -/
def ddrPoisonRead (s : State) (addr d1 d2 : Nat) : State :=
  fault s { ddrInfo 2 0x0103 2 (siteLoc 15) addr with syndrome := some 0xFFFF, d1 := d1, d2 := d2 }

/-- A word of a read for the host is uncorrectable (R510, R514); `spoil` is what becomes of it. -/
def ddrLost (s : State) (spoil : State → State) (flags : Nat) (synd : Option Nat) (addr d1 d2 : Nat) : State :=
  fault (countEcc (spoil s) 15 7 true) { ddrInfo 2 0x0102 flags (siteLoc 15) addr with syndrome := synd, d1 := d1, d2 := d2 }

/-- A word comes for a read for the host (R511, R512): what it does to the state, and whether the word is delivered. A word of another address
leaves the stored one alone. -/
def ddrWordRead (s : State) (spoil : State → State) (addr : Nat) (w : DdrWordFound) : State × Bool :=
  let y := ddrSyndrome addr w.synd w.wrong
  match ddrOutcome y with
  | .good => (s, true)
  | .corrected => (fault (countEcc s 15 7 false) { ddrInfo 1 0x0101 0 (siteLoc 15) addr with syndrome := some y.toNat }, true)
  | .addressError =>
    (fault (bump16Hi s (rkey 15 0x13 0x1F0)) { ddrInfo 2 0x0102 4 (siteLoc 15) addr with syndrome := some y.toNat }, false)
  | _ => (ddrLost s spoil 0 (some y.toNat) addr 0 0, false)

end Sys2Proof.Machine
end

