-- ==== Sys2Proof/Machine/Routes.lean ====
section
/-! DEFINITION. Machine/Routes.lean: the links and modules that carry the step network, the routes between dies, their shares and the pads of
their weirs (R27, R104, R108, R112, R118 to R122, R438, R449, R450). -/
namespace Sys2Proof.Machine

/-- A board link of a die. -/
def linkOf (s : State) (d : Nat) : Option BoardLink := lookup s.bl d

/-- The link is trained and connected: up, in electrical idle, looped or held (R509). -/
def linkUp (b : BoardLink) : Bool := b.st == 3 || b.st == 4 || b.st == 5 || b.st == 6

/-- STATE of a link or module that trains, or is still held in reset before it (R475, R487, R509). -/
def inTraining (st : Nat) : Bool := st == 0 || st == 2

/-- Link code of the route from die i to die j (R112). -/
def linkCode (i j : Nat) : Nat := (j + 8 - i) % 8

/-- Ring neighbours (R27). -/
def ringNeighbours (s : State) (i j : Nat) : Bool :=
  if s.ident.small then (i + 1 == j || j + 1 == i) else ((i + 1) % 8 == j || (j + 1) % 8 == i)

/-- Transmit step share of a die on a link code, in channels (R190). -/
def shareOf (i : Image) (die code : Nat) : Nat := 16 * (lookup i.hdr.stepShare (8 * die + code)).getD 0

/-- A module that is not absent, and one that is trained. -/
def modOf (s : State) (m : Nat) : Option UcieMod := lookup s.ucie m
def modTrained (u : UcieMod) : Bool := u.st == 3 || u.st == 4

/-- Ring module between two neighbours, and whether their pair travels on it: not over a module that is down; a retraining leaves the
booking (R438, R448 to R450). -/
def ringModule (i j : Nat) : Nat := 16 + (if (i + 1) % 8 == j then i else j)
def ringPair (s : State) (i j : Nat) : Bool := ringNeighbours s i j &&
  (match modOf s (ringModule i j) with | some m => m.st != 1 | none => false)

/-- A compute die of this part. -/
def dieHere (s : State) (d : Nat) : Bool := decide (d < nDies s)

/-- The flits that carry traffic: up, idle at this end, or held. -/
def linkCarries (b : BoardLink) : Bool := b.st == 3 || b.st == 4 || b.st == 6

/-- Site that keeps a module's counters and whose words LINK_STATUS returns (R475). -/
def moduleSite (m : Nat) : Nat := if m < 16 then m / 2 else if m < 24 then m - 16 else 15

/-- Receive step share of a die on a link code, in channels (R108, R118). -/
def rxShare (s : State) (d c : Nat) : Nat :=
  match s.img.resident with
  | none => 0
  | some i =>
    if c == 0 then
      match linkOf s d with
      | some b => match s.peers.find? (fun p => p.pos == b.peerPos) with
        | some p => 16 * (lookup p.share (8 * b.peerDie)).getD 0
        | none => 0
      | none => 0
    else shareOf i ((d + c) % 8) ((8 - c) % 8)

/-- Class latency of a route: LC3 on board links, LC2 otherwise (R104). -/
def classLatency (c : Nat) : Nat := if c == 0 then 160 else 40

/-- Minimum margin of a weir (R121). -/
def minMargin (s : State) (c : Nat) : Nat :=
  if c == 0 then (if gradeEff s == 2 then 76 else 61) else if gradeEff s == 2 then 14 else 12

/-- Pad that a physical latency leaves (R119, R120). -/
def padOf (c p : Nat) : Nat := classLatency c - p

/-- The weir's last training found a pad below the minimum margin (R122). -/
def weirShort (s : State) (d c : Nat) : Bool :=
  match lookup s.phys (8 * d + c) with
  | some p => padOf c p < minMargin s c
  | none => false

/-- The route exists on this part or board: a die of this part, or a board link that the board connects (R1, R125). -/
def routeExists (s : State) (d c : Nat) : Bool :=
  if c == 0 then (match linkOf s d with | some b => !(b.st == 1 && b.cause == 1) | none => false) else (d + c) % 8 < nDies s

/-- The route exists, and a board link that carries it is up. -/
def routeHere (s : State) (d c : Nat) : Bool :=
  if c == 0 then (match linkOf s d with | some b => linkUp b | none => false) else (d + c) % 8 < nDies s

/-- Modules that end on a die (R438). -/
def dieModules (s : State) (d : Nat) : List Nat :=
  let n := if s.ident.small then 4 else 8
  (s.ucie.map (·.1)).filter (fun m => m / 2 == d && m < 16 || (16 ≤ m && m < 24 && (m - 16 == d || (m - 15) % n == d)))

/-- Ends of a UCIe module (R438): the two sites, the compute-die end first. -/
def moduleEnds (s : State) (m : Nat) : Nat × Nat :=
  if m < 16 then (m / 2, 15) else if m < 24 then (m - 16, (m - 15) % (if s.ident.small then 4 else 8)) else (8, 15)

end Sys2Proof.Machine
end

