-- ==== Sys2Proof/Machine/RouteTable.lean ====
section
/-! DEFINITION. Machine/RouteTable.lean: route tables of VN2 and VN3 along one spanning tree of dies and links, their legs and virtual channels
(R460, R461, R463, R495, R503). The numbering of entries and the choice among equal trees are the model's (log 70). -/
namespace Sys2Proof.Machine

/-! ### The tree (R461) -/

/-- A die of the board: 16 times its position plus its site. -/
def nodeAt (pos site : Nat) : Nat := 16 * pos + site

/-- A module of this device is trained and not looped. -/
def moduleUp (s : State) (m : Nat) : Bool := match modOf s m with | some u => modTrained u && u.loopMode == 0 | none => false

/-- The far die of a die's version 3 board link, by the links here and the topology that controllers report (R195, R503, R507). -/
def farDie (s : State) (pos d : Nat) : List Nat :=
  if pos == posOf s then
    (match linkOf s d with | some b => if linkCarries b && b.version == 3 then [nodeAt b.peerPos b.peerDie] else [] | none => [])
  else match s.peers.find? (fun p => p.pos == pos) with
    | some p => let t := (lookup p.topology d).getD 0; if bitOf t 15 && !bitOf t 14 then [nodeAt (t % 16) (fld t 6 4)] else []
    | none => []

/-- Compute dies of a device of the board; modules of another device count as trained. -/
def diesAt (s : State) (pos : Nat) : Nat :=
  if pos == posOf s then nDies s else match s.peers.find? (fun p => p.pos == pos) with | some p => if p.part == 0x40 then 4 else 8 | none => 0

/-- Dies that a die joins: over spokes, ring modules, the accessory module, its board link. -/
def joined (s : State) (n : Nat) : List Nat :=
  let pos := n / 16
  let d := n % 16
  let own := pos == posOf s
  let k := diesAt s pos
  let spoke (x : Nat) : Bool := !own || moduleUp s (2 * x) || moduleUp s (2 * x + 1)
  if d == 15 then ((List.range k).filter spoke).map (nodeAt pos) ++ (if own && s.acc.st == 4 then [nodeAt pos 8] else [])
  else if d < k then
    (if spoke d then [nodeAt pos 15] else [])
      ++ (((List.range k).filter (fun x => (if own then ringNeighbours s d x && moduleUp s (ringModule d x)
          else x + 1 == d || d + 1 == x || (k == 8 && d + x == 7 && (d == 0 || x == 0))))).map (nodeAt pos)) ++ farDie s pos d
  else if d == 8 then [nodeAt pos 15] else []

/-- One level more of the tree: (die, its parent). -/
def growTree (s : State) (t : List (Nat × Nat)) : List (Nat × Nat) :=
  t.foldl (fun a e => (joined s e.1).foldl (fun a m => if a.any (fun x => x.1 == m) then a else a ++ [(m, e.1)]) a) t
def growAll (s : State) : Nat → List (Nat × Nat) → List (Nat × Nat)
  | 0, t => t
  | n + 1, t => let t' := growTree s t; if t'.length == t.length then t else growAll s n t'

/-- The tree rooted at the I/O die of the device at position 0. -/
def spanningTree (s : State) : List (Nat × Nat) := growAll s 48 [(nodeAt 0 15, nodeAt 0 15)]

/-- A die and those above it. -/
def ancestors (t : List (Nat × Nat)) : Nat → Nat → List Nat
  | 0, n => [n]
  | k + 1, n => match lookup t n with | some p => if p == n then [n] else n :: ancestors t k p | none => [n]

/-- The way between two dies of the tree. -/
def treePath (t : List (Nat × Nat)) (a b : Nat) : List Nat :=
  let pa := ancestors t 48 a
  let pb := ancestors t 48 b
  let up := pa.takeWhile (fun n => !pb.contains n)
  match (pa.drop up.length).head? with
  | some m => if (t.any (fun x => x.1 == a)) && t.any (fun x => x.1 == b) then up ++ [m] ++ (pb.takeWhile (fun n => n != m)).reverse else []
  | none => []

/-! ### Legs and tables (R460) -/

/-- A leg of 12 bits. -/
def legOf (exit arg : Nat) : Nat := 2 ^ 8 * exit + arg % 256

/-- The spoke module that a route takes: the first that is trained. -/
def spokeModule (s : State) (d : Nat) : Nat := if moduleUp s (2 * d) then 0 else 1

/-- Entry of a table that leads to a die: its site on its own device, 16 plus the position for the I/O die of another (log 70). -/
def tableEntry (pos dest : Nat) : Nat := if dest / 16 == pos then dest % 16 else 16 + dest / 16

/-- Legs of a way on this device; the leg BOARD names the entry of the far gateway's table. -/
def legsOf (s : State) (dest : Nat) : List Nat → List Nat
  | a :: b :: r =>
    if b / 16 != a / 16 then [legOf 4 (tableEntry (b / 16) dest)]
    else if b % 16 == 8 then legOf 5 0 :: legsOf s dest (b :: r)
    else if a % 16 == 15 then legOf 1 (b % 16 + 8 * spokeModule s (b % 16)) :: legsOf s dest (b :: r)
    else if b % 16 == 15 then legOf 1 (if a % 16 == 8 then 0 else spokeModule s (a % 16)) :: legsOf s dest (b :: r)
    else legOf (if (a % 16 + 1) % (if s.ident.small then 4 else 8) == b % 16 then 2 else 3) 0 :: legsOf s dest (b :: r)
  | _ => [legOf 0 0]

/-- The legs fit the header: at most four before DELIVER, which an empty leg is. -/
def legsFit (ls : List Nat) : Bool := (ls.filter (fun l => l / 256 != 0)).length ≤ 4

/-- Dies that the tables lead to: those of this device, the I/O dies of the others. -/
def tableDests (s : State) : List Nat :=
  ((List.range (nDies s)) ++ [8, 15]).map (nodeAt (posOf s)) ++ s.peers.map (fun p => nodeAt p.pos 15)

/-- The route tables of every die of this device, built anew (R461). -/
def buildRoutes (s : State) : State :=
  let t := spanningTree s
  { s with net := { s.net with routes := (diesOf s ++ [15]).flatMap (fun d => (tableDests s).filterMap (fun x =>
      let w := treePath t (nodeAt (posOf s) d) x
      let ls := legsOf s x w
      if w.isEmpty || !legsFit ls then none else some (64 * d + tableEntry (posOf s) x, ls))) } }

/-- The route of a die's table to a die of the board. -/
def routeTo (s : State) (d dest : Nat) : Option (List Nat) := lookup s.net.routes (64 * d + tableEntry (posOf s) dest)

/-- Where a leg leads from a die of this device: to a die of it, off it over the board link, to its endpoint, or nowhere. -/
inductive LegStep where
  | die (d : Nat)
  | board
  | deliver
  | decode
  deriving DecidableEq, Repr
def legStep (s : State) (d leg : Nat) : LegStep :=
  let n := if s.ident.small then 4 else 8
  match leg / 256 % 16 with
  | 0 => .deliver
  | 1 => .die (if d == 15 then leg % 8 else 15)
  | 2 => .die ((d + 1) % n)
  | 3 => .die ((d + n - 1) % n)
  | 4 => .board
  | 5 => if d == 15 then .die 8 else .decode
  | _ => .decode

/-- Where a packet with legs comes from a die on: its die, whether it leaves over that die's board link, or none where it meets a reserved
EXIT; a DELIVER must be on the die of DEST (R460). -/
def followLegs (s : State) (site : Nat) : Nat → List Nat → Option (Nat × Bool)
  | d, [] => if d == site then some (d, false) else none
  | d, l :: ls => match legStep s d l with
    | .deliver => if d == site then some (d, false) else none
    | .board => some (d, true)
    | .die e => followLegs s site e ls
    | .decode => none

/-- Modules of a route with the number of legs executed before each: the VC of VN2 there (R461). -/
def legModules (s : State) : Nat → Nat → List Nat → List (Nat × Nat)
  | _, _, [] => []
  | k, d, l :: ls => match legStep s d l with
    | .die e =>
      let m := if e == 8 then 24 else if d == 15 then 2 * e + l / 8 % 2 else if e == 15 then 2 * d + l % 2 else ringModule d e
      (m, k) :: legModules s (k + 1) e ls
    | _ => []

/-- VC of VN3: 0 until the first die crossing on the device, 1 after it (R461). -/
def vn3Vc (crossed : Bool) : Nat := b2n crossed

/-- The die over whose board link a die's route leaves the device. -/
def exitDie (s : State) (d pos : Nat) : Option Nat :=
  match routeTo s d (nodeAt pos 15) with
  | some ls => match followLegs s 15 d ls with | some (e, true) => some e | _ => none
  | none => none

/-! ### Space for responses (R463) -/

/-- Flits of buffer space of a requester: one read of 512 bytes with its header at least, and a free value more. -/
def responseRoom (a : Nat) : Nat := 33 + Config.bufferRoom a
/-- Flits that its outstanding requests hold. -/
def heldRoom (s : State) (a : Nat) : Nat := ((s.net.asked.filter (fun r => r.1 == a)).map (fun r => r.2.2)).sum

/-- A requester of this device may issue a read or an acknowledged write whose response has n flits. -/
def mayAsk (s : State) (a n : Nat) : Bool := heldRoom s a + n ≤ responseRoom a
/-- It holds the space until the response with the tag comes. -/
def ask (s : State) (a tag n : Nat) : State := { s with net := { s.net with asked := s.net.asked ++ [(a, tag, n)] } }
def answered (s : State) (a tag : Nat) : State :=
  match s.net.asked.find? (fun r => r.1 == a && r.2.1 == tag) with
  | some r => { s with net := { s.net with asked := s.net.asked.erase r } }
  | none => s

end Sys2Proof.Machine
end

