-- ==== Sys2Proof/Machine/LinkTx.lean ====
section
/-! DEFINITION. Machine/LinkTx.lean: the transmitters of the board links: what waits, the order of BODY, one flit in each block slot, the retry
buffer (R477, R481 to R486, R492, R496, R497). -/
namespace Sys2Proof.Machine

/-! ### Credits (R456, R464, R496) -/

/-- Key of the credits of a unit, module m or 32 + die for a board bundle, on one of the ten virtual channels of R486. -/
def creditKey (unit vc : Nat) : Nat := 16 * unit + vc
/-- Flits sent whose credit has not come back. -/
def outstanding (s : State) (unit vc : Nat) : Nat := (lookup s.net.credits (creditKey unit vc)).getD 0
/-- Set them. -/
def setOutstanding (s : State) (unit vc n : Nat) : State :=
  { s with net := { s.net with credits := if n == 0 then del s.net.credits (creditKey unit vc) else put s.net.credits (creditKey unit vc) n } }

/-- One credit of each virtual channel of a list is spent. -/
def spendCredits (s : State) (unit : Nat) (vcs : List Nat) : State := vcs.foldl (fun s vc => setOutstanding s unit vc (outstanding s unit vc + 1)) s

/-- Gateway buffer of a VC (R456). -/
def gatewayDepth (vc : Nat) : Nat := if vc < 8 then 96 else 32

/-! ### Packets that leave (R457, R459 to R461, R495) -/

/-- The link that VN0 and VN1 traffic to a position takes: a version 3 link (R495). -/
def directLink (s : State) (pos : Nat) : Option Nat :=
  (s.bl.find? (fun e => linkCarries e.2 && !e.2.spill && e.2.version == 3 && e.2.peerPos == pos)).map (·.1)
/-- Die of a link to a position whose gateway absorbs traffic (R500, R501). -/
def spillTo (s : State) (pos : Nat) : Option Nat := (s.bl.find? (fun e => e.2.spill && e.2.peerPos == pos)).map (·.1)

/-- Link, virtual channel and legs at the link of a packet that leaves. -/
def outWay (s : State) (p : OutPacket) : Option (Nat × Nat × List Nat) :=
  if p.vn < 2 then (directLink s p.pos).map (fun d => (d, (if p.die == d then 0 else 1), []))
  else match exitDie s p.die p.pos, routeTo s p.die (nodeAt p.pos 15) with
    | some d, some ls =>
      let k := ls.length - 1
      some (d, (if p.vn == 2 then k else vn3Vc (k != 0)), ls.drop k)
    | _, _ => none

/-- Flits of a packet with their virtual channel: one header and its data. -/
def outFlits (s : State) (p : OutPacket) (vc : Nat) (legs : List Nat) : List (Nat × Nat) :=
  let fs := dataFlits p.words
  (withSideband p.vn vc p.poison 0 (headerFlit p.dst legs p.vn p.cmd fs.length p.status p.src p.tag (posOf s) p.pos :: fs)).map (fun f => (vcIndex p.vn vc, f))

/-- Replace the transmitter of a link. -/
def setTx (s : State) (d : Nat) (f : LinkTx → LinkTx) : State :=
  { s with bl := s.bl.map (fun e => if e.1 == d then (e.1, { e.2 with tx := f e.2.tx }) else e) }

/-- Packets that wait reach the gateway of their link; one without a way is absorbed at the gateway of the link that it would cross (R500). -/
def loadOut (s : State) : State :=
  let s' := s.net.out.foldl (fun a p => match outWay s p with
    | some (d, vc, legs) => setTx a d (fun t => { t with nets := t.nets ++ outFlits s p vc legs })
    | none => match spillTo s p.pos with
      | some d => bump a (rkey d 0x11 0x074) 32 1
      | none => a) s
  { s' with net := { s'.net with out := [] } }

/-! ### The order of BODY (R484, R492) -/

/-- A flit as it fills: the transmitter left, the items taken, the items that still fit, the credits spent. -/
structure Fill where
  tx : LinkTx
  items : List Nat
  left : Nat
  spent : List Nat

/-- Items of the first kind that wait, as many as fit. -/
def fillMarks (f : Fill) : Fill :=
  let xs := f.tx.again ++ f.tx.marks
  let n := min f.left xs.length
  let k := f.tx.again.length
  { f with items := f.items ++ xs.take n, left := f.left - n, tx := { f.tx with again := f.tx.again.drop n, marks := f.tx.marks.drop (n - k) } }

/-- Timing markers that wait, as many as fit, each with the tick count now (R120). -/
def fillTiming (ticks : Nat) (f : Fill) : Fill :=
  let n := min f.left f.tx.timing
  { f with items := f.items ++ List.replicate n (itemTiming ticks), left := f.left - n, tx := { f.tx with timing := f.tx.timing - n } }

/-- Credits owed go back whenever there is room, so at least once in 32 flits. -/
def fillCredits (f : Fill) : Fill :=
  if f.left == 0 || f.tx.owed.all (· == 0) then f
  else { f with items := f.items ++ [itemCredits f.tx.owed], left := f.left - 1, tx := { f.tx with owed := f.tx.owed.map (· - 255) } }

/-- The first flit of a VN that waits goes, where its channel has a credit. -/
def fillNet (s : State) (d vn : Nat) (f : Fill) : Fill :=
  match f.tx.nets.find? (fun x => (match vn with | 0 => x.1 < 2 | 1 => 2 ≤ x.1 && x.1 < 4 | 2 => 4 ≤ x.1 && x.1 < 8 | _ => 8 ≤ x.1)) with
  | none => f
  | some x =>
    if f.left == 0 || gatewayDepth x.1 ≤ outstanding s (32 + d) x.1 + (f.spent.filter (· == x.1)).length then f
    else { tx := { f.tx with nets := f.tx.nets.erase x }, items := f.items ++ [itemFlit x.2], left := f.left - 1, spent := f.spent ++ [x.1] }

/-- VN3, or VN2, within its rate. -/
def fillRate (s : State) (d vn : Nat) (f : Fill) : Fill :=
  if (if vn == 3 then f.tx.room3 else f.tx.room2) < 128 then f
  else
    let g := fillNet s d vn f
    if g.left == f.left then f
    else if vn == 3 then { g with tx := { g.tx with room3 := g.tx.room3 - 128 } } else { g with tx := { g.tx with room2 := g.tx.room2 - 128 } }

/-- VN1 and VN0 in turn; one with nothing to send leaves its turn to the other. -/
def fillTurn (s : State) (d : Nat) (f : Fill) : Fill :=
  let a := if f.tx.turn0 then 0 else 1
  let g := fillNet s d a f
  let g := if g.left == f.left then fillNet s d (1 - a) f else { g with tx := { g.tx with turn0 := !f.tx.turn0 } }
  g

/-- A step repeated. -/
def timesFill (n : Nat) (g : Fill → Fill) (f : Fill) : Fill := (List.range n).foldl (fun f _ => g f) f

/-- The contents of the next flit (R492): step records; then items in the order of the rule. Delayed records keep items out, and a device in
SAFE HOLD sends no network items and grants no credits (R508). -/
def nextBody (s : State) (d : Nat) (b : BoardLink) (S : Nat) : FlitBody × LinkTx × List Nat :=
  let bits := bodyBits (b.txUsed.length == 16)
  let n := min b.tx.records.length (min 63 ((bits - 6) / (10 + S)))
  let tx := { b.tx with records := b.tx.records.drop n }
  let f : Fill := { tx := tx, items := [], left := if tx.records.isEmpty then (bits - 6 - n * (10 + S)) / 144 else 0, spent := [] }
  let f := fillTiming s.seq.ticks (fillMarks f)
  let f := if inSafeHold s then f
    else
      let f := timesFill 7 (fillRate s d 2) (fillRate s d 3 (fillCredits f))
      timesFill 7 (fillNet s d 3) (timesFill 7 (fillNet s d 2) (timesFill 7 (fillTurn s d) f))
  ({ records := b.tx.records.take n, items := f.items }, f.tx, f.spent)

/-! ### Block slots (R477, R481 to R483, R497) -/

/-- Transmit step share of a die's board link, channels; VN2_RESERVE in effect of a die. -/
def txShare0 (s : State) (d : Nat) : Nat := match s.img.resident with | some i => shareOf i d 0 | none => 0
def vn2Of (s : State) (d : Nat) : Nat := match s.img.resident with | some i => (lookup i.hdr.vn2 d).getD 0 | none => 0
/-- S of R484: 0 on a version 2 link. -/
def txS (s : State) (d : Nat) (b : BoardLink) : Nat := if b.version == 3 then txShare0 s d else 0

/-- Send a flit: CTL with NAK and ACK as they are now, its CRC, scrambled onto the lanes. -/
def sendFlit (s : State) (d : Nat) (b : BoardLink) (S : Nat) (f : SentFlit) : State :=
  let wide := b.txUsed.length == 16
  let v := flitOf wide f.seq (2 ^ 7 * b2n b.tx.nakDue + (b.expect + 127) % 128) (bodyOf S f.body)
  let ls := ((toLanes v b.txUsed.length).zipIdx).map (fun e => scramble (b.tx.scr.getD e.2 0) e.1)
  let quiet := f.body.records.isEmpty && f.body.items.isEmpty && !b.tx.nakDue
  let s := setTx s d (fun t => { t with nakDue := false, scr := ls.map (·.2) })
  if quiet then s
  else { s with net := { s.net with flits := ((d, f.seq, ls.map (fun x => { header := 1, payload := x.1 })) :: s.net.flits).take 16 } }

/-- One block slot of a link: a flit that is resent comes first; a full retry buffer waits. -/
def flitSlot (s : State) (d : Nat) : State :=
  match linkOf s d with
  | none => s
  | some b =>
    let S := txS s d b
    let t := b.tx
    let t := { t with
      slots := t.slots + 1, nakWait := t.nakWait - 1, room3 := min 256 (t.room3 + (if b.version == 3 then 16 else 0))
      room2 := min (128 + 16 * vn2Of s d) (t.room2 + 16 * vn2Of s d) }
    match t.resend with
    | f :: fs => sendFlit (setTx s d (fun _ => { t with resend := fs })) d { b with tx := t } S f
    | [] =>
      if 64 ≤ t.retry.length then setTx s d (fun _ => t)
      else
        let (body, t', spent) := nextBody s d { b with tx := t } S
        let f : SentFlit := { seq := t.seq, slot := t.slots, body := body }
        let s := setTx s d (fun _ => { t' with seq := (t.seq + 1) % 2 ^ 16, retry := t.retry ++ [f] })
        let s := spendCredits s (32 + d) spent
        sendFlit s d { b with tx := t } S f

/-- Units of 1/80 CTRL period of a block slot: 2 ns, or 4 ns at version 2 (R477). -/
def slotUnits (b : BoardLink) : Nat := if b.version == 2 then 128 else 64

/-- A board link's repair as `Repair.unit` numbers it. -/
def linkUnit (d : Nat) : Nat := 100 + d
/-- Slots from the end of a repair by which its lanes carry flits again, and the weir's markers pass (R120, R499; their number
is DESIGN CHOICE, log 56). -/
def weirSlots : Nat := 40
/-- The lanes are being remapped or retrained: no flit is sent, and what waits to be resent follows (R508). -/
def lanesOut (s : State) (d : Nat) : Bool :=
  s.err.repairs.any (fun r => r.code == 9 && r.unit == linkUnit d && (match r.left with | some n => decide (weirSlots < n) | none => false))

/-- One block slot of a link in a loop: PRBS31 goes out on every lane (R507). -/
def loopSlot (s : State) (d : Nat) : State := setTx s d (fun t => { t with prbs := (prbsNext t.prbs).2 })

/-- The block slots of a link in a span of units: it sends flits while it is up or held and its lanes serve, PRBS31 in a loop of its own, nothing
in idle or training. -/
def linkSpan (s : State) (u : Nat) (d : Nat) : State :=
  match linkOf s d with
  | none => s
  | some b =>
    let loops := b.st == 5 && b.loopMode != 4
    if (b.st != 3 && b.st != 6 && !loops) || lanesOut s d then s
    else
      let p := b.tx.phase + u
      (List.range (p / slotUnits b)).foldl (fun s _ => if loops then loopSlot s d else flitSlot s d) (setTx s d (fun t => { t with phase := p % slotUnits b }))

/-- The block slots of every link. -/
def linksSpan (s : State) (u : Nat) : State := (s.bl.map (·.1)).foldl (fun s d => linkSpan s u d) (if s.net.out.isEmpty then s else loadOut s)

/-! ### What comes to the transmitter -/

/-- Flits up to an ACK leave the retry buffer (R482, R497). -/
def ackFlits (t : LinkTx) (ack : Nat) : LinkTx :=
  match t.retry.findIdx? (fun f => f.seq % 128 == ack) with
  | some k => { t with retry := t.retry.drop (k + 1), resend := t.resend.filter (fun f => !(t.retry.take (k + 1)).contains f) }
  | none => t

/-- Every flit in the buffer is sent again, in order, with its number. -/
def resendAll (t : LinkTx) : LinkTx := { t with resend := t.retry, retry := t.retry }

/-- After a training flits are numbered from 0: what no ACK covered goes again in new flits (R464, R483). -/
def freshTx (t : LinkTx) (scr : List (BitVec 58)) : LinkTx :=
  { t with
    records := t.retry.flatMap (·.body.records) ++ t.records, again := t.retry.flatMap (·.body.items) ++ t.again
    seq := 0, retry := [], resend := [], nakDue := false, nakWait := 0, scr := scr }

/-- After a retrain without lane test flits are numbered from 0 again; the retry buffer is kept, and sent again first (R464, R483, R508). -/
def retrainTx (t : LinkTx) (scr : List (BitVec 58)) : LinkTx :=
  let fs := t.retry.zipIdx.map (fun e => { e.1 with seq := e.2 })
  { t with seq := fs.length, retry := fs, resend := fs, nakDue := false, nakWait := 0, scr := scr }

/-- The weir of a version 3 link is trained anew: 1,024 timing markers go out, and those of the far end are awaited (R120). -/
def markWeir (s : State) (d : Nat) : State :=
  { s with bl := s.bl.map (fun e =>
      if e.1 == d && e.2.version == 3 && s.seq.epoch then (e.1, { e.2 with timing := [], tx := { e.2.tx with timing := 1024 } }) else e) }
/-- The same after a training or remap, which leaves no P behind. -/
def trainWeir (s : State) (d : Nat) : State := { markWeir s d with phys := del s.phys (8 * d) }

/-- A marker or link message waits. -/
def queueMark (s : State) (d x : Nat) : State := setTx s d (fun t => { t with marks := t.marks ++ [x] })

/-- A packet waits to leave for another position. -/
def queueOutPacket (s : State) (p : OutPacket) : State := { s with net := { s.net with out := s.net.out ++ [p] } }

end Sys2Proof.Machine
end

