-- ==== Sys2Proof/Machine/Balls.lean ====
section
/-! DEFINITION. Machine/Balls.lean: the ball map of the package: which ball carries which signal or rail (R596 to R600, R613, R614). -/
namespace Sys2Proof.Machine

/-- Ball r-c is the ball at row r, 1 to 96, and column c, 1 to 120 (R596). -/
structure Ball where
  row : Nat
  col : Nat
  deriving DecidableEq, Repr

/-- The second ball of a differential pair, _M: same column, next row (R596). -/
def Ball.minus (b : Ball) : Ball := { b with row := b.row + 1 }

/-- First row and first column of the board-link block of compute die d (R597). -/
def linkBlockRow (d : Nat) : Nat := if d < 4 then 1 else 89
def linkBlockCol (d : Nat) : Nat := 1 + 30 * (d % 4)
/-- The _P ball of lane n of a transmit or receive bundle of die d; 18 is the forwarded clock (R598). -/
def linkTxBall (d n : Nat) : Ball := ⟨linkBlockRow d + 1, linkBlockCol d + n⟩
def linkRxBall (d n : Nat) : Ball := ⟨linkBlockRow d + 5, linkBlockCol d + n⟩
/-- Target pin p and utility pin p (R599). -/
def targetBall (p : Nat) : Ball := ⟨20 + 4 * (p / 32) + p % 32 / 8, 2 + 2 * (p % 8)⟩
def utilityBall (p : Nat) : Ball := ⟨45 + p / 12, 2 + 2 * (p % 12)⟩
/-- The _P balls of PCI Express lane n and of management port k (R597). -/
def pcieTxBall (n : Nat) : Ball := ⟨60, 30 + n⟩
def pcieRxBall (n : Nat) : Ball := ⟨64, 30 + n⟩
def mgmtTxBall (k : Nat) : Ball := ⟨70, 30 + 2 * k⟩
def mgmtRxBall (k : Nat) : Ball := ⟨73, 30 + 2 * k⟩
/-- Signal n of DDR5 channel c, in the order of the connector's pin list: four signals, then a ground ball, row by row from the lowest
of the 29 columns (R597; that the count of four goes on from one row into the next is DEDUCED, log 73). -/
def ddrBall (c n : Nat) : Ball :=
  let k := n + n / 4
  ⟨9 + 10 * c + k / 29, 92 + k % 29⟩

/-- Board signals and straps (R600). -/
inductive BoardBall where
  | sluiceN
  | cascade (line : Nat)
  | cfgDone | cfgErrN | replaceReqN | rstN | perstN | ppsIn | ppsOut | refclk
  | strapPos (bit : Nat)
  | strapBoot
  | strapPull (bit : Nat)
  | strapSlow
  deriving DecidableEq, Repr

/-- How a board signal's ball is driven (R600). -/
inductive BallType where
  | openDrain | openDrainOut | input | pushPull | hcsl | strap
  deriving DecidableEq, Repr

/-- Ball of a board signal; of REFCLK the _P ball (R600). -/
def boardBall : BoardBall → Ball
  | .sluiceN => ⟨56, 30⟩
  | .cascade k => ⟨56, 32 + 2 * k⟩
  | .cfgDone => ⟨56, 40⟩
  | .cfgErrN => ⟨56, 42⟩
  | .replaceReqN => ⟨56, 44⟩
  | .rstN => ⟨57, 30⟩
  | .perstN => ⟨57, 32⟩
  | .ppsIn => ⟨57, 34⟩
  | .ppsOut => ⟨57, 36⟩
  | .refclk => ⟨57, 40⟩
  | .strapPos k => ⟨54, 30 + 2 * k⟩
  | .strapBoot => ⟨54, 38⟩
  | .strapPull k => ⟨54, 40 + 2 * k⟩
  | .strapSlow => ⟨54, 44⟩

/-- Type of a board signal's ball (R600). -/
def boardBallType : BoardBall → BallType
  | .sluiceN | .cascade _ | .cfgDone => .openDrain
  | .cfgErrN | .replaceReqN => .openDrainOut
  | .rstN | .perstN | .ppsIn => .input
  | .ppsOut => .pushPull
  | .refclk => .hcsl
  | .strapPos _ | .strapBoot | .strapPull _ | .strapSlow => .strap

/-- Supply rails of the package (R613). -/
inductive Rail where
  | vcca | vphy | vcsIo | vccIo
  | vcsD (die : Nat)
  | vccD (die : Nat)
  | vccAcc | vddq
  | vioT (bank : Nat)
  | vioU | vioS
  deriving DecidableEq, Repr

/-- First and last column of the rails of compute die k. -/
def dieCols (k : Nat) : Nat × Nat := (47 + 11 * (k % 4), 56 + 11 * (k % 4))
/-- Rows and columns of a rail's ball region (R613). -/
def railRegion : Rail → (Nat × Nat) × (Nat × Nat)
  | .vcca => ((9, 19), (1, 22))
  | .vphy => ((9, 19), (23, 45))
  | .vcsIo => ((49, 58), (1, 28))
  | .vccIo => ((59, 88), (1, 28))
  | .vcsD k => (if k < 4 then (39, 48) else (49, 58), dieCols k)
  | .vccD k => (if k < 4 then (9, 38) else (59, 88), dieCols k)
  | .vccAcc => ((49, 53), (30, 45))
  | .vddq => ((9, 88), (91, 91))
  | .vioT b => ((20 + 4 * b, 23 + 4 * b), (1, 1))
  | .vioU => ((45, 48), (1, 1))
  | .vioS => ((59, 59), (30, 45))

/-- A ball lies in a rail's region. -/
def inRail (r : Rail) (b : Ball) : Bool :=
  let g := railRegion r
  g.1.1 ≤ b.row && b.row ≤ g.1.2 && g.2.1 ≤ b.col && b.col ≤ g.2.2

/-- Nominal voltage in mV, or the choices of an I/O rail, and its lowest and highest operating voltage at a nominal one (R613). -/
def railNominal : Rail → List Nat
  | .vcca => [1800]
  | .vphy => [900]
  | .vcsIo | .vcsD _ => [850]
  | .vccIo | .vccD _ | .vccAcc => [750]
  | .vddq => [1100]
  | .vioT _ => [1200, 1500, 1800]
  | .vioU => [1800, 3300]
  | .vioS => [1800]
def railRange (r : Rail) (nominal : Nat) : Nat × Nat :=
  match r with
  | .vcsIo | .vcsD _ | .vccIo | .vccD _ | .vccAcc => (nominal - 25, nominal + 25)
  | .vcca | .vphy | .vddq => (nominal * 97 / 100, nominal * 103 / 100)
  | .vioT _ | .vioU | .vioS => (nominal * 95 / 100, nominal * 105 / 100)

/-- The package leaves a rail's balls unconnected: the VCC and VCS of dies 4 to 7 of an AED-9640, VCC_ACC under accessory code N (R614). -/
def railUnconnected (s : State) : Rail → Bool
  | .vcsD k | .vccD k => s.ident.small && 4 ≤ k
  | .vccAcc => s.ident.accessory == 0x4E
  | _ => false
/-- So are the board-link blocks of dies 4 to 7 of an AED-9640 (R598). -/
def linkBlockUnconnected (s : State) (d : Nat) : Bool := s.ident.small && 4 ≤ d

end Sys2Proof.Machine
end

