-- ==== Sys2Proof/Machine/Sig.lean ====
section
/-! DEFINITION. Machine/Sig.lean: the live configuration signature of the board and the identity record (R195, R196, R371). -/
namespace Sys2Proof.Machine

/-- TOPOLOGY entry of a die of this device (R195). -/
def topoEntry (b : BoardLink) : Nat :=
  if !linkUp b then 0 else if b.version == 2 then 2 ^ 15 + 2 ^ 14 else 2 ^ 15 + 16 * b.peerDie + b.peerPos

/-- TOPOLOGY entries of this device that are not 0: (die, entry). -/
def ownTopology (s : State) : List (Nat × Nat) :=
  (diesOf s).filterMap (fun d => match linkOf s d with
    | some b => if topoEntry b == 0 then none else some (d, topoEntry b)
    | none => none)

/-- Clusters with more than one failed group, as SHORT entries (R88, R195): a cluster has 32 logical groups on 33 physical ones. -/
def ownShorts (s : State) : List Word :=
  (s.ds.failed.filter (fun c => 1 < c.2.length)).map (fun c =>
    packW [(0, 4, posOf s), (4, 3, c.1 / 64), (7, 2, c.1 / 16 % 4), (9, 4, c.1 % 16), (13, 5, 33 - c.2.length)])

/-- Number of devices of the board. -/
def nDevices (s : State) : Nat := s.peers.length + 1

/-- PART of a position, TOPOLOGY of a position. -/
def partAt (s : State) (p : Nat) : Nat :=
  if p == posOf s then partByte s else match s.peers.find? (fun q => q.pos == p) with | some q => q.part | none => 0
def topoAt (s : State) (p d : Nat) : Nat :=
  let t := if p == posOf s then ownTopology s else match s.peers.find? (fun q => q.pos == p) with | some q => q.topology | none => []
  (lookup t d).getD 0

/-- Insert a word in ascending order. -/
def insWord : List Word → Word → List Word
  | [], w => [w]
  | x :: xs, w => if x < w then x :: insWord xs w else w :: x :: xs

/-- SHORT entries of the board in ascending order. -/
def boardShorts (s : State) : List Word := (ownShorts s ++ s.peers.flatMap (·.shorts)).foldl insWord []

/-- The live signature of the board (R195, R196). -/
def liveSig (s : State) : List Byte :=
  let sh := boardShorts s
  [BitVec.ofNat 8 (nDevices s), BitVec.ofNat 8 (gradeEff s)] ++ leBytes 2 sh.length ++ leBytes 4 0
    ++ (List.range 16).map (fun p => BitVec.ofNat 8 (partAt s p))
    ++ (List.range 16).flatMap (fun p => (List.range 8).flatMap (fun d => leBytes 2 (topoAt s p d)))
    ++ wordBytes sh

/-- Build the live signature again, and tell the other devices this device's part of it: at the end of BOOT, also after a reset, after a link
training and after a group remap (R196). -/
def buildSig (s : State) : State :=
  let s := { s with ctl := { s.ctl with sig := liveSig s } }
  if s.peers.isEmpty then s else sendFw s (.signaturePart (posOf s) (partByte s) (ownTopology s) (ownShorts s))

/-- SM3 digest of the signature as it was built last. -/
def liveDigest (s : State) : Digest := sm3 s.ctl.sig

/-- Words R0 and R1 of IDENTIFY (R371). -/
def identWords (s : State) : List Word :=
  [packW [(0, 8, partByte s), (8, 8, s.ident.grade), (16, 8, 0x45), (24, 8, 0x43)],
    packW [(0, 8, s.ident.accessory), (8, 4, gradeEff s), (16, 4, posOf s), (20, 1, b2n (isLead s)), (24, 8, s.ident.stepping)]]

end Sys2Proof.Machine
end

