-- ==== Sys2Proof/Machine/Schedule.lean ====
section
/-! DEFINITION. Machine/Schedule.lean: what a schedule step reads and computes: the instruction words of a step, the step
network, the EP operands and results, tile and DDR ports (R50 to R82, R104 to R119, R157 to R181, R200). -/
namespace Sys2Proof.Machine

/-! ### Instruction words of a step -/

/-- The EP word that an unlisted entry stands for: HOLD alone (log 16). -/
def holdWord : BitVec 80 := 0x200

/-- EP entries listed for step t: (global EP, word). -/
def epAt (i : Image) (t : Nat) : List (Nat × BitVec 80) :=
  (i.ep.filter (fun e => e.1 % 4096 == t)).map (fun e => (e.1 / 4096, e.2))
/-- EP word of an EP at a step. -/
def epWord (i : Image) (ge t : Nat) : BitVec 80 := (lookup i.ep (4096 * ge + t)).getD holdWord
/-- Group word of a group at a step. -/
def grpWord (i : Image) (gg t : Nat) : DWord := (lookup i.grp (4096 * gg + t)).getD 0
/-- Cluster entries listed for step t: (gc, word). -/
def cluAt (i : Image) (t : Nat) : List (Nat × BitVec 128) :=
  (i.clu.filter (fun e => e.1 % 4096 == t)).map (fun e => (e.1 / 4096, e.2))
/-- Cluster word of a cluster at a step. -/
def cluWord (i : Image) (gc t : Nat) : BitVec 128 := (lookup i.clu (4096 * gc + t)).getD 0
/-- Group entries listed for step t: (gg, word). -/
def grpAt (i : Image) (t : Nat) : List (Nat × DWord) :=
  (i.grp.filter (fun e => e.1 % 4096 == t)).map (fun e => (e.1 / 4096, e.2))

/-- CTL bits of an EP word (R56). -/
def ctlWE (w : BitVec 80) : Bool := bitOf w.toNat 0
def ctlBCR (w : BitVec 80) : Bool := bitOf w.toNat 1
def ctlCAP (w : BitVec 80) : Bool := bitOf w.toNat 2
def ctlPOE (w : BitVec 80) : Bool := bitOf w.toNat 3
def ctlPORT (w : BitVec 80) : Nat := wfld w 7 4
def ctlCCE (w : BitVec 80) : Bool := bitOf w.toNat 8
def ctlHOLD (w : BitVec 80) : Bool := bitOf w.toNat 9
/-- Operand selector n of an EP word (R55). -/
def opSel (w : BitVec 80) (n : Nat) : Nat := wfld w (19 + 7 * n) (13 + 7 * n)
/-- Row address and enable of a read port (R60). -/
def rowAddr (w : DWord) (p : Nat) : Nat := wfld w (12 * p + 11) (12 * p)
def rpEn (w : DWord) (p : Nat) : Bool := bitOf w.toNat (48 + p)
/-- Fields of the cluster word (R70). -/
def bcastEn (w : BitVec 128) (j : Nat) : Bool := bitOf w.toNat j
def outEn (w : BitVec 128) (p : Nat) : Bool := bitOf w.toNat (32 + p)
def inLive (w : BitVec 128) (p : Nat) : Bool := bitOf w.toNat (48 + p)
/-- Tile-port field n: operation and descriptor index (R76). -/
def tpOp (w : BitVec 128) (n : Nat) : Nat := wfld w (71 + 8 * n) (70 + 8 * n)
def tpDesc (w : BitVec 128) (n : Nat) : Nat := wfld w (69 + 8 * n) (64 + 8 * n)

/-! ### Access descriptors (R158) -/

/-- Descriptor of a cluster, 0 where the image defines none. -/
def descOf (i : Image) (gc d : Nat) : BitVec 128 := (lookup i.desc (64 * gc + d)).getD 0
def dKind (w : BitVec 128) : Nat := wfld w 0 0
def dA (w : BitVec 128) : Nat := wfld w 5 1
def dW (w : BitVec 128) : Nat := wfld w 9 6 + 1
def dAline (w : BitVec 128) : Nat := wfld w 14 10
def dDline (w : BitVec 128) : Nat := wfld w 19 15
def dGroup (w : BitVec 128) : Nat := wfld w 24 20
def dBit0 (w : BitVec 128) : Nat := wfld w 28 25
def dBase (w : BitVec 128) : Nat := wfld w 63 32
def dLimit (w : BitVec 128) : Nat := wfld w 95 64
def dRegion (w : BitVec 128) : Nat := wfld w 103 96
def dLead (w : BitVec 128) : Nat := wfld w 115 104

/-- Bits b to b + w − 1 of a half replaced by the same bits of another. -/
def mergeBits (old new : Half) (b w : Nat) : Half :=
  BitVec.ofNat 16 (bitsWhere 16 (fun i => if b ≤ i && i < b + w then bitOf new.toNat i else bitOf old.toNat i))

/-! ### Step network (R104 to R119) -/

/-- Units of 16 channels that the spoke-routed routes into die d have below link code c (R449). -/
def unitsBelow (s : State) (i : Image) (d : Nat) : Nat → Nat
  | 0 => 0
  | c + 1 =>
    let o := (d + c) % 8
    unitsBelow s i d c + (if c == 0 || nDies s ≤ o || ringPair s d o then 0 else shareOf i o ((8 - c) % 8) / 16)

/-- Module over which a channel of a die pair's route reaches the receiving die (R449). -/
def recvModule (s : State) (i : Image) (d c ch : Nat) : Nat :=
  let o := (d + c) % 8
  if ringPair s d o then ringModule d o else 2 * d + (unitsBelow s i d c + ch / 16) % 2

/-- The modules that carry a route into die d. -/
def routeModules (s : State) (i : Image) (d c : Nat) : List Nat :=
  (List.range (shareOf i ((d + c) % 8) ((8 - c) % 8) / 16)).foldl (fun a u => ins a (recvModule s i d c (16 * u))) []

/-- The step record that stands in a weir at its due step. -/
def weirAt (s : State) (die code t : Nat) : Option WeirRec :=
  s.ds.weirs.find? (fun r => r.die == die && r.code == code && r.due == t)

/-- The record has brought a channel: its module's part has come. -/
def channelHere (s : State) (i : Image) (r : WeirRec) (ch : Nat) : Bool := r.code == 0 || !r.wait.contains (recvModule s i r.die r.code ch)

/-- The bit of an ingress channel at step t (R115, R116); one that has not come gives 0 (R148). -/
def ingressBit (s : State) (die code ch t : Nat) : Bool :=
  match weirAt s die code t, s.img.resident with
  | some r, some i => r.channels.contains ch && channelHere s i r ch && !weirShort s die code
  | _, _ => false

/-- Out-port bits that a cluster sent at step t. -/
def sentBits (s : State) (gc t : Nat) : Half :=
  match s.ds.outHist.find? (fun r => r.step == t && r.gc == gc) with
  | some r => r.bits
  | none => 0

/-- The bit an in-port takes at step t from the source its table entry names (R113). -/
def inPortBit (s : State) (die : Nat) (src : Half) (t : Nat) : Bool :=
  let n := src.toNat
  if !bitOf n 15 then false
  else if fld n 14 13 == 0 then decide (8 ≤ t) && bitOf (sentBits s (64 * die + fld n 9 4) (t - 8)).toNat (fld n 3 0)
  else ingressBit s die (fld n 12 10) (fld n 9 0) t

/-- In-port bits of a cluster after step t's takes (R75). -/
def inPortsAfter (s : State) (i : Image) (gc : Nat) (w : BitVec 128) (t : Nat) : Half :=
  let old := rd s.ds.inPort gc
  BitVec.ofNat 16 (bitsWhere 16 (fun p =>
    if inLive w p then inPortBit s (gc / 64) ((lookup i.inPort (4096 * (16 * gc + p) + t)).getD 0) t else bitOf old.toNat p))

/-! ### Reads and results (R51 to R63) -/

/-- Read-port output of a group at step t: the row read now, or the row read last. -/
def portOut (s : State) (i : Image) (gg p t : Nat) : Half :=
  let w := grpWord i gg t
  if rpEn w p then rd s.ds.rows (4096 * gg + rowAddr w p) else rd s.ds.rpOut (4 * gg + p)

/-- The value that an operand selector names (R58); inP gives the in-port bits of the step. -/
def candidate (s : State) (i : Image) (gg : Nat) (inP : Half) (t sel : Nat) : Bool :=
  if sel < 64 then bitOf (portOut s i gg (sel / 16) t).toNat (sel % 16)
  else if sel < 96 then bitOf (rd s.ds.bcast (gg / 32)).toNat (sel - 64)
  else if sel < 112 then bitOf inP.toNat (sel - 96)
  else false

/-- Index that the operands form (R52). -/
def opIndex (s : State) (i : Image) (gg : Nat) (inP : Half) (t : Nat) (w : BitVec 80) : Nat :=
  bitsWhere 5 (fun n => candidate s i gg inP t (opSel w n))

/-- Result of an EP at step t (R52, R57). -/
def epResult (s : State) (i : Image) (ge : Nat) (inP : Half) (t : Nat) (w : BitVec 80) : Bool :=
  if ctlHOLD w then bitOf (rd s.ds.epRes (ge / 16)).toNat (ge % 16)
  else bitOf w.toNat (48 + opIndex s i (ge / 16) inP t w)

/-- One EP's work at a step: EP, word, result. -/
structure EpWork where
  ge : Nat
  w : BitVec 80
  r : Bool

/-- The EPs listed at step t with their results; an unlisted EP holds and does nothing. -/
def epWorks (s : State) (i : Image) (t : Nat) : List EpWork :=
  (epAt i t).map (fun e =>
    ⟨e.1, e.2, epResult s i e.1 (inPortsAfter s i (e.1 / 512) (cluWord i (e.1 / 512) t) t) t e.2⟩)

/-- Row t of a group after the EP writes (R62). -/
def writeEp (m : List (Nat × Half)) (t : Nat) (e : EpWork) : List (Nat × Half) :=
  if ctlWE e.w then
    let k := 4096 * (e.ge / 16) + t
    wr m k (mergeBits (rd m k) (if e.r then 0xFFFF else 0) (e.ge % 16) 1)
  else m

/-- EP result registers after the step (R57). -/
def loadRes (m : List (Nat × Half)) (e : EpWork) : List (Nat × Half) :=
  if ctlHOLD e.w then m else wr m (e.ge / 16) (mergeBits (rd m (e.ge / 16)) (if e.r then 0xFFFF else 0) (e.ge % 16) 1)

/-- Toggle counters after the step, against the old row t (R80, R81). -/
def countToggle (rows : List (Nat × Half)) (t : Nat) (m : List (Nat × Half)) (e : EpWork) : List (Nat × Half) :=
  if ctlCCE e.w && ctlWE e.w && (e.r != bitOf (rd rows (4096 * (e.ge / 16) + t)).toNat (e.ge % 16)) then
    wr m (e.ge / 16) (rd m (e.ge / 16) + 1)
  else m

/-- Broadcast lines of a cluster after the step (R71). -/
def bcastAfter (s : State) (works : List EpWork) (gc : Nat) (w : BitVec 128) : Word :=
  let old := rd s.ds.bcast gc
  BitVec.ofNat 32 (bitsWhere 32 (fun j =>
    if bcastEn w j then works.any (fun e => e.ge / 16 == 32 * gc + j && ctlBCR e.w && e.r) else bitOf old.toNat j))

/-- Out-port bits that a cluster sends at the step (R73). -/
def outBits (works : List EpWork) (gc : Nat) (w : BitVec 128) : Half :=
  BitVec.ofNat 16 (bitsWhere 16 (fun p =>
    outEn w p && works.any (fun e => e.ge / 512 == gc && ctlPOE e.w && ctlPORT e.w == p && e.r)))

/-- The bit that an egress entry puts on its channel at step t (R114, R115); outs are this step's out-port bits. -/
def egressBit (s : State) (outs : List (Nat × Half)) (e : EgressEntry) (t : Nat) : Bool :=
  let n := e.w1.toNat
  if !bitOf n 15 then false
  else if fld n 14 13 == 0 then bitOf ((lookup outs (64 * e.die + fld n 9 4)).getD 0).toNat (fld n 3 0)
  else ingressBit s e.die (fld n 12 10) (fld n 9 0) t

/-- Egress entries of a step. -/
def egressAt (i : Image) (t : Nat) : List EgressEntry := i.egress.filter (fun e => wfld e.w0 11 0 == t)

/-- Channels of a route that carry 1 at step t: the OR of the entries of each channel (R117). -/
def routeOnes (s : State) (i : Image) (outs : List (Nat × Half)) (die code t : Nat) : List Nat :=
  ((egressAt i t).filter (fun e => e.die == die && e.code == code && egressBit s outs e t)).foldl
    (fun acc e => ins acc (wfld e.w0 25 16)) []

/-- The records that the die-pair routes of a die take on at step t (LC2, 40 steps); routes without a share, or with a SHORT weir (R122),
send none. -/
def sendRecords (s : State) (i : Image) (outs : List (Nat × Half)) (t : Nat) : List WeirRec :=
  if t + 40 < i.hdr.depth then
    (diesOf s).flatMap (fun d => ((List.range 8).filter (fun c => 0 < c && 0 < shareOf i d c && !weirShort s ((d + c) % 8) ((8 - c) % 8))).map (fun c =>
      { die := (d + c) % 8, code := (8 - c) % 8, sent := t, due := t + 40, channels := routeOnes s i outs d c t
        wait := routeModules s i ((d + c) % 8) ((8 - c) % 8) }))
  else []

/-- Step records that the board links transmit at step t: (die, channels). -/
def boardRecords (s : State) (i : Image) (outs : List (Nat × Half)) (t : Nat) : List (Nat × List Nat) :=
  ((diesOf s).filter (fun d => 0 < shareOf i d 0)).map (fun d => (d, routeOnes s i outs d 0 t))

/-- Ingress channels that some in-port or egress entry takes at step t: (die, code, channel). -/
def namedIngress (i : Image) (t : Nat) : List (Nat × Nat × Nat) :=
  ((cluAt i t).flatMap (fun c => (numsWhere 16 (inLive c.2)).filterMap (fun p =>
    let n := ((lookup i.inPort (4096 * (16 * c.1 + p) + t)).getD 0).toNat
    if bitOf n 15 && fld n 14 13 == 1 then some (c.1 / 64, fld n 12 10, fld n 9 0) else none)))
  ++ (egressAt i t).filterMap (fun e =>
    if bitOf e.w1.toNat 15 && wfld e.w1 14 13 == 1 then some (e.die, wfld e.w1 12 10, wfld e.w1 9 0) else none)

/-- Booked channels that their weir does not hold at their due step (R148). Before the class latency has passed nothing can arrive, and the
channel presents 0 (R115). -/
def weirMisses (s : State) (i : Image) (t : Nat) : List (Nat × Nat × Nat) :=
  (namedIngress i t).filter (fun r => decide (classLatency r.2.1 ≤ t) && match weirAt s r.1 r.2.1 t with
    | some w => !channelHere s i w r.2.2
    | none => true)

/-! ### Tile and DDR ports (R157 to R181) -/

/-- Address on the broadcast lines at the start of the step (R159). -/
def portAddr (s : State) (gc : Nat) (d : BitVec 128) : Nat := fld (rd s.ds.bcast gc).toNat (dAline d + dA d) (dAline d) % 2 ^ dA d

/-- Write data from the lines, in the descriptor's bit positions (R160). -/
def portData (s : State) (gc : Nat) (d : BitVec 128) : Half :=
  BitVec.ofNat 16 ((((rd s.ds.bcast gc).toNat >>> dDline d) % 2 ^ dW d) <<< dBit0 d)

/-- One port operation: cluster, port, operation, descriptor. -/
structure PortOp where
  gc : Nat
  port : Nat
  op : Nat
  d : BitVec 128

/-- Insert an operation in ascending cluster and port. -/
def insOp (o : PortOp) : List PortOp → List PortOp
  | [] => [o]
  | p :: ps => if 4 * o.gc + o.port < 4 * p.gc + p.port then o :: p :: ps else p :: insOp o ps

/-- Port operations of step t in ascending die, cluster and port (R174). -/
def portOps (i : Image) (t : Nat) : List PortOp :=
  ((cluAt i t).flatMap (fun c => (List.range 4).filterMap (fun n =>
    if tpOp c.2 n == 0 then none else some ⟨c.1, n, tpOp c.2 n, descOf i c.1 (tpDesc c.2 n)⟩))).foldl (fun l o => insOp o l) []

/-- A port double booking: the port is in the second step of a write (R165). -/
def doubleBooked (s : State) (o : PortOp) : Bool := s.ds.tileBusy.contains (4 * o.gc + o.port)

/-- The address is at or above LIMIT (R161). -/
def outOfRange (s : State) (o : PortOp) : Bool := decide (dLimit o.d ≤ portAddr s o.gc o.d)

/-- Key of the unit of a tile operation, or of the region word of a DDR operation. -/
def tileKey (s : State) (o : PortOp) : Nat := 2 ^ 20 * o.gc + (dBase o.d + portAddr s o.gc o.d) % 2 ^ 20
def regionKey (s : State) (o : PortOp) : Nat := 2 ^ 32 * dRegion o.d + (dBase o.d + portAddr s o.gc o.d) % 2 ^ 32

/-- The tile read that a port operation starts: it reads the contents at the start of the step (R162, R164). -/
def startTileRead (s : State) (o : PortOp) (t : Nat) : TileRead := {
  due := t + 2, key := if outOfRange s o then none else some (tileKey s o), gg := 32 * o.gc + dGroup o.d, bit0 := dBit0 o.d, width := dW o.d,
  value := if outOfRange s o then 0 else rd s.ds.tiles (tileKey s o) }

/-- A tile write takes effect at the end of its step; the highest port stands (R163, R164). -/
def tileWrite (s : State) (m : List (Nat × Half)) (o : PortOp) : List (Nat × Half) :=
  if outOfRange s o then m else wr m (tileKey s o) (mergeBits (rd m (tileKey s o)) (portData s o.gc o.d) (dBit0 o.d) (dW o.d))

/-- The DDR read that a port operation issues (R172, R174). An out-of-range read needs no response. -/
def startDdrRead (s : State) (o : PortOp) (t : Nat) : DdrRead :=
  let oor := outOfRange s o
  { gc := o.gc, port := o.port, issue := t, lead := dLead o.d, gg := 32 * o.gc + dGroup o.d, bit0 := dBit0 o.d, width := dW o.d,
    value := if oor then 0 else rd s.ds.regions (regionKey s o), key := regionKey s o, chan := ddrChannel (ddrAddr s (regionKey s o)), tick := s.seq.ticks, arrived := oor }

/-- Words of a granule that are not 0. -/
def granuleWords (m : List (Nat × Half)) (g : Nat) : List (Nat × Half) := m.filter (fun e => e.1 / 2048 == g)

/-- A checkpoint with a granule saved, on its first write after it. -/
def saveGranule (m : List (Nat × Half)) (g : Nat) (c : Checkpoint) : Checkpoint :=
  if (lookup c.cow g).isSome then c else { c with cow := put c.cow g (granuleWords m g) }

/-- Save a granule into the COW areas on its first write after a checkpoint (R293). Granule g holds keys 2048 g on. -/
def cowSave (s : State) (g : Nat) : State :=
  { s with ckp := { s.ckp with last := s.ckp.last.map (saveGranule s.ds.regions g), busy := s.ckp.busy.map (saveGranule s.ds.regions g) } }

/-- Write a region word, with copy-on-write first. It is a part of a DDR5 word, so it clears no poison (R513, log 41). -/
def regionPut (s : State) (k : Nat) (v : Half) : State :=
  let s := cowSave s (k / 2048)
  { s with ds := { s.ds with regions := wr s.ds.regions k v } }

/-- A write of n region words from key lo on: the DDR5 words it writes in full are good again (R513, log 41). -/
def clearPoison (s : State) (lo n : Nat) : State :=
  { s with ds := { s.ds with poison := s.ds.poison.filter (fun k => decide (4 * k < lo) || decide (lo + n < 4 * k + 4)) } }

/-- A posted DDR write with the lines of the start of the step (R173, R174); s0 is the state at that start. -/
def ddrWrite (s0 s : State) (o : PortOp) : State :=
  if outOfRange s0 o then s
  else regionPut s (regionKey s0 o) (mergeBits (rd s.ds.regions (regionKey s0 o)) (portData s0 o.gc o.d) (dBit0 o.d) (dW o.d))

/-- Delivery of read data into row t of a group, in the manner of an EP with WE set (R162, R172). -/
def deliverRead (m : List (Nat × Half)) (t gg b w : Nat) (v : Half) : List (Nat × Half) :=
  wr m (4096 * gg + t) (mergeBits (rd m (4096 * gg + t)) v b w)

/-- Activity units of a quadrant (4 die + quad) at step t (R200). -/
def activity (i : Image) (t q : Nat) : Nat :=
  ((epAt i t).filter (fun e => e.1 / 8192 == q && !ctlHOLD e.2)).length
  + 2 * (((grpAt i t).filter (fun e => e.1 / 512 == q)).map (fun e => (numsWhere 4 (rpEn e.2)).length)).sum
  + (((portOps i t).filter (fun o => o.gc / 16 == q)).map (fun o => if dKind o.d == 0 then 16 else 8)).sum

end Sys2Proof.Machine
end

