-- ==== Sys2Proof/Machine/Hazard.lean ====
section
/-! DEFINITION. Machine/Hazard.lean: fixing an effective DCN (R41, R42, R373) and the hazard detector (R214 to R221). -/
namespace Sys2Proof.Machine

/-! ### Effective DCN and fixed stops -/

/-- STEP ticks of a cycle that nothing stalls (R28, R126), and those of the current cycle that have passed but for extra steps. -/
def cycleTicks (s : State) : Nat := depthOf s + 16 + s.seq.marked.length
def cyclePos (s : State) : Nat := match s.seq.tick with | .idle => 0 | .step t => t | .bound b => depthOf s + b

/-- A cycle marker was not as expected (R130). -/
def markerMismatch (s : State) (d c : Nat) : State :=
  needRecovery (bump s (rkey d 0x01 0x01C) 16 1) { cls := 3, cause := 0x0403, unit := siteLoc d, address := if c == 0 then d else 0 }

/-- The cycle markers of the board links whose L-th tick has come leave their weirs, and are compared (R129, R130). -/
def releaseMarks (s : State) : State :=
  let due (m : Nat × Nat × Nat) : Bool := 160 ≤ (s.seq.dcn - m.2.1) * (depthOf s + 16) + cyclePos s
  let wrong := s.net.marksIn.filter (fun m => due m && (m.2.2 != m.2.1 % 2 ^ 16 || 160 < (s.seq.dcn - m.2.1) * (depthOf s + 16) + cyclePos s))
  wrong.foldl (fun s m => markerMismatch s m.1 0) { s with net := { s.net with marksIn := s.net.marksIn.filter (fun m => !due m) } }

/-- Cycle ends after that of the current cycle that fall within 20 µs from now (R42). -/
def dcnWindow (s : State) : Nat := (ticksUs s 20 - (cycleTicks s - cyclePos s)) / cycleTicks s

/-- The effective DCN that the lead device chooses for a change: from the cycle that runs on, within 20 µs; which one is a
free value (log 8). -/
def chooseDcn (s : State) : Nat := s.seq.dcn + Config.freeNat s.freeCtr % (dcnWindow s + 1)

/-- The earliest stop that is fixed. -/
def firstStop (s : State) : Option Nat :=
  s.md.stops.foldl (fun a x => match a with | none => some x.dcn | some d => some (min d x.dcn)) none

/-- Fix a stop; it stays until it takes effect. -/
def fixStop (s : State) (dcn : Nat) (k : StopKind) : State :=
  if s.md.stops.contains ⟨dcn, k⟩ then s else { s with md := { s.md with stops := s.md.stops ++ [⟨dcn, k⟩] } }

/-- Fix a stop at the lead's choice of an effective DCN no earlier than `low`, or at a stop already fixed that is earlier and
not below `low` (R373). Answers the DCN. -/
def stopAt (s : State) (low : Nat) (k : StopKind) : State × Nat :=
  let pick := max low (chooseDcn s)
  let d := match firstStop s with
    | some f => if low ≤ f && f ≤ pick then f else pick
    | none => pick
  let s := fixStop (tickFree s) d k
  (if isLead s then sendFw s (match k with | .runStop => .orderStop d | .replayStop => .orderReplayStop d | _ => .orderHalt d) else s, d)

/-- The lowest effective DCN of a stop that a command asks for now: the DCN that reads, or F while a recovery repeats cycles C to F − 1, so
that the recovery ends first (DESIGN CHOICE, log 75). -/
def stopLow (s : State) : Nat := match s.ckp.recovery with | some r => max s.seq.dcn r.f | none => s.seq.dcn

/-- A device asks the lead to halt the board at a DCN not below `low` (R220, R257): the lead fixes the stop itself. -/
def requestHalt (s : State) (low : Nat) (k : StopKind) : State :=
  if isLead s then (stopAt s (max low (stopLow s)) k).1 else sendFw s (.haltRequest low)

/-! ### Hazard records -/

/-- One hazard found: kind, the unit that counts once a cycle (cluster, die or quadrant), location and details. -/
structure Found where
  kind : Nat
  unit : Nat
  loc : Word
  d1 : Word
  d2 : Word

/-- HALT_EN bit of a kind (R221). -/
def haltsOn (s : State) (kind : Nat) : Bool := bitOf (ioReg s 0x04 0x000) (kind - 1)

/-- The words of a hazard record, and the event that carries it (R218). -/
def hazWords (r : HazRec) : List Word :=
  [packW [(0, 8, r.kind), (8, 1, b2n r.halts), (9, 1, b2n r.lost), (16, 16, r.step)], r.loc, r.d1, r.d2, lo32 r.dcn, hi32 r.dcn]
    ++ words96 r.time ++ [lo32 r.qual, lo32 r.seq, 0]
def hazEvent (r : HazRec) : Event := { code := 2, status := 0, tag := 0, dcnLo := lo32 r.dcn, seq := r.ev, payload := hazWords r }

/-- Store the record of a hazard, at most one per kind and unit and cycle (R219). -/
def storeHaz (s : State) (t : Nat) (f : Found) : State :=
  if s.haz.made.contains (f.kind, f.unit) then s
  else
    let h := { s.haz with made := s.haz.made ++ [(f.kind, f.unit)] }
    if h.queue.length < 256 then
      let r : HazRec := {
        kind := f.kind, halts := haltsOn s f.kind, lost := h.lost, step := t, loc := f.loc, d1 := f.d1, d2 := f.d2,
        dcn := s.seq.dcn, time := stamp s, qual := timeQual s, seq := h.seq, ev := s.io.evSeq }
      let s := copyEvent (tickEvent { s with haz := { h with queue := h.queue ++ [r], seq := h.seq + 1, lost := false } }) (hazEvent r)
      if h.queue.length == 255 then orIo s 0x04 0x004 8 else s
    else bumpIo { s with haz := { h with lost := true } } 0x04 0x030 32 1

/-- A hazard of a kind (R217 to R220): counted, recorded, and with HALT_EN set the board halts at a DCN not below this one. -/
def recordHaz (t : Nat) (s : State) (f : Found) : State :=
  let s := bumpIo s 0x04 (0x010 + 4 * (f.kind - 1)) 32 1
  let s := { s with haz := { s.haz with first := some (s.haz.first.getD s.seq.dcn) } }
  let s := storeHaz s t f
  if haltsOn s f.kind && !s.haz.haltPending then
    requestHalt { s with haz := { s.haz with haltPending := true } } s.seq.dcn .hazard
  else s

/-- Kind 1: channels that two or more entries of one egress list fill (R117). -/
def hazCollisions (i : Image) (t : Nat) : List Found :=
  let es := (egressAt i t).map (fun e => (e.die, e.code, wfld e.w0 25 16))
  (es.eraseDups.filter (fun x => 1 < es.count x)).map (fun x =>
    ⟨1, x.1, siteLoc x.1, packW [(0, 3, x.2.1), (16, 10, x.2.2)], lo32 (es.count x)⟩)

/-- Kind 2: a marked port that reads a row against its mark (R215). -/
def hazMarks (i : Image) (t : Nat) : List Found :=
  (i.marks.filter (fun m => m.1 % 4096 == t)).flatMap (fun m =>
    let gg := m.1 / 4096
    let w := grpWord i gg t
    (List.range 4).filterMap (fun p =>
      let mark := wfld m.2 (2 * p + 1) (2 * p)
      let r := rowAddr w p
      if rpEn w p && ((mark == 1 && t ≤ r) || (mark == 2 && r < t)) then
        some ⟨2, gg / 32, mkLoc (gg / 32) (gg % 32) 0 r, packW [(0, 2, p), (2, 2, mark)], 0⟩
      else none))

/-- Kind 3: port double bookings (R165). -/
def hazPorts (s : State) (i : Image) (t : Nat) : List Found :=
  ((portOps i t).filter (doubleBooked s)).map (fun o => ⟨3, o.gc, mkLoc o.gc 0 0 0, lo32 o.port, 0⟩)

/-- Kind 4: activity above ACT_QUOTA under budget discipline. -/
def hazBudget (s : State) (i : Image) (t : Nat) : List Found :=
  if bitOf i.hdr.flags.toNat 0 then []
  else ((List.range (4 * nDies s)).filter (fun q => i.hdr.actQuota < activity i t q)).map (fun q =>
    ⟨4, q, packW [(28, 4, q / 4), (26, 2, q % 4)], lo32 (activity i t q), lo32 i.hdr.actQuota⟩)

/-- Last take of a line or in-port in this cycle. -/
def lastTake (s : State) (gc sel : Nat) : Option Nat := lookup s.haz.takes (48 * gc + (sel - 64))

/-- Kind 5: freshness entries that do not hold (R216). Lines count the takes of earlier steps; in-ports this step's as well. -/
def hazFresh (s : State) (i : Image) (t : Nat) : List Found :=
  (i.fresh.filter (fun f => wfld f.w 11 0 == t)).filterMap (fun f =>
    let sel := wfld f.w 18 12
    let ex := wfld f.w 31 20
    let live := 96 ≤ sel && inLive (cluWord i f.gc t) (sel - 96)
    let take := if live then some t else lastTake s f.gc sel
    let early := if sel < 96 then t < ex + 1 else t < ex
    if take != some ex || early then
      some ⟨5, f.gc, mkLoc f.gc 0 0 0, lo32 sel, packW [(0, 12, ex), (16, 12, take.getD 0xFFF)]⟩
    else none)

/-- Takes of step t: lines and in-ports (R216). -/
def recordTakes (m : List (Nat × Nat)) (i : Image) (t : Nat) : List (Nat × Nat) :=
  (cluAt i t).foldl (fun m c =>
    let m := (numsWhere 32 (bcastEn c.2)).foldl (fun m j => put m (48 * c.1 + j) t) m
    (numsWhere 16 (inLive c.2)).foldl (fun m p => put m (48 * c.1 + 32 + p) t) m) m

/-- HAZARD_DETECT (R217): in debug RUN, every hazard of step t; s is the state at the start of the step. The cycles that a recovery steps
again are counted and recorded again: DESIGN CHOICE of log 64. -/
def hazards (s0 s : State) (i : Image) (t : Nat) : State :=
  if s.md.mode == .run && s.md.debug then
    let ann := bitOf i.hdr.flags.toNat 1
    let fs := hazCollisions i t ++ (if ann then hazMarks i t else []) ++ hazPorts s0 i t ++ hazBudget s0 i t
      ++ (if ann then hazFresh s0 i t else [])
    let s := fs.foldl (recordHaz t) s
    { s with haz := { s.haz with takes := recordTakes s.haz.takes i t } }
  else s

end Sys2Proof.Machine
end

