-- ==== Sys2Proof/Machine/Recorder.lean ====
section
/-! DEFINITION. Machine/Recorder.lean: the replay recorder: entries of the log, words in effect, host writes, what a replay
takes from an entry (R296 to R303, R307 to R313). -/
namespace Sys2Proof.Machine

/-- REPLAY mode. -/
def inReplay (s : State) : Bool := s.md.mode == .replay
/-- Cycles C to F − 1 of a recovery (R311). -/
def inRecovery (s : State) : Bool := recoverySteps s
/-- The boundary of this cycle takes its inputs from the log (R307, R311, R312). -/
def fromLog (s : State) : Bool := inReplay s || inRecovery s || s.ckp.kept == some (s.seq.dcn + 1)
/-- LIVE of R388. -/
def liveSignal (s : State) : Bool := s.md.mode == .run && stepping s && !fromLog s

/-! ### Entries -/

/-- Bytes of an item and of an entry (R297, R298). -/
def itemBytes (x : LogItem) : Nat := 8 + 8 * cdiv x.payload.length 2
def entryBytes (e : LogEntry) : Nat := 32 + (e.items.map itemBytes).sum
def logBytes (es : List LogEntry) : Nat := (es.map entryBytes).sum

/-- Bytes the log may hold: the area or host buffer of LOG_SIZE (R169, R317). -/
def logCap (s : State) : Nat := 2 ^ 20 * (if s.img.logMb == 0 then ioReg s 0x08 0x01C else s.img.logMb)

/-- DCN of the last checkpoint, whose marker and what follows it the recorder keeps (R302). -/
def lastCkpDcn (s : State) : Option Nat := s.ckp.last.map (·.dcn)

/-- The entries from the marker of a checkpoint DCN on; of a checkpoint taken in REPLAY, which has no marker, from the cycle entry of that
DCN on (R296, R307); all of them when there is none. -/
def fromMarker (es : List LogEntry) (c : Nat) : List LogEntry :=
  let tail (typ : Nat) := es.dropWhile (fun e => !(e.typ == typ && e.dcn == c))
  if !(tail 0x42).isEmpty then tail 0x42 else if !(tail 0x41).isEmpty then tail 0x41 else es

/-- The words of an entry: its header, then each item, filled to a multiple of 8 bytes (R297, R298). -/
def itemImage (x : LogItem) : List Word :=
  [packW [(0, 8, x.kind), (16, 16, x.payload.length)], lo32 x.index] ++ x.payload ++ List.replicate (x.payload.length % 2) 0
def entryImage (e : LogEntry) : List Word :=
  [packW [(0, 8, e.typ), (8, 4, e.pos), (16, 16, e.items.length)], lo32 (entryBytes e)] ++ dwords e.dcn ++ words96 e.time ++ [lo32 e.seq]
    ++ e.items.flatMap itemImage

/-- The host buffer of LOG_HOST with an entry at a byte offset of the circular log, from its start on where its end comes in between
(R302, R317; an entry that meets the end goes on at the start, DESIGN CHOICE of log 67). -/
def hostLogPut (s : State) (at0 : Nat) (e : LogEntry) : State :=
  if !bitOf (ioReg s 0x08 0x000) 6 then s
  else
    let base := ioReg s 0x08 0x020 + ioReg s 0x08 0x024 * 2 ^ 32
    let o := at0 % logCap s
    let n := (logCap s - o) / 4
    let ws := entryImage e
    let m := put s.io.dma (base + o) (ws.take n)
    { s with io := { s.io with dma := if ws.length ≤ n then m else put m base (ws.drop n) } }

/-- Release the oldest entries while the log is over its size, never one at or after the last checkpoint's marker. -/
def trimLog : Nat → Nat → Nat → List LogEntry → List LogEntry
  | 0, _, _, es => es
  | _ + 1, _, _, [] => []
  | n + 1, cap, keep, e :: es => if cap < logBytes (e :: es) && keep < (e :: es).length then trimLog n cap keep es else e :: es

/-- Append a closed entry with the next SEQ (R297), staged until it is drained (R301), into the log area or the host buffer (R317). -/
def appendEntry (s : State) (typ dcn : Nat) (items : List LogItem) : State :=
  let l := s.ckp.log
  let e : LogEntry := { typ := typ, pos := posOf s, dcn := dcn, items := items, time := stamp s, seq := l.seq, bad := false }
  let s := hostLogPut s (l.freed + logBytes l.entries) e
  let es := l.entries ++ [e]
  let keep := match lastCkpDcn s with | some c => (fromMarker es c).length | none => es.length
  let kept := trimLog es.length (logCap s) keep es
  let l := { l with
    entries := kept, freed := l.freed + (logBytes es - logBytes kept), seq := (l.seq + 1) % 2 ^ 32, stagedBytes := l.stagedBytes + entryBytes e }
  { s with ckp := { s.ckp with log := l } }

/-- Items taken into host-write entries of at most 1 MB each (R297, R300). -/
def addItem (gs : List (List LogItem)) (x : LogItem) : List (List LogItem) :=
  match gs.getLast? with
  | some g => if 32 + (g.map itemBytes).sum + itemBytes x ≤ 2 ^ 20 then gs.dropLast ++ [g ++ [x]] else gs ++ [[x]]
  | none => [[x]]

/-- Host-write entries of a DCN with some items. -/
def appendHostWrites (s : State) (dcn : Nat) (ws : List LogItem) : State :=
  (ws.foldl addItem []).foldl (fun s g => appendEntry s 0x44 dcn g) s

/-- Start the log: every entry discarded, SEQ 0 (R303). -/
def emptyLog : LogState :=
  { entries := [], freed := 0, seq := 0, stagedBytes := 0, effect := [], full := true, cur := [], host := [], heldHost := [], cut := none }

/-- Close an open host-write entry (R300). -/
def closeHostWrites (s : State) : State :=
  match s.ckp.log.host with
  | [] => s
  | ws =>
    let s := appendHostWrites s s.seq.dcn ws
    { s with ckp := { s.ckp with log := { s.ckp.log with host := [] } } }

/-- Host writes of `bytes` bytes served now (R300): held after a replay until stepping resumes, not logged before the first
marker. -/
def logHostWrite (s : State) (item : LogItem) (bytes : Nat) : State :=
  let l := s.ckp.log
  let l := if l.cut.isSome then { l with heldHost := l.heldHost ++ [item] }
    else if l.entries.isEmpty then l else { l with host := l.host ++ [item] }
  { s with ckp := { s.ckp with log := l, hostBytes := s.ckp.hostBytes + bytes } }

/-- Channels whose state now is not the one that the log leaves at the end of a replay, as items of the next entry (log 27). -/
def openDiffs (s : State) : List LogItem :=
  (s.trx.chans.filter (fun e => e.2.isOpen != s.ckp.replayOpen.contains e.1)).map (fun e =>
    { kind := 6, index := e.1, payload := [BitVec.ofNat 32 (b2n e.2.isOpen)] })

/-- No cycle entry follows the last checkpoint marker: the next one carries every word (R299). -/
def wantsAll (es : List LogEntry) : Bool :=
  (es.filter (fun e => e.typ == 0x41 || e.typ == 0x42)).getLast?.all (fun e => e.typ == 0x42)

/-- Live logging resumes at T after a replay: what lies beyond T is discarded; the resume marker and the held host writes follow (R308). -/
def resumeAt (s : State) (t : Nat) : State :=
  let l := s.ckp.log
  let es := l.entries.filter (fun e => (e.typ != 0x41 || e.dcn ≤ t) && (e.typ != 0x44 || e.dcn < t))
  let seq := match es.getLast? with | some e => (e.seq + 1) % 2 ^ 32 | none => 0
  let s := { s with ckp := { s.ckp with log := {
    l with entries := es, seq := seq, cut := none, host := [], cur := openDiffs s, full := wantsAll es } } }
  let s := appendHostWrites (appendEntry s 0x43 t []) t s.ckp.log.heldHost
  { s with ckp := { s.ckp with log := { s.ckp.log with heldHost := [] } } }

/-- Live stepping starts (R300, R308): after a replay the log resumes; otherwise the open host-write entry closes. -/
def resumeLogging (s : State) : State :=
  match s.ckp.log.cut with
  | none => closeHostWrites s
  | some t => resumeAt s t

/-- The checkpoint marker of C, after the entry for DCN C; the first cycle entry after it carries every word (R296, R299). In REPLAY the
recorder writes nothing (R307). After a replay the log resumes before it, a DESIGN CHOICE of log 67: R308 says so only of stepping. -/
def writeCkpMarker (s : State) (c : Nat) : State :=
  if inReplay s then s
  else
    let s := appendEntry (resumeLogging s) 0x42 c []
    { s with ckp := { s.ckp with log := { s.ckp.log with full := true } } }

/-! ### Words of a cycle entry (R298, R299) -/

/-- Key of a word in effect. -/
def wkey (kind index : Nat) : Nat := 2 ^ 20 * kind + index

/-- Direct input pins of the image (R393), first samples only or second samples only. -/
def inputPins (i : Image) (second : Bool) : List Nat :=
  (i.portCells.filter (fun e => wfld e.w1 1 0 == 2 && bitOf e.w1.toNat 2 == second)).map (fun e => wfld e.w1 31 16)
/-- Input port cells of the image. -/
def inputCells (i : Image) : List Nat :=
  (i.portCells.filter (fun e => wfld e.w1 1 0 == 0)).map (fun e => wfld e.w1 31 16)

/-- The word j of target input samples. -/
def pinWord (s : State) (i : Image) (j : Nat) : Word :=
  let v := if j < 6 then s.fab.first else s.fab.second
  let pins := inputPins i (6 ≤ j)
  BitVec.ofNat 32 (bitsWhere 32 (fun b => pins.contains (32 * (j % 6) + b) && bitOf v.toNat (32 * (j % 6) + b)))

/-- Port-cell word w. -/
def cellWord (s : State) (i : Image) (w : Nat) : Word :=
  let cells := inputCells i
  BitVec.ofNat 32 (bitsWhere 32 (fun b => cells.contains (32 * w + b) && s.fab.inCells.contains (32 * w + b)))

/-- The words of kinds 0x01 to 0x03 that this boundary has, by key. -/
def boundaryWords (s : State) : List (Nat × Word) :=
  match s.img.resident with
  | none => []
  | some i =>
    (List.range 12).map (fun j => (wkey 1 j, pinWord s i j))
    ++ (((inputCells i).map (· / 32)).foldl ins []).map (fun w => (wkey 2 w, cellWord s i w))
    ++ [(wkey 3 0, BitVec.ofNat 32 s.fab.utilIn.toNat),
        (wkey 3 1, BitVec.ofNat 32 (s.fab.utilIn.toNat / 2 ^ 32 + 2 ^ 16 * b2n s.fab.ext))]

/-- The words that the entry carries: all after a marker, else those that differ from the words in effect. -/
def changedWords (l : LogState) (ws : List (Nat × Word)) : List (Nat × Word) :=
  if l.full then ws else ws.filter (fun w => lookup l.effect w.1 != some w.2)

/-- Put a channel-state item among others in ascending INDEX, after those of its own channel. -/
def insChange : List LogItem → LogItem → List LogItem
  | [], x => [x]
  | y :: ys, x => if y.index ≤ x.index then y :: insChange ys x else x :: y :: ys

/-- The channel-state items among some. -/
def changesOf (l : List LogItem) : List LogItem := l.filter (fun x => x.kind == 6)

/-- REPLAY_ENTRY_CLOSE (R296): the entry for DCN n + 1, its items by kind (R298). Nothing is written in REPLAY, in recovery cycles, or
for a kept entry; changes of a channel's state wait for the next entry that is. -/
def closeEntry (s : State) : State :=
  let l := s.ckp.log
  if fromLog s then { s with ckp := { s.ckp with log := { l with cur := changesOf l.cur } } }
  else
    let ws := boundaryWords s
    let items := (changedWords l ws).map (fun w => ({ kind := w.1 / 2 ^ 20, index := w.1 % 2 ^ 20, payload := [w.2] } : LogItem))
    let items := items ++ l.cur.filter (fun x => x.kind != 6) ++ (changesOf l.cur).foldl insChange []
    let s := { s with ckp := { s.ckp with log := { l with effect := ws.foldl (fun m w => put m w.1 w.2) l.effect, full := false, cur := [] } } }
    if l.entries.isEmpty then s else appendEntry s 0x41 (s.seq.dcn + 1) items

/-! ### Replaying an entry (R304, R309) -/

/-- The cycle entry that gives this boundary its inputs: read before its cycle starts, so that an error found later does not reach it (log 33). -/
def entryFor (s : State) : Option LogEntry :=
  s.ckp.log.entries.find? (fun e => e.typ == 0x41 && e.dcn == s.seq.dcn + 1)

/-- Items of a kind in the entry of this boundary. -/
def itemsOf (s : State) (kind : Nat) : List LogItem :=
  match entryFor s with
  | some e => e.items.filter (fun x => x.kind == kind)
  | none => []

/-- The words in effect after this boundary's entry (R299). -/
def effectAfter (s : State) : List (Nat × Word) :=
  match entryFor s with
  | none => s.ckp.log.effect
  | some e => (e.items.filter (fun x => x.kind ≤ 3)).foldl (fun m x => put m (wkey x.kind x.index) (nth 0 x.payload 0)) s.ckp.log.effect

/-- A word in effect; 0 before the first entry. -/
def effectWord (m : List (Nat × Word)) (k : Nat) : Word := (lookup m k).getD 0

/-- Inputs of the boundary as the log gives them: pins, cells, utility pins and EXT. -/
def loadInputs (s : State) : State :=
  let m := effectAfter s
  let pins (lo : Nat) : BitVec 192 :=
    BitVec.ofNat 192 (bitsWhere 192 (fun b => bitOf (effectWord m (wkey 1 (lo + b / 32))).toNat (b % 32)))
  let cells := (m.filter (fun e => e.1 / 2 ^ 20 == 2)).flatMap (fun e =>
    (numsWhere 32 (bitOf e.2.toNat)).map (fun b => 32 * (e.1 % 2 ^ 20) + b))
  let u0 := effectWord m (wkey 3 0)
  let u1 := effectWord m (wkey 3 1)
  { s with
    fab := { s.fab with
      first := pins 0, second := pins 6, inCells := cells,
      utilIn := BitVec.ofNat 48 (u0.toNat + 2 ^ 32 * fld u1.toNat 15 0), ext := bitOf u1.toNat 16 },
    ckp := { s.ckp with log := { s.ckp.log with effect := m } } }

/-- Write rows, tiles or region words as a host-write item gives them (R298, KIND 0x05). -/
def applyHostItem (s : State) (x : LogItem) : State :=
  let w0 := par x.payload 0
  let loc := nth 0 x.payload 1
  let at0 := par x.payload 2
  let n := fld w0 31 16
  let val (j : Nat) : Half := BitVec.ofNat 16 ((par x.payload (3 + j / 2)) >>> (16 * (j % 2)))
  let vs := (List.range n).map (fun j => (j, val j))
  match fld w0 1 0 with
  | 0 => { s with ds := { s.ds with rows := wrAll s.ds.rows (vs.map (fun v => (4096 * locGg loc + locRow loc + v.1, v.2))) } }
  | 1 => { s with ds := { s.ds with tiles := wrAll s.ds.tiles (vs.map (fun v => (2 ^ 20 * locGc loc + at0 + v.1, v.2))) } }
  | _ => clearPoison (vs.foldl (fun s v => regionPut s (2 ^ 32 * loc.toNat + at0 + v.1) v.2) s) (2 ^ 32 * loc.toNat + at0) n

/-- Host-write entries of DCN n, applied before step 0 of cycle n (R304). -/
def applyHostWrites (s : State) : State :=
  (s.ckp.log.entries.filter (fun e => e.typ == 0x44 && e.dcn == s.seq.dcn && !e.bad)).foldl
    (fun s e => e.items.foldl applyHostItem s) s

/-- The log's entries after the last checkpoint's marker up to the first that ends the log (R309), with whether an error
ended it. `prev` is the SEQ before, `cyc` the DCN of the last cycle entry or of the first marker. -/
def goodEntries : Nat → Nat → List LogEntry → List LogEntry × Bool
  | _, _, [] => ([], false)
  | prev, cyc, e :: es =>
    if e.bad || e.seq != (prev + 1) % 2 ^ 32 || (e.typ == 0x41 && e.dcn != cyc + 1) || (e.typ == 0x44 && e.dcn != cyc) then ([], true)
    else
      let r := goodEntries e.seq (if e.typ == 0x41 then e.dcn else cyc) es
      (e :: r.1, r.2)

/-- DCN up to which the log from a checkpoint marker reaches (its last complete cycle entry), and whether an error ends it. -/
def logEnd (es : List LogEntry) (c : Nat) : Nat × Bool :=
  match fromMarker es c with
  | [] => (c, false)
  | m :: rest =>
    if m.bad then (c, true) else
    let r := goodEntries m.seq c rest
    (r.1.foldl (fun a e => if e.typ == 0x41 then e.dcn else a) c, r.2)

/-- LOG_ERR (R309). -/
def setLogErr (s : State) (b : Bool) : State := if b then orIo s 0x08 0x004 32 else s

end Sys2Proof.Machine
end

