-- ==== Sys2Proof/Decode.lean ====
section
/-! DEFINITION. Decode.lean: the churn instruction words (R277) read into commands and written back, and the word decoder that
the host's interface names. The operation table gives no row any bits, so no word spells a row by the table. -/
namespace Sys2Proof

/-- Bits [hi:lo] of an instruction word. -/
def Decode.bits (w : Word) (lo n : Nat) : BitVec n := BitVec.ofNat n (w.toNat >>> lo)

/-- Every bit of the word outside a mask is 0 (R277: a bit that the table does not name must be 0). -/
def Decode.only (w mask : Word) : Bool := w &&& ~~~mask == 0

/-- KA, KB and KC. -/
def Decode.ka (w : Word) : BitVec 3 := Decode.bits w 23 3
def Decode.kb (w : Word) : BitVec 3 := Decode.bits w 20 3
def Decode.kc (w : Word) : BitVec 3 := Decode.bits w 17 3

/-- The instruction that a word stands for on a die's engine: none for a reserved opcode or a reserved bit that is not 0. -/
def Decode.churn (die : Nat) (w : Word) : Option Instr :=
  let pick (mask : Word) (i : Instr) : Option Instr := if Decode.only w (0xFC000000 ||| mask) then some i else none
  match (w.toNat >>> 26) with
  | 0x00 => pick 0 (.nop die)
  | 0x01 => pick 0 (.halt die)
  | 0x02 => pick 0x038FFFFF (.ldi die (Decode.ka w) (Decode.bits w 0 20))
  | 0x03 => pick 0x03800FFF (.sethi die (Decode.ka w) (Decode.bits w 0 12))
  | 0x04 => pick 0x03FE0000 (.add die (Decode.ka w) (Decode.kb w) (Decode.kc w))
  | 0x05 => pick 0x03F0FFFF (.addi die (Decode.ka w) (Decode.kb w) (Decode.bits w 0 16))
  | 0x06 => pick 0x00700003 (.setp die (Decode.kb w) (Decode.bits w 0 2))
  | 0x07 => pick 0x03800003 (.getp die (Decode.ka w) (Decode.bits w 0 2))
  | 0x08 => pick 0x00001F1F (.setsh die (Decode.bits w 0 5) (Decode.bits w 8 5))
  | 0x09 => pick 0 (.clra die)
  | 0x0A => pick 0x0000001F (.mac die (Decode.bits w 0 5))
  | 0x0B => pick 0x0000001F (.macs die (Decode.bits w 0 5))
  | 0x0C => pick 0 (.suma die)
  | 0x0D => pick 0x00000001 (.sta die (Decode.bits w 0 1))
  | 0x0E => pick 0 (.ldz die)
  | 0x0F => pick 0x03801FFF (.ldk die (Decode.ka w) (Decode.bits w 0 13))
  | 0x10 => pick 0x03801FFF (.stk die (Decode.ka w) (Decode.bits w 0 13))
  | 0x11 => pick 0x00001FFF (.max die (Decode.bits w 0 13))
  | 0x12 => pick 0x00001FFF (.min die (Decode.bits w 0 13))
  | 0x13 => pick 0x03800001 (.getm die (Decode.ka w) (Decode.bits w 0 1))
  | 0x14 => pick 0x000003FF (.repeatN die (Decode.bits w 0 10))
  | 0x15 => pick 0x03F07FFF (.br die (Decode.ka w) (Decode.kb w) (Decode.bits w 12 3) (Decode.bits w 0 12))
  | 0x16 => pick 0x00000FFF (.jmp die (Decode.bits w 0 12))
  | 0x17 => pick 0x000003FF (.out die (Decode.bits w 0 10))
  | 0x18 => pick 0x03800003 (.getw die (Decode.ka w) (Decode.bits w 0 2))
  | _ => none

/-- A word with an opcode and fields (lowest bit, value). -/
def Decode.word (opc : Nat) (fs : List (Nat × Nat)) : Word := BitVec.ofNat 32 (opc * 2 ^ 26 + (fs.map (fun f => f.2 * 2 ^ f.1)).sum)

/-- The word of a churn instruction (R277); none for a row that is no churn instruction. -/
def Decode.encode : Instr → Option Word
  | .nop _ => some (Decode.word 0x00 [])
  | .halt _ => some (Decode.word 0x01 [])
  | .ldi _ a v => some (Decode.word 0x02 [(23, a.toNat), (0, v.toNat)])
  | .sethi _ a v => some (Decode.word 0x03 [(23, a.toNat), (0, v.toNat)])
  | .add _ a b c => some (Decode.word 0x04 [(23, a.toNat), (20, b.toNat), (17, c.toNat)])
  | .addi _ a b v => some (Decode.word 0x05 [(23, a.toNat), (20, b.toNat), (0, v.toNat)])
  | .setp _ b p => some (Decode.word 0x06 [(20, b.toNat), (0, p.toNat)])
  | .getp _ a p => some (Decode.word 0x07 [(23, a.toNat), (0, p.toNat)])
  | .setsh _ x z => some (Decode.word 0x08 [(0, x.toNat), (8, z.toNat)])
  | .clra _ => some (Decode.word 0x09 [])
  | .mac _ y => some (Decode.word 0x0A [(0, y.toNat)])
  | .macs _ y => some (Decode.word 0x0B [(0, y.toNat)])
  | .suma _ => some (Decode.word 0x0C [])
  | .sta _ m => some (Decode.word 0x0D [(0, m.toNat)])
  | .ldz _ => some (Decode.word 0x0E [])
  | .ldk _ a v => some (Decode.word 0x0F [(23, a.toNat), (0, v.toNat)])
  | .stk _ a v => some (Decode.word 0x10 [(23, a.toNat), (0, v.toNat)])
  | .max _ n => some (Decode.word 0x11 [(0, n.toNat)])
  | .min _ n => some (Decode.word 0x12 [(0, n.toNat)])
  | .getm _ a m => some (Decode.word 0x13 [(23, a.toNat), (0, m.toNat)])
  | .repeatN _ n => some (Decode.word 0x14 [(0, n.toNat)])
  | .br _ a b c t => some (Decode.word 0x15 [(23, a.toNat), (20, b.toNat), (12, c.toNat), (0, t.toNat)])
  | .jmp _ t => some (Decode.word 0x16 [(0, t.toNat)])
  | .out _ n => some (Decode.word 0x17 [(0, n.toNat)])
  | .getw _ a m => some (Decode.word 0x18 [(23, a.toNat), (0, m.toNat)])
  | _ => none

/-- The die of a churn instruction row. -/
def Decode.churnDie : Instr → Option Nat
  | .nop d | .halt d | .ldi d _ _ | .sethi d _ _ | .add d _ _ _ | .addi d _ _ _ | .setp d _ _ | .getp d _ _ | .setsh d _ _
  | .clra d | .mac d _ | .macs d _ | .suma d | .sta d _ | .ldz d | .ldk d _ _ | .stk d _ _ | .max d _ | .min d _ | .getm d _ _
  | .repeatN d _ | .br d _ _ _ _ | .jmp d _ | .out d _ | .getw d _ _ => some d
  | _ => none

/-- The command that a word spells by the operation table's bits. spec/opcode_table.json gives every row an empty list of
fields, so there is none. -/
def decodeTableWord (_nbits _w : Nat) : Option Instr := none

end Sys2Proof
end

