-- ==== Sys2Proof/WellFormed.lean ====
section
/-! DEFINITION. WellFormed.lean: the operand values that the spec admits for a churn instruction (R277, R286); the other rows
carry what the outside world brings, of which every value can come. -/
namespace Sys2Proof

/-- YSTEP is 0 to 16. -/
def Instr.ystepOk (y : BitVec 5) : Bool := decide (y.toNat ≤ 16)
/-- P names a pointer. -/
def Instr.pointerOk (p : BitVec 2) : Bool := decide (p.toNat < 3)
/-- COND names a comparison. -/
def Instr.condOk (c : BitVec 3) : Bool := decide (c.toNat < 4)

/-- No operand of the instruction is one that R277 calls reserved. -/
def Instr.wellFormed : Instr → Bool
  | .setp _ _ p => Instr.pointerOk p
  | .getp _ _ p => Instr.pointerOk p
  | .mac _ y => Instr.ystepOk y
  | .macs _ y => Instr.ystepOk y
  | .br _ _ _ c _ => Instr.condOk c
  | _ => true

/-- Instructions that may stand after a REPEAT (R281). -/
def Instr.repeatable : Instr → Bool
  | .nop _ | .add _ _ _ _ | .addi _ _ _ _ | .mac _ _ | .macs _ _ | .sta _ _ | .ldz _ => true
  | _ => false

/-- A program address in range of a program length for BR and JMP (R286). -/
def Instr.targetOk (len : Nat) : Instr → Bool
  | .br _ _ _ _ t => decide (t.toNat < len)
  | .jmp _ t => decide (t.toNat < len)
  | _ => true

end Sys2Proof
end

