-- ==== Sys2Proof/Machine/Churn.lean ====
section
/-! DEFINITION. Machine/Churn.lean: the churn engine: counting, windows, the arithmetic, its instructions, its records (R262 to
R284). -/
namespace Sys2Proof.Machine

/-! ### The engine of a die -/

/-- Engine of a die. -/
def chnOf (s : State) (d : Nat) : Option ChurnDie := lookup s.chn d
/-- Replace it. -/
def setChn (s : State) (d : Nat) (c : ChurnDie) : State := { s with chn := put s.chn d c }

/-- Machine state at enable and at image load (R270); Y as given. -/
def freshMach (y : List (Nat × Word)) : ChurnMach := {
  en := false, wexp := 0, since := 0, openB := [], closedB := [], y := y, z := [], a := List.replicate 16 0, k := List.replicate 8 0,
  px := 0, py := 0, pz := 0, xsh := 0, zsh := 0, mval := 0, midx := 0, pc := 0, cache := [], used := 0, avail := 0, phase := 0, rep := 0,
  running := false, winDcn := 0, closeTime := 0, windows := 0, seq := 0, outno := 0, xOpen := false, xSat := false, accSat := false, zSat := false }

/-- An engine with a program and coefficients. -/
def newEngine (prog y : List (Nat × Word)) (len : Nat) : ChurnDie := {
  m := freshMach y, pend := none, prog := prog, progLen := len, buf := [], lostNext := false, fault := false, ring := none,
  ringProd := 0, ringData := [], lastLeft := none, mute := none, poison := [] }

/-- Available cycles A and budget B of a window (R267). -/
def availCycles (s : State) (w : Nat) : Nat := 2 ^ w * (depthOf s + 16) / 4
def budget (s : State) (w : Nat) : Nat := availCycles s w - 2048

/-- CHN_STATUS bits 2 to 6 are W1C: set some. -/
def orChnStatus (s : State) (d bits : Nat) : State :=
  let k := rkey d 0x07 0x004
  setReg s k (reg s k ||| BitVec.ofNat 32 bits)

/-! ### Counting (R262, R265) -/

/-- Window start of a cycle. -/
def winStart (w m : Nat) : Nat := m - m % 2 ^ w

/-- Counts of a die's groups in this cycle; a group that a short cluster lacks counts 0 (R82, R264). -/
def groupCounts (s : State) (d : Nat) : List (Nat × Half) :=
  s.ds.toggles.filter (fun t => t.1 / 2048 == d && decide (t.1 % 32 < usableGroups s (t.1 / 32)))

/-- A count bank with group counts added, and whether a sum saturated (R262). -/
def addCounts (ts : List (Nat × Half)) (bank : List (Nat × Word)) : List (Nat × Word) × Bool :=
  ts.foldl (fun b t =>
    let old := (rd b.1 (t.1 % 2048)).toNat
    (wr b.1 (t.1 % 2048) (BitVec.ofNat 32 (satAdd 32 old t.2.toNat)), b.2 || decide (2 ^ 32 ≤ old + t.2.toNat))) (bank, false)

/-- The engine after the counts of cycle m, and whether one saturated; counts of a window before the first one do not count (R265). -/
def countWindow (s : State) (d m : Nat) (c : ChurnDie) : ChurnDie × Bool :=
  if c.m.en && c.m.since ≤ winStart c.m.wexp m then
    let b := addCounts (groupCounts s d) c.m.openB
    ({ c with m := { c.m with openB := b.1, xOpen := c.m.xOpen || b.2 } }, b.2)
  else (c, false)

/-- TOGGLE_COUNT_HANDOFF at B12: counts go to the open banks and clear (R82, R264). -/
def toggleHandoff (s : State) : State :=
  let s1 := s.chn.foldl (fun a e =>
    let c := countWindow s e.1 s.seq.dcn e.2
    setChn (if c.2 then orChnStatus a e.1 4 else a) e.1 c.1) s
  { s1 with ds := { s1.ds with toggles := [] } }

/-! ### Enable and disable (R265, R284) -/

/-- EN takes effect with WIN_EXP from cycle `dcn` on: everything that R270 clears, and counts since enable. -/
def enableEngine (c : ChurnDie) (w dcn : Nat) : ChurnDie :=
  { c with
    pend := none, fault := false, lastLeft := none, mute := none, lostNext := false, poison := c.poison.filter (fun p => decide (p < 12288))
    m := { freshMach c.m.y with en := true, wexp := w, since := dcn, phase := c.m.phase } }

/-- EN clears: a running program stops without a record. -/
def disableEngine (c : ChurnDie) (w : Nat) : ChurnDie :=
  { c with pend := none, m := { c.m with en := false, wexp := w, running := false } }

/-- A pending write of CHN_CTRL takes effect (CYCLE_END); the next cycle is dcn. -/
def applyEnables (s : State) (dcn : Nat) : State :=
  s.chn.foldl (fun s e =>
    match e.2.pend with
    | none => s
    | some (true, w) => setChn s e.1 (enableEngine e.2 w dcn)
    | some (false, w) => setChn s e.1 (disableEngine e.2 w)) s

/-! ### Window close (R263, R270) -/

/-- The window of a die closes at the end of this cycle's B15 and has not closed yet. -/
def closeDue (s : State) (c : ChurnDie) : Bool :=
  let w := c.m.wexp
  let start := winStart w s.seq.dcn
  c.m.en && c.m.since ≤ start && (s.seq.dcn + 1) % 2 ^ w == 0 && (c.m.windows == 0 || c.m.winDcn != start)

/-- Swap the banks and start the program. The windows since enable count this one (GETW SEL 2, DESIGN CHOICE of log 64). -/
def closeWindow (s : State) (c : ChurnDie) : ChurnDie :=
  { c with
    m := { c.m with
      closeTime := stamp s, closedB := c.m.openB, openB := [], winDcn := winStart c.m.wexp s.seq.dcn, windows := c.m.windows + 1, outno := 0, pc := 0, px := 0,
      py := 0, pz := 0, xsh := 0, zsh := 0, a := List.replicate 16 0, cache := [], used := 0, avail := 0, running := true,
      xSat := c.m.xOpen, xOpen := false, accSat := false, zSat := false } }

/-- Engine cycles: one for every fourth stepping tick (R266). -/
def engineTick (c : ChurnDie) : ChurnDie :=
  let m := c.m
  { c with m := if m.phase == 3 then { m with phase := 0, avail := m.avail + (if m.running then 1 else 0) } else { m with phase := m.phase + 1 } }

/-- A stepping tick for every engine. -/
def enginesTick (s : State) : State := { s with chn := s.chn.map (fun e => (e.1, engineTick e.2)) }

/-! ### Arithmetic (R269, R271 to R276) -/

/-- K register read and write. -/
def kGet (m : ChurnMach) (k : BitVec 3) : Word := nth 0 m.k k.toNat
def listSet {α : Type} : List α → Nat → α → List α
  | [], _, _ => []
  | _ :: as, 0, x => x :: as
  | a :: as, n + 1, x => a :: listSet as n x
def kSet (m : ChurnMach) (k : BitVec 3) (v : Word) : ChurnMach := { m with k := listSet m.k k.toNat v }

/-- The X operand of a count and whether it clamps (R272). -/
def xOperand (xsh x : Nat) : Nat × Bool :=
  let v := if xsh == 0 then x else (x + 2 ^ (xsh - 1)) >>> xsh
  (min (2 ^ 23 - 1) v, decide (2 ^ 23 - 1 < v))

/-- The signed coefficient of a Y word (R271). -/
def coeff (y : Word) : Int := sgn 24 y.toNat

/-- A sum clamped to 56 bits, and whether it clamps (R273). -/
def accClamp (v : Int) : BitVec 56 × Bool := (BitVec.ofInt 56 (clampS 56 v), clampS 56 v != v)

/-- Store value of an accumulator and whether it clamps (R274). -/
def storeVal (zsh : Nat) (a : BitVec 56) : Word × Bool :=
  let v : Int := if zsh == 0 then a.toInt else (a.toInt + ((2 ^ (zsh - 1) : Nat) : Int)) >>> zsh
  (BitVec.ofInt 32 (clampS 32 v), clampS 32 v != v)

/-- Set saturation flags of an instruction. -/
def orSat (m : ChurnMach) (x acc z : Bool) : ChurnMach := { m with xSat := m.xSat || x, accSat := m.accSat || acc, zSat := m.zSat || z }

/-- A lane of MAC or MACS: the product added to the accumulator (R273); y is the lane's Y address. -/
def macLane (m : ChurnMach) (l y : Nat) : BitVec 56 × Bool × Bool :=
  let x := xOperand m.xsh (rd m.closedB ((m.px + l) % 2048)).toNat
  let r := accClamp ((nth (0 : BitVec 56) m.a l).toInt + (x.1 : Int) * coeff (rd m.y (y % 8192)))
  (r.1, x.2, r.2)

/-- MAC (step 1 per lane) and MACS (step 0). -/
def macOp (perLane : Nat) (ystep : BitVec 5) (m : ChurnMach) : ChurnMach :=
  let rs := (List.range 16).map (fun l => macLane m l (m.py + perLane * l))
  orSat { m with a := rs.map (·.1), px := (m.px + 16) % 2048, py := (m.py + ystep.toNat) % 8192 }
    (rs.any (fun r => r.2.1)) (rs.any (fun r => r.2.2)) false

/-- SUMA: lanes summed into A0 in ascending lane order, each sum clamped (R273). -/
def sumaOp (m : ChurnMach) : ChurnMach :=
  let r := (m.a.drop 1).foldl (fun (x : BitVec 56 × Bool) l => let c := accClamp (x.1.toInt + l.toInt); (c.1, x.2 || c.2)) (nth 0 m.a 0, false)
  orSat { m with a := r.1 :: List.replicate 15 0 } false r.2 false

/-- STA: all lanes at PZ, or A0 alone (R274). -/
def staOp (mode : BitVec 1) (m : ChurnMach) : ChurnMach :=
  if mode == 0 then
    let vs := (List.range 16).map (fun l => ((m.pz + l) % 8192, storeVal m.zsh (nth 0 m.a l)))
    orSat { m with z := wrAll m.z (vs.map (fun v => (v.1, v.2.1))), pz := (m.pz + 16) % 8192 } false false (vs.any (fun v => v.2.2))
  else
    let v := storeVal m.zsh (nth 0 m.a 0)
    orSat { m with z := wr m.z (m.pz % 8192) v.1, pz := (m.pz + 1) % 8192 } false false v.2

/-- LDZ (R275). -/
def ldzOp (m : ChurnMach) : ChurnMach :=
  let vs := (List.range 16).map (fun l => accClamp ((rd m.z ((m.pz + l) % 8192)).toInt * ((2 ^ m.zsh : Nat) : Int)))
  orSat { m with a := vs.map (·.1), pz := (m.pz + 16) % 8192 } false (vs.any (·.2)) false

/-- The Z words that MIN, MAX and OUT read (R269). -/
def zWords (m : ChurnMach) (n : Nat) : List Word := (List.range n).map (fun i => rd m.z ((m.pz + i) % 8192))

/-- The word that is best under a signed comparison, and its lowest offset. -/
def bestOf (better : Int → Int → Bool) : List Word → Nat → Word × Nat → Word × Nat
  | [], _, b => b
  | w :: ws, i, b => bestOf better ws (i + 1) (if better w.toInt b.1.toInt then (w, i) else b)

/-- MAX and MIN over n words. -/
def extremeOp (better : Int → Int → Bool) (n : Nat) (m : ChurnMach) : ChurnMach :=
  let ws := zWords m n
  let b := bestOf better (ws.drop 1) 1 (nth 0 ws 0, 0)
  { m with mval := b.1, midx := b.2 }

/-- A pointer's value and the machine with a pointer set. -/
def ptrGet (m : ChurnMach) (p : BitVec 2) : Nat := if p == 0 then m.px else if p == 1 then m.py else m.pz
def ptrSet (m : ChurnMach) (p : BitVec 2) (v : Nat) : ChurnMach :=
  if p == 0 then { m with px := v % 2048 } else if p == 1 then { m with py := v % 8192 } else { m with pz := v % 8192 }

/-- The comparison of BR. -/
def brTaken (c : BitVec 3) (a b : Word) : Bool :=
  if c == 0 then a == b else if c == 1 then a != b else if c == 2 then decide (a.toInt < b.toInt) else decide (b.toInt ≤ a.toInt)

/-- The effect of an instruction that REPEAT admits (R281). -/
def repeatOp : Instr → Option (ChurnMach → ChurnMach)
  | .nop _ => some id
  | .add _ a b c => some (fun m => kSet m a (kGet m b + kGet m c))
  | .addi _ a b v => some (fun m => kSet m a (kGet m b + v.signExtend 32))
  | .mac _ y => some (macOp 1 y)
  | .macs _ y => some (macOp 0 y)
  | .sta _ md => some (staOp md)
  | .ldz _ => some ldzOp
  | _ => none

/-- An operation applied n times. -/
def iterate {α : Type} (f : α → α) : Nat → α → α
  | 0, x => x
  | n + 1, x => iterate f n (f x)

/-! ### Result records (R282, R283) -/

/-- Flags of a record: aborted, saturations so far, fault; LOST as the buffer stores it. -/
def recFlags (c : ChurnDie) (aborted isFault : Bool) : Nat :=
  b2n aborted + 2 * b2n c.m.xSat + 4 * b2n c.m.accSat + 8 * b2n c.m.zSat + 16 * b2n c.lostNext + 32 * b2n isFault

/-- Words of a result record. -/
def resultWords (s : State) (d : Nat) (c : ChurnDie) (flags : Nat) (ws : List Word) : List Word :=
  [packW [(0, 8, 0x30), (8, 4, posOf s), (12, 3, d), (16, 16, ws.length)], packW [(0, 16, flags), (16, 16, c.m.outno)]]
    ++ dwords c.m.winDcn ++ [lo32 c.m.seq] ++ words96 c.m.closeTime ++ ws

/-- Bytes that wait in the result buffer. -/
def bufBytes (c : ChurnDie) : Nat := (c.buf.map (fun r => 4 * r.length)).sum

/-- After a recovery only records of windows above the last that left the buffer are posted (R284). -/
def muted (c : ChurnDie) : Bool := match c.mute with | some w => decide (c.m.winDcn ≤ w) | none => false

/-- Post a record: stored, or counted lost when the 64 KB buffer has no room (R283). -/
def postResult (s : State) (d : Nat) (c : ChurnDie) (ws : List Word) (aborted isFault : Bool) : State :=
  let r := resultWords s d c (recFlags c aborted isFault) ws
  let c1 := { c with m := { c.m with seq := (c.m.seq + 1) % 2 ^ 32, outno := c.m.outno + 1 } }
  if muted c then setChn s d c1
  else if bufBytes c + 4 * r.length ≤ 65536 then setChn s d { c1 with buf := c.buf ++ [r], lostNext := false }
  else setChn (bump (orChnStatus s d 64) (rkey d 0x07 0x020) 32 1) d { c1 with lostNext := true }

/-- The program ends: CHN_LAST and CHN_MAXCYC (R287). -/
def endProgram (s : State) (d : Nat) (c : ChurnDie) : State :=
  let s := setChn s d { c with m := { c.m with running := false } }
  let s := setReg s (rkey d 0x07 0x00C) (lo32 c.m.used)
  if (reg s (rkey d 0x07 0x010)).toNat < c.m.used then setReg s (rkey d 0x07 0x010) (lo32 c.m.used) else s

/-- CHURN_BUDGET_STOP at an instruction boundary (R268). -/
def budgetStop (s : State) (d : Nat) : State :=
  match chnOf s d with
  | none => s
  | some c =>
    if c.m.running && budget s c.m.wexp ≤ c.m.used then
      let s := bump (postResult s d c [] true false) (rkey d 0x07 0x01C) 16 1
      match chnOf s d with
      | some c => endProgram s d c
      | none => s
    else s

/-! ### Instruction rows -/

/-- The instruction at a program address: HALT at or above the program length (R278). -/
def instrAt (c : ChurnDie) (d a : Nat) : Option Instr :=
  if c.progLen ≤ a then some (.halt d) else Decode.churn d (rd c.prog a)

/-! ### Poisoned words (R284, R513, R514) -/

/-- Code words of class 4 that a range of a churn memory takes: program, Y, Z one after another. -/
def chnWord (m a : Nat) : Nat := (if m == 0 then 0 else if m == 1 then 4096 else 12288) + a

/-- A word of a churn memory becomes poison: it is rewritten with data 0. -/
def chnPoison (c : ChurnDie) (p : Nat) : ChurnDie :=
  let c := { c with poison := ins c.poison p }
  if p < 4096 then { c with prog := wr c.prog p 0 }
  else if p < 12288 then { c with m := { c.m with y := wr c.m.y (p - 4096) 0 } }
  else { c with m := { c.m with z := wr c.m.z (p - 12288) 0 } }

/-- An uncorrectable error in program, Y or Z memory stops an enabled engine: a 0-word record with FAULT, and EN clears (R284). -/
def churnStop (s : State) (d : Nat) : State :=
  match chnOf s d with
  | none => s
  | some c =>
    if !c.m.en then s
    else
      let s := postResult s d c [] false true
      match chnOf s d with
      | some c =>
        let s := if c.m.running then endProgram s d c else s
        setChn s d (disableEngine { c with fault := true, m := { c.m with running := false } } c.m.wexp)
      | none => s

/-- Z words from PZ on, as code words. -/
def zCodes (m : ChurnMach) (n : Nat) : List Nat := (List.range n).map (fun i => chnWord 2 ((m.pz + i) % 8192))

/-- Y and Z words that an instruction reads, as code words. -/
def operandReads (m : ChurnMach) : Instr → List Nat
  | .mac _ _ => (List.range 16).map (fun l => chnWord 1 ((m.py + l) % 8192))
  | .macs _ _ => [chnWord 1 (m.py % 8192)]
  | .ldz _ => zCodes m 16
  | .ldk _ _ v => [chnWord 2 v.toNat]
  | .max _ n => zCodes m (n.toNat + 1)
  | .min _ n => zCodes m (n.toNat + 1)
  | .out _ n => zCodes m (n.toNat + 1)
  | _ => []

/-- Z words that an instruction writes in full, as code words. -/
def operandWrites (m : ChurnMach) : Instr → List Nat
  | .sta _ md => zCodes m (if md == 0 then 16 else 1)
  | .stk _ _ v => [chnWord 2 v.toNat]
  | _ => []

/-- What n runs of a repeated instruction touch. -/
def repeatTouches (g : ChurnMach → List Nat) (f : ChurnMach → ChurnMach) : Nat → ChurnMach → List Nat
  | 0, _ => []
  | n + 1, m => g m ++ repeatTouches g f n (f m)

/-- Program word that a fetch reads: none from the cache, or at or above the program length. -/
def fetchReads (c : ChurnDie) (cache : List Nat) (a : Nat) : List Nat :=
  if cache.contains a || decide (c.progLen ≤ a) then [] else [chnWord 0 a]

/-- Code words that the instruction at PC reads, with those of the instruction that a REPEAT repeats. -/
def codeReads (c : ChurnDie) (d : Nat) (i : Instr) : List Nat :=
  fetchReads c c.m.cache c.m.pc ++
  match i with
  | .repeatN _ n =>
    let next := (c.m.pc + 1) % 4096
    fetchReads c (c.m.pc :: c.m.cache) next ++
    (match instrAt c d next with
    | some j => (match repeatOp j with | some f => repeatTouches (fun m => operandReads m j) f (n.toNat + 1) c.m | none => [])
    | none => [])
  | i => operandReads c.m i

/-- A poisoned word that the instruction at PC reads. -/
def poisonMet (c : ChurnDie) (d : Nat) (i : Instr) : Option Nat :=
  if c.poison.isEmpty then none else (codeReads c d i).find? c.poison.contains

/-- Words that the engine writes in full are good again. -/
def wroteWords (c : ChurnDie) (ws : List Nat) : ChurnDie := { c with poison := c.poison.filter (fun p => !ws.contains p) }

/-- Engine cycles of a fetch, and the cache after it (R279). -/
def fetchCost (m : ChurnMach) (a : Nat) : Nat := if m.cache.contains a then 0 else 1
def cacheAfter (m : ChurnMach) (a : Nat) : List Nat := (a :: m.cache.filter (fun x => x != a)).take 32

/-- Repetitions that are left of the REPEAT that the engine is in: its row executes it whole once its cycles have come (R280), and the
engine cycles that have come since its two fetches are the repetitions made. -/
def repeatLeft (c : ChurnDie) (d : Nat) : Nat :=
  match instrAt c d c.m.pc with
  | some (.repeatN _ n) =>
    let m1 := { c.m with cache := cacheAfter c.m c.m.pc }
    let got := c.m.avail - (c.m.used + fetchCost c.m c.m.pc + 1 + fetchCost m1 ((c.m.pc + 1) % 4096))
    if c.m.running && 0 < got then n.toNat + 1 - min (n.toNat + 1) got else 0
  | _ => 0

/-! ### Executing -/

/-- The engine of a die that comes to this instruction: running, the word at PC is it, and the engine cycles it takes have come
(R266). -/
def engineDue (s : State) (d : Nat) (i : Instr) (cost : Nat) : Option ChurnDie :=
  match chnOf s d with
  | some c =>
    if c.m.running && instrAt c d c.m.pc == some i && c.m.used + fetchCost c.m c.m.pc + cost ≤ c.m.avail then some c else none
  | none => none

/-- The engine of a die when it is about to execute this instruction: it comes to it and meets no poison. -/
def engineAt (s : State) (d : Nat) (i : Instr) (cost : Nat) : Option ChurnDie :=
  match engineDue s d i cost with
  | some c => if (poisonMet c d i).isSome then none else some c
  | none => none

/-- An engine that is not about to execute this instruction: it stops when it comes to it and meets poison; otherwise nothing. -/
def engineElse (s : State) (d : Nat) (i : Instr) (cost : Nat) : State :=
  match engineDue s d i cost with
  | some c =>
    (match poisonMet c d i with
    | some p => churnStop (fault s { cls := 2, cause := 0x0103, flags := 2, unit := siteLoc d, memClass := 4, address := p }) d
    | none => s)
  | none => s

/-- Fetch at PC, count the cycles and move PC on; saturation flags start clear for the instruction. -/
def fetched (m : ChurnMach) (cost : Nat) : ChurnMach :=
  { m with
    used := m.used + fetchCost m m.pc + cost, cache := cacheAfter m m.pc, pc := (m.pc + 1) % 4096, xSat := false, accSat := false, zSat := false }

/-- The machine after an instruction with the flags of the window, and the flags it set in CHN_STATUS. -/
def landed (s : State) (d : Nat) (c : ChurnDie) (m : ChurnMach) : State :=
  let s := if m.xSat || m.accSat || m.zSat then orChnStatus s d (4 * b2n m.xSat + 8 * b2n m.accSat + 16 * b2n m.zSat) else s
  setChn s d { c with m := { m with xSat := m.xSat || c.m.xSat, accSat := m.accSat || c.m.accSat, zSat := m.zSat || c.m.zSat } }

/-- An instruction row: when the engine is about to execute it, fetch, effect, budget check; otherwise nothing. -/
def churnRow (s : State) (d : Nat) (i : Instr) (cost : Nat) (f : ChurnMach → ChurnMach) : Host.Outcome State Fault Refusal :=
  match engineAt s d i cost with
  | none => .next (engineElse s d i cost)
  | some c => .next (budgetStop (landed s d (wroteWords c (operandWrites c.m i)) (f (fetched c.m cost))) d)

/-- An instruction row whose operand may be reserved: then the engine stops the model when it comes to execute it. -/
def churnRowOk (ok : Bool) (s : State) (d : Nat) (i : Instr) (cost : Nat) (f : ChurnMach → ChurnMach) : Host.Outcome State Fault Refusal :=
  if !ok && (engineAt s d i cost).isSome then .fault .reservedChurnEncoding else churnRow s d i cost f

/-- NOP. -/
def execNop (d : Nat) (s : State) : Host.Outcome State Fault Refusal := churnRow s d (.nop d) 1 id
/-- HALT ends the window's program. -/
def execHalt (d : Nat) (s : State) : Host.Outcome State Fault Refusal :=
  match engineAt s d (.halt d) 1 with
  | none => .next (engineElse s d (.halt d) 1)
  | some c => .next (endProgram s d { c with m := { c.m with used := c.m.used + fetchCost c.m c.m.pc + 1, cache := cacheAfter c.m c.m.pc } })
/-- LDI. -/
def execLdi (d : Nat) (a : BitVec 3) (v : BitVec 20) (s : State) : Host.Outcome State Fault Refusal :=
  churnRow s d (.ldi d a v) 1 (fun m => kSet m a (v.signExtend 32))
/-- SETHI. -/
def execSethi (d : Nat) (a : BitVec 3) (v : BitVec 12) (s : State) : Host.Outcome State Fault Refusal :=
  churnRow s d (.sethi d a v) 1 (fun m => kSet m a (BitVec.ofNat 32 ((kGet m a).toNat % 2 ^ 20 + v.toNat * 2 ^ 20)))
/-- ADD. -/
def execAdd (d : Nat) (a b c : BitVec 3) (s : State) : Host.Outcome State Fault Refusal :=
  churnRow s d (.add d a b c) 1 (fun m => kSet m a (kGet m b + kGet m c))
/-- ADDI. -/
def execAddi (d : Nat) (a b : BitVec 3) (v : BitVec 16) (s : State) : Host.Outcome State Fault Refusal :=
  churnRow s d (.addi d a b v) 1 (fun m => kSet m a (kGet m b + v.signExtend 32))
/-- SETP; P 3 is reserved. -/
def execSetp (d : Nat) (b : BitVec 3) (p : BitVec 2) (s : State) : Host.Outcome State Fault Refusal :=
  churnRowOk (Instr.pointerOk p) s d (.setp d b p) 1 (fun m => ptrSet m p (kGet m b).toNat)
/-- GETP; P 3 is reserved. -/
def execGetp (d : Nat) (a : BitVec 3) (p : BitVec 2) (s : State) : Host.Outcome State Fault Refusal :=
  churnRowOk (Instr.pointerOk p) s d (.getp d a p) 1 (fun m => kSet m a (lo32 (ptrGet m p)))
/-- SETSH. -/
def execSetsh (d : Nat) (x z : BitVec 5) (s : State) : Host.Outcome State Fault Refusal :=
  churnRow s d (.setsh d x z) 1 (fun m => { m with xsh := x.toNat, zsh := z.toNat })
/-- CLRA. -/
def execClra (d : Nat) (s : State) : Host.Outcome State Fault Refusal :=
  churnRow s d (.clra d) 1 (fun m => { m with a := List.replicate 16 0 })
/-- MAC; YSTEP above 16 is reserved. -/
def execMac (d : Nat) (y : BitVec 5) (s : State) : Host.Outcome State Fault Refusal :=
  churnRowOk (Instr.ystepOk y) s d (.mac d y) 1 (macOp 1 y)
/-- MACS; YSTEP above 16 is reserved. -/
def execMacs (d : Nat) (y : BitVec 5) (s : State) : Host.Outcome State Fault Refusal :=
  churnRowOk (Instr.ystepOk y) s d (.macs d y) 1 (macOp 0 y)
/-- SUMA. -/
def execSuma (d : Nat) (s : State) : Host.Outcome State Fault Refusal := churnRow s d (.suma d) 2 sumaOp
/-- STA. -/
def execSta (d : Nat) (md : BitVec 1) (s : State) : Host.Outcome State Fault Refusal := churnRow s d (.sta d md) 1 (staOp md)
/-- LDZ. -/
def execLdz (d : Nat) (s : State) : Host.Outcome State Fault Refusal := churnRow s d (.ldz d) 1 ldzOp
/-- LDK. -/
def execLdk (d : Nat) (a : BitVec 3) (v : BitVec 13) (s : State) : Host.Outcome State Fault Refusal :=
  churnRow s d (.ldk d a v) 1 (fun m => kSet m a (rd m.z v.toNat))
/-- STK. -/
def execStk (d : Nat) (a : BitVec 3) (v : BitVec 13) (s : State) : Host.Outcome State Fault Refusal :=
  churnRow s d (.stk d a v) 1 (fun m => { m with z := wr m.z v.toNat (kGet m a) })
/-- MAX of N Z words; N ÷ 16 rounded up and 2 more engine cycles. -/
def execMax (d : Nat) (n : BitVec 13) (s : State) : Host.Outcome State Fault Refusal :=
  churnRow s d (.max d n) (cdiv (n.toNat + 1) 16 + 2) (extremeOp (fun x y => decide (y < x)) (n.toNat + 1))
/-- MIN. -/
def execMin (d : Nat) (n : BitVec 13) (s : State) : Host.Outcome State Fault Refusal :=
  churnRow s d (.min d n) (cdiv (n.toNat + 1) 16 + 2) (extremeOp (fun x y => decide (x < y)) (n.toNat + 1))
/-- GETM. -/
def execGetm (d : Nat) (a : BitVec 3) (sel : BitVec 1) (s : State) : Host.Outcome State Fault Refusal :=
  churnRow s d (.getm d a sel) 1 (fun m => kSet m a (if sel == 0 then m.mval else lo32 m.midx))
/-- REPEAT with the instruction it repeats, in one step (R280); an instruction that R281 does not admit there has no effect that
the spec gives. -/
def execRepeatN (d : Nat) (n : BitVec 10) (s : State) : Host.Outcome State Fault Refusal :=
  match chnOf s d with
  | none => .next s
  | some c =>
    let next := (c.m.pc + 1) % 4096
    let m1 := { c.m with cache := cacheAfter c.m c.m.pc }
    let cost := 1 + fetchCost m1 next + (n.toNat + 1)
    match engineAt s d (.repeatN d n) cost with
    | none => .next (engineElse s d (.repeatN d n) cost)
    | some c =>
      match instrAt c d next with
      | none => .fault .reservedChurnEncoding
      | some i =>
        match (if Instr.wellFormed i then repeatOp i else none) with
        | none => .fault .reservedChurnEncoding
        | some f =>
          let m := fetched c.m cost
          let m := { m with cache := cacheAfter m next, pc := (next + 1) % 4096 }
          let c := wroteWords c (repeatTouches (fun m => operandWrites m i) f (n.toNat + 1) c.m)
          .next (budgetStop (landed s d c (iterate f (n.toNat + 1) m)) d)
/-- BR: one cycle, two when taken; COND 4 to 7 is reserved. -/
def execBr (d : Nat) (a b c : BitVec 3) (t : BitVec 12) (s : State) : Host.Outcome State Fault Refusal :=
  let taken := match chnOf s d with | some e => brTaken c (kGet e.m a) (kGet e.m b) | none => false
  churnRowOk (Instr.condOk c) s d (.br d a b c t) (if taken then 2 else 1) (fun m => if taken then { m with pc := t.toNat } else m)
/-- JMP. -/
def execJmp (d : Nat) (t : BitVec 12) (s : State) : Host.Outcome State Fault Refusal :=
  churnRow s d (.jmp d t) 2 (fun m => { m with pc := t.toNat })
/-- OUT posts a record of N Z words; N ÷ 16 rounded up and 1 more engine cycles. -/
def execOut (d : Nat) (n : BitVec 10) (s : State) : Host.Outcome State Fault Refusal :=
  let cost := cdiv (n.toNat + 1) 16 + 1
  match engineAt s d (.out d n) cost with
  | none => .next (engineElse s d (.out d n) cost)
  | some c =>
    let c1 := { c with m := { c.m with used := c.m.used + fetchCost c.m c.m.pc + cost, cache := cacheAfter c.m c.m.pc, pc := (c.m.pc + 1) % 4096 } }
    .next (budgetStop (postResult s d c1 (zWords c.m (n.toNat + 1)) false false) d)
/-- GETW: window start DCN, windows since enable, 8 × board position + die. -/
def execGetw (d : Nat) (a : BitVec 3) (sel : BitVec 2) (s : State) : Host.Outcome State Fault Refusal :=
  let pos := posOf s
  churnRow s d (.getw d a sel) 1 (fun m =>
    kSet m a (if sel == 0 then lo32 m.winDcn else if sel == 1 then hi32 m.winDcn else if sel == 2 then lo32 m.windows else lo32 (8 * pos + d)))
/-- CHURN_WINDOW_CLOSE of a die at the end of B15 of its window's last cycle. -/
def execChurnWindowClose (d : Nat) (s : State) : Host.Outcome State Fault Refusal :=
  match chnOf s d with
  | none => .next s
  | some c => .next (if s.seq.tick == .bound 16 && closeDue s c then setChn s d (closeWindow s c) else s)

end Sys2Proof.Machine
end

