-- ==== Sys2Proof/Machine/TraceOps.lean ====
section
/-! DEFINITION. Machine/TraceOps.lean: making service trace records (R346, R570 to R573): which sources record, their
buffers and their loss. -/
namespace Sys2Proof.Machine

/-- TRC_CTRL. -/
def trcCtrl (s : State) : Nat := ioReg s 0x16 0x000

/-- A source records: EN, its SRC_EN bit and ON; those of absent dies do not (R570). -/
def tracing (s : State) (u : Nat) : Bool :=
  bitOf (trcCtrl s) 0 && bitOf (trcCtrl s) (u + 1) && s.trc.on && (u < 2 || u == 10 || u - 2 < nDies s)

/-- Records of a source. -/
def trcBuf (s : State) (u : Nat) : List (List Word) := (lookup s.trc.bufs u).getD []

/-- Put a record into its source's 4 KB buffer (128 records); one that does not fit is lost and the next carries LOST in bit
`lostBit` of word 0 (R573). Answers whether it was stored. -/
def bufRecord (s : State) (u lostBit : Nat) (r : List Word) : State × Bool :=
  let t := s.trc
  let t := { t with seqs := put t.seqs u ((lookup t.seqs u).getD 0 + 1) }
  if 128 ≤ (trcBuf s u).length then ({ s with trc := { t with lost := ins t.lost u } }, false)
  else
    let w0 := nth 0 r 0 ||| (if t.lost.contains u then BitVec.ofNat 32 (2 ^ lostBit) else 0)
    let t := {
      t with
      bufs := put t.bufs u (trcBuf s u ++ [w0 :: r.drop 1]), lost := t.lost.filter (fun x => x != u),
      since := put t.since u ((lookup t.since u).getD 0 + 1) }
    ({ s with trc := t }, true)

/-- Words of a record of the common layout (R571). -/
def trcWords (s : State) (u typ addrLo addrHi data : Nat) : List Word :=
  [packW [(0, 8, typ), (8, 4, u)], lo32 ((lookup s.trc.seqs u).getD 0), lo32 addrLo, lo32 addrHi, lo32 data] ++ words96 (stamp s)

/-- Firmware version of a unit. -/
def unitFw (s : State) (u : Nat) : Word := if u == 0 then s.ctl.fwA else if u == 1 then s.ctl.fwB else s.ctl.fw

/-- Store a record of a source; `lostOff` is where one that does not fit is counted: TRC_LOST, or TRX_TRACE_LOST for the
dispatcher's decisions (R573). -/
def storeTrc (s : State) (u lostBit : Nat) (lostOff : Nat × Nat) (r : List Word) : State :=
  let b := bufRecord s u lostBit r
  if b.2 then b.1 else bumpIo b.1 lostOff.1 lostOff.2 32 1

/-- A sync record: the address of the next instruction is the firmware's own, a free value (R571, log 9). -/
def syncRecord (s : State) (u : Nat) : State :=
  let r := trcWords s u 0x49 (Config.freeNat s.freeCtr) (Config.freeNat (s.freeCtr + 1)) (unitFw s u).toNat
  let s := storeTrc (tickFree (tickFree s)) u 12 (0x16, 0x018) r
  { s with trc := { s.trc with since := put s.trc.since u 0 } }

/-- A sync record follows every 4,096 records of a source (R572). -/
def syncDue (s : State) (u : Nat) : State := if 4096 ≤ (lookup s.trc.since u).getD 0 then syncRecord s u else s

/-- A record of the common layout, counted in TRC_LOST when it does not fit. -/
def trcRecord (s : State) (u typ addrLo addrHi data : Nat) : State :=
  if tracing s u then syncDue (storeTrc s u 12 (0x16, 0x018) (trcWords s u typ addrLo addrHi data)) u else s

/-- A decision record of the dispatcher (R346), of a kind that TRX_TRACE_CTRL selects. -/
def decision (s : State) (kind ch : Nat) (seq : Word) (detail : Nat) : State :=
  if bitOf (ioReg s 0x09 0x010) (kind - 1) && tracing s 10 then
    syncDue (storeTrc s 10 10 (0x09, 0x014)
      ([packW [(0, 8, kind), (8, 2, ch % 4), (16, 10, ch)], seq, dcnLo s, lo32 detail] ++ words96 (stamp s) ++ [0])) 10
  else s

/-- The active controller enters and leaves privileged code: it writes 0x44 and 0x45 unless an authorisation for trace is in
force (R574, R582). The address that 0x45 carries is the firmware's own (log 9). -/
def privGap (s : State) : State :=
  let u := b2n s.ctl.activeB
  if s.trc.priv || !tracing s u then s
  else
    let s := trcRecord s u 0x44 0 0 0
    trcRecord (tickFree (tickFree s)) u 0x45 (Config.freeNat s.freeCtr) (Config.freeNat (s.freeCtr + 1)) 0

end Sys2Proof.Machine
end

