-- ==== Sys2Proof/Machine/Transactor.lean ====
section
/-! DEFINITION. Machine/Transactor.lean: transactor channels: design ports, delivery, fences, collection, packets, opening and
closing, ring writes (R318 to R346). -/
namespace Sys2Proof.Machine

/-! ### Channels -/

/-- A channel of the resident channel map. -/
def chanOf (s : State) (c : Nat) : Option Chan := lookup s.trx.chans c
/-- Replace a channel. -/
def setChan (s : State) (c : Nat) (ch : Chan) : State := { s with trx := { s.trx with chans := put s.trx.chans c ch } }
/-- Directions present (R319). -/
def hasIn (e : ChannelEntry) : Bool := bitOf e.dir.toNat 0
def hasOut (e : ChannelEntry) : Bool := bitOf e.dir.toNat 1
/-- A channel as the image map lists it, CLOSED. -/
def newChan (e : ChannelEntry) : Chan := {
  cfg := e, isOpen := false, opening := none, closing := false, fmt := e.format, inq := [], inSeq := 0, outSeq := 0, outq := [],
  changeAt := 0, credits := 0, flush := false, flushed := [], ring := { base := 0, entries := 0, wb := 0, prod := 0, cons := 0 }, inErr := 0, outErr := 0, cuts := 0 }
/-- Key of a status row. -/
def portRow (loc : Word) : Nat := 4096 * locGg loc + locRow loc
/-- Count inbound or outbound messages (R344). -/
def countIn (ch : Chan) (n : Nat) : Chan := { ch with inErr := satAdd 32 ch.inErr n }
def countOut (ch : Chan) (n : Nat) : Chan := { ch with outErr := satAdd 32 ch.outErr n }
/-- Bytes of a ring entry of a format (R325, R342). -/
def entryBytesOf (fmt : Nat) : Nat := if fmt == 2 then 72 else 144
/-- Address of the entry that the device takes next (R325). -/
def entryAddr (ch : Chan) : Nat := ch.ring.base + entryBytesOf ch.fmt * (ch.ring.cons % ch.ring.entries)
/-- Words of a message or fence header (R324, R342). -/
def headWords (fmt : Nat) : Nat := if fmt == 2 then 2 else 4
/-- An entry or a VN0 message of a format from its words (R324, R326, R342). -/
def parseEntry (fmt : Nat) (ws : List Word) : RingEntry :=
  let w0 := par ws 0
  let typ := fld w0 7 0
  let words := ws.drop (headWords fmt)
  if fmt == 2 then
    { typ := typ, len := fld w0 11 8 + b2n (typ == 1), fenceId := fld w0 31 16, reserved := fld w0 15 12 != 0 || par ws 1 != 0, words := words }
  else
    { typ := typ, len := fld w0 31 16, fenceId := fld (par ws 1) 15 0
      reserved := fld w0 15 8 != 0 || fld (par ws 1) 31 16 != 0 || par ws 2 != 0 || par ws 3 != 0, words := words }
/-- The channel with another inbound queue: its source, where that is no host ring, is granted a credit for each free slot (R326). -/
def withQueue (ch : Chan) (q : List InMsg) : Chan :=
  { ch with inq := q, credits := if ch.isOpen && ch.cfg.source != 0 then ch.cfg.inDepth - q.length else 0 }
/-- An outbound packet is in progress. -/
def pktOpen (ch : Chan) : Bool := ch.outq.any (fun m => m.done.isNone)

/-! ### Acceptance (R323 to R327, R342) -/

/-- The checks of a ring entry or VN0 message (R325, R342). -/
def entryOk (ch : Chan) (e : RingEntry) : Bool :=
  !e.reserved &&
  ((e.typ == 1 && 1 ≤ e.len && e.len ≤ ch.cfg.inMaxW && (ch.fmt != 2 || e.len ≤ 16) && e.fenceId == 0)
    || (e.typ == 2 && e.len == 0))

/-- The queue has a free slot. -/
def inRoom (ch : Chan) : Bool := decide (ch.inq.length < ch.cfg.inDepth)

/-- The head of a channel is a fence token: its identifier. -/
def headFence (ch : Chan) : Option Nat :=
  match ch.inq with
  | m :: _ => m.fence
  | [] => none

/-- A fence token stands at the head of a channel now: a decision record of kind 5. -/
def headNote (s : State) (c : Nat) : State :=
  match (chanOf s c).bind headFence with
  | some f => decision s 5 c 0 f
  | none => s

/-- The source of a channel is held (IN_BP, R327). -/
def inHeld (ch : Chan) : Bool := ch.isOpen && hasIn ch.cfg && !inRoom ch
/-- Decision records of kinds 11 and 12 for a channel's inbound queue, from the channel before (R346). -/
def inNote (ch0 : Chan) (s : State) (c : Nat) : State :=
  match chanOf s c with
  | some ch => if inHeld ch == inHeld ch0 then s else decision s (if inHeld ch then 11 else 12) c 0 0
  | none => s

/-- Accept a message under the next inbound sequence number, or a fence token, which takes none (R323, R347). -/
def accept (s : State) (c : Nat) (ch : Chan) (e : RingEntry) : State :=
  let m : InMsg := {
    seq := ch.inSeq, fence := if e.typ == 2 then some e.fenceId else none,
    words := (List.range e.len).map (fun i => nth 0 e.words i), taken := false }
  let s := decision (setChan s c { withQueue ch (ch.inq ++ [m]) with inSeq := if e.typ == 2 then ch.inSeq else ch.inSeq + 1 }) 1 c m.seq e.len
  inNote ch (if ch.inq.isEmpty then headNote s c else s) c

/-! ### Staging (R328, R330) -/

/-- A channel that an engine can stage: OPEN, head a message, not staged. -/
def canStage (s : State) (c : Nat) : Bool :=
  match chanOf s c with
  | some ch => ch.isOpen && hasIn ch.cfg && !s.trx.staged.contains c &&
      (match ch.inq with | m :: _ => m.fence.isNone && !m.taken | [] => false)
  | none => false

/-- Channels of an engine in round-robin order after the one it served last (R318). -/
def engineOrder (e last : Nat) : List Nat := (List.range 256).map (fun i => (last / 4 + 1 + i) % 256 * 4 + e)

/-- Replace an element of a list. -/
def setNth {α : Type} : List α → Nat → α → List α
  | [], _, _ => []
  | _ :: as, 0, x => x :: as
  | a :: as, n + 1, x => a :: setNth as n x

/-- MESSAGE_STAGE of an engine. -/
def stage (s : State) (e : Nat) : State :=
  if e < 4 && !fromLog s && (s.trx.staged.filter (fun c => c % 4 == e)).length < 16 then
    match (engineOrder e (nth 0 s.trx.engLast e)).find? (canStage s) with
    | none => s
    | some c =>
      let s := { s with trx := { s.trx with staged := ins s.trx.staged c, engLast := setNth s.trx.engLast e c } }
      match chanOf s c with
      | some ch => match ch.inq with | m :: _ => decision s 2 c m.seq m.words.length | [] => s
      | none => s
  else s

/-! ### Delivery (R320, R328 to R333) -/

/-- The channel's READY bit as the cycle left it. -/
def ready (s : State) (e : ChannelEntry) : Bool :=
  e.readyLoc == 0xFFFFFFFF || bitOf (rd s.ds.rows (portRow e.readyLoc)).toNat (locEp e.readyLoc)

/-- READY bits are read as the cycle has left them: before the boundary writes input rows (R328). -/
def noteReady (s : State) : State :=
  { s with trx := { s.trx with readyCh := (s.trx.chans.filter (fun e => ready s e.2.cfg)).map (·.1) } }

/-- Inbound status row (R320). -/
def inStatus (len : Nat) (seq : Word) : Half := BitVec.ofNat 16 (1 + 2 * (len - 1) + 2 ^ 8 * (seq.toNat % 256))

/-- The rows that a delivery writes: status row, the words, zeros up to IN_MAXW (R320, R329). -/
def portWrites (e : ChannelEntry) (seq : Word) (ws : List Word) : List (Nat × Half) :=
  let r := portRow e.inLoc
  (r, inStatus ws.length seq) :: (List.range e.inMaxW).flatMap (fun k =>
    let w := (nth 0 ws k).toNat
    [(r + 1 + 2 * k, BitVec.ofNat 16 w), (r + 2 + 2 * k, BitVec.ofNat 16 (w / 65536))])

/-- Write rows. -/
def putRows (s : State) (ws : List (Nat × Half)) : State := { s with ds := { s.ds with rows := wrAll s.ds.rows ws } }

/-- Deliver the head of a staged channel when the cycle left READY at 1. Counts deliveries. -/
def deliverOne (r : State × Nat) (c : Nat) : State × Nat :=
  let s := r.1
  match chanOf s c with
  | none => r
  | some ch =>
    match ch.inq with
    | [] => r
    | m :: rest =>
      if !ch.isOpen || m.fence.isSome || m.taken then r
      else if s.trx.readyCh.contains c then
        let s := putRows (setChan s c { ch with inq := { m with taken := true } :: rest }) (portWrites ch.cfg m.seq m.words)
        let it : LogItem := { kind := 4, index := c, payload := m.seq :: m.words }
        let s := { s with ckp := { s.ckp with log := { s.ckp.log with cur := s.ckp.log.cur ++ [it] } } }
        (decision s 3 c m.seq m.words.length, r.2 + 1)
      else (decision s 4 c m.seq 0, r.2)

/-- Channels whose group a fence joins: OPEN, with an inbound port, not closing at this boundary (R332, R333, R345). -/
def inGroup (ch : Chan) : Bool := ch.isOpen && hasIn ch.cfg && !ch.closing

/-- The identifier of the fence that completes for group g at this boundary. -/
def fenceDone (s : State) (g : Nat) : Option Nat :=
  match (s.trx.chans.filter (fun e => e.2.cfg.fgroup == g && inGroup e.2)).map (fun e => headFence e.2) with
  | some f :: rest => if rest.all (fun x => x == some f) then some f else none
  | _ => none

/-- The fence that is removed from a channel's head at this boundary: its group completes, or it is of group 0 (R332). -/
def fenceGone (s : State) (e : Nat × Chan) : Option (Nat × Chan × Nat) :=
  match headFence e.2 with
  | some f => if inGroup e.2 && (e.2.cfg.fgroup == 0 || fenceDone s e.2.cfg.fgroup == some f) then some (e.1, e.2, f) else none
  | none => none

/-- Remove the fence tokens at the heads: groups that complete, and every token of group 0 (R332). -/
def fences (s : State) : State :=
  let gone := s.trx.chans.filterMap (fenceGone s)
  let s1 := gone.foldl (fun a x => inNote x.2.1 (decision (setChan a x.1 (withQueue x.2.1 (x.2.1.inq.drop 1))) 6 x.1 0 x.2.2) x.1) s
  gone.foldl (fun a x => headNote a x.1) s1

/-- Fence groups with a waiting fence (TRX_FENCE_WAIT). -/
def fenceWaits (s : State) : Nat :=
  ((List.range 64).filter (fun g => 0 < g && s.trx.chans.any (fun e => e.2.cfg.fgroup == g && e.2.isOpen && (headFence e.2).isSome))).length

/-- Status rows of the channels of a set that nothing is delivered to (R329). -/
def clearStatus (s : State) (opens done : List Nat) : State :=
  putRows s ((opens.filter (fun c => !done.contains c)).filterMap (fun c =>
    match chanOf s c with
    | some ch => if hasIn ch.cfg then some (portRow ch.cfg.inLoc, (0 : Half)) else none
    | none => none))

/-- OPEN channels. -/
def openChans (s : State) : List Nat := (s.trx.chans.filter (fun e => e.2.isOpen)).map (·.1)

/-- TRANSACTOR_DELIVERY of a live boundary. -/
def deliverLive (s : State) : State :=
  let r := s.trx.staged.foldl deliverOne (clearStatus s (openChans s) [], 0)
  let s1 := fences { r.1 with trx := { r.1.trx with staged := [] } }
  maxIo s1 0x09 0x008 r.2

/-- Deliveries of a boundary that the log gives (R307, R311, R329). -/
def deliverLog (s : State) : State :=
  let its := itemsOf s 4
  let s := clearStatus s s.ckp.replayOpen (its.map (·.index))
  its.foldl (fun s x =>
    match chanOf s x.index with
    | some ch => putRows s (portWrites ch.cfg (nth 0 x.payload 0) (x.payload.drop 1))
    | none => s) s

/-- Messages that leave their queues when the entry closes (R313). -/
def releaseTaken (s : State) : State :=
  let gone := s.trx.chans.filter (fun e => e.2.inq.any (·.taken))
  gone.foldl (fun a e => inNote e.2 (headNote (setChan a e.1 (withQueue e.2 (e.2.inq.filter (fun m => !m.taken)))) e.1) e.1) s

/-! ### Collection (R321, R334 to R336) -/

/-- Messages of the packet in progress. -/
def openMsgs (ch : Chan) : List OutMsg := ch.outq.filter (fun m => m.done.isNone)

/-- End the packet in progress: its messages carry its number n. -/
def endPacket (ch : Chan) (n : Nat) : Chan :=
  { ch with outq := ch.outq.map (fun m => if m.done.isNone then { m with done := some n } else m) }

/-- Hold or drop the code 6 request of a channel's outbound queue (R336). -/
def backPressure (s : State) (c : Nat) : State :=
  match chanOf s c with
  | none => s
  | some ch =>
    let free := ch.cfg.outDepth - ch.outq.length
    if s.slu.held.contains (6, c + 1) then
      if 8 ≤ free then decision (dropReq s 6 (c + 1)) 12 c 0 1 else s
    else if free < 5 then decision (bumpIo (holdReq s 6 (c + 1)) 0x09 0x00C 16 1) 11 c 0 1
    else s

/-- The message an outbound port presents (R321): END, PRIO and words; none where VALID is 0. -/
def presented (s : State) (e : ChannelEntry) : Option (Bool × Nat × List Word) :=
  let r := portRow e.outLoc
  let st := (rd s.ds.rows r).toNat
  if !bitOf st 0 then none
  else some (bitOf st 1, fld st 4 2, (List.range (fld st 9 5 + 1)).map (fun k =>
    BitVec.ofNat 32 ((rd s.ds.rows (r + 1 + 2 * k)).toNat + 65536 * (rd s.ds.rows (r + 2 + 2 * k)).toNat)))

/-- What happens to a collected message: queued, or discarded in a recovery and where it was collected before (R311, R312). -/
def discards (s : State) : Bool := inRecovery s || s.ckp.collected == some s.seq.dcn

/-- A flush takes effect: every complete packet of the channel that no ring has is discarded and counted; its completion is still to be
made (R340). The record carries the number of the first message (log 67). -/
def flushPoint (s : State) (c : Nat) : State :=
  match chanOf s c with
  | none => s
  | some ch =>
    let gone := ch.outq.filter (fun m => m.done.isSome)
    let ch := { ch with outq := ch.outq.filter (fun m => m.done.isNone), flush := false, flushed := ch.flushed ++ [(s.seq.dcn, gone.length)] }
    let seq : Word := match gone with | m :: _ => m.seq | [] => 0
    backPressure (decision (setChan s c (countOut ch gone.length)) 9 c seq gone.length) c

/-- A flush waits, and no packet is in progress. -/
def flushReady (s : State) (c : Nat) : Bool := match chanOf s c with | some ch => ch.flush && !pktOpen ch | none => false

/-- Queue a collected message and end its packet with END, or with CUT at MAXPKT messages (R334, R335). -/
def queueOut (s : State) (c : Nat) (ch : Chan) (m : OutMsg) : State :=
  let prio := match openMsgs ch with | p :: _ => p.prio | [] => m.prio
  let cut := !m.endF && ch.cfg.maxPkt ≤ (openMsgs ch).length + 1
  let ch := { ch with outq := ch.outq ++ [{ m with prio := prio, cut := cut }], cuts := if cut then satAdd 8 ch.cuts 1 else ch.cuts }
  if m.endF || cut then
    let n := s.trx.packets
    let ch := endPacket ch n
    setChan { s with trx := { s.trx with packets := n + 1 } } c ch
  else setChan s c ch

/-- TRANSACTOR_COLLECTION of one channel. -/
def collectOne (s0 : State) (s : State) (c : Nat) : State :=
  match chanOf s c with
  | none => s
  | some ch =>
    if !hasOut ch.cfg then s
    else
      match presented s0 ch.cfg with
      | none => s
      | some (e, prio, ws) =>
        if ch.cfg.outMaxW < ws.length then (if discards s then s else setChan s c (countOut ch 1))
        else
          let m : OutMsg := {
            seq := ch.outSeq, words := ws, endF := e, cut := false, prio := if ch.fmt == 2 then 0 else prio, dcn := s.seq.dcn,
            replayed := inReplay s, done := none }
          let ch := { ch with outSeq := ch.outSeq + 1 }
          if discards s then setChan s c ch
          else
            let s := decision (queueOut s c ch m) 7 c m.seq ws.length
            backPressure (if flushReady s c then flushPoint s c else s) c

/-- TRANSACTOR_COLLECTION: ascending channels; in a replayed boundary those that were OPEN in the recorded run. -/
def collect (s : State) : State :=
  (if fromLog s then s.ckp.replayOpen else openChans s).foldl (collectOne s) s

/-! ### Opening and closing (R341, R343) -/

/-- A channel becomes OPEN with FORMAT in effect; sequence numbers and counters 0. -/
def openedChan (ch : Chan) (r : InRing) : Chan :=
  { ch with
    isOpen := true, opening := none, closing := false, fmt := ch.cfg.format, ring := r, inSeq := 0, outSeq := 0, inErr := 0,
    outErr := 0, cuts := 0, credits := if ch.cfg.source == 0 then 0 else ch.cfg.inDepth - ch.inq.length }

/-- A channel becomes CLOSED: inbound messages counted and discarded, the packet in progress ended with CUT and kept; a flush that waits
takes effect on the packets before it (R343; DESIGN CHOICE of log 67). -/
def closeChan (s : State) (c : Nat) (ch0 : Chan) : State :=
  let s := if ch0.flush then flushPoint s c else s
  let ch := (chanOf s c).getD ch0
  let ms := ch.inq.filter (fun m => m.fence.isNone && !m.taken)
  let ch := countIn (withQueue { ch with isOpen := false, closing := false, opening := none } []) ms.length
  let s := { s with trx := { s.trx with staged := s.trx.staged.filter (fun x => x != c) } }
  let s := match ms with | [] => s | m :: _ => decision s 10 c m.seq ms.length
  let s := if pktOpen ch then
      let n := s.trx.packets
      let last := ch.outq.length - 1
      let ch := { ch with
        outq := setNth ch.outq last { (nth ⟨0, [], false, false, 0, 0, false, none⟩ ch.outq last) with cut := true }, cuts := satAdd 8 ch.cuts 1 }
      setChan { s with trx := { s.trx with packets := n + 1 } } c (endPacket ch n)
    else setChan s c ch
  inNote ch0 s c

/-- A change of a channel's state is logged in the entry that the first boundary which sees it closes (R298, R341, R343; log 27). -/
def logChange (s : State) (c : Nat) (isOpen : Bool) : State :=
  let it : LogItem := { kind := 6, index := c, payload := [BitVec.ofNat 32 (b2n isOpen)] }
  { s with ckp := { s.ckp with log := { s.ckp.log with cur := s.ckp.log.cur ++ [it] } } }

/-- The changes accepted in this cycle take effect at its end (CYCLE_END); those of cycle F wait while a recovery steps to it. -/
def applyChanges (s : State) : State :=
  s.trx.chans.foldl (fun s e =>
    if s.seq.dcn < e.2.changeAt then s
    else match e.2.opening with
      | some r => logChange (setChan s e.1 (openedChan e.2 r)) e.1 true
      | none => if e.2.closing then logChange (closeChan s e.1 e.2) e.1 false else s) s

/-- Channel-state items of the recorded run: its set of OPEN channels, and numbers from 0 at an open. -/
def recordedChange (s : State) (x : LogItem) : State :=
  let opens := if bitOf (par x.payload 0) 0 then ins s.ckp.replayOpen x.index else s.ckp.replayOpen.filter (fun c => c != x.index)
  let s := { s with ckp := { s.ckp with replayOpen := opens } }
  match chanOf s x.index with
  | some ch => if bitOf (par x.payload 0) 0 then setChan s x.index { ch with outSeq := 0 } else s
  | none => s

/-- The items of the boundary that is replayed. -/
def replayChanges (s : State) : State := (itemsOf s 6).foldl recordedChange s

/-- Close every channel at once (image load, unload or reset, R345); opens not yet in effect are cancelled. -/
def closeAll (s : State) : State :=
  s.trx.chans.foldl (fun s e => if e.2.isOpen then closeChan s e.1 e.2 else setChan s e.1 { e.2 with opening := none }) s

/-! ### Queued messages that are lost (R344, R345) -/

/-- A list without its element n. -/
def dropNth {α : Type} (l : List α) (n : Nat) : List α := l.take n ++ l.drop (n + 1)

/-- An uncorrectable error in inbound message n of a channel: it is not delivered, and counts in IN_ERR. -/
def loseIn (s : State) (c n : Nat) (ch : Chan) (m : InMsg) : State :=
  let s := { s with trx := { s.trx with staged := if n == 0 then s.trx.staged.filter (fun x => x != c) else s.trx.staged } }
  let s := decision (setChan s c (countIn (withQueue ch (dropNth ch.inq n)) 1)) 10 c m.seq 1
  inNote ch (if n == 0 then headNote s c else s) c

/-- An uncorrectable error in outbound message n of a channel: it is not written, and counts in OUT_ERR. -/
def loseOut (s : State) (c n : Nat) (ch : Chan) (m : OutMsg) : State :=
  backPressure (decision (setChan s c (countOut { ch with outq := dropNth ch.outq n } 1)) 10 c m.seq 1) c

/-! ### Packets to the host rings (R337 to R340) -/

/-- Complete packets of a channel's queue: (channel, number, PRIO, messages). -/
def chanPackets (c : Nat) (ch : Chan) : List (Nat × Nat × Nat × List OutMsg) :=
  ((ch.outq.filterMap (·.done)).eraseDups).map (fun n =>
    let ms := ch.outq.filter (fun m => m.done == some n)
    (c, n, (match ms with | m :: _ => m.prio | [] => 0), ms))

/-- Complete packets that wait for a ring, those of a discarded image's channels included. -/
def packetsOf (s : State) (ring : Nat) : List (Nat × Nat × Nat × List OutMsg) :=
  (s.trx.chans.filter (fun e => hasOut e.2.cfg && e.2.cfg.outRing == ring)).flatMap (fun e => chanPackets e.1 e.2)
    ++ (s.trx.left.filter (fun p => p.1 == ring)).map (·.2)

/-- The packet to write first: highest PRIO, then order of completion (R338). -/
def bestPacket (ps : List (Nat × Nat × Nat × List OutMsg)) : Option (Nat × Nat × Nat × List OutMsg) :=
  ps.foldl (fun b p =>
    match b with
    | none => some p
    | some q => if q.2.2.1 < p.2.2.1 || (q.2.2.1 == p.2.2.1 && p.2.1 < q.2.1) then some p else some q) none

/-- The 144-byte ring entry of a message (R337). -/
def outEntry (c : Nat) (m : OutMsg) : List Word :=
  [packW [(0, 8, 0x81), (8, 1, b2n m.endF), (9, 3, m.prio), (12, 1, b2n m.cut), (13, 1, b2n m.replayed), (16, 16, m.words.length)],
    packW [(0, 10, c)], m.seq, lo32 m.dcn] ++ m.words ++ List.replicate (32 - m.words.length) 0

/-- Address of entry i of an outbound ring. -/
def outAddr (r : OutRing) (i : Nat) : Nat := r.base + 144 * (i % r.entries)

/-- OUTBOUND_PACKET_WRITE: the packet's entries, the producer index, one notice (R338, R339). The row says that the ring has
room; a packet longer than the ring never has (log 28). -/
def writePacket (s : State) (ring : Nat) : State :=
  match lookup s.trx.rings ring, bestPacket (packetsOf s ring) with
  | some r, some (c, n, prio, ms) =>
    if r.entries < ms.length then s
    else
      let s := match chanOf s c with
        | some ch => setChan s c { ch with outq := ch.outq.filter (fun m => m.done != some n) }
        | none => s
      let s := { s with trx := { s.trx with left := s.trx.left.filter (fun p => p.2.2.1 != n) } }
      let data := (ms.zipIdx).foldl (fun d m => put d (outAddr r (r.prod + m.2)) (outEntry c m.1)) r.data
      let r := { r with data := data, prod := (r.prod + ms.length) % 2 ^ 32 }
      let s := { s with trx := { s.trx with rings := put s.trx.rings ring r } }
      let s := { s with io := { s.io with dma := put s.io.dma r.wb [lo32 r.prod] } }
      let seq := match ms with | m :: _ => m.seq | [] => 0
      decision (backPressure (signal s r.vec) c) 8 c seq (ring + 16 * prio + 256 * ms.length)
  | _, _ => s

/-- FLUSH_TAKES_EFFECT of a channel: the completion of its oldest flush that took effect; one that waits without a packet in progress takes
effect now. -/
def flushDone (s : State) (c : Nat) : State :=
  let s := if flushReady s c then flushPoint s c else s
  match chanOf s c with
  | none => s
  | some ch =>
    match ch.flushed with
    | [] => s
    | (dcn, n) :: rest =>
      completeFirst (setChan s c { ch with flushed := rest }) (fun w => w.opcode == 0x0703 && par w.cmd.params 0 == c) 0 (lo32 n :: dwords dcn)

end Sys2Proof.Machine
end

