-- ==== Sys2Proof/Machine/Capture.lean ====
section
/-! DEFINITION. Machine/Capture.lean: probes, separator and skim records, blocks, trigger sequencers, the cascade bus and the
collector (R223 to R261, R635). -/
namespace Sys2Proof.Machine

/-! ### Configuration (R260, R261) -/

/-- A CAP_ register and a TRG_ register of a die. -/
def capReg (s : State) (off : Nat) : Nat := ioReg s 0x05 off
def trgReg (s : State) (die off : Nat) : Nat := (reg s (rkey die 0x06 off)).toNat
/-- Fields of CAP_CTRL. -/
def capSkim (s : State) : Bool := bitOf (capReg s 0) 0
def winExp (s : State) : Nat := fld (capReg s 0) 5 1
def snapExp (s : State) : Nat := fld (capReg s 0) 10 6
def capTarget (s : State) : Bool := bitOf (capReg s 0) 11
def autoEn (s : State) : Bool := bitOf (capReg s 0) 12
def autoTime (s : State) : Bool := bitOf (capReg s 0) 13
/-- CAP_AUTO. -/
def capAuto (s : State) : Nat := capReg s 0x00C + capReg s 0x010 * 2 ^ 32

/-- Capture runs. -/
def capturing (s : State) : Bool := s.cap.mode == .armed || s.cap.mode == .triggered

/-- Capture and trigger state of a die. -/
def capDie (s : State) (d : Nat) : Option CapDie := lookup s.cap.dies d
/-- Replace it. -/
def setCapDie (s : State) (d : Nat) (c : CapDie) : State := { s with cap := { s.cap with dies := put s.cap.dies d c } }
/-- A die's capture unit after image load. -/
def newCapDie (ones : List Nat) : CapDie := {
  saved := { ones := ones, acc := [], st := 0, occ := 0 }, opened := none, seq := 0, unsent := [], fired := false,
  trigCause := none, stopCause := none, ended := false, reached := { dcn := 0, recs := 0, seq := 0, fin := false }, markDcn := 0
  markRecs := 0 }

/-- Valid probes of a die, in entry order; their bit of the rows. -/
def probesOf (i : Image) (d : Nat) : List ProbeEntry := i.probes.filter (fun p => p.die == d && bitOf p.w1.toNat 0)
def probeBit (s : State) (p : ProbeEntry) : Bool := bitOf (rd s.ds.rows (portRow p.loc)).toNat (locEp p.loc)
/-- Entries whose bit is 1 now (R224). -/
def probeOnes (s : State) (i : Image) (d : Nat) : List Nat := ((probesOf i d).filter (probeBit s)).map (·.index)
/-- STORE probes. -/
def stored (p : ProbeEntry) : Bool := bitOf p.w1.toNat 1

/-! ### CAP_STATUS and the state change event -/

/-- Number of a capture state. -/
def capModeNum : CapMode → Nat
  | .idle => 0 | .armed => 1 | .triggered => 2 | .frozen => 3

/-- CAUSE of an end marker of a die (R242). -/
def endCause (s : State) (c : CapDie) : Nat :=
  match s.cap.trigDcn, s.cap.endDcn with
  | some t, some e => if e == t + s.cap.post then 8 else c.stopCause.getD 0
  | _, _ => c.stopCause.getD 0

/-- The lowest CAUSE of the device's end markers. -/
def capCause (s : State) : Nat := (s.cap.dies.map (fun d => endCause s d.2)).foldl min 15

/-- CAP_STATUS. -/
def capStatus (s : State) : Word := packW [(0, 2, capModeNum s.cap.mode), (2, 4, s.cap.cause)]

/-- Change the capture state and queue event 0x0006. -/
def setCapMode (s : State) (m : CapMode) : State :=
  if s.cap.mode == m then s
  else
    let s := { s with cap := { s.cap with mode := m } }
    queueEvent s 6 0 0 [capStatus s]

/-! ### Blocks (R227, R228) -/

/-- Bytes of a block's records. -/
def recBytes (rs : List (List Word)) : Nat := (rs.map (fun r => 4 * r.length)).sum

/-- Close a block: it waits in the SRAM to be sent. -/
def closeBlock (c : CapDie) (cont : Bool) : CapDie :=
  match c.opened with
  | none => c
  | some b => { c with opened := none, unsent := c.unsent ++ [{ b with cont := cont }] }

/-- Commit one record of cycle m: (DCN that DELTA counts to, words of the record with DELTA left 0, end marker). The count of the
cycle's records so far grows. -/
def commitRec (s : State) (d m : Nat) (c : CapDie) (r : Nat × List Word × Bool) : CapDie :=
  let fits (b : Block) : Bool := decide (recBytes b.recs + 4 * r.2.1.length ≤ 4064) && decide (r.1 ≤ b.base + 0x7FFFFFFF)
  let c := match c.opened with
    | some b => if fits b then c else closeBlock c (b.last == m)
    | none => c
  let c := match c.opened with
    | some _ => c
    | none => { c with
        seq := (c.seq + 1) % 2 ^ 32
        opened := some {
          pos := posOf s, die := d, seq := c.seq, skim := capSkim s, base := m, last := m, cont := false, recs := [], lastRecs := 0,
          fin := false, time := stamp s, poison := false } }
  match c.opened with
  | none => c
  | some b =>
    let delta : Word := BitVec.ofNat 32 (unsgn 32 ((r.1 : Int) - (b.base : Int)))
    let words := [nth 0 r.2.1 0, delta] ++ r.2.1.drop 2
    let n := (if c.markDcn == m then c.markRecs else 0) + 1
    { c with
      opened := some { b with recs := b.recs ++ [words], last := m, lastRecs := n, fin := b.fin || r.2.2 }
      markDcn := m, markRecs := n }

/-- Commit the records of cycle m in their order, only beyond the committed mark (R230, R259, R635). -/
def commitRecs (s : State) (d m : Nat) (c : CapDie) (rs : List (Nat × List Word × Bool)) : CapDie :=
  let rs := if m < c.markDcn then [] else if m == c.markDcn then rs.drop c.markRecs else rs
  rs.foldl (commitRec s d m) c

/-! ### Records of a cycle (R229, R233, R236, R237) -/

/-- First cycle that capture records: the arm DCN, or the first window start from it (R234, R236). -/
def firstCaptured (s : State) : Nat :=
  if capSkim s then s.cap.armDcn else cdiv s.cap.armDcn (2 ^ winExp s) * 2 ^ winExp s

/-- Window accumulator of a probe after cycle m (R233). -/
def accStep (w : WinAcc) (off : Nat) (v tr : Bool) : WinAcc :=
  { last := v, orV := w.orV || v, andV := w.andV && v, trans := w.trans + b2n tr,
    first := if tr && w.first.isNone then some off else w.first }

/-- An empty window. -/
def emptyWin : WinAcc := { last := false, orV := false, andV := true, trans := 0, first := none }

/-- Window accumulators of a die's STORE probes after cycle m. -/
def accAfter (s : State) (c : CapDie) (ps : List ProbeEntry) (ones : List Nat) (m : Nat) : List (Nat × WinAcc) :=
  let off := m % 2 ^ winExp s
  ps.map (fun p =>
    let old := if off == 0 then emptyWin else (lookup c.saved.acc p.index).getD emptyWin
    let v := ones.contains p.index
    (p.index, accStep old off v (v != c.saved.ones.contains p.index)))

/-- Separator records of a window that ends with cycle m. -/
def sepRecords (s : State) (acc : List (Nat × WinAcc)) (m : Nat) (partialWin : Bool) : List (Nat × List Word × Bool) :=
  acc.map (fun a =>
    (m - m % 2 ^ winExp s,
      [packW [(0, 17, a.1), (17, 1, b2n a.2.last), (18, 1, b2n a.2.orV), (19, 1, b2n a.2.andV), (20, 1, b2n partialWin), (28, 4, 1)],
       0, lo32 a.2.trans, (match a.2.first with | some f => lo32 f | none => 0xFFFFFFFF)], false))

/-- Skim records of cycle m. -/
def skimRecords (s : State) (c : CapDie) (ps : List ProbeEntry) (ones : List Nat) (m : Nat) : List (Nat × List Word × Bool) :=
  let snap := m == s.cap.armDcn || (10 ≤ snapExp s && m % 2 ^ snapExp s == 0)
  (ps.filter (fun p => snap || ones.contains p.index != c.saved.ones.contains p.index)).map (fun p =>
    (m, [packW [(0, 17, p.index), (17, 1, b2n (ones.contains p.index)), (18, 1, b2n snap), (28, 4, 2)], 0], false))

/-- A marker record: TYPE, CAUSE, DCN. -/
def marker (typ cause dcn : Nat) (isEnd : Bool) : Nat × List Word × Bool :=
  (dcn, [packW [(0, 4, cause), (28, 4, typ)], 0, 0, 0], isEnd)

/-! ### The cascade bus (R248 to R252, R635) -/

/-- After a recovery at F: cycle m is F or later, and an event of the line was delivered for it (R635). -/
def droveBefore (s : State) (line m : Nat) : Bool :=
  match s.casc.rerun with
  | some f => decide (f ≤ m) && s.casc.delivered.contains (line, m)
  | none => false

/-- Raise an event of cycle m: nothing is driven in the replayed cycles of a recovery, nor from cycle F on where an event of that
line was delivered for the same event DCN (R635). -/
def driveEvent (s : State) (line cause die m : Nat) : State :=
  if inRecovery s || droveBefore s line m then s
  else { s with casc := { s.casc with drive := s.casc.drive ++ [(line, cause, die)] } }

/-- The cause that a die writes for a trigger that these sources raised (R242); of two sources of the lead in one slot the first queued:
DESIGN CHOICE of log 62. -/
def trigCauseOf (mine : List (Nat × Nat × Nat)) (d : Nat) : Nat :=
  if mine.contains (0, 1, d) then 1
  else match mine.find? (fun e => e.1 == 0 && e.2.2 == 15) with | some e => e.2.1 | none => 0

/-- The cause that a die writes for a stop that these sources raised. -/
def stopCauseOf (mine : List (Nat × Nat × Nat)) (d : Nat) : Nat :=
  ((mine.filter (fun e => e.1 == 1 && (e.2.2 == d || e.2.2 == 15))).map (fun e => e.2.1)).foldl (fun a c => if a == 0 then c else min a c) 0

/-- The next cycle to be committed: the cycle in progress until B12, F in a recovery, whose cycles before F were committed before. -/
def nextCommit (s : State) : Nat :=
  match s.ckp.recovery, s.seq.tick with
  | some r, _ => r.f
  | none, .bound b => if 13 ≤ b then s.seq.dcn + 1 else s.seq.dcn
  | none, _ => s.seq.dcn

/-- A trigger event of DCN m: the first fixes T and END_DCN, later ones are ignored and counted (R241, R242). -/
def takeTrigger (s : State) (m : Nat) (mine : List (Nat × Nat × Nat)) : State :=
  if !capturing s then s
  else if s.cap.trigDcn.isSome then bumpIo s 0x05 0x040 16 1
  else
    let e := match s.cap.endDcn with | some e => min e (m + s.cap.post) | none => m + s.cap.post
    let dies := s.cap.dies.map (fun d => (d.1, { d.2 with trigCause := some (trigCauseOf mine d.1), fired := mine.contains (0, 1, d.1) }))
    setCapMode { s with cap := { s.cap with trigDcn := some m, trigAt := some (nextCommit s), endDcn := some e, dies := dies } } .triggered

/-- A stop event of DCN m: capture ends after cycle m + 5 where that is earlier (R231, R241). -/
def takeStop (s : State) (m : Nat) (mine : List (Nat × Nat × Nat)) : State :=
  if !capturing s then s
  else
    let earlier := match s.cap.endDcn with | some e => decide (m + 5 < e) | none => true
    if earlier then
      let dies := s.cap.dies.map (fun d => (d.1, { d.2 with stopCause := some (stopCauseOf mine d.1) }))
      { s with cap := { s.cap with stopDcn := some m, endDcn := some (m + 5), dies := dies } }
    else s

/-- Delivery of one line's event (R250). -/
def deliverLine (m : Nat) (low : BitVec 4) (mine : List (Nat × Nat × Nat)) (s : State) (line : Nat) : State :=
  if !bitOf low.toNat line then s
  else
    let s := { s with casc := { s.casc with delivered := s.casc.delivered ++ [(line, m)] } }
    match line with
    | 0 => takeTrigger s m mine
    | 1 => takeStop s m mine
    | _ => s

/-! ### Trigger sequencer (R254 to R258) -/

/-- Word of WIDTHM1 + 1 probe values from ENTRY on. -/
def probeWord (ones : List Nat) (entry widthm1 : Nat) : Nat := bitsWhere (widthm1 + 1) (fun i => ones.contains (entry + i))

/-- Comparator c of a die in cycle m (R254). -/
def cmpTrue (s : State) (d : Nat) (prev ones : List Nat) (m c : Nat) : Bool :=
  let cfg := trgReg s d (16 * c)
  let val := trgReg s d (16 * c + 4)
  let mask := trgReg s d (16 * c + 8)
  let op := fld cfg 4 2
  let e := fld cfg 21 5
  let wd := fld cfg 26 22
  match fld cfg 1 0 with
  | 1 =>
    let v := ones.contains e
    let p := prev.contains e
    let k := bitOf val 0
    (op == 0 && v == k) || (op == 1 && v != k) || (op == 4 && !p && v) || (op == 5 && p && !v) || (op == 6 && p != v)
  | 2 =>
    let w := probeWord ones e wd &&& mask
    let p := probeWord prev e wd &&& mask
    let k := val &&& mask
    (op == 0 && w == k) || (op == 1 && w != k) || (op == 2 && decide (w < k)) || (op == 3 && decide (k ≤ w)) || (op == 6 && w != p)
  | 3 => (op == 0 && m == val + mask * 2 ^ 32) || (op == 3 && decide (val + mask * 2 ^ 32 ≤ m))
  | _ => false

/-- EVA (line 2) or EVB (line 3) is an input of cycle m (R252). -/
def evIn (s : State) (line m : Nat) : Bool := s.casc.delivered.any (fun e => e.1 == line && e.2 + 5 == m)

/-- The condition of a rule word (R256). -/
def ruleHolds (s : State) (d : Nat) (prev ones : List Nat) (m r : Nat) : Bool :=
  let ins := (numsWhere 16 (bitOf r)).map (cmpTrue s d prev ones m)
    ++ (if bitOf r 17 then [evIn s 2 m] else []) ++ (if bitOf r 18 then [evIn s 3 m] else []) ++ (if bitOf r 19 then [s.fab.ext] else [])
  bitOf r 27 && !ins.isEmpty && (if bitOf r 16 then ins.any (fun b => b) else ins.all (fun b => b))

/-- The actions of a rule in cycle m (R257). -/
def ruleActs (s : State) (d m r : Nat) : State :=
  let s := if bitOf r 23 then driveEvent s 0 1 d m else s
  let s := if bitOf r 24 then driveEvent s 2 1 d m else s
  let s := if bitOf r 25 then driveEvent s 3 1 d m else s
  if bitOf r 26 && !inRecovery s then requestHalt s (m + 5) (if inReplay s then .replayTarget else .trigger) else s

/-- TRIGGER_EVALUATION of one die in cycle m: rule A when its condition was true COUNT times since entry before, else rule B
(R256). -/
def evalTrigger (s : State) (d m : Nat) (prev ones : List Nat) : State :=
  match capDie s d with
  | none => s
  | some c =>
    let st := c.saved.st
    let ra := trgReg s d (0x100 + 16 * st)
    let rb := trgReg s d (0x104 + 16 * st)
    let occ := c.saved.occ + b2n (ruleHolds s d prev ones m ra)
    let a := ruleHolds s d prev ones m ra && c.saved.occ == fld (trgReg s d (0x108 + 16 * st)) 23 0
    let b := !a && ruleHolds s d prev ones m rb
    let r := if a then ra else rb
    let next := fld r 22 20
    let sv := if a then { c.saved with st := next, occ := 0 }
      else if b && next != st then { c.saved with st := next, occ := 0 } else { c.saved with occ := occ }
    let s := setCapDie s d { c with saved := sv }
    if a || b then ruleActs s d m r else s

/-! ### Commit (R230, R231) -/

/-- Records of cycle m of a die besides its end marker, with the accumulators after it: data records in entry order, then the trigger
marker, which is also written before the first captured window (DESIGN CHOICE, log 62). -/
def cycleRecords (s : State) (i : Image) (d m : Nat) (c : CapDie) (ones : List Nat) : List (Nat × List Word × Bool) × List (Nat × WinAcc) :=
  let ps := (probesOf i d).filter stored
  let live := decide (firstCaptured s ≤ m) && (match s.cap.endDcn with | some e => decide (m ≤ e) | none => true)
  let isEnd := s.cap.endDcn == some m
  let acc := if live && !capSkim s then accAfter s c ps ones m else c.saved.acc
  let winLast := (m + 1) % 2 ^ winExp s == 0
  let data := if !live then []
    else if capSkim s then skimRecords s c ps ones m
    else if winLast || isEnd then sepRecords s acc m (isEnd && !winLast) else []
  let mark := match s.cap.trigDcn with
    | some t => if s.cap.trigAt == some m then [marker 8 (c.trigCause.getD 0) t false] else []
    | none => []
  (data ++ mark, acc)

/-- Cycle m is captured and evaluated: from the arm DCN to END_DCN (R241, R258). A recovery evaluates again the cycles of a capture that
has reached FROZEN; all their records are committed (R635). -/
def captures (s : State) (m : Nat) : Bool :=
  (capturing s || (s.cap.mode == .frozen && (inRecovery s || s.casc.rerun.isSome))) && decide (s.cap.armDcn ≤ m)
  && (match s.cap.endDcn with | some e => decide (m ≤ e) | none => true)

/-- The sequencer enters state 0 at the arm DCN (R258), also where a recovery starts before it. -/
def enterSeq (s : State) (m : Nat) (v : CapSaved) : CapSaved := if m == s.cap.armDcn then { v with st := 0, occ := 0 } else v

/-- CAPTURE_COMMIT and TRIGGER_EVALUATION of a die at B12 of cycle m. -/
def commitDie (i : Image) (s : State) (d : Nat) : State :=
  match capDie s d with
  | none => s
  | some c =>
    let m := s.seq.dcn
    let ones := probeOnes s i d
    if !captures s m then setCapDie s d { c with saved := { c.saved with ones := ones } }
    else
      let r := cycleRecords s i d m c ones
      let c1 := commitRecs s d m c r.1
      let c1 := { c1 with saved := { enterSeq s m c.saved with acc := r.2 } }
      let s1 := evalTrigger (setCapDie s d c1) d m c.saved.ones ones
      match capDie s1 d with
      | none => s1
      | some c2 =>
        let s2 := setCapDie s1 d { c2 with saved := { c2.saved with ones := ones } }
        if 2048 < c2.unsent.length then driveEvent s2 1 5 d m else s2

/-- B12 of the capture units. -/
def captureCommit (s : State) (i : Image) : State := (diesOf s).foldl (commitDie i) s

/-- CAPTURE_END of a die: the end marker and the block's close (R228, R241). -/
def endDie (s : State) (d : Nat) : State :=
  match capDie s d with
  | none => s
  | some c =>
    if c.ended then s
    else
      let m := s.seq.dcn
      let c := (commitRec s d m c (marker 9 (endCause s c) m true))
      setCapDie s d { closeBlock c false with ended := true }

/-- The end of capture is due in this cycle's boundary. -/
def captureEndDue (s : State) : Bool :=
  capturing s && s.cap.endDcn == some s.seq.dcn && (s.cap.dies.any (fun d => !d.2.ended))

/-! ### Arming (R240) -/

/-- Every device arms: state ARMED, ring discarded, sequencers in state 0 (R240, R258). -/
def armNow (s : State) (dcn : Nat) : State :=
  let dies := (diesOf s).map (fun d =>
    let c := newCapDie (match capDie s d with | some c => c.saved.ones | none => [])
    (d, { c with markDcn := dcn, reached := { c.reached with dcn := dcn } }))
  setCapMode { s with cap := {
    s.cap with
    cause := 0, post := capReg s 0x008, armDcn := dcn, trigDcn := none, trigAt := none, stopDcn := none, endDcn := none, armAt := none
    dies := dies, ring := [], hdr := none, put := 0, oldest := dcn, endsIn := [], parts := [], sent := [], armTime := nowNs s, autoDone := false } } .armed

/-- Capture returns to IDLE and the ring is discarded (image load, unload or reset, R259); the design's cycles begin again, and no event
of the old ones is an input. -/
def captureIdle (s : State) : State :=
  setCapMode { s with casc := { s.casc with delivered := [], rerun := none }, cap := {
    s.cap with
    cause := 0, trigDcn := none, trigAt := none, stopDcn := none, endDcn := none, armAt := none, armDcn := 0, ring := []
    hdr := none, put := 0, oldest := 0, endsIn := [], parts := [], sent := [],
    autoDone := false
    dies := s.cap.dies.map (fun d => (d.1, newCapDie d.2.saved.ones)) } } .idle

/-- Every die closes its block for a checkpoint (R228). -/
def closeBlocks (s : State) : State :=
  { s with cap := { s.cap with dies := s.cap.dies.map (fun d => (d.1, closeBlock d.2 false)) } }

/-! ### The collector (R226, R232, R239, R243, R244) -/

/-- Words of a block (R227): header, records, zeros. -/
def blockWords (b : Block) : List Word :=
  let body := b.recs.flatMap (fun r => r)
  [packW [(0, 8, if b.skim then 2 else 1), (8, 4, b.pos), (12, 3, b.die), (15, 1, b2n b.cont), (16, 16, b.recs.length)], lo32 b.seq]
    ++ dwords b.base ++ [lo32 (b.last - b.base)] ++ words96 b.time ++ body ++ List.replicate (1016 - body.length) 0

/-- Words of the record that begins with a word of this TYPE. -/
def recWords (w : Word) : Nat := if wfld w 31 28 == 2 then 2 else 4

/-- The records of a block from its words. -/
def splitRecs : Nat → List Word → List (List Word)
  | 0, _ => []
  | n + 1, ws => ws.take (recWords (nth 0 ws 0)) :: splitRecs n (ws.drop (recWords (nth 0 ws 0)))

/-- A block as another device sent it. -/
def blockOf (ws : List Word) : Block :=
  let w0 := par ws 0
  let recs := splitRecs (fld w0 31 16) (ws.drop 8)
  let base := par64 ws 2
  { pos := fld w0 11 8, die := fld w0 14 12, seq := par ws 1, skim := fld w0 7 0 == 2, base := base, last := base + par ws 4,
    cont := bitOf w0 15, recs := recs, lastRecs := 0, fin := recs.any (fun r => wfld (nth 0 r 0) 31 28 == 9),
    time := BitVec.ofNat 96 (par ws 5 + par ws 6 * 2 ^ 32 + par ws 7 * 2 ^ 64), poison := false }

/-- Blocks that the ring holds: CAP_SPILL.GB less its header, or 96 GB on the deep-capture die (R244). -/
def ringBlocks (s : State) : Nat := if capTarget s then 96 * 2 ^ 18 else capReg s 0x004 * 2 ^ 18 - 1

/-- The oldest block may be retired (R232). -/
def retirable (s : State) (b : Block) : Bool :=
  match s.cap.trigDcn with
  | some t => decide (b.last < t)
  | none => true

/-- The header that a block write leaves (R244); its layout in the 4 KB is not given, and it is held as a record. -/
def ringHeader (s : State) : RingHeader := {
  mode := s.cap.mode, armDcn := s.cap.armDcn, trigDcn := s.cap.trigDcn, endDcn := s.cap.endDcn, cause := s.cap.cause
  oldest := (s.cap.put - s.cap.ring.length) % ringBlocks s, next := s.cap.put % ringBlocks s }

/-- A block of a die has reached the ring: the die's committed mark there. -/
def markReached (c : CapDie) (b : Block) : CapDie :=
  { c with reached := { dcn := b.last, recs := b.lastRecs, seq := b.seq + 1, fin := b.fin } }

/-- A block of a die of this device has reached the ring. -/
def reachRing (s : State) (b : Block) : State :=
  if b.pos != posOf s then s else match capDie s b.die with | some c => setCapDie s b.die (markReached c b) | none => s

/-- The oldest block is retired: its last cycle is no longer whole in the ring (R232, CAP_OLDEST_DCN). -/
def retireOldest (s : State) : State :=
  match s.cap.ring with
  | [] => s
  | b :: bs => bumpIo { s with cap := { s.cap with ring := bs, oldest := max s.cap.oldest (b.last + 1) } } 0x05 0x03C 32 1

/-- Write a block to the ring, retiring the oldest one when there is no room, and the header (R232, R244). -/
def ringPut (s : State) (b : Block) : State :=
  let s := reachRing (if s.cap.ring.length < ringBlocks s then s else retireOldest s) b
  let s := { s with cap := {
    s.cap with ring := s.cap.ring ++ [b], put := s.cap.put + 1, endsIn := if b.fin then s.cap.endsIn ++ [(b.pos, b.die)] else s.cap.endsIn } }
  { s with cap := { s.cap with hdr := some (ringHeader s) } }

/-- CAP_READ may read the ring: in FROZEN (R243), and the ring that a warm reset kept (R244), which leaves capture IDLE: DESIGN CHOICE of
log 62. -/
def ringReadable (s : State) : Bool := s.cap.mode == .frozen || (s.cap.mode == .idle && s.cap.hdr.isSome)

/-- Free and retirable space below 2 GB after a trigger: a stop event of cause 6 (R232). -/
def ringFull (s : State) : State :=
  let kept := (s.cap.ring.filter (fun b => !retirable s b)).length
  if s.cap.trigDcn.isSome && ringBlocks s - kept < 2 ^ 19 && s.cap.stopDcn.isNone && !inRecovery s then
    { s with casc := { s.casc with drive := s.casc.drive ++ [(1, 6, 15)] } }
  else s

/-- A die that lost its capture SRAM: its mark falls back to what reached the ring. -/
def loseSram (s : State) (d : Nat) : State :=
  match capDie s d with
  | none => s
  | some c =>
    let k := c.reached
    let c := { c with opened := none, unsent := [], markDcn := k.dcn, markRecs := k.recs, seq := k.seq, ended := k.fin }
    setCapDie { s with cap := {
      s.cap with
      sent := s.cap.sent.filter (fun b => !(b.pos == posOf s && b.die == d)),
      parts := s.cap.parts.filter (fun p => p.1 != 16 * posOf s + d) } } d c

end Sys2Proof.Machine
end

