-- ==== Sys2Proof/Machine/Marks.lean ====
section
/-! DEFINITION. Machine/Marks.lean: marked steps of degraded units, and the end of the repairs that hold the sluice (R126 to R128, R531, R532). -/
namespace Sys2Proof.Machine

/-! ### Marked steps (R126, R128) -/

/-- Entries of a route at step t: the channels that carry a booked bit, each once. -/
def bookedAt (i : Image) (die code t : Nat) : List Nat :=
  ((i.egress.filter (fun e => e.die == die && e.code == code && wfld e.w0 11 0 == t)).map (fun e => wfld e.w0 25 16)).eraseDups

/-- Spoke-routed routes out of or into a die in order of link code: sender, its link code. -/
def spokeRoutes (s : State) (d : Nat) (tx : Bool) : List (Nat × Nat) :=
  (List.range 8).filterMap (fun c =>
    let o := (d + c) % 8
    if c == 0 || !dieHere s o || ringPair s d o then none else some (if tx then (d, c) else (o, (8 - c) % 8)))

/-- Channels of the spoke-routed routes of a die that its spoke module 2 d + k carries at step t, and the module's share: the units of
16 channels go to the two modules alternately (R449). -/
def spokeLoad (i : Image) (k t : Nat) : List (Nat × Nat) → Nat → Nat × Nat
  | [], _ => (0, 0)
  | (o, c) :: rs, u0 =>
    let units := shareOf i o c / 16
    let mine (u : Nat) : Bool := (u0 + u) % 2 == k
    let rest := spokeLoad i k t rs (u0 + units)
    (((bookedAt i o c t).filter (fun ch => mine (ch / 16))).length + rest.1, 16 * (numsWhere units mine).length + rest.2)

/-- A direction that carries n of a share's channels needs a marked step when its unit is degraded: more than half. -/
def overHalf (l : Nat × Nat) : Bool := decide (l.2 < 2 * l.1)

/-- Module m, degraded to x32, or board link of a die, degraded to 8 lanes, carries more than half of its share at step t. -/
def moduleOver (s : State) (i : Image) (m t : Nat) : Bool :=
  if m < 16 then
    overHalf (spokeLoad i (m % 2) t (spokeRoutes s (m / 2) true) 0) || overHalf (spokeLoad i (m % 2) t (spokeRoutes s (m / 2) false) 0)
  else if m < 24 then
    let (a, b) := moduleEnds s m
    let one (x y : Nat) : Bool := let c := (y + 8 - x) % 8; overHalf ((bookedAt i x c t).length, shareOf i x c)
    ringPair s a b && (one a b || one b a)
  else false
def linkOver (i : Image) (d t : Nat) : Bool := overHalf ((bookedAt i d 0 t).length, shareOf i d 0)

/-- This device's marked steps under an image. -/
def ownMarked (s : State) (i : Image) : List Nat :=
  numsWhere i.hdr.depth (fun t =>
    s.ucie.any (fun e => e.2.st == 4 && moduleOver s i e.1 t) || s.bl.any (fun e => linkUp e.2 && e.2.width8 && linkOver i e.1 t))

/-- The marked steps of the board: the union over every device's degraded units; the device tells the others of its own. -/
def remark (s : State) : State :=
  match s.img.resident with
  | none => { s with seq := { s.seq with marked := [] } }
  | some i =>
    let own := ownMarked s i
    let all := (own ++ s.peers.flatMap (·.marked)).foldl ins []
    let s := { s with seq := { s.seq with marked := all } }
    if s.peers.isEmpty || (own.isEmpty && !s.ucie.any (fun e => e.2.st == 4)) then s else sendFw s (.marked (posOf s) own)

/-! ### Degraded operation (R352, R545) -/

/-- Conditions that start-up finds degraded, each with the cause and the unit of its record (R444, R489, R525, R545). -/
def degradedConds (s : State) : List (Nat × Word) :=
  (s.ucie.filter (fun m => m.1 < 24 && m.2.st == 4)).map (fun m => (0x0203, siteLoc (moduleSite m.1)))
  ++ (s.ucie.filter (fun m => m.1 < 24 && m.2.st == 1)).map (fun m => (0x0204, siteLoc (moduleSite m.1)))
  ++ (s.bl.filter (fun b => linkUp b.2 && (b.2.width8 || b.2.rxUsed.length == 8))).map (fun b => (0x0303, siteLoc b.1))
  ++ (s.ds.failed.filter (fun c => 1 < c.2.length)).map (fun c => (0x0602, mkLoc c.1 0 0 0))
  ++ (if s.ctl.aFailed || s.ctl.bFailed then [(0x0702, siteLoc 15)] else []) ++ (if s.banks.any (fun b => b.pinned) then [(0x0106, siteLoc 15)] else [])

/-- The device runs degraded (R352): a condition that start-up finds so, a board link that went down, or a lost accessory module. -/
def runsDegraded (s : State) : Bool :=
  !(degradedConds s).isEmpty || s.bl.any (fun b => b.2.st == 1 && 1 < b.2.cause) || s.acc.st == 6

/-! ### Repairs under the sluice (R127, R531) -/

/-- A lane failure that leaves a unit at half width (R127): its remap stall computes the marked steps, which hold from its end on. -/
def widthFault (s : State) (unit : Nat) (f : FaultInfo) : State :=
  let s' := joinRepair s 9 unit f
  if slotsRun s && !inSafeHold s then s' else remark s'

/-- The end of a repair: its word is right, its records are made, RECOVERED or DEGRADED, with the stall that it held; the record of a
takeover, which the restart makes, keeps that stall; a protocol engine runs again (R345); a width degrade has its marked steps (R127). -/
def endRepair (s : State) (r : Repair) : State :=
  let us := slotsUs s r.driven
  let s := match r.word with
    | some w => { s with ds := { s.ds with faulty := s.ds.faulty.filter (fun x => x != w) } }
    | none => s
  let s := r.recs.foldl (fun s e => addRecord s { e with stallUs := us } false) s
  let s := { s with err := { s.err with pending := s.err.pending.map (fun e => if r.code == 12 && e.cause == 0x0701 then { e with stallUs := us } else e) } }
  let s := if r.recs.any (fun e => e.cause == 0x0706) then { s with trx := { s.trx with restarts := s.trx.restarts.drop 1 } } else s
  if r.recs.any (fun e => e.cls == 4) then remark s else s

/-- Repairs from the front of the line end while they satisfy a test. -/
def endRepairs (s : State) (p : Repair → Bool) : State :=
  let ended := s.err.repairs.takeWhile p
  ended.foldl endRepair { s with err := { s.err with repairs := s.err.repairs.dropWhile p } }

/-- The board link whose weir a repair trains: after its lanes have been remapped, or to centre it again (R124, R499). -/
def repairWeir (r : Repair) : Option Nat :=
  if r.code == 9 && linkUnit 0 ≤ r.unit then some (r.unit - linkUnit 0) else if r.code == 10 && r.unit % 8 == 0 then some (r.unit / 8) else none

/-- A slot passes: every repair's request has driven it; the first in line goes on where the board stands (R532), and ends with its last
slot. -/
def passRepairs (s : State) : State :=
  let s := { s with err := { s.err with repairs := s.err.repairs.map (fun r => { r with driven := r.driven + 1 }) } }
  if !frozen s || inSafeHold s then s
  else match s.err.repairs with
    | [] => s
    | r :: rs => match r.left with
      | none => s
      | some n =>
        let at' (k : Option Nat) : State := { s with err := { s.err with repairs := { r with left := k } :: rs } }
        if r.code == 10 then (match repairWeir r with | some d => markWeir (at' none) d | none => at' none)
        else if 1 < n then (match repairWeir r with | some d => if n == weirSlots + 1 then trainWeir (at' (some (n - 1))) d else at' (some (n - 1)) | none => at' (some (n - 1)))
        else endRepair { s with err := { s.err with repairs := rs } } r

end Sys2Proof.Machine
end

