-- ==== Sys2Proof/Machine/Banks.lean ====
section
/-! DEFINITION. Machine/Banks.lean: network addresses and responses, and the service banks: ownership, their two ports, power and poison
(R454, R457 to R459, R464, R513, R514, R521 to R523). -/
namespace Sys2Proof.Machine

/-! ### Network addresses (R454, R455) -/

/-- Fields of a network address. -/
def naSite (a : Nat) : Nat := fld a 15 12
def naX (a : Nat) : Nat := fld a 11 9
def naY (a : Nat) : Nat := fld a 8 6
def naEnd (a : Nat) : Nat := fld a 5 0

/-! ### Answers (R457, R458, R464) -/

/-- Counters of the packet network: of the I/O die, whose gateways face the spillway's targets, and of the die at which a packet is met (R475;
log 20). -/
def countNoc (s : State) (off : Nat) : State := bumpIo s 0x12 off 32 1
def countAt (s : State) (site off : Nat) : State := if site < nDies s then bump s (rkey site 0x12 off) 32 1 else countNoc s off

/-- The module over which a packet reaches a compute die: the one on the side of the destination router (R459). -/
def spokeTo (a : Nat) : Nat := 2 * naSite a + (if naX a < 4 then 0 else 1)

/-- A response goes back to the source of a request; toward a compute die of this device it spends one credit of VN1 for each flit, toward an
isolated one it is absorbed and counted, and one for another position waits at its board link (R459, R466, R495). -/
def respond (s : State) (cmd status : Nat) (p : Packet) (ws : List Word) : State :=
  let r : Packet := { p with
    src := p.dst, dst := p.src, srcPos := p.dstPos, dstPos := p.srcPos, vn := 1, status := status, bytes := 0, words := ws, poison := false }
  let s := { s with net := { s.net with packets := ((cmd, status, r) :: s.net.packets).take 16 } }
  if p.srcPos != posOf s then
    queueOutPacket s { die := naSite p.dst, pos := p.srcPos, vn := 1, cmd := cmd, status := status, src := p.dst, dst := p.src, tag := p.tag, words := ws }
  else if s.net.spill.contains (naSite p.src) then countNoc s 0x010
  else if naSite p.src < nDies s then
    setOutstanding s (spokeTo p.src) 3 (outstanding s (spokeTo p.src) 3 + 1 + cdiv ws.length 4)
  else s

/-- The response command of a request: 0x21 for a read, 0x22 for an acknowledged write, none for the others. -/
def answerWith (s : State) (cmd : Option Nat) (status : Nat) (p : Packet) (ws : List Word) : State :=
  match cmd with
  | some c => respond s c status p ws
  | none => s

/-! ### Service banks (R521 to R523) -/

/-- The endpoint of the service banks, and those of the owners 0 to 2 and 5 on the I/O die (R455, R526); each bank follows the one before it
in the endpoint's addresses (DESIGN CHOICE, log 25). -/
def bankAddress : Nat := 15 * 2 ^ 12 + 1 * 2 ^ 9 + 2 * 2 ^ 6 + 2
def ownerAddress (o : Nat) : Nat := 15 * 2 ^ 12 + (match o with | 0 => 1 | 1 => 2 | 2 => 0 | _ => 3) * 2 ^ 9 + 1 * 2 ^ 6 + 2
def bankBytes : Nat := 2 ^ 24

/-- A requester is the owner of a bank: churn engines for owner 4; the trace's records reach bank 3's owner as its own (R526). -/
def ownsBank (s : State) (b : Bank) (p : Packet) : Bool :=
  p.srcPos == posOf s
    && (if b.owner == 4 then decide (naSite p.src < 8) && naY p.src == 0 && (naX p.src == 3 || naX p.src == 4) && naEnd p.src == 2
        else b.owner != 3 && p.src == ownerAddress b.owner)

/-- Byte k of a list of words. -/
def byteAt (ws : List Word) (k : Nat) : Nat := fld (nth (0 : Word) ws (k / 4)).toNat (8 * (k % 4) + 7) (8 * (k % 4))

/-- Word w of a bank after the bytes of a list are written from byte address a on: the other bytes keep their old values (R521). -/
def mergeWord (old : BitVec 64) (a : Nat) (ws : List Word) (w : Nat) : BitVec 64 :=
  BitVec.ofNat 64 (((List.range 8).map (fun i =>
    (if a ≤ 8 * w + i && 8 * w + i < a + 4 * ws.length then byteAt ws (8 * w + i - a) else fld old.toNat (8 * i + 7) (8 * i)) * 2 ^ (8 * i))).sum)

/-- A write covers all eight bytes of word w. -/
def fullWrite (a : Nat) (ws : List Word) (w : Nat) : Bool := decide (a ≤ 8 * w) && decide (8 * w + 8 ≤ a + 4 * ws.length)

/-- Whole words of a bank written at once by its owner, from a byte address on. -/
def bankStore (s : State) (n a : Nat) (ws : List Word) : State :=
  match s.banks[n]? with
  | none => s
  | some b =>
    let at0 := a % bankBytes
    let ks := (List.range (cdiv (at0 % 8 + 4 * ws.length) 8)).map (fun j => at0 / 8 + j)
    { s with banks := s.banks.set n { b with
        words := ks.foldl (fun m k => wr m k (mergeWord (rd m k) at0 ws k)) b.words
        poison := b.poison.filter (fun k => !(ks.contains k && fullWrite at0 ws k)) } }

/-- Words of a response: n bytes from byte address a on, out of the 64-bit words read. -/
def bytesRead (got : List (BitVec 64)) (a n : Nat) : List Word :=
  let byte (k : Nat) : Nat := if k < n then fld (nth (0 : BitVec 64) got ((a % 8 + k) / 8)).toNat (8 * ((a + k) % 8) + 7) (8 * ((a + k) % 8)) else 0
  (List.range (cdiv n 4)).map (fun j => BitVec.ofNat 32 (((List.range 4).map (fun i => byte (4 * j + i) * 2 ^ (8 * i))).sum))

/-- The write port writes one word in a CTRL cycle; a full write of the word clears its poison (R513, R521). -/
def bankWriteWord (b : Bank) : Bank :=
  match b.writes with
  | [] => b
  | j :: js =>
    let a := j.pkt.addr.toNat % bankBytes
    { b with
      words := wr b.words j.next (mergeWord (rd b.words j.next) a j.pkt.words j.next)
      poison := if fullWrite a j.pkt.words j.next then b.poison.filter (· != j.next) else b.poison
      writes := { j with next := j.next + 1, left := j.left - 1 } :: js }

/-- The read port reads one word in a CTRL cycle, after that cycle's write (R521). -/
def bankReadWord (b : Bank) : Bank :=
  match b.reads with
  | [] => b
  | j :: js => { b with
      reads := { j with next := j.next + 1, left := j.left - 1, got := j.got ++ [rd b.words j.next], bad := j.bad || b.poison.contains j.next } :: js }

/-- The access at the head of the write port has ended: its acknowledgement goes out. -/
def bankWriteEnd (s : State) (n : Nat) (b : Bank) : State :=
  match b.writes with
  | j :: js =>
    if j.left == 0 then
      let s := { s with banks := s.banks.set n { b with writes := js } }
      if j.pkt.status == 0 then s else respond s 0x22 0 j.pkt []
    else { s with banks := s.banks.set n b }
  | [] => { s with banks := s.banks.set n b }

/-- The access at the head of the read port has ended: its data go out, or ERROR for a poisoned word, which is no new fault (R513, R514). -/
def bankReadEnd (s : State) (n : Nat) : State :=
  match s.banks[n]? with
  | some b =>
    (match b.reads with
    | j :: js =>
      if j.left == 0 then
        let s := { s with banks := s.banks.set n { b with reads := js } }
        if j.bad then
          respond (fault s { cls := 2, cause := 0x0103, unit := siteLoc 15, flags := 2, memClass := 6, address := 2 ^ 21 * n + j.next - 1, syndrome := some 0xFFFF })
            0x21 1 j.pkt []
        else respond s 0x21 0 j.pkt (bytesRead j.got j.pkt.addr.toNat j.pkt.bytes)
      else s
    | [] => s)
  | none => s

/-- A bank in a CTRL cycle. -/
def bankCycle (s : State) (n : Nat) : State :=
  match s.banks[n]? with
  | none => s
  | some b => if b.reads.isEmpty && b.writes.isEmpty then s else bankReadEnd (bankWriteEnd s n (bankReadWord (bankWriteWord b))) n

/-- A CTRL edge at the banks. -/
def bankEdge (s : State) : State := (List.range s.banks.length).foldl bankCycle s

/-- The cycles that the accesses at a bank's ports still take, one after another. -/
def bankWork (b : Bank) : Nat := ((b.reads ++ b.writes).map (fun j => max 1 j.left)).sum

/-- Accesses at a bank's ports complete (R523). -/
def bankDrain (s : State) (n : Nat) : State :=
  match s.banks[n]? with
  | some b => (List.range (bankWork b)).foldl (fun s _ => bankCycle s n) s
  | none => s

/-- A read or a write of n bytes reaches the banks' endpoint: refused with a bus error to a unit that is not the owner, which BANK_DENY
counts, and in a bank that is not on (R522, R523); an address beyond the banks, and an access across the end of one, answers DECODE
(DESIGN CHOICE, log 25). -/
def bankRequest (s : State) (p : Packet) (ans : Option Nat) (n : Nat) (write : Bool) : State :=
  let a := p.addr.toNat
  let k := a / bankBytes
  match s.banks[k]? with
  | none => answerWith (countNoc s 0x018) ans 3 p []
  | some b =>
    if n == 0 || bankBytes < a % bankBytes + n then answerWith (countNoc s 0x018) ans 3 p []
    else if !ownsBank s b p then answerWith (bumpIo s 0x13 (0x40C + 16 * k) 16 1) ans 1 p []
    else if b.power != 0 then answerWith s ans 1 p []
    else
      let w := a % bankBytes / 8
      let j : BankJob := { pkt := { p with status := b2n ans.isSome }, next := w, left := (a % bankBytes + n - 1) / 8 + 1 - w, got := [], bad := false }
      { s with banks := s.banks.set k (if write then { b with writes := b.writes ++ [j] } else { b with reads := b.reads ++ [j] }) }

/-- BANK_POWER changes a bank's state (R523). -/
def bankPower (s : State) (n p : Nat) : State :=
  let s := bankDrain s n
  match s.banks[n]? with
  | none => s
  | some b =>
    let c := { b with power := p }
    let s := { s with banks := s.banks.set n (if p == 2 || (b.power == 2 && p != b.power) then { c with words := [], poison := [] } else c) }
    if b.power == 1 && p == 0 then setIo s 0x13 (0x104 + 32 * 6) (2 ^ 21 * n) else s

/-- An uncorrectable word of class 6: it becomes poison with data 0 (R510, R513). -/
def bankPoison (s : State) (addr : Nat) : State :=
  match s.banks[addr / 2 ^ 21]? with
  | some b => { s with banks := s.banks.set (addr / 2 ^ 21) { b with words := wr b.words (addr % 2 ^ 21) 0, poison := ins b.poison (addr % 2 ^ 21) } }
  | none => s

/-- The word of class 6 holds poison. -/
def bankPoisoned (s : State) (addr : Nat) : Bool :=
  match s.banks[addr / 2 ^ 21]? with
  | some b => b.poison.contains (addr % 2 ^ 21)
  | none => false

end Sys2Proof.Machine
end

