-- ==== Sys2Proof/Machine/Util.lean ====
section
/-! DEFINITION. Machine/Util.lean: the utility crossbar: signals, pins, switches, holds (R602 to R612). -/
namespace Sys2Proof.Machine

/-- A register of the utility block. -/
def utReg (s : State) (off : Nat) : Nat := ioReg s 0x18 off

/-! ### Signals (R602) -/

/-- KIND of a signal: 0 reserved, 1 output, 2 input. -/
def sigKind (n : Nat) : Nat :=
  if n < 0x40 then 1
  else if n < 0x50 then (if n % 4 < 2 then 1 else 2)
  else if n < 0x54 then (if n % 2 == 0 then 1 else 2)
  else if n == 0x54 then 1 else if n == 0x55 then 2 else if n == 0x56 then 2 else if n == 0x57 then 1
  else if n < 0xA0 then 1 else if n < 0xE0 then 2 else 0

/-- CLASS of a signal: true service. -/
def sigService (n : Nat) : Bool := (0x30 ≤ n && n < 0x56) || (0x58 ≤ n && n < 0x60)

/-- The signal's class is enabled; user signals at the FABRIC edge that releases the global set/reset (R610). -/
def sigOn (s : State) (n : Nat) : Bool := if sigService n then s.util.serviceEn else s.util.userEn && !s.fab.logic.gsrEnds

/-- Recovery in progress (CKP_STATUS.RECOVERING). -/
def recovering (s : State) : Bool := s.ckp.recovery.isSome

/-- Value of an output signal. I2C and UART outputs idle high: their traffic is the firmware's. -/
def outSignal (s : State) (n : Nat) : Bool :=
  if n < 0x30 then bitOf (utReg s (0x020 + 4 * (n / 16))) (n % 16)
  else if n < 0x33 then bitOf (modeNum s.md.mode) (n - 0x30)
  else match n with
  | 0x33 => stepping s
  | 0x34 => frozen s
  | 0x35 => inSafeHold s
  | 0x36 => runsDegraded s
  | 0x37 => bitOf (ioReg s 0x14 0x008) 0
  | 0x38 => s.boot.cfgErr
  | 0x39 => s.util.beat
  | 0x3A => s.cap.mode == .triggered
  | 0x3B => s.cap.mode == .frozen
  | 0x3C => s.img.loading.isSome
  | 0x3D => recovering s
  | 0x3E => s.time.locked
  | 0x3F => true
  | 0x54 => if inSafeHold s then s.time.ppsKept else decide (0 < s.time.ppsLeft)
  | 0x57 => decide (0 < s.util.trigLeft)
  | 0x58 => reg s (bkey 0x105C) != reg s (bkey 0x1060)
  | 0x59 => !s.err.queue.isEmpty
  | 0x5A => reg s (bkey 0x103C) != reg s (bkey 0x1040)
  | 0x5B => runsDegraded s || s.err.seen.contains 5
  | _ => if n < 0x54 then true else if n < 0x60 then bitOf s.util.tmr.toNat (n - 0x5C) && utReg s (0x060 + 4 * (n - 0x5C)) != 0 else bitOf s.fab.logic.utilOut.toNat (n - 0x60)

/-! ### Pins (R603, R604, R606) -/

/-- The pin that a signal is mapped to; pins 48 to 63 act as EN clear. -/
def sigPin (s : State) (n : Nat) : Option Nat :=
  let m := utReg s (0x400 + 4 * n)
  if bitOf m 6 && fld m 5 0 < 48 then some (fld m 5 0) else none

/-- Sources of a pin: enabled output signals mapped to it. -/
def pinSources (s : State) (p : Nat) : List Nat :=
  (List.range 0xA0).filter (fun n => sigKind n == 1 && sigOn s n && sigPin s n == some p)

/-- A pin's value. -/
def pinValue (s : State) (p : Nat) : Bool := (pinSources s p).any (outSignal s)

/-- A pin in HOLD. -/
def pinHold (s : State) (p : Nat) : Option PinHold := s.util.holds.find? (fun h => h.pin == p)

/-- Open-drain delivery. -/
def pinOd (s : State) (p : Nat) : Bool := bitOf (utReg s (0x100 + 4 * p)) 2

/-- Output enabled: sources, and with OD a value of 0. A held pin keeps its level. -/
def pinOe (s : State) (p : Nat) : Bool :=
  !s.pwr.disabled && ((pinHold s p).isSome || (!(pinSources s p).isEmpty && (!pinOd s p || !pinValue s p)))

/-- PULL in effect of a pin: 0 as STRAP_PULL selects, 1 up, 2 down, 3 keeper (R607). -/
def utilPull (s : State) (p : Nat) : Nat := (lookup s.util.pulls p).getD 0

/-- Level of a pad that nothing drives: its pull's, its keeper's, or as the board gives it where it has no pull (R409, R607). -/
def floatLevel (s : State) (p : Nat) : Bool :=
  let keep := bitOf s.util.kept.toNat p
  match utilPull s p with
  | 1 => true
  | 2 => false
  | 3 => keep
  | _ => (match s.straps.pull with | 0 => false | 1 => true | 2 => keep | _ => bitOf s.util.pads.toNat p)

/-- Level at the pad: the board's where it holds the line (R606), else held by the switch's keeper, driven, the pull's, or as the board gives
it. -/
def padLevel (s : State) (p : Nat) : Bool :=
  if bitOf s.util.forced.toNat p then bitOf s.util.pads.toNat p
  else match pinHold s p with
    | some h => h.level
    | none =>
      if pinOe s p then pinValue s p
      else if bitOf s.util.floats.toNat p then floatLevel s p
      else bitOf s.util.pads.toNat p

/-- Idle level of an input signal. -/
def idleLevel (n : Nat) : Bool := (0x40 ≤ n && n < 0x50) || n == 0x51 || n == 0x53

/-- Value of an input signal from a given pad reading. -/
def inSignalOf (s : State) (pad : Nat → Bool) (n : Nat) : Bool :=
  match s.util.holds.findSome? (fun h => lookup h.ins n) with
  | some v => v
  | none => match sigPin s n with
    | some p => if sigOn s n then pad p else idleLevel n
    | none => idleLevel n

/-- The boundary inputs come from the log: FABRIC_IN and TRIG_IN read the logged levels (R611). -/
def utilFromLog (s : State) : Bool := s.md.mode == .replay || recoverySteps s

/-- Value of an input signal. -/
def inSignal (s : State) (n : Nat) : Bool :=
  if utilFromLog s && (n == 0x56 || 0xA0 ≤ n) then inSignalOf s (fun p => bitOf s.fab.utilIn.toNat p) n
  else inSignalOf s (padLevel s) n

/-- EXT input of the trigger sequencers: TRIG_IN (R256). -/
def trigIn (s : State) : Bool := inSignal s 0x56

/-! ### Switching (R608, R609) -/

/-- Input signals that name a pin. -/
def pinInputs (s : State) (p : Nat) : List Nat := (List.range 256).filter (fun n => sigKind n == 2 && sigPin s n == some p)

/-- Begin a hold of a pin, or queue a further one; `ins` are the input signals that the switch moves. -/
def switchPin (s : State) (ins : List Nat) (p : Nat) : State :=
  let hs := s.util.holds
  let keep := ins.map (fun n => (n, inSignal s n))
  let hs := match pinHold s p with
    | some _ => hs.map (fun h => if h.pin == p then { h with again := true, ins := h.ins ++ keep.filter (fun e => (lookup h.ins e.1).isNone) } else h)
    | none => hs ++ [{ pin := p, level := padLevel s p, left := 2, again := false, ins := keep }]
  { s with util := { s.util with holds := hs } }

/-- A write of UTIL_MAPs: a switch of the pin that it leaves and of the pin that it takes (R608). Reserved signals ignore it. -/
def writeMap (s : State) (n : Nat) (w : Word) : State :=
  if sigKind n == 0 then s
  else
    let new := w.toNat % 128
    let k := 0x400 + 4 * n
    let s1 := setIo s 0x18 k new
    let before := sigPin s n
    let after := sigPin s1 n
    if before == after then s1
    else
      let moved := if sigKind n == 2 then [n] else []
      let held := (before.toList ++ after.toList).foldl (fun a p => switchPin a moved p) s
      { s1 with util := held.util }

/-- A masked write of UTIL_IOb (R605). -/
def writeUtilIo (s : State) (b : Nat) (w : Word) : State :=
  let old := utReg s (0x020 + 4 * b)
  setIo s 0x18 (0x020 + 4 * b) (bitsWhere 16 (fun i => if bitOf w.toNat (16 + i) then bitOf w.toNat i else bitOf old i))

/-- The pulls in effect from a CTRL edge on: what UTIL_PINp.PULL holds, but for a pin in HOLD, whose new pull waits (R607, R609). -/
def pullsNow (s : State) (hs : List PinHold) : List (Nat × Nat) :=
  let held (p : Nat) : Bool := hs.any (fun h => h.pin == p)
  s.util.pulls.filter (fun e => held e.1)
    ++ s.regs.filterMap (fun e =>
        if rkey 15 0x18 0x100 ≤ e.1 && e.1 < rkey 15 0x18 0x1C0 then
          (let p := (e.1 - rkey 15 0x18 0x100) / 4
           if held p || wfld e.2 1 0 == 0 then none else some (p, wfld e.2 1 0))
        else none)

/-- The levels at the pads. -/
def padLevels (s : State) : BitVec 48 :=
  if s.util.floats == 0 && s.util.holds.isEmpty && s.regs.all (fun e => !(rkey 15 0x18 0x400 ≤ e.1 && e.1 < rkey 15 0x18 0x800)) then s.util.pads
  else BitVec.ofNat 48 (bitsWhere 48 (padLevel s))

/-- One CTRL cycle of the holds; a further switch holds for 2 cycles more (R609). TRIG_OUT keeps its value in SAFE HOLD (R610). The keepers
see the pads (R607). -/
def utilEdge (s : State) : State :=
  let hs := s.util.holds.filterMap (fun h =>
    if 1 < h.left then some { h with left := h.left - 1 } else if h.again then some { h with left := 2, again := false } else none)
  { s with util := { s.util with
      holds := hs, pulls := pullsNow s hs, kept := padLevels s, trigLeft := if inSafeHold s then s.util.trigLeft else s.util.trigLeft - 1 } }

/-- Read value of a register of the block (R612). -/
def readUtil (s : State) (off : Nat) : Nat :=
  if off == 0x000 then b2n s.util.serviceEn + 2 * b2n (s.util.userEn && !s.fab.logic.gsrEnds) + 256 * s.util.holds.length
  else if 0x010 ≤ off && off < 0x01C then bitsWhere 16 (fun i => padLevel s (16 * ((off - 0x010) / 4) + i))
  else if off == 0x040 then s.fab.utilIn.toNat % 2 ^ 32
  else if off == 0x044 then s.fab.utilIn.toNat / 2 ^ 32 + 2 ^ 16 * b2n s.fab.ext
  else if 0x100 ≤ off && off < 0x1C0 then
    let p := (off - 0x100) / 4
    fld (utReg s off) 2 0 + 8 * b2n (padLevel s p) + 16 * b2n (pinOe s p) + 32 * b2n (pinHold s p).isSome
      + 64 * b2n ((pinSources s p).any sigService)
  else if 0x400 ≤ off && off < 0x800 then
    let n := (off - 0x400) / 4
    utReg s off % 128 + 256 * sigKind n + 1024 * b2n (sigService n)
  else utReg s off

end Sys2Proof.Machine
end

