-- ==== Sys2Proof/Machine/Fabric.lean ====
section
/-! DEFINITION. Machine/Fabric.lean: the logic fabric: cells, routing, crossing registers, clocks, the output and input edges, target pins
(R380 to R397, R401, R402, R433). The fabric moves at each half of a FABRIC cycle; clock edges from a pin or a net are seen at the next one
(log 69). -/
namespace Sys2Proof.Machine

/-! ### Places (R380, R386, R401) -/

/-- State of a fabric region; its code in two bits (R402, R405). -/
def regionSt (s : State) (r : Nat) : RegionSt := (lookup s.fab.regions r).getD .unconfigured
def regionCode : RegionSt → Nat
  | .valid => 0 | .invalid => 1 | .loading => 2 | .unconfigured => 3

/-- Region and die of a frame address; 8 is the I/O die. -/
def addrRegion (a : Nat) : Nat := if a / 2 ^ 28 == 15 then 32 + a / 2 ^ 24 % 16 else 4 * (a / 2 ^ 28) + a / 2 ^ 24 % 16
def regionDie (r : Nat) : Nat := if r < 32 then r / 4 else 8

/-- Tiles of a region, its first tile in the device, the region of a tile. -/
def regionTiles (r : Nat) : Nat := if r < 32 then 3072 else 2048
def firstTile (r : Nat) : Nat := if r < 32 then 3072 * r else 98304 + 2048 * (r - 32)
def tileRegion (t : Nat) : Nat := if t < 98304 then t / 3072 else 32 + (t - 98304) / 2048

/-- Region of an output or input port cell (R386, log 30). -/
def cellRegion (n : Nat) : Nat := if n < 32768 then 4 * (n / 4096) + n % 4096 / 1024 else 32 + (n - 32768) / 1024

/-- The region that drives a node, for the nodes that settle. -/
def nodeRegion : FabNode → Option Nat
  | .lut c | .ff c => some (tileRegion (c / 16))
  | .wire t _ _ _ | .tap t _ => some (tileRegion t)
  | _ => none

/-- A node is on a die: nets cross only through crossing registers (R384); the engine signals reach every die (R388). -/
def nodeOnDie (d : Nat) : FabNode → Bool
  | .lut c | .ff c => regionDie (tileRegion (c / 16)) == d
  | .wire t _ _ _ | .tap t _ => regionDie (tileRegion t) == d
  | .trunk x _ => x == d
  | .crossing x toIo _ => if toIo then d == 8 else x == d
  | .outCell n => regionDie (cellRegion n) == d
  | .pin _ _ | .utilIn _ => d == 8
  | .engine _ => true

/-- A choice belongs to the frame that brings it: tile frames, clock, port-cell, I/O cell and crossing-register frames (R383, R385, R401). -/
def itemHere (r f : Nat) : FabItem → Bool
  | .cell k _ => f < regionTiles r && k < 16
  | .wire _ _ _ _ => f < regionTiles r
  | .tap l _ => f < regionTiles r && l < (if r < 32 then 128 else 256)
  | .utilOut k _ => r == 32 && f < regionTiles r && k < 64
  | .clock l _ => 0xD00 ≤ f && f < 0xD10 && l < 16
  | .port n _ => 0xE00 ≤ f && f < 0xE80 && cellRegion n == r
  | .pin p _ _ => r == 32 && p < 192 && f == 0xF00 + p / 8
  | .crossing d toIo k _ => 0xF80 ≤ f && f < 0xF90 && d < 8 && k < 256 && regionDie r == (if toIo then d else 8)

/-- A choice in force, with its region and frame. -/
structure Placed where
  r : Nat
  f : Nat
  item : FabItem

/-- Two choices set the same multiplexer or block, of which a configuration has one setting (R382). -/
def sameSlot (x y : Placed) : Bool :=
  x.r == y.r && (match x.item, y.item with
    | .cell k _, .cell j _ => x.f == y.f && k == j
    | .wire l d k _, .wire m e j _ => x.f == y.f && l == m && d == e && k == j
    | .tap l _, .tap m _ => x.f == y.f && l == m
    | .utilOut k _, .utilOut j _ => k == j
    | .clock l _, .clock m _ => l == m
    | .port n _, .port m _ => n == m
    | .pin p _ _, .pin q _ _ => p == q
    | .crossing d t k _, .crossing e u j _ => d == e && t == u && k == j
    | _, _ => false)

/-- The choices of every written frame, one for each multiplexer: the one written over the others (R382). -/
def placed (s : State) : List Placed :=
  (s.fab.logic.frames.flatMap (fun e =>
    (e.2.filter (itemHere (addrRegion e.1) (e.1 % 4096))).map (fun x => ({ r := addrRegion e.1, f := e.1 % 4096, item := x } : Placed)))).foldr
      (fun x a => if a.any (sameSlot x) then a else x :: a) []

/-- A region whose outputs keep their last values: LOADING, INVALID, or not yet released (R402, R433). -/
def regionFrozen (s : State) (r : Nat) : Bool :=
  regionSt s r == .loading || regionSt s r == .invalid || s.fab.logic.fresh.contains r

/-- A region's flip-flops are held at INIT (R381, R431). -/
def heldInit (s : State) (r : Nat) : Bool := s.fab.logic.fresh.contains r || regionSt s r == .loading || s.fab.gsr || s.fab.logic.gsrEnds

/-! ### Target pins (R392 to R397) -/

/-- MODE and DDR that the resident image's port-cell map gives a pin (R393, R398). -/
def mappedPin (s : State) (p : Nat) : Option Nat :=
  match s.img.resident with
  | some i =>
    let es := i.portCells.filter (fun e => 2 ≤ wfld e.w1 1 0 && wfld e.w1 31 16 == p)
    match es with
    | e :: _ => some (wfld e.w1 1 0 - 1 + 4 * b2n (es.any (fun e => bitOf e.w1.toNat 2)))
    | [] => none
  | none => none

/-- The stored fields of FAB_IOCFGp with the MODE and DDR in force. -/
def iocfg (s : State) (p : Nat) : Nat :=
  let v := ioReg s 0x10 (0x100 + 4 * p) % 2 ^ 23
  match mappedPin s p with | some m => v / 8 * 8 + m | none => v

/-- MODE, and the clock line of a MODE 3 pin. -/
def pinMode (s : State) (p : Nat) : Nat := fld (iocfg s p) 1 0
def pinClk (s : State) (p : Nat) : Nat := fld (iocfg s p) 22 19

/-- Target pins are enabled in LOADED, RUN and REPLAY with the image resident, and not after a lost rail (R397, R412, R617). -/
def pinsEnabled (s : State) : Bool :=
  (s.md.mode == .loaded || s.md.mode == .run || s.md.mode == .replay) && s.img.resident.isSome && !s.pwr.disabled

/-- A MODE 3 pin has a net to drive: its I/O cell frame connects its output register. -/
def pinRouted (s : State) (p : Nat) : Bool :=
  (placed s).any (fun x => match x.item with | .pin q a _ => q == p && a.isSome | _ => false)

/-- The device drives a pin. -/
def pinDriven (s : State) (p : Nat) : Bool := pinsEnabled s && (pinMode s p == 2 || (pinMode s p == 3 && pinRouted s p))

/-- Level that a driven pin has: of its last output edge, of its output register, or as its keeper holds it (R396). -/
def drivenLevel (s : State) (p : Nat) : Bool :=
  match s.fab.logic.holds.find? (fun h => h.pin == p) with
  | some h => h.level
  | none => if pinMode s p == 2 then bitOf s.fab.pinOut.toNat p else bitOf s.fab.logic.out.toNat p

/-- Pull of a pin that floats: PULL, or the strap, which alone counts before STANDBY (R392, R405, R409, R410). -/
def pinPull (s : State) (p : Nat) : Nat :=
  let v := fld (iocfg s p) 18 17
  if s.md.mode == .boot || v == 0 then s.straps.pull else if v == 1 then 1 else if v == 2 then 0 else 2

/-- Level at the pad of a target pin: as driven, as the board gives it, or where it floats as its pull or keeper gives it; with no pull it
reads as the board's last level. -/
def targetPad (s : State) (p : Nat) : Bool :=
  if pinDriven s p then drivenLevel s p
  else if bitOf s.fab.floats.toNat p then (match pinPull s p with | 0 => false | 1 => true | 2 => bitOf s.fab.kept.toNat p | _ => bitOf s.fab.pads.toNat p)
  else bitOf s.fab.pads.toNat p
def targetPads (s : State) : BitVec 192 := BitVec.ofNat 192 (bitsWhere 192 (targetPad s))

/-- Every keeper has seen the level that its pad has. -/
def keepPads (s : State) : State := { s with fab := { s.fab with kept := targetPads s } }
/-- The board gives the pads their levels, or leaves them floating. -/
def givePads (s : State) (pads floats : BitVec 192) : State :=
  if s.fab.pads == pads && s.fab.floats == floats then s
  else
    let s := keepPads s
    { s with fab := { s.fab with pads := pads, floats := floats } }

/-! ### Values (R381 to R384, R388) -/

/-- Value of an engine signal at this FABRIC edge. -/
def engineSignal (s : State) (live : Bool) (k : Nat) : Bool :=
  match k with
  | 0 => s.fab.logic.outStrobe
  | 1 => s.fab.logic.inStrobe
  | 2 => live
  | 11 => liveSignal s
  | _ => k < 11 && bitOf s.seq.dcn (k - 3)

/-- Value of a node as a region of die d reads it. A trunk carries the OR of its enabled taps. -/
def nodeOn (s : State) (live : Bool) (on : List FabNode) (d : Nat) (n : FabNode) : Bool :=
  nodeOnDie d n && (match n with
    | .lut _ | .ff _ | .wire _ _ _ _ | .tap _ _ => on.contains n
    | .trunk x l => on.any (fun m => match m with | .tap t k => k == l && regionDie (tileRegion t) == x | _ => false)
    | .crossing x toIo k => s.fab.logic.cross.any (fun c => c.die == x && c.toIo == toIo && c.k == k && bitOf c.stages.toNat 3)
    | .outCell c => s.fab.outCells.contains c
    | .pin p falling => if falling then bitOf s.fab.logic.inFall.toNat p else bitOf s.fab.logic.inRise.toNat p
    | .engine k => engineSignal s live k
    | .utilIn k => bitOf s.fab.logic.sync2.toNat k)

/-- Value of an input that routing may leave unconnected: 0 then (R382). -/
def inputOn (s : State) (live : Bool) (on : List FabNode) (d : Nat) (n : Option FabNode) : Bool :=
  match n with | some n => nodeOn s live on d n | none => false

/-- LUT output of a cell. -/
def lutOn (s : State) (live : Bool) (on : List FabNode) (d : Nat) (c : FabCell) : Bool :=
  bitOf c.table.toNat (bitsWhere 4 (fun j => inputOn s live on d (c.ins[j]?.getD none)))

/-- Nodes of a choice that carry 1, from the values that the others carry. -/
def nodesOn (s : State) (live : Bool) (on : List FabNode) (x : Placed) : List FabNode :=
  let d := regionDie x.r
  let t := firstTile x.r + x.f
  match x.item with
  | .cell k c =>
    (if lutOn s live on d c then [.lut (16 * t + k)] else []) ++ (if s.fab.logic.ffs.contains (16 * t + k) then [.ff (16 * t + k)] else [])
  | .wire l dir k sel => if inputOn s live on d sel then [.wire t l dir k] else []
  | .tap l src => if nodeOn s live on d src then [.tap t l] else []
  | _ => []

/-- The nodes of a frozen region keep their values; the others follow. -/
def settleOnce (s : State) (live : Bool) (xs : List Placed) (on : List FabNode) : List FabNode :=
  on.filter (fun n => match nodeRegion n with | some r => regionFrozen s r | none => false)
    ++ (xs.filter (fun x => !regionFrozen s x.r)).flatMap (nodesOn s live on)

/-- The network settles: values spread until none changes, through at most n places. -/
def spread (s : State) (live : Bool) (xs : List Placed) : Nat → List FabNode → List FabNode
  | 0, on => on
  | n + 1, on => let on' := settleOnce s live xs on; if on' == on then on else spread s live xs n on'

/-- One bit of a word replaced. -/
def setBit64 (v : BitVec 64) (k : Nat) (b : Bool) : BitVec 64 := BitVec.ofNat 64 (bitsWhere 64 (fun j => if j == k then b else bitOf v.toNat j))

/-- The fabric with its network settled. -/
def settled (s : State) (live : Bool) : FabState :=
  let xs := placed s
  let on := spread s live xs (2 * xs.length + 1) s.fab.logic.on
  { s.fab with logic := { s.fab.logic with
    on := on
    utilOut := if inSafeHold s then s.fab.logic.utilOut else xs.foldl (fun v x => match x.item with
      | .utilOut k src => if regionFrozen s x.r then v else setBit64 v k (nodeOn s live on 8 src)
      | _ => v) s.fab.logic.utilOut } }

/-! ### Clocks and registers (R381, R384, R385, R395) -/

/-- Level of a regional clock line. -/
def lineHigh (s : State) (live rise : Bool) (r : Nat) : ClockSrc → Bool
  | .fabric => rise
  | .divided k => 1 ≤ k && k ≤ 8 && decide (s.fab.logic.cycle % 2 ^ k < 2 ^ (k - 1))
  | .pin k => k < 16 && targetPad s (12 * k)
  | .net n => nodeOn s live s.fab.logic.on (regionDie r) n

/-- The clock lines that are high. -/
def linesHigh (s : State) (live rise : Bool) : List (Nat × Nat) :=
  (placed s).filterMap (fun x => match x.item with | .clock l src => if lineHigh s live rise x.r src then some (x.r, l) else none | _ => none)

/-- A cell's flip-flop after an edge of the lines `up`. -/
def ffNext (s : State) (live : Bool) (up : List (Nat × Nat)) (r n : Nat) (c : FabCell) : Bool :=
  let d := regionDie r
  let on := s.fab.logic.on
  let v := s.fab.logic.ffs.contains n
  if heldInit s r then c.init
  else if regionSt s r == .invalid || !up.contains (r, c.line) then v
  else if inputOn s live on d c.setReset then c.sets
  else if c.enable.isNone || inputOn s live on d c.enable then (if c.useBypass then inputOn s live on d c.bypass else lutOn s live on d c)
  else v

/-- Every flip-flop after the edge. -/
def ffsNext (s : State) (live : Bool) (up : List (Nat × Nat)) : List Nat :=
  (placed s).filterMap (fun x => match x.item with
    | .cell k c => let n := 16 * (firstTile x.r + x.f) + k; if ffNext s live up x.r n c then some n else none
    | _ => none)

/-- Every crossing register after a FABRIC rising edge; a frozen region's keeps its value (R384, R402). -/
def crossNext (s : State) (live : Bool) : List CrossPipe :=
  let next (c : CrossPipe) (v : Bool) : CrossPipe := { c with stages := BitVec.ofNat 4 (2 * c.stages.toNat + b2n v) }
  (s.fab.logic.cross.filter (fun c => regionFrozen s c.region)).map (fun c => next c (bitOf c.stages.toNat 0))
    ++ (placed s).filterMap (fun x => match x.item with
      | .crossing d toIo k src =>
        if regionFrozen s x.r then none
        else
          let old := (s.fab.logic.cross.find? (fun c => c.die == d && c.toIo == toIo && c.k == k)).getD
            { region := x.r, die := d, toIo := toIo, k := k, stages := 0 }
          some (next { old with region := x.r } (nodeOn s live s.fab.logic.on (regionDie x.r) src))
      | _ => none)

/-- The registers of the MODE 3 pins after an edge of their lines: both bits of the output leave within the period (R395). -/
def mode3Next (s : State) (live : Bool) (up down : List (Nat × Nat)) : FabLogic :=
  let l := s.fab.logic
  let nets (p : Nat) : Bool × Bool := (placed s).foldl (fun v x => match x.item with
    | .pin q a b => if q == p then (inputOn s live l.on 8 a, inputOn s live l.on 8 b) else v
    | _ => v) (false, false)
  let is3 (p : Nat) : Bool := pinMode s p == 3
  let u (p : Nat) : Bool := is3 p && up.contains (32, pinClk s p)
  let dn (p : Nat) : Bool := is3 p && bitOf (iocfg s p) 2 && down.contains (32, pinClk s p)
  if up.isEmpty && down.isEmpty then l
  else { l with
    inRise := BitVec.ofNat 192 (bitsWhere 192 (fun p => if u p then targetPad s p else bitOf l.inRise.toNat p))
    inFall := BitVec.ofNat 192 (bitsWhere 192 (fun p => if dn p then targetPad s p else bitOf l.inFall.toNat p))
    out := BitVec.ofNat 192 (bitsWhere 192 (fun p => if u p then (nets p).1 else if dn p then bitOf l.outFall.toNat p else bitOf l.out.toNat p))
    outFall := BitVec.ofNat 192 (bitsWhere 192 (fun p => if u p then (nets p).2 else bitOf l.outFall.toNat p)) }

/-! ### The output edge, the input edge and the second sample (R389 to R391, R394) -/

/-- Port-cell map entries of a kind. -/
def cellsOf (i : Image) (kind : Nat) : List PortCellEntry := i.portCells.filter (fun e => wfld e.w1 1 0 == kind)
/-- NUMBER of an entry, and the bit that it names. -/
def cellNum (e : PortCellEntry) : Nat := wfld e.w1 31 16
def cellBit (s : State) (e : PortCellEntry) : Bool := bitOf (rd s.ds.rows (portRow e.loc)).toNat (locEp e.loc)

/-- Delays in effect of the direct pins of a kind: what their registers hold (R396). -/
def delaysNow (s : State) (i : Image) (kind : Nat) : List (Nat × Nat) :=
  (cellsOf i kind).foldl (fun m e => let v := fld (iocfg s (cellNum e)) 16 3; if v == 0 then del m (cellNum e) else put m (cellNum e) v) s.fab.logic.delays

/-- OUTPUT_TRANSFER at the output edge: the values as the cycle left them (R389). -/
def outputEdge (s : State) (i : Image) : FabState :=
  let pins := cellsOf i 3
  { s.fab with
    outCells := ((cellsOf i 1).filter (cellBit s)).foldl (fun a e => ins a (cellNum e)) []
    pinOut := BitVec.ofNat 192 (bitsWhere 192 (fun b =>
      if pins.any (fun e => cellNum e == b) then pins.any (fun e => cellNum e == b && cellBit s e) else bitOf s.fab.pinOut.toNat b))
    logic := { s.fab.logic with outDue := false, outStrobe := true, delays := delaysNow s i 3 } }

/-- Value of the net that an input port cell samples; no net: 0. -/
def portNet (s : State) (live : Bool) (n : Nat) : Bool :=
  (placed s).any (fun x => match x.item with | .port m src => m == n && nodeOn s live s.fab.logic.on (regionDie x.r) src | _ => false)

/-- The samples of the input edge: pins, port cells, utility pins (R389, R611). -/
def inputEdge (s : State) (i : Image) (live : Bool) : FabState :=
  { s.fab with
    first := targetPads s, inCells := ((inputCells i).filter (portNet s live)).foldl ins []
    utilIn := padLevels s
    logic := { s.fab.logic with inDue := false, inStrobe := true, delays := delaysNow s i 2 } }

/-- What waits for a FABRIC rising edge happens; the strobes are one FABRIC cycle high. Neither edge falls in a stall step (R390). -/
def edgeWork (s : State) (live : Bool) : FabState :=
  let s1 := { s with fab := { s.fab with logic := { s.fab.logic with outStrobe := false, inStrobe := false, fresh := [], gsrEnds := false } } }
  let s1 := if s.fab.logic.secondDue then
    { s1 with fab := { s1.fab with second := targetPads s, logic := { s1.fab.logic with secondDue := false } } } else s1
  match s.img.resident with
  | none => s1.fab
  | some i =>
    let s1 := if live && s.fab.logic.outDue then { s1 with fab := outputEdge s1 i } else s1
    if live && s.fab.logic.inDue then
      let f := inputEdge { s with fab := { s.fab with logic := s1.fab.logic } } i live
      { s1.fab with first := f.first, inCells := f.inCells, utilIn := f.utilIn, logic := f.logic }
    else s1.fab

/-- One FABRIC cycle of the pads that keepers hold; then the new delay is in effect (R396). -/
def holdsNext (s : State) : FabLogic :=
  let l := s.fab.logic
  let done := l.holds.filter (fun h => h.left ≤ 1)
  { l with
    holds := (l.holds.filter (fun h => 1 < h.left)).map (fun h => { h with left := h.left - 1 })
    delays := done.foldl (fun m h => let v := fld (iocfg s h.pin) 16 3; if v == 0 then del m h.pin else put m h.pin v) l.delays }

/-- Half a FABRIC cycle: what clocks move takes what the settled network carries; then the network settles again. -/
def fabricEvent (s : State) (rise live : Bool) : State :=
  let s := if s.fab.floats == 0 then s else keepPads s
  let s := { s with fab := { s.fab with logic := { s.fab.logic with cycle := if rise then (s.fab.logic.cycle + 1) % 256 else s.fab.logic.cycle } } }
  let s := { s with fab := settled s live }
  let high := linesHigh s live rise
  let up := high.filter (fun x => !s.fab.logic.high.contains x)
  let down := s.fab.logic.high.filter (fun x => !high.contains x)
  let ffs := ffsNext s live up
  let l := mode3Next s live up down
  let cross := if rise then crossNext s live else s.fab.logic.cross
  let util := BitVec.ofNat 64 (bitsWhere 64 (fun k => inSignal s (0xA0 + k)))
  let s1 := if rise then
    let s1 := { s with fab := edgeWork s live }
    { s1 with fab := { s1.fab with logic := { holdsNext s1 with sync1 := util, sync2 := s.fab.logic.sync1 } } } else s
  let s2 := { s1 with fab := { s1.fab with logic := { s1.fab.logic with
    ffs := ffs, high := high, cross := cross, inRise := l.inRise, inFall := l.inFall, out := l.out, outFall := l.outFall } } }
  { s2 with fab := settled s2 live }

/-- The halves of FABRIC cycles from unit a on, before unit b, of 1/80 CTRL period; FABRIC rises at every 40 units (R5, R34). -/
def fabricSpan (s : State) (a b : Nat) (live : Bool) : State :=
  (List.range (cdiv b 20 - cdiv a 20)).foldl (fun s j => fabricEvent s ((cdiv a 20 + j) % 2 == 0) live) s

/-! ### What steps and writes leave for the fabric -/

/-- Nothing waits for a FABRIC edge. -/
def dropEdges (s : State) : State :=
  { s with fab := { s.fab with logic := { s.fab.logic with outDue := false, inDue := false, secondDue := false } } }

/-- A delay of a MODE 3 pin that its register now gives and that is not in effect: the keeper holds its pad for 20 ns, 16 FABRIC cycles
(R396). -/
def holdPad (s : State) (p : Nat) : State :=
  if pinMode s p != 3 || fld (iocfg s p) 16 3 == (lookup s.fab.logic.delays p).getD 0 then s
  else { s with fab := { s.fab with logic := { s.fab.logic with
    holds := s.fab.logic.holds.filter (fun h => h.pin != p) ++ [{ pin := p, level := targetPad s p, left := 16 }] } } }

/-- Write frames' choices, each over what its frame held (R418, R431). -/
def writeFrames (s : State) (fs : List FrameRec) : State :=
  { s with fab := { s.fab with logic := { s.fab.logic with frames := fs.foldl (fun m f => put m f.addr.toNat f.items) s.fab.logic.frames } } }

end Sys2Proof.Machine
end

