-- ==== Sys2Proof/Machine/Time.lean ====
section
/-! DEFINITION. Machine/Time.lean: device time, PTP domains, board time, the PPS pins (R554 to R569), start-up failures and
the load deadline (R414 to R416, R419), and what a CTRL edge does. -/
namespace Sys2Proof.Machine

/-- Nanoseconds of one second in units of 2^-16 ns. -/
def secUnits : Nat := 1000000000 * 65536

/-- Device time moved on by a number of 2^-16 ns units (R554). -/
def addTime (t : TimeState) (d : Nat) : TimeState :=
  let v := t.ns * 65536 + t.frac + d
  { t with sec := (t.sec + v / secUnits) % 2 ^ 48, ns := v % secUnits / 65536, frac := v % 65536 }

/-- Device time stepped by a signed number of nanoseconds. -/
def stepNs (t : TimeState) (d : Int) : TimeState :=
  let v : Int := (t.sec : Int) * 1000000000 + t.ns + d
  { t with sec := (v / 1000000000).toNat % 2 ^ 48, ns := (v % 1000000000).toNat }

/-- TIME_INCR. -/
def timeIncr (s : State) : Nat := ioReg s 0x15 0x014

/-- The signed difference of two times in nanoseconds (R559). -/
def tdiff (sa na sb nb : Nat) : Int := sgn 48 (sa + 2 ^ 48 - sb % 2 ^ 48) * 1000000000 + ((na : Int) - (nb : Int))

/-- Board time is loaded at its tick by a follower with SRC 2 (R563). -/
def loadBoardTime (s : State) : State :=
  match s.time.board with
  | none => s
  | some (t, sec, ns, fr, incr) =>
    if t ≤ s.seq.ticks && !inSafeHold s then
      setIo { s with time := { s.time with board := none, sec := sec, ns := ns, frac := fr, holdover := false } } 0x15 0x014 incr.toNat
    else s

/-! ### Start-up failure and the deadline (R415, R419) -/

/-- A start-up failure: CFG_ERR_N, PHASE 7, CFG_DONE stays low, a BASE_LOAD in progress completes with the status. -/
def startUpFailure (s : State) (cause status : Nat) : State :=
  if s.boot.phase == 7 then s
  else completeAll { s with boot := { s.boot with phase := 7, cause := cause, cfgErr := true } } 0x0C00 status []

/-- BOOT_ELAPSED: 400,000 CTRL cycles make a millisecond (R414). -/
def bootElapsed (s : State) : Nat := s.boot.cycles / 400000

/-- The deadline runs: configuration-ready, no relay boot, last byte not yet in. -/
def deadlineRuns (s : State) : Bool := s.boot.ready && !s.boot.received && !s.straps.boot && s.boot.phase ≤ 2

/-- The deadline expires where BOOT_ELAPSED has reached MS. -/
def checkDeadline (s : State) : State :=
  if deadlineRuns s && ioReg s 0x10 0x040 ≤ bootElapsed s then
    startUpFailure { s with boot := { s.boot with late := true } } 0x01 0x0503
  else s

/-- BOOT_DEADLINE_EXPIRE: the row says that BOOT_ELAPSED has reached MS (log 14). -/
def deadlineExpire (s : State) : State :=
  if deadlineRuns s then checkDeadline { s with boot := { s.boot with cycles := max s.boot.cycles (400000 * ioReg s 0x10 0x040) } } else s

/-- A write of BOOT_DEADLINE: PHASE 0 or 1 only, 100 to 60,000 only; at or below BOOT_ELAPSED it expires at once. -/
def writeDeadline (s : State) (w : Word) : State :=
  let ms := w.toNat % 2 ^ 16
  if s.boot.phase ≤ 1 && 100 ≤ ms && ms ≤ 60000 then checkDeadline (setIo s 0x10 0x040 ms) else s

/-! ### CTRL edges and ticks -/

/-- Links and modules that reset has held begin to train (R440, R475, R487). -/
def beginTraining (s : State) : State :=
  if s.ucie.any (fun e => e.2.st == 0) || s.bl.any (fun e => e.2.st == 0) then
    { s with ucie := s.ucie.map (fun e => if e.2.st == 0 then (e.1, { e.2 with st := 2 }) else e)
             bl := s.bl.map (fun e => if e.2.st == 0 then (e.1, { e.2 with st := 2 }) else e) }
  else s

/-- A CTRL edge: device time, PPS_OUT, the load deadline, the service banks' ports, utility holds and timers' pulses, inputs of the trace
event machine (R415, R521, R554, R575, R608). -/
def ctrlEdge (s : State) : State :=
  let s := loadBoardTime s
  let s := { s with time := { addTime s.time (timeIncr s) with ppsLeft := s.time.ppsLeft - 1 } }
  let s := if s.boot.ready && !s.boot.received && !s.straps.boot then checkDeadline { s with boot := { s.boot with cycles := s.boot.cycles + 1 } } else s
  let s := { s with trc := { s.trc with errIn := false, modeIn := false, hostIn := false } }
  utilEdge (bankEdge (beginTraining s))

/-- Units of 1/80 CTRL period in a STEP tick (R5). -/
def tickUnits (s : State) : Nat := if gradeEff s == 2 then 20 else 25

/-- The block slots of the board links, the FABRIC and the CTRL edges that fall within the next STEP tick; `live`: the tick is no stall step
(R388). -/
def tickEdges (s : State) (live : Bool) : State :=
  let c := s.seq.ctl + tickUnits s
  let s := fabricSpan (linksSpan s (tickUnits s)) s.seq.ctl c live
  let s := { s with seq := { s.seq with ctl := c % 80 } }
  if 80 ≤ c then ctrlEdge s else s

/-- What an empty queue does while the sequencers do not step: one CTRL period with its FABRIC edges and block slots, and its ticks once the epoch is known
(log 3). -/
def idleEdge (s : State) : State :=
  let s := ctrlEdge (fabricSpan (linksSpan s 80) 0 80 false)
  if s.seq.epoch then
    let u := s.seq.frac + 80
    { s with seq := { s.seq with ticks := s.seq.ticks + u / tickUnits s, frac := u % tickUnits s } }
  else s

/-! ### Domains (R562, R565, R566) -/

/-- A domain, and the state with a domain replaced. -/
def domOf (s : State) (b : Bool) : TimeDom := if b then s.time.b else s.time.a
def setDom (s : State) (b : Bool) (d : TimeDom) : State :=
  { s with time := if b then { s.time with b := d } else { s.time with a := d } }

/-- 32-bit signed value that saturates. -/
def satI32 (v : Int) : Nat := unsgn 32 (clampS 32 v)

/-- TIME_INCR moved by at most 16 from the nominal: at the limit against an offset being slewed off. -/
def slewIncr (o : Int) : Nat := if 0 < o then 163856 else if o < 0 then 163824 else 163840

/-- The servo's own choice of TIME_INCR within its limit: a free value (log 9). -/
def servoIncr (s : State) : State :=
  setIo (tickFree s) 0x15 0x014 (163824 + Config.freeNat s.freeCtr % 33)

/-- Select a domain: SWITCHED, and its offset is removed by slewing at the limit (R565, R566). -/
def selectDom (s : State) (b : Bool) : State :=
  if s.time.domB == b then s
  else
    let d := domOf s b
    let far := decide (100 ≤ d.offset.natAbs)
    let s := { s with time := { s.time with domB := b, locked := d.locked, holdover := d.holdover, slewing := far } }
    let s := orIo s 0x15 0x004 512
    if timeSrc s == 1 && far then setIo s 0x15 0x014 (slewIncr d.offset) else s

/-- A takeover or a live firmware update: the servos pause in holdover, with no step, until the next message that they use (R568). -/
def pauseServos (s : State) : State :=
  if timeSrc s == 1 || timeSrc s == 3 then { s with time := { s.time with holdover := true } } else s

/-- PTP_SYNC of a domain with the measured offset, ns (R562, R565). In SAFE HOLD the servos stop (R568). -/
def ptpSync (s : State) (b : Bool) (off : Int) : State :=
  let d := domOf s b
  if !bitOf d.cfg0.toNat 1 || inSafeHold s then s
  else
    let s := bumpIo s 0x15 (if b then 0x038 else 0x034) 32 1
    let sel := s.time.domB == b && timeSrc s == 1
    let big := decide (1000000 < off.natAbs)
    if sel && big && d.mayStep then
      let s := { s with time := { stepNs s.time off with unset := false, holdover := false } }
      let s := orIo s 0x15 0x004 256
      setIo (setDom s b { d with offset := 0, run := 0, locked := false, holdover := false, mayStep := false }) 0x15 (if b then 0x01C else 0x018) 0
    else
      let run := if off.natAbs < 100 then d.run + 1 else 0
      let lk := decide (16 ≤ run)
      let d := { d with offset := off, run := min run 16, locked := lk, holdover := false, mayStep := d.mayStep && !lk }
      let s := setIo (setDom s b d) 0x15 (if b then 0x01C else 0x018) (satI32 off)
      if sel then
        let near := decide (off.natAbs < 100)
        let s := { s with time := { s.time with
          locked := lk, holdover := false, unset := s.time.unset && !lk, slewing := s.time.slewing && !near } }
        if s.time.slewing then setIo s 0x15 0x014 (slewIncr off) else servoIncr s
      else s

/-- PTP_HOLDOVER of a domain (R562, R566). -/
def ptpHoldover (s : State) (b : Bool) : State :=
  let s := setDom s b { domOf s b with holdover := true, locked := false, run := 0 }
  if s.time.domB != b then s
  else
    let s := { s with time := { s.time with holdover := true, locked := false } }
    if bitOf (ioReg s 0x15 0x000) 2 && (domOf s (!b)).locked then selectDom s (!b) else s

/-- A write of TIME_CTRL; changing PREFER selects that domain (R566). -/
def writeTimeCtrl (s : State) (w : Word) : State :=
  let old := ioReg s 0x15 0x000
  let s := setIo s 0x15 0x000 (w.toNat % 16)
  if bitOf old 3 != bitOf w.toNat 3 then selectDom s (bitOf w.toNat 3) else s

/-- TIME_BOARD_SEND: time and increment at a tick that the lead names, a free number of CTRL periods ahead (R563, log 9). -/
def boardSend (s : State) : State :=
  if isLead s && fld (ioReg s 0x15 0x000) 1 0 == 2 && s.seq.epoch then
    let n := 5 * Config.freeNat s.freeCtr
    let t := addTime s.time (n * timeIncr s)
    sendFw (tickFree s) (.boardTime (s.seq.ticks + n * 80 / tickUnits s) t.sec t.ns t.frac (lo32 (timeIncr s)))
  else s

/-- PPS_IN_EDGE: the time stamp; with SRC 3 the servo aligns the second boundary (R567). -/
def ppsIn (s : State) : State :=
  let s := (words96 (stamp s)).zipIdx.foldl (fun s w => setIo s 0x15 (0x80020 + 4 * w.2) w.1.toNat) s
  if timeSrc s == 3 && !inSafeHold s then servoIncr { s with time := { s.time with holdover := false } } else s

/-- PPS_OUT_PULSE: high for WIDTH µs when OUT_EN is set (R567). -/
def ppsOut (s : State) : State :=
  let c := ioReg s 0x15 0x02C
  if bitOf c 0 then { s with time := { s.time with ppsLeft := 400 * fld c 15 8 } } else s

end Sys2Proof.Machine
end

