-- ==== Sys2Proof/Machine/Sluice.lean ====
section
/-! DEFINITION. Machine/Sluice.lean: slots, freeze and reopen, planned holds, the watchdog, and the cascade bus, which shares the
slots (R131 to R156, R249, R250). -/
namespace Sys2Proof.Machine

/-! ### Planned holds (R142, R143) -/

/-- Source code of work in a planned hold. -/
def workCode (w : HoldWork) : Nat := match w with | .checkpoint => 7 | _ => 6

/-- A planned hold at the boundary that the board stands at; work that falls on one boundary makes one hold (R143). -/
def startHold (s : State) (works : List HoldWork) : State :=
  let s := (works.map workCode).eraseDups.foldl countReq s
  match s.slu.hold with
  | some h =>
    { s with slu := { s.slu with hold := some {
      h with work := h.work ++ works, srcs := h.srcs ++ works.map workCode, ckp := h.ckp || works.contains .checkpoint } } }
  | none =>
    let k := cdiv s.seq.ticks 32
    let k := if s.slu.slot == some k then k + 1 else k
    let s := setIo (setIo s 0x02 0x80018 (s.seq.dcn % 2 ^ 32)) 0x02 0x8001C (s.seq.dcn / 2 ^ 32)
    { s with slu := { s.slu with
      stalled := true, len := 0
      hold := some { dcn := s.seq.dcn, work := works, srcs := works.map workCode, ckp := works.contains .checkpoint, s0 := k, len := 0 } } }

/-- The device's own part of a hold's work has ended (R142). -/
def endWork (s : State) (w : HoldWork) : State :=
  match s.slu.hold with
  | some h => { s with slu := { s.slu with hold := some { h with work := h.work.filter (fun x => x != w) } } }
  | none => s

/-! ### Slots (R133, R135, R142, R152) -/

/-- Local sources that hold a request at the first tick of slot k; none while the outputs are disabled (R617). -/
def driveSrcs (s : State) (k : Nat) : List Nat :=
  let h := match s.slu.hold with
    | some h => if k == h.s0 && h.work.isEmpty then [15] else if h.s0 ≤ k then h.work.map workCode else []
    | none => []
  if s.pwr.disabled then [] else (s.slu.pulses.map (·.1) ++ s.slu.held.map (·.1) ++ s.err.repairs.map (·.code) ++ h).eraseDups

/-- Power throttle (R619): watts left for activity and full_ep, both doubled (R202). -/
def powerTerms (s : State) : Nat × Nat × Nat :=
  let full := if s.ident.small then (if gradeEff s == 2 then 335 else 268) else (if gradeEff s == 2 then 670 else 536)
  (if s.ident.small then 70 else 120, 165, full)

/-- A quadrant's mean activity over the slot exceeds the limit (cap − leak − service) × 13,312 ÷ full_ep. -/
def overPower (s : State) : Bool :=
  let (leak, service, full2) := powerTerms s
  s.ds.slotAct.any (fun q => decide (2 * 32 * 13312 * (s.pwr.cap - leak - service) < q.2 * full2))

/-- Slot discipline of the resident image (R204). -/
def slotDiscipline (s : State) : Bool := match s.img.resident with | some i => bitOf i.hdr.flags.toNat 0 | none => false

/-- POWER_THROTTLE at a slot start: code 4 for this slot, in at most one slot of every two. -/
def throttle (s : State) : State :=
  let go := slotDiscipline s && overPower s && !s.pwr.throttled
  let s := { s with ds := { s.ds with slotAct := [] }, pwr := { s.pwr with throttled := go } }
  if go then pulse s 4 1 else s

/-- The tick count stands in a slot that has not been started. -/
def slotNew (s : State) : Bool := s.seq.epoch && !s.slu.bootLow && s.slu.slot != some (slotOf s)

/-- What the board's freeze lets begin, as a stall starts or while it goes on: the recovery, when the slot that holds the
board is one that this device drove under code 13 (R310), and a forced checkpoint, which the lead fixes at the DCN held now (R294). -/
def frozenWork (s : State) : State :=
  match slotBack s with
  | none => s
  | some r =>
    if !r.low || !stepping s then s
    else
      let s := if r.srcs.contains 13 then beginRecovery s else s
      if s.ckp.wantForced && isLead s then
        let d := s.seq.dcn
        let s := dropReq { s with ckp := { s.ckp with wantForced := false, forcedAt := some d } } 7 0
        sendFw { s with slu := { s.slu with agreed := s.slu.agreed ++ [(d, some .checkpoint)] } } (.orderCheckpoint d true)
      else s

/-- SLUICE_SLOT_START: drive the line for the slot, count down the pulses and the repairs, drive the CASCADE lines with the events found
before it (their travel is not held, log 62), note the DCN (R135, R249, R531). In a stall that goes on, a slot that froze the board again lets its work begin. -/
def slotStart (s : State) : State :=
  if !slotNew s then s
  else
    let k := slotOf s
    let s := throttle s
    let s := if s.slu.stalled then frozenWork s else s
    let srcs := driveSrcs s k
    passRepairs { s with
      slu := { s.slu with
        slot := some k, own := !srcs.isEmpty, ownSrcs := srcs, unseen := []
        pulses := s.slu.pulses.filterMap (fun p => if 1 < p.2 then some (p.1, p.2 - 1) else none) }
      casc := { s.casc with
        driving := if inRecovery s || s.pwr.disabled then [] else s.casc.drive, drive := if inRecovery s then s.casc.drive else []
        slotDcn := ((k, s.seq.dcn) :: s.casc.slotDcn).take 16 } }

/-- The slot can be sampled: tick 24 or later of a started slot not sampled yet (R133). -/
def canSample (s : State) : Bool :=
  s.seq.epoch && s.slu.slot == some (slotOf s) && 24 ≤ s.seq.ticks % 32 && !s.slu.hist.any (fun r => r.k == slotOf s)

/-- SLUICE_SAMPLE: the level; a device that drives low and samples high has a line fault (R139). -/
def sluiceSample (s : State) (low : Bool) : State :=
  if !canSample s then s
  else
    let r : SlotRec := { k := slotOf s, low := low, srcs := if low then s.slu.ownSrcs.filter (fun c => c != 15) else [] }
    let s := { s with slu := { s.slu with line := !low, wdog := s.slu.wdog && low, hist := (r :: s.slu.hist).take 9 } }
    if s.slu.own && !low then fault (orIo s 0x02 0x000 32) { cls := 5, cause := 0x0803, unit := siteLoc 15 } else s

/-- SLUICE_FREEZE: the first tick of a slot eight after a low one, when the sequencers were not stalled (R134); what the freeze lets begin
begins (R294, R310). -/
def sluiceFreeze (s : State) : State :=
  match slotBack s with
  | some r =>
    if r.low && !s.slu.stalled then
      let s := frozenWork s
      let s := setIo (setIo s 0x02 0x80018 (s.seq.dcn % 2 ^ 32)) 0x02 0x8001C (s.seq.dcn / 2 ^ 32)
      { s with slu := { s.slu with stalled := true, len := 0 } }
    else s
  | none => s

/-- SLU_LAST of the stall that ends, and CKP_LAST_STALL when it held a checkpoint (R291). -/
def closeStall (s : State) (ckp : Bool) : State :=
  let s := setIo s 0x02 0x014 (satAdd 32 s.slu.len 0)
  let s := if ckp then setIo s 0x08 0x010 (usTicks s s.slu.len) else s
  { s with slu := { s.slu with stalled := false } }

/-- SLUICE_REOPEN: the first tick of slot q + 8 after the first high slot q; a planned hold also needs q after s0 and its own
work done, a periodic checkpoint that falls on the same boundary among it (R134, R142, R143). -/
def sluiceReopen (s : State) : State :=
  match slotBack s with
  | some r =>
    if r.low || !s.slu.stalled then s
    else match s.slu.hold with
      | none => closeStall s false
      | some h => if h.s0 < r.k && h.work.isEmpty && !s.ckp.due.contains s.seq.dcn then closeStall { s with slu := { s.slu with hold := none } } h.ckp else s
  | none => s

/-- SLU_STATUS (R156). -/
def sluStatus (s : State) : Word :=
  packW [(0, 1, b2n s.slu.line), (1, 1, b2n (frozen s)), (2, 1, b2n s.slu.hold.isSome), (3, 1, b2n s.slu.own), (4, 1, b2n (inSafeHold s)),
    (5, 1, b2n (bitOf (ioReg s 0x02 0) 5)), (6, 1, b2n (bitOf (ioReg s 0x02 0) 6)), (16, 15, bitsWhere 15 (srcHeld s))]

/-- SLUICE_WATCHDOG: the line has been low longer than SLU_WDOG (R140), once for each time it stays low; the row says that the time has
come (log 14). -/
def sluiceWatchdog (s : State) : State :=
  if s.slu.line || ioReg s 0x02 0x010 == 0 || s.slu.wdog then s
  else
    let s := orIo { s with slu := { s.slu with wdog := true } } 0x02 0x000 64
    queueEvent s 5 0 0 [sluStatus s]

/-! ### Stall steps (R132, R155) -/

/-- Codes that a stall step is attributed to (R155): the sources that drove its slot, the work of a hold, otherwise 15. -/
def stallCodes (s : State) : List Nat :=
  let fromSlot := match slotBack s with | some r => if r.low then some r.srcs else none | none => none
  let cs := match fromSlot, s.slu.hold with
    | some cs, _ => cs
    | none, some h => h.srcs.eraseDups
    | none, none => []
  if cs.isEmpty then [15] else cs

/-- STALL_STEP: a sluice or planned stall step is counted and attributed; a degrade step only passes (R126, R131, R155). What falls at the
end of B15 comes before any stall step after it (R132). -/
def stallStep (s : State) : State :=
  if !stepping s || !s.seq.epoch || s.seq.tick == .bound 16 then s
  else if frozen s then
    let s := (stallCodes s).foldl (fun s c => bumpIo s 0x02 (0x040 + 4 * c) 32 1) s
    let s := { s with
      slu := { s.slu with len := s.slu.len + 1, cyc := s.slu.cyc + 1, total := (s.slu.total + 1) % 2 ^ 64 }
      seq := { s.seq with ticks := s.seq.ticks + 1 } }
    tickEdges s false
  else if s.seq.degrade then tickEdges { s with seq := { s.seq with degrade := false, ticks := s.seq.ticks + 1 } } false
  else s

/-! ### The cascade bus in the slots -/

/-- CASCADE_SAMPLE: the lines sampled low at tick 24, with what this device drove (R249). -/
def cascadeSample (s : State) (low : BitVec 4) : State :=
  if s.seq.epoch && s.slu.slot == some (slotOf s) && 24 ≤ s.seq.ticks % 32 && !s.casc.samples.any (fun e => e.1 == slotOf s) then
    { s with casc := { s.casc with samples := ((slotOf s, low, s.casc.driving) :: s.casc.samples).take 9 } }
  else s

/-- CASCADE_DELIVERY: the events of slot k at the first tick of slot k + 8, with the DCN held at the first tick of slot k − 2
(R250). TRIG_OUT goes high for 1 µs from a trigger's delivery. -/
def cascadeDelivery (s : State) : State :=
  match s.casc.samples.find? (fun e => e.1 + 8 == slotOf s) with
  | none => s
  | some (k, low, mine) =>
    let m := (lookup s.casc.slotDcn (k - 2)).getD s.seq.dcn
    let s := { s with casc := { s.casc with samples := s.casc.samples.filter (fun e => e.1 != k) } }
    let s := if bitOf low.toNat 0 then { s with util := { s.util with trigLeft := 400 } } else s
    (List.range 4).foldl (deliverLine m low mine) s

end Sys2Proof.Machine
end

