-- ==== Sys2Proof/Machine/Checkpoint.lean ====
section
/-! DEFINITION. Machine/Checkpoint.lean: taking a checkpoint, restoring one, recovery and the ends of replay (R288 to R314). -/
namespace Sys2Proof.Machine

/-! ### Taking a checkpoint (R288, R290, R292, R294) -/

/-- The state that a checkpoint at the present DCN holds. -/
def makeCheckpoint (s : State) : Checkpoint := {
  dcn := s.seq.dcn
  setId := match s.img.resident with | some i => i.hdr.setId | none => 0
  sigDigest := liveDigest s
  rows := s.ds.rows, tiles := s.ds.tiles
  caps := s.cap.dies.map (fun d => (d.1, d.2.saved))
  churn := s.chn.map (fun d => (d.1, { d.2.m with rep := repeatLeft d.2 d.1 }))
  chans := s.trx.chans.map (fun c => (c.1, { inSeq := c.2.inSeq, outSeq := c.2.outSeq, isOpen := c.2.isOpen }))
  cow := [], imported := false, effect := if inReplay s then s.ckp.log.effect else [] }

/-- A checkpoint's planned hold begins (R142, R290): every die closes its capture block, the recorder writes the marker, and the copy is
written into the slot that does not hold the last checkpoint. -/
def startCheckpoint (s : State) (forced : Bool) : State :=
  let s := if forced then orIo s 0x08 0x004 16 else s
  let s := writeCkpMarker (closeBlocks s) s.seq.dcn
  startHold { s with ckp := { s.ckp with busy := some (makeCheckpoint s), doneBy := [], hostAt := s.ckp.hostBytes } } [.checkpoint]

/-- Positions of the devices of the board that this device knows of besides itself. -/
def peerPositions (s : State) : List Nat := s.peers.map (·.pos)

/-- Every device of the board has completed the checkpoint that is being written. -/
def allDone (s : State) (c : Checkpoint) : Bool :=
  (match s.slu.hold with | some h => !h.work.contains .checkpoint | none => true)
  && (peerPositions s).all (fun p => s.ckp.doneBy.contains p) && c.dcn ≤ s.seq.dcn

/-- CHECKPOINT_COMPLETE (R292, R296, R302): the new last checkpoint, the event, and the completion of a CKP_TAKE whose checkpoint is not
still to come; the list of cascade events keeps those that are inputs of a cycle from C on (R252, R635). -/
def completeCheckpoint (s : State) : State :=
  match s.ckp.busy with
  | none => s
  | some c =>
    if !allDone s c then s
    else
      let s := clearArea s 2
      let s := { s with ckp := { s.ckp with last := some c, busy := none, doneBy := [], hostBytes := s.ckp.hostBytes - s.ckp.hostAt, hostAt := 0 } }
      let s := { s with casc := { s.casc with delivered := s.casc.delivered.filter (fun e => c.dcn ≤ e.2 + 5) } }
      let s := queueEvent (bumpIo s 0x08 0x034 32 1) 8 0 0 (dwords c.dcn)
      if s.slu.agreed.any (fun a => a.2 == some .checkpoint) then s else completeAll s 0x0601 0 (dwords c.dcn)

/-- Bytes of the COW area used since the last checkpoint, and its size (R293, R294). -/
def cowUsed (s : State) : Nat := match s.ckp.last with | some c => 4096 * c.cow.length | none => 0
def cowSize (s : State) : Nat := s.img.cowGb * 2 ^ 30

/-- Bytes of the log that a checkpoint would not free: from the last checkpoint's marker on (R302). -/
def logHeld (s : State) : Nat := match s.ckp.last with | some c => logBytes (fromMarker s.ckp.log.entries c.dcn) | none => 0

/-- Less than 64 MB free in the COW area, or in the log, to which nothing is added in REPLAY (R294, R302, R307). -/
def shortOfSpace (s : State) : Bool :=
  s.ckp.last.isSome && (decide (cowSize s < cowUsed s + 2 ^ 26) || (!inReplay s && decide (logCap s < logHeld s + 2 ^ 26)))

/-- FORCED_CHECKPOINT at the end of a cycle: code 7, and the report to the lead device (R294). The replayed cycles of a recovery write the
granules of the first run again, whose shortage was found then. -/
def forceCheckpoint (s : State) : State :=
  if shortOfSpace s && !inRecovery s && !s.ckp.wantForced && s.ckp.busy.isNone && s.ckp.forcedAt.isNone then
    let s := holdReq { s with ckp := { s.ckp with wantForced := true } } 7 0
    if isLead s then s else sendFw s (.forcedReport (posOf s))
  else s

/-! ### Restoring (R288, R293, R306, R310) -/

/-- Region contents with the saved granules written back. -/
def restoreRegions (m : List (Nat × Half)) (cow : List (Nat × List (Nat × Half))) : List (Nat × Half) :=
  cow.foldl (fun m g => wrAll (ckeep (fun k => k / 2048 != g.1) m) g.2) m

/-- What no checkpoint holds and no boundary carries over: EP results, step network, ports in use (R289). The window of the issue budget and an
overrun that runs start empty (R177; DESIGN CHOICE, log 33). -/
def clearTransient (d : DataState) : DataState :=
  { d with
    epRes := [], rpOut := [], bcast := [], inPort := [], toggles := [], outHist := [], weirs := [], tileReads := [], tileBusy := [],
    ddr := [], budget := [], overrun := false, slotAct := [] }

/-- Design state, capture units, churn engines and channel numbers as the checkpoint holds them. -/
def restoreFrom (s : State) (c : Checkpoint) : State :=
  { s with
    seq := { s.seq with dcn := c.dcn, tick := .step 0, degrade := false, recent := [] }
    ds := { clearTransient s.ds with
      rows := c.rows, tiles := c.tiles, regions := restoreRegions s.ds.regions c.cow
      poison := s.ds.poison.filter (fun k => (lookup c.cow (k / 512)).isNone) }
    cap := { s.cap with dies := s.cap.dies.map (fun d => (d.1, match lookup c.caps d.1 with | some v => { d.2 with saved := v } | none => d.2)) }
    chn := s.chn.map (fun e => (e.1, match lookup c.churn e.1 with
      | some m => { e.2 with m := { m with rep := 0 }, pend := none }
      | none => e.2))
    trx := { s.trx with
      staged := []
      readyCh := []
      chans := s.trx.chans.map (fun e => (e.1, match lookup c.chans e.1 with
        | some v => { e.2 with outSeq := v.outSeq, inq := e.2.inq.map (fun m => { m with taken := false }) }
        | none => { e.2 with inq := e.2.inq.map (fun m => { m with taken := false }) })) }
    haz := { s.haz with made := [], takes := [] }
    fab := (dropEdges s).fab
    net := { s.net with marksIn := [] }
    slu := { s.slu with held := s.slu.held.filter (fun r => r.1 != 0) }
    ckp := { s.ckp with
      replayOpen := (c.chans.filter (fun e => e.2.isOpen)).map (·.1)
      log := { s.ckp.log with cur := changesOf s.ckp.log.cur, effect := c.effect } } }

/-- DCN up to which the log replays from the last checkpoint, and whether an error ends it. -/
def logReach (s : State) : Nat × Bool :=
  match s.ckp.last with
  | some c => logEnd s.ckp.log.entries c.dcn
  | none => (0, false)

/-! ### Recovery (R310 to R314) -/

/-- A recovery that cannot complete is FATAL, and asks for no replacement (R314, R545); the other faults that wait for it become records with
it. -/
def failRecovery (s : State) : State :=
  match s.err.pending.filter (fun r => r.source == 13) with
  | r :: rs =>
    let rest := s.err.pending.filter (fun r => r.source != 13)
    makeRecord { s with err := { s.err with pending := rest ++ rs } } { r with cls := 5, flags := r.flags ||| 16 } true
  | [] => fault s { cls := 5, cause := 0x0801, unit := siteLoc 15, flags := 16, source := 13, noReplace := true }

/-- A record in the buffer that the engine, restored to its checkpoint, does not post again: of a window of which a record has left, or posted
before the checkpoint. -/
def notAgain (c : ChurnDie) (r : List Word) : Bool :=
  let w := par64 r 2
  (match c.lastLeft with | some l => decide (w ≤ l) | none => false)
    || decide (w < c.m.winDcn) || (w == c.m.winDcn && decide (fld (par r 1) 31 16 < c.m.outno))

/-- The engines re-execute from the checkpoint: windows of which a record has left post none again, and the records that they do not post again
stay in the buffer (R284). -/
def muteOld (s : State) : State :=
  { s with chn := s.chn.map (fun e => (e.1, { e.2 with mute := e.2.lastLeft, buf := e.2.buf.filter (notAgain e.2) })) }

/-- RECOVERY_RESTORE: with every die reinitialised the last checkpoint is restored and the board steps from the log towards F;
the entry for DCN F + 1 is kept when it had closed, and otherwise its messages are still queued (R312, R313). An entry that ends the log
before that sets LOG_ERR (R309). -/
def recoveryRestore (s : State) : State :=
  match s.ckp.recovery with
  | none => s
  | some r =>
    if r.stepping || !s.pwr.lost.isEmpty || s.net.spill.any (· < 8) || inSafeHold s then s
    else if s.img.resident.isNone then dropReq { s with ckp := { s.ckp with recovery := some { r with stepping := true } } } 13 0
    else
      match s.ckp.last with
      | none => failRecovery s
      | some c =>
        let s := setLogErr s ((logReach s).2 && decide ((logReach s).1 < r.f + b2n r.kept))
        if c.spoiled || r.f < c.dcn || (logReach s).1 < r.f then failRecovery s
        else
          let s := closeHostWrites s
          let s := muteOld (restoreFrom s c)
          let s := applyHostWrites s
          dropReq { s with ckp := { s.ckp with recovery := some { r with stepping := true } } } 13 0

/-- Discard cycle entries above DCN t and host-write entries of DCN t or above (R308, R312). -/
def keepUpTo (es : List LogEntry) (t : Nat) : List LogEntry := es.filter (fun e => !(e.typ == 0x41 && t < e.dcn))

/-- An open that took effect at the end of cycle F − 1 has its numbers from 0 again (R341). -/
def renumber (s : State) (c : Nat) (isOpen : Bool) : State :=
  match lookup s.trx.chans c with
  | some ch => if isOpen then { s with trx := { s.trx with chans := put s.trx.chans c { ch with outSeq := 0 } } } else s
  | none => s

/-- A fault that waits for a recovery because a DDR response was bad or missing (R182). -/
def badDdr (r : ErrRec) : Bool := r.source == 13 && r.memClass == 7

/-- RECOVERY_END: the DCN reads F; RECOVERING clears, the resume marker is written, the live signature is built again after a group remap
(R91, R196), the records of the fault are made (R310 to R314). -/
def recoveryEnd (s : State) : State :=
  match s.ckp.recovery with
  | none => s
  | some r =>
    if !r.stepping || s.seq.dcn != r.f then s
    else
      let us := usTicks s (ioReg s 0x02 0x074 - r.stall0)
      let s := { s with
        ckp := { s.ckp with
          badDcn := if s.err.pending.any badDdr then some r.f else s.ckp.badDcn
          recovery := none, kept := if r.kept then some (r.f + 1) else none, collected := if r.collected then some r.f else none }
        casc := { s.casc with rerun := some r.f } }
      let s := if s.img.resident.isSome then
          let s := (changesOf s.ckp.log.cur).foldl (fun s x => renumber s x.index (bitOf (par x.payload 0) 0)) s
          let s := s.ckp.log.heldHost.foldl applyHostItem (if s.ckp.log.cut.isSome then s else applyHostWrites s)
          let s := s.ckp.log.host.foldl applyHostItem s
          let t := if r.kept then r.f + 1 else r.f
          if s.ckp.log.entries.isEmpty || s.ckp.log.cut.isSome || inReplay s then s
          else appendEntry { s with ckp := { s.ckp with log := { s.ckp.log with entries := keepUpTo s.ckp.log.entries t } } } 0x43 t []
        else s
      let s := bumpIo s 0x08 0x038 16 1
      let rs := s.err.pending.filter (fun r => r.source == 13)
      let s := if rs.any (fun r => r.cause == 0x0601) then buildSig s else s
      let s := { s with err := { s.err with pending := s.err.pending.filter (fun r => r.source != 13) } }
      let s := rs.foldl (fun s r => makeRecord s { r with stallUs := us } false) s
      let s := { s with seq := { s.seq with tick := if stepping s then .step 0 else .idle } }
      completeAll s 0x0006 0 []

/-! ### Ends of a replay (R308, R309) -/

/-- A replay ends at the DCN that now reads: HALTED, or LOADED for a stop command. -/
def endReplay (s : State) (m : Mode) : State :=
  let dbg := match s.ckp.replay with | some r => r.debug | none => false
  let s := { s with ckp := { s.ckp with replay := none, log := { s.ckp.log with cut := some s.seq.dcn, cur := [], heldHost := [], host := [] } } }
  let s := { s with md := { s.md with stops := [] }, seq := { s.seq with tick := .idle } }
  modeEvent (setMode s m .halted (m == .run && dbg)) (lastDcn s)

end Sys2Proof.Machine
end

