-- ==== Sys2Proof/Machine/TraceRows.lean ====
section
/-! DEFINITION. Machine/TraceRows.lean: the trace funnel, the event machine and the clock gates of the sources (R570 to R577). -/
namespace Sys2Proof.Machine

/-! ### The funnel and its destination (R573) -/

/-- DEST and BANK of TRC_CTRL, and the bytes of the trace buffer. -/
def trcDest (s : State) : Nat := fld (trcCtrl s) 15 14
def trcBank (s : State) : Nat := fld (trcCtrl s) 19 16
def trcSize (s : State) : Nat :=
  4096 * (if trcDest s == 0 then min (ioReg s 0x16 0x010) 4096 else ioReg s 0x16 0x010)

/-- Offset of the next record. -/
def trcWptr (s : State) : Nat := ioReg s 0x16 0x014

/-- The destination bank refuses the trace: its owner is another, or it is not on (R522, R523). -/
def bankRefuses (s : State) : Bool :=
  trcDest s == 0 && (match s.banks[trcBank s]? with | some b => b.owner != 3 || b.power != 0 | none => true)

/-- TRC_STATUS.FULL. -/
def trcFull (s : State) : Bool := bitOf (ioReg s 0x16 0x004) 5

/-- A record reaches its destination at an offset of the trace buffer: the bank, the service area of DDR5, or host memory (R573). -/
def trcStore (s : State) (at0 : Nat) (r : List Word) : State :=
  let a := ioReg s 0x16 0x008 + 2 ^ 32 * ioReg s 0x16 0x00C + at0
  let s := { s with trc := { s.trc with data := put s.trc.data at0 r, stored := s.trc.stored + 1 } }
  match trcDest s with
  | 0 => bankStore s (trcBank s) a r
  | 2 => { s with io := { s.io with dma := put s.io.dma a r } }
  | _ => s

/-- The funnel writes one record: over the oldest with WRAP; without WRAP a full buffer sets FULL, clears ON and drops it. -/
def funnelOne (s : State) (r : List Word) : State :=
  let lose (s : State) : State := bumpIo s 0x16 0x018 32 1
  if bankRefuses s then
    lose (match s.banks[trcBank s]? with
      | some b => if b.owner != 3 then bumpIo s 0x13 (0x40C + 16 * trcBank s) 16 1 else s
      | none => s)
  else
    let full := decide (trcSize s < trcWptr s + 32)
    if full && !bitOf (trcCtrl s) 13 then lose (orIo { s with trc := { s.trc with on := false } } 0x16 0x004 32)
    else
      let at0 := if full then 0 else trcWptr s
      let s := trcStore s at0 r
      setIo s 0x16 0x014 (at0 + 32)

/-- The funnel writes records in the order they reach it. -/
def funnel (s : State) (rs : List (List Word)) : State := rs.foldl funnelOne s

/-- A source sends up to n buffered records. -/
def sendBuffer (s : State) (u n : Nat) : State :=
  let rs := (trcBuf s u).take n
  funnel { s with trc := { s.trc with bufs := put s.trc.bufs u ((trcBuf s u).drop n) } } rs

/-- Every source sends its whole buffer. -/
def flushSources (s : State) : State := (List.range 11).foldl (fun s u => sendBuffer s u 128) s

/-- Records of a packet, 8 words each. -/
def packetRecs : Nat → List Word → List (List Word)
  | 0, _ => []
  | n + 1, ws => if ws.length < 8 then [] else ws.take 8 :: packetRecs n (ws.drop 8)

/-- TRACE_RECORD from a source: a packet that carries records brings them; one without words stands for up to 16 of the records that the
model holds for the source (log 36). A poisoned packet is discarded, and one on another VN or from the accessory die is absorbed (R458,
R467, R472). -/
def traceRecord (s : State) (p : Packet) (u : Nat) : State :=
  if p.vn != 2 || (naSite p.src == 8 && p.srcPos == posOf s) then bumpIo s 0x12 0x018 32 1
  else if p.poison then bumpIo s 0x12 0x014 32 1
  else if p.words.isEmpty then sendBuffer s u 16
  else funnel s (packetRecs 16 p.words)

/-! ### The event machine (R575) -/

/-- A record that the funnel writes itself: the spec names no unit number and no SEQ for it (log 9). -/
def funnelMark (s : State) (typ : Nat) : State :=
  let w0 := packW [(0, 8, typ), (8, 4, Config.freeNat s.freeCtr)]
  let r := [w0, Config.freeWord (s.freeCtr + 1), 0, 0, lo32 s.trc.st] ++ words96 (stamp s)
  funnelOne (tickFree (tickFree s)) r

/-- START: ON, the mark, and a sync record of every traced source. -/
def trcStart (s : State) : State :=
  if s.trc.on then s
  else
    let s := funnelMark { s with trc := { s.trc with on := true } } 0x4A
    (List.range 11).foldl (fun s u => if tracing s u then syncRecord s u else s) s

/-- STOP: ON clears, the mark, and every source sends what it has. -/
def trcStop (s : State) : State :=
  if s.trc.on then flushSources (funnelMark { s with trc := { s.trc with on := false } } 0x4B) else s

/-- TRC_RULEs of the present state. -/
def trcRule (s : State) : Nat := ioReg s 0x16 (0x060 + 4 * s.trc.st)

/-- Inputs that the rule selects. -/
def ruleInputs (s : State) (i : TraceInputs) : List Bool :=
  let r := trcRule s
  let cnt := decide (ioReg s 0x16 0x01C ≤ s.trc.stored)
  let cmp (c : Nat) : Bool := bitOf i.cmp.toNat c && fld (ioReg s 0x16 (0x020 + 16 * c)) 1 0 != 0
  ((numsWhere 4 (bitOf r)).map cmp) ++ (if bitOf r 4 then [s.trc.errIn] else []) ++ (if bitOf r 5 then [s.trc.modeIn] else [])
    ++ (if bitOf r 6 then [s.trc.hostIn] else []) ++ (if bitOf r 7 then [cnt] else [])

/-- The rule of the present state holds. -/
def ruleFires (s : State) (i : TraceInputs) : Bool :=
  let r := trcRule s
  let ins := ruleInputs s i
  bitOf (trcCtrl s) 0 && bitOf r 14 && !ins.isEmpty && (if bitOf r 8 then ins.any (fun b => b) else ins.all (fun b => b))

/-- TRACE_RULE_FIRE: the actions, with STOP before START, and the next state. -/
def ruleFire (s : State) (i : TraceInputs) : State :=
  if ruleFires s i then
    let r := trcRule s
    let s := if bitOf r 13 then trcStop s else if bitOf r 12 then trcStart s else s
    { s with trc := { s.trc with st := fld r 11 9, stored := 0 } }
  else s

/-! ### Clock gates of the sources (R576, R577, R622) -/

/-- SOURCE_CLOCK_GATE: marker, the whole buffer sent, clock gated. -/
def clockGate (s : State) (u : Nat) : State :=
  if 11 ≤ u || s.trc.gated.contains u then s
  else
    let s := if tracing s u then
        sendBuffer (trcRecord (tickFree (tickFree s)) u 0x48 (Config.freeNat s.freeCtr) (Config.freeNat (s.freeCtr + 1)) 0) u 128
      else s
    { s with trc := { s.trc with gated := ins s.trc.gated u } }

/-- SOURCE_WAKE: a sync record before the first traced instruction. -/
def sourceWake (s : State) (u : Nat) : State :=
  if s.trc.gated.contains u then
    let s := { s with trc := { s.trc with gated := s.trc.gated.filter (fun x => x != u) } }
    if tracing s u then syncRecord s u else s
  else s

/-- TRACE_RECORD. -/
def execTraceRecord (p : Packet) (source : Nat) (s : State) : Host.Outcome State Fault Refusal := .next (traceRecord s p source)
/-- TRACE_RULE_FIRE. -/
def execTraceRuleFire (i : TraceInputs) (s : State) : Host.Outcome State Fault Refusal := .next (ruleFire s i)
/-- SOURCE_CLOCK_GATE. -/
def execSourceClockGate (source : Nat) (s : State) : Host.Outcome State Fault Refusal := .next (clockGate s source)
/-- SOURCE_WAKE. -/
def execSourceWake (source : Nat) (s : State) : Host.Outcome State Fault Refusal := .next (sourceWake s source)

end Sys2Proof.Machine
end

