-- ==== Sys2Proof/Machine/Startup.lean ====
section
/-! DEFINITION. Machine/Startup.lean: the resets, CFG_DONE, the epoch and the end of start-up (R406 to R413, R420 to R428, R138, R545,
R610). -/
namespace Sys2Proof.Machine

/-! ### Resets (R406 to R409) -/

/-- Bits of a register that a warm reset keeps (code RWS). -/
def rwsMask (k : Nat) : Nat :=
  if k == rkey 15 0x02 0x000 then 32
  else if k == rkey 15 0x14 0x008 then 2 ^ 32 - 1
  else if k < 2 ^ 32 && k % 2 ^ 28 == rkey 0 0x12 0x01C then 2 ^ 16 - 1
  else if k < 2 ^ 32 && k % 2 ^ 28 == rkey 0 0x10 0x800 then 64
  else 0

/-- Registers after a warm reset. -/
def warmRegs (m : List (Nat × Word)) : List (Nat × Word) :=
  m.foldl (fun a e => if rwsMask e.1 == 0 then a else cset regReset a e.1 (e.2 &&& BitVec.ofNat 32 (rwsMask e.1))) []

/-- The reset state on this part: its identity, its queue, its fuses and what lies outside it. -/
def freshState (s : State) : State :=
  { State.reset with
    pending := s.pending, freeCtr := s.freeCtr, ident := s.ident
    io := { State.resetIo with
      replies := s.io.replies, events := s.io.events, wb := s.io.wb, sent := s.io.sent, dma := s.io.dma, exports := s.io.exports }
    util := { State.reset.util with pads := s.util.pads, floats := s.util.floats, forced := s.util.forced, kept := s.util.kept }
    fab := { State.resetFab with pads := s.fab.pads, floats := s.fab.floats, kept := s.fab.kept }
    ucie := State.resetUcie s.ident.small s.ident.accessory
    bl := (diesOf s).map (fun d => (d, State.resetLink))
    sec := { State.reset.sec with slots := s.sec.slots, reqSigned := s.sec.reqSigned, floor := s.sec.floor }
    ds := { State.resetDs with failed := [] } }

/-- Cold reset (R406): the fuse map alone is kept; the straps are sampled. -/
def coldReset (s : State) (st : Straps) : State := { freshState s with straps := st }

/-- Warm reset with a cause (R408): DDR5 contents, those of a trace in DDR5 or host memory too, RWS fields, straps, HSB_FAULT, the error
queue, the power cap and device time stay. Faults in handling become records first (R535, R546). -/
def warmReset (s : State) (cause : Nat) : State :=
  let s := flushRecords s
  { freshState s with
    straps := s.straps
    regs := warmRegs s.regs
    ds := { State.resetDs with regions := s.ds.regions, poison := s.ds.poison }
    img := { State.resetImg with spillGb := s.img.spillGb, logMb := s.img.logMb, cowGb := s.img.cowGb, warm := s.ckp.last.isSome, poison := s.img.poison }
    cap := { State.resetCap with ring := s.cap.ring, hdr := s.cap.hdr, put := s.cap.put, oldest := s.cap.oldest }
    ckp := { State.resetCkp with
      last := s.ckp.last, log := { State.resetCkp.log with entries := s.ckp.log.entries, freed := s.ckp.log.freed, seq := s.ckp.log.seq } }
    err := { s.err with pending := [], repairs := [], scrub := [], scrubPause := [] }
    acc := { State.reset.acc with cause := s.acc.cause }
    trc := { State.reset.trc with data := if trcDest s == 0 then [] else s.trc.data }
    time := { State.resetTime with sec := s.time.sec, ns := s.time.ns, frac := s.time.frac, unset := s.time.unset }
    pwr := { s.pwr with throttled := false, seen := [], railUs := [] }
    boot := { State.resetBoot with cause := cause } }

/-- PERST_N asserted in BOOT or SAFE HOLD is a warm reset; a relay-booted device ignores its PCIe balls (R406, R426). -/
def perstResets (s : State) : Bool := !s.straps.boot && (s.md.mode == .boot || inSafeHold s)

/-- WARM_RESET with CAUSE 0x10 (CFG_DONE), 0x11 (RESET, due) or 0x12 (PERST_N). -/
def warmResetRow (s : State) (cause : Nat) : State :=
  if (cause == 0x10 && s.boot.released && s.boot.line) || (cause == 0x11 && s.boot.resetDue) || (cause == 0x12 && perstResets s) then
    warmReset s cause
  else s

/-- CFG_DONE_LOW: a device that has released the line, has seen it high and samples it low (R423). -/
def cfgDoneLow (s : State) : State := if s.boot.released && s.boot.line then warmReset s 0x10 else s

/-- Registers of the endpoint: rings, bulk window, MSI-X table. -/
def endpointKey (k : Nat) : Bool := (bkey 0x1000 ≤ k && k < bkey 0x1100) || (bkey 0x8000 ≤ k && k < bkey 0x8400)

/-- ENDPOINT_RESET (R407). -/
def endpointReset (s : State) : State :=
  if s.straps.boot || perstResets s then s
  else
    { s with
      regs := s.regs.filter (fun e => !endpointKey e.1)
      io := { s.io with
        version := none, stopping := false, pba := [], queue := s.io.queue.filter (fun e => e.code != 1)
        waiting := s.io.waiting.map (fun w => if w.path == .pcie then { w with quiet := true } else w)
        deferred := s.io.deferred.map (fun w => if w.path == .pcie then { w with quiet := true } else w)
        relayed := s.io.relayed.map (fun r => if r.path == .pcie then { r with quiet := true } else r) } }

/-! ### From configuration-ready to STANDBY (R413, R420, R421, R424, R425, R138) -/

/-- CONFIGURATION_READY: the first Configuration Request that completes successfully; those before it complete with retry status, and no
access reaches the device over PCI Express (R413). The deadline starts; PHASE 0 becomes 1. -/
def configurationReady (s : State) : State :=
  if !s.straps.boot && !s.boot.ready then { s with boot := { s.boot with ready := true, phase := if s.boot.phase == 0 then 1 else s.boot.phase } } else s

/-- Every present module has trained and agreed on a protocol; a ring module that is down is degraded and the accessory site does not
count (R420, R442, R445). -/
def modulesTrained (s : State) : Bool :=
  s.ucie.all (fun e => (modTrained e.2 && e.2.proto != 0) || (16 ≤ e.1 && e.1 < 24 && e.2.st == 1) || e.1 == 24)

/-- A link has trained or has been found unconnected. -/
def linkSettled (b : BoardLink) : Bool := 3 ≤ b.st || (b.st == 1 && b.cause == 1)
/-- Every board link has (R420). -/
def linksSettled (s : State) : Bool := s.bl.all (fun e => linkSettled e.2)

/-- Admission of the accessory die has ended (R469). -/
def admissionEnded (s : State) : Bool := s.ident.accessory == 0x4E || 4 ≤ s.acc.st

/-- CFG_DONE_RELEASE: the other conditions of R420 hold, the live signature is built, and the line is released. -/
def cfgDoneRelease (s : State) : State :=
  if s.boot.phase == 3 && s.boot.accepted && s.boot.remap && s.boot.ddr && modulesTrained s && linksSettled s && admissionEnded s then
    buildSig { s with boot := { s.boot with released := true, phase := 4 } }
  else s

/-- CFG_DONE_RELEASED_BY_ALL: the line has been high on 16 REFCLK edges; SLUICE_N is released. -/
def cfgDoneReleasedByAll (s : State) : State :=
  if s.boot.released && s.boot.phase == 4 then
    { s with boot := { s.boot with line := true, phase := 5 }, slu := { s.slu with bootLow := false } }
  else s

/-- EPOCH_PULSE: driven by the lead, sampled by every device. -/
def epochPulse (s : State) : State :=
  if s.boot.phase == 5 && !s.seq.epoch then { s with boot := { s.boot with pulsed := true } } else s

/-- TICK_EPOCH: the tick count starts at 0, and the weirs of the links train from then on (R120, R424). -/
def tickEpoch (s : State) : State :=
  if s.boot.phase == 5 && s.boot.pulsed && !s.seq.epoch then
    (diesOf s).foldl (fun s d => if (linkOf s d).any linkUp then trainWeir s d else s)
      { s with seq := { s.seq with epoch := true, ticks := 0, frac := 0, ctl := 0 } }
  else s

/-- A register of the utility crossbar as the base personality loads it (R610). -/
def loadUtil (s : State) (e : Nat × Word) : State :=
  setIo s 0x18 e.1 (if 0x400 ≤ e.1 then e.2.toNat % 2 ^ 7 else if 0x100 ≤ e.1 then e.2.toNat % 2 ^ 3 else e.2.toNat % 2 ^ 24)

/-- Start-up finds a condition degraded: REPLACE_REQ_N, FLT_REPLACE, and HSB_FAULT and HSB_UNIT with the latest (R353, R545). -/
def foundDegraded (s : State) (c : Nat × Word) : State :=
  assertReplace { s with err := { s.err with cause := c.1, unit := c.2 } } c.1

/-- STARTUP_END at tick 65,536: the global set/reset is released with the next FABRIC edge, service and user pins enabled, the live signature
built again with what the other devices have said, STANDBY (R196, R424, R425, R610). The row says that the tick has come (log 14). -/
def startupEnd (s : State) : State :=
  if s.boot.phase == 5 && s.seq.epoch then
    let s := { s with seq := { s.seq with ticks := max s.seq.ticks 65536 }, boot := { s.boot with phase := 6 } }
    let s := match s.boot.base with | some b => b.utilMap.foldl loadUtil s | none => s
    let s := { s with fab := { s.fab with gsr := false, logic := { s.fab.logic with gsrEnds := true } }, util := { s.util with serviceEn := true, userEn := true } }
    let s := (degradedConds s).foldl foundDegraded s
    modeEvent (setMode (buildSig s) .standby .free false) s.seq.dcn
  else s

/-- COLD_RESET. -/
def execColdReset (st : Straps) (s : State) : Host.Outcome State Fault Refusal := .next (coldReset s st)
/-- WARM_RESET. -/
def execWarmReset (cause : Nat) (s : State) : Host.Outcome State Fault Refusal := .next (warmResetRow s cause)
/-- ENDPOINT_RESET. -/
def execEndpointReset (s : State) : Host.Outcome State Fault Refusal := .next (endpointReset s)
/-- CONFIGURATION_READY. -/
def execConfigurationReady (s : State) : Host.Outcome State Fault Refusal := .next (configurationReady s)
/-- BOOT_DEADLINE_EXPIRE. -/
def execBootDeadlineExpire (s : State) : Host.Outcome State Fault Refusal := .next (deadlineExpire s)
/-- BOOT_DEADLINE_WRITE (R415). -/
def execBootDeadlineWrite (w : Word) (s : State) : Host.Outcome State Fault Refusal := .next (writeDeadline s w)
/-- CFG_DONE_RELEASE. -/
def execCfgDoneRelease (s : State) : Host.Outcome State Fault Refusal := .next (cfgDoneRelease s)
/-- CFG_DONE_RELEASED_BY_ALL. -/
def execCfgDoneReleasedByAll (s : State) : Host.Outcome State Fault Refusal := .next (cfgDoneReleasedByAll s)
/-- CFG_DONE_LOW. -/
def execCfgDoneLow (s : State) : Host.Outcome State Fault Refusal := .next (cfgDoneLow s)
/-- EPOCH_PULSE. -/
def execEpochPulse (s : State) : Host.Outcome State Fault Refusal := .next (epochPulse s)
/-- TICK_EPOCH. -/
def execTickEpoch (s : State) : Host.Outcome State Fault Refusal := .next (tickEpoch s)
/-- STARTUP_END. -/
def execStartupEnd (s : State) : Host.Outcome State Fault Refusal := .next (startupEnd s)

end Sys2Proof.Machine
end

