-- ==== Sys2Proof/Machine/Steps.lean ====
section
/-! DEFINITION. Machine/Steps.lean: the STEP ticks: schedule steps, cycle-boundary steps, the end of a cycle, and the ends of
stepping (R28 to R32, R40 to R43, R50 to R82, R98 to R103, R142, R157 to R182, R389 to R397). -/
namespace Sys2Proof.Machine

/-! ### When a tick steps -/

/-- The next STEP tick is the one given, and it is no stall step (R98, R131, R126). -/
def canTick (s : State) (t : Tick) : Bool := s.seq.epoch && stepping s && !frozen s && !s.seq.degrade && s.seq.tick == t

/-- One STEP tick passes: the tick count, the CTRL edges within it, the engines' clocks (R99, R266). -/
def advance (s : State) : State := enginesTick (tickEdges { s with seq := { s.seq with ticks := s.seq.ticks + 1 } } true)

/-- Boundary rows that come before step 0 of this cycle: a STEP-N or replay end, a periodic checkpoint, the end of a recovery
(log 12). -/
def boundaryDue (s : State) : Bool :=
  s.md.stops.any (fun x => (x.kind == .stepN || x.kind == .replayTarget || x.kind == .replayLog) && decide (x.dcn + 1 ≤ s.seq.dcn))
  || s.ckp.due.contains s.seq.dcn
  || (match s.ckp.recovery with | some r => r.stepping && decide (r.f ≤ s.seq.dcn) | none => false)

/-- A DDR read whose row is due at step t without its response, or an instruction word of step t that waits for repair: the
sluice keeps the step from executing (R85, R180). -/
def stepBlocked (s : State) (t : Nat) : Bool :=
  s.ds.ddr.any (fun r => r.issue + r.lead == t && !r.arrived)
  || s.ds.faulty.any (fun f => f.1 != .row && f.1 != .tile && f.2 % 4096 == t)
  || (t == 0 && boundaryDue s)

/-! ### Errors met by fetches, ports and merges (R65, R66, R84, R85) -/

/-- Step that the words fetched at a position of the cycle serve: the fetch units read and check every instruction word 320 schedule and
boundary steps ahead (R83). No store changes while the board steps, so a buffered word is the word of its store. -/
def fetchStep (i : Image) (pos : Nat) : Option Nat :=
  let p := (pos + 320) % (i.hdr.depth + 16)
  if p < i.hdr.depth then some p else none

/-- A word of step t is fetched at a position: 320 positions ahead, and at the first step of a start also those of the 320 positions from
there on, which no step before has fetched (R83, log 60). -/
def fetchedAt (s : State) (i : Image) (pos t : Nat) : Bool :=
  fetchStep i pos == some t || (pos == 0 && s.seq.recent.isEmpty && (List.range 320).any (fun k => (pos + k) % (i.hdr.depth + 16) == t))

/-- Code word of a row or tile unit (R64, R510): four of them. -/
def codeWord (key : Nat) : Nat := key / 4

/-- Row code words of a group that step t reads through a port or merges a write into (R60, R64). -/
def rowMet (s : State) (i : Image) (t gg : Nat) (cw : Nat) : Bool :=
  (List.range 4).any (fun p => rpEn (grpWord i gg t) p && codeWord (4096 * gg + rowAddr (grpWord i gg t) p) == cw)
  || (codeWord (4096 * gg + t) == cw && ((epAt i t).any (fun e => e.1 / 16 == gg && ctlWE e.2)
    || s.ds.tileReads.any (fun r => r.due == t && r.gg == gg) || s.ds.ddr.any (fun r => r.issue + r.lead == t && r.gg == gg)))

/-- Tile code words that a port of step t reads or writes. -/
def tileMet (s : State) (i : Image) (t : Nat) (cw : Nat) : Bool :=
  (portOps i t).any (fun o => dKind o.d == 0 && !doubleBooked s o && !outOfRange s o && codeWord (tileKey s o) == cw)

/-- Rows that boundary step Bi reads or writes: port cells and direct pins, channels, probes (R29). -/
def boundRows (i : Image) (b : Nat) : List Nat :=
  let cells (ks : List Nat) := (i.portCells.filter (fun e => ks.contains (wfld e.w1 1 0))).map (fun e => portRow e.loc)
  let port (loc : Word) (n : Nat) := (List.range (1 + 2 * n)).map (portRow loc + ·)
  match b with
  | 2 => cells [1, 3]
  | 7 => cells [0, 2]
  | 8 => i.channels.flatMap (fun c => (if hasIn c then portRow c.readyLoc :: port c.inLoc c.inMaxW else [])
      ++ (if hasOut c then port c.outLoc c.outMaxW else []))
  | 12 => i.probes.map (fun p => portRow p.loc)
  | _ => []

/-- The error is one that the accesses of the step can meet: at position `pos` of the cycle, a fetched word, a row or tile unit in use. -/
def eccMet (s : State) (i : Image) (pos : Nat) (e : EccEvent) : Bool :=
  match e.store with
  | .row =>
    if pos < i.hdr.depth then rowMet s i pos (e.key / 4096) (codeWord e.key)
    else (boundRows i (pos - i.hdr.depth)).any (fun k => codeWord k == codeWord e.key)
  | .tile => pos < i.hdr.depth && tileMet s i pos (codeWord e.key)
  | .epInstr => e.key / 4096 < 32768 * nDies s && fetchedAt s i pos (e.key % 4096)
  | .grpInstr => e.key / 4096 < 2048 * nDies s && fetchedAt s i pos (e.key % 4096)
  | .cluInstr => e.key / 4096 < 64 * nDies s && fetchedAt s i pos (e.key % 4096)

/-- Memory class of a store (R510). -/
def storeClass (k : StoreKind) : Nat := match k with | .row => 1 | .tile => 2 | _ => 0

/-- Location address of a stored word (R25). -/
def storeLoc (k : StoreKind) (key : Nat) : Word :=
  let n := key / 4096
  match k with
  | .epInstr => mkLoc (n / 512) (n / 16 % 32) (n % 16) (key % 4096)
  | .grpInstr => mkLoc (n / 32) (n % 32) 0 (key % 4096)
  | .row => mkLoc (n / 32) (n % 32) 0 (key % 4096 / 4 * 4)
  | .cluInstr => mkLoc n 0 0 (key % 4096)
  | .tile => mkLoc (key / 2 ^ 20) 0 0 0

/-- Word address within the store (R536); a row or unit by the first of its code word. -/
def storeAddr (k : StoreKind) (key : Nat) : Nat :=
  match k with | .tile => key % 2 ^ 20 / 4 * 4 | .row => key % 4096 / 4 * 4 | _ => key % 4096

/-- The word was fetched before the first step of a start, so it is rewritten before the board steps, without a stall (DESIGN CHOICE, log 60). -/
def beforeStart (s : State) (e : EccEvent) : Bool :=
  s.seq.tick == .step 0 && s.seq.recent.isEmpty && (match s.img.resident with | some i => fetchStep i 0 != some (e.key % 4096) | none => false)

/-- Tile reads of the step in progress that took a code word write no row (R514). -/
def dropTileReads (s : State) (cw : Nat) : State :=
  match s.seq.tick with
  | .step t => { s with ds := { s.ds with
      tileReads := s.ds.tileReads.filter (fun r => !(r.due == t + 2 && (match r.key with | some k => codeWord k == cw | none => false))) } }
  | _ => s

/-- One error. A corrected word is right in the store and in what was delivered; an uncorrectable instruction word requests the
sluice under code 8, a second time for the same word it is FATAL; an uncorrectable row or tile word needs recovery. What a port read of a
tile word would have written is not written (R514): the step meets the tile read before its row is due. -/
def eccError (s : State) (e : EccEvent) : State :=
  let f : FaultInfo := {
    cls := 1, cause := 0x0101, unit := storeLoc e.store e.key, memClass := storeClass e.store, address := storeAddr e.store e.key }
  let s := countEcc s (locSite (storeLoc e.store e.key)) (storeClass e.store) (e.hit == .uncorrectable)
  match e.hit with
  | .corrected => fault s f
  | .uncorrectable =>
    let f := { f with cause := 0x0102 }
    if storeClass e.store == 0 then (if beforeStart s e then fault s { f with cls := 3, source := 8 } else wordFault s e.store e.key f)
    else needRecovery (if storeClass e.store == 2 then dropTileReads s (codeWord e.key) else s) f

/-! ### The parts of a schedule step; s0 is the state at its start -/

/-- EP work of step t: result registers, rows, toggle counters (R50 to R63, R80). -/
def stepEps (s0 s : State) (works : List EpWork) (t : Nat) : State :=
  { s with ds := { s.ds with
    epRes := works.foldl loadRes s.ds.epRes
    toggles := works.foldl (countToggle s0.ds.rows t) s.ds.toggles
    rows := works.foldl (fun m e => writeEp m t e) s.ds.rows } }

/-- Read-port output registers of a group: the rows that its enabled ports read (R60). -/
def loadPorts (rows m : List (Nat × Half)) (g : Nat × DWord) : List (Nat × Half) :=
  ((List.range 4).filter (rpEn g.2)).foldl (fun m p => wr m (4 * g.1 + p) (rd rows (4096 * g.1 + rowAddr g.2 p))) m

/-- Read-port output registers of step t (R60). -/
def stepReads (s0 s : State) (i : Image) (t : Nat) : State :=
  { s with ds := { s.ds with rpOut := (grpAt i t).foldl (loadPorts s0.ds.rows) s.ds.rpOut } }

/-- Broadcast lines, in-ports and out-ports of step t (R71, R73, R75). -/
def stepClusters (s0 s : State) (i : Image) (works : List EpWork) (t : Nat) : State :=
  let cs := cluAt i t
  { s with ds := { s.ds with
    bcast := cs.foldl (fun m c => wr m c.1 (bcastAfter s0 works c.1 c.2)) s.ds.bcast
    inPort := cs.foldl (fun m c => wr m c.1 (inPortsAfter s0 i c.1 c.2 t)) s.ds.inPort
    outHist := s.ds.outHist.filter (fun r => t < r.step + 8) ++ cs.filterMap (fun c =>
      let o := outBits works c.1 c.2
      if o == 0 then none else some { step := t, gc := c.1, bits := o }) } }

/-- A step record waits at a version 3 link: TAG, the send step's tick count, then the step bits (R484, R485). -/
def queueRecord (s : State) (d : Nat) (channels : List Nat) : State :=
  if (match linkOf s d with | some b => b.version == 3 && linkUp b | none => false) then
    setTx s d (fun t => { t with records := t.records ++ [(s.seq.ticks % 1024, bitsWhere 192 (fun c => channels.contains c))] })
  else s

/-- The records that leave at step t; a weir miss of a booked channel needs recovery (R114, R119, R148). -/
def stepNetwork (s0 s : State) (i : Image) (works : List EpWork) (t : Nat) : State :=
  let outs := (cluAt i t).map (fun c => (c.1, outBits works c.1 c.2))
  let s := { s with ds := { s.ds with weirs := s.ds.weirs.filter (fun r => t < r.due) ++ sendRecords s0 i outs t } }
  let s := (boardRecords s0 i outs t).foldl (fun s r => queueRecord s r.1 r.2) s
  match weirMisses s0 i t with
  | [] => s
  | (d, c, _) :: _ => needRecovery s { cls := 3, cause := 0x0402, unit := siteLoc d, address := if c == 0 then d else 0 }

/-- DDR operations of step t enter the issue budget; overruns count once per run of them (R177, R179). -/
def stepBudget (s : State) (ops : List PortOp) (t : Nat) : State :=
  let n := depthOf s * s.seq.dcn + t
  let b : List (Nat × Nat) := s.ds.budget.filter (fun e => n < e.1 + 512) ++ ops.map (fun o => (n, o.gc / 64))
  let tooMany := decide (1024 < b.length) || (diesOf s).any (fun d => decide (256 < (b.filter (fun e => e.2 == d)).length))
  let s' := { s with ds := { s.ds with budget := b, overrun := tooMany } }
  if tooMany && !s.ds.overrun then bumpIo s' 0x03 0x018 32 1 else s'

/-- Tile and DDR port operations of step t (R157 to R176). -/
def stepPorts (s0 s : State) (i : Image) (t : Nat) : State :=
  let ops := (portOps i t).filter (fun o => !doubleBooked s0 o)
  let tile := ops.filter (fun o => dKind o.d == 0)
  let ddr := ops.filter (fun o => dKind o.d == 1)
  let s := bumpIo s 0x03 0x008 32 (tile.filter (outOfRange s0)).length
  let s := bumpIo s 0x03 0x00C 32 (ddr.filter (outOfRange s0)).length
  let s := { s with ds := { s.ds with
    tiles := (tile.filter (fun o => o.op == 2)).foldl (tileWrite s0) s.ds.tiles
    tileReads := s.ds.tileReads ++ (tile.filter (fun o => o.op == 1)).map (fun o => startTileRead s0 o t)
    tileBusy := (tile.filter (fun o => o.op == 2)).map (fun o => 4 * o.gc + o.port)
    ddr := s.ds.ddr ++ (ddr.filter (fun o => o.op == 1)).map (fun o => startDdrRead s0 o t) } }
  let s := (ddr.filter (fun o => o.op == 2)).foldl (ddrWrite s0) s
  let s := stepBudget s (ddr.filter (fun o => !outOfRange s0 o)) t
  maxIo s 0x03 0x014 ((diesOf s).foldl (fun a d => max a (s.ds.ddr.filter (fun r => r.gc / 64 == d && decide (t < r.issue + r.lead))).length) 0)

/-- Tile and DDR reads that land in row t at the end of step t (R162, R172). -/
def stepDeliver (s : State) (t : Nat) : State :=
  let tr := s.ds.tileReads.filter (fun r => r.due == t)
  let dr := s.ds.ddr.filter (fun r => r.issue + r.lead == t)
  { s with ds := { s.ds with
    rows := dr.foldl (fun m r => deliverRead m t r.gg r.bit0 r.width r.value)
      (tr.foldl (fun m r => deliverRead m t r.gg r.bit0 r.width r.value) s.ds.rows)
    tileReads := s.ds.tileReads.filter (fun r => r.due != t)
    ddr := s.ds.ddr.filter (fun r => r.issue + r.lead != t) } }

/-- Held code 0 requests are per port and read: their unit. -/
def ddrUnit (r : DdrRead) : Nat := 4096 * (4 * r.gc + r.port) + r.issue

/-- Response checks of step t and refresh collisions of the reads issued at it (R180, R181). R181 raises code 1 at once as the read meets
the refresh; the table of R144 puts it one sluice lead before the request: DEDUCED, log 61. -/
def stepDdrChecks (s : State) (t : Nat) (refresh : List Nat) : State :=
  let late := s.ds.ddr.filter (fun r => r.issue + r.lead == t + 320 && !r.arrived)
  let s := late.foldl (fun s r => holdReq s 0 (ddrUnit r)) s
  (s.ds.ddr.filter (fun r => r.issue == t && !r.arrived && refresh.contains (4 * r.gc + r.port))).foldl (fun s _ => pulse s 1 7) s

/-- Activity of the slot in progress, under slot discipline (R204, R619). -/
def stepActivity (s : State) (i : Image) (t : Nat) : State :=
  if slotDiscipline s then
    { s with ds := { s.ds with slotAct := (List.range (4 * nDies s)).map (fun q => (q, (lookup s.ds.slotAct q).getD 0 + activity i t q)) } }
  else s

/-- The second sample of the target pins waits for its FABRIC edge from step ⌊D ÷ 2⌋ of a live cycle on (R391, R394). -/
def stepSecond (s : State) (i : Image) (t : Nat) (e : StepEnv) : State :=
  let s := givePads s e.pads e.floats
  if t == i.hdr.depth / 2 && !fromLog s then { s with fab := { s.fab with logic := { s.fab.logic with secondDue := true } } } else s

/-- Modules and bundles that a die drives (R438): module m, 32 + die for its board link. -/
def markerUnits (s : State) (d : Nat) : List Nat :=
  (dieModules s d).filter (fun m => match modOf s m with | some u => modTrained u | none => false)
    ++ (match linkOf s d with | some b => if linkCarries b then [32 + d] else [] | none => [])

/-- CYCLE_MARKER_SEND at step 0: every die on each module and bundle that it drives, tagged with its send tick (R129). -/
def sendMarkers (s : State) : State :=
  let s := (diesOf s).foldl (fun s d => if (markerUnits s d).contains (32 + d) then queueMark s d (itemMarker s.seq.dcn s.seq.ticks) else s) s
  { s with
    seq := { s.seq with marker := s.seq.dcn }
    net := { s.net with markers := (diesOf s).flatMap (fun d => (markerUnits s d).map (fun u => (d, u, s.seq.dcn % 2 ^ 16, s.seq.ticks))) } }

/-- Step t of the schedule; cycle markers whose tick has come leave their weirs at its start. -/
def runStep (s : State) (i : Image) (t : Nat) (e : StepEnv) : State :=
  let s0 := releaseMarks s
  let s := if t == 0 then sendMarkers s0 else s0
  let works := epWorks s0 i t
  let s := hazards s0 s i t
  let s := stepReads s0 (stepEps s0 s works t) i t
  let s := stepNetwork s0 (stepClusters s0 s i works t) i works t
  let s := stepDeliver (stepPorts s0 s i t) t
  let s := stepDdrChecks s t e.refresh
  let s := stepSecond (stepActivity s i t) i t e
  (e.ecc.filter (eccMet s0 i t)).foldl eccError s

/-- SCHEDULE_STEP. -/
def scheduleStep (s : State) (e : StepEnv) : State :=
  match s.seq.tick, s.img.resident with
  | .step t, some i =>
    if canTick s (.step t) && !stepBlocked s t then
      let s1 := runStep s i t e
      let next : Tick := if t + 1 < i.hdr.depth then .step (t + 1) else .bound 0
      advance { s1 with seq := { s1.seq with
        tick := next, degrade := s1.seq.marked.contains t, recent := ((s.seq.ticks % 1024, t) :: s1.seq.recent).take 256 } }
    else s
  | _, _ => s

/-! ### Cycle-boundary steps (R29, R54, R389 to R397) -/

/-- BOUNDARY_CLEAR at the start of B0 (R54): results, port outputs, lines, in-port bits; what was in flight has landed. A tile
write of step D − 1 completes (R166). -/
def boundaryClear (s : State) : State :=
  { s with ds := { s.ds with epRes := [], rpOut := [], bcast := [], inPort := [], outHist := [], weirs := [], tileReads := [], tileBusy := [], ddr := [] } }

/-- B2: the output edge is due at the next FABRIC edge (R388, R389); not in the replayed cycles of a recovery (R311, R391). -/
def outputTransfer (s : State) : State :=
  if inRecovery s then s else { s with fab := { s.fab with logic := { s.fab.logic with outDue := true } } }

/-- The value that an input entry takes (R393, R394). -/
def inputBit (s : State) (e : PortCellEntry) : Bool :=
  if wfld e.w1 1 0 == 0 then s.fab.inCells.contains (cellNum e)
  else if bitOf e.w1.toNat 2 then bitOf s.fab.second.toNat (cellNum e) else bitOf s.fab.first.toNat (cellNum e)

/-- Write one bit of a row. -/
def putBit (m : List (Nat × Half)) (loc : Word) (v : Bool) : List (Nat × Half) :=
  wr m (portRow loc) (mergeBits (rd m (portRow loc)) (if v then 0xFFFF else 0) (locEp loc) 1)

/-- B4: the input edge is due at the next FABRIC edge, or the log gives the inputs (R389, R391, R611). -/
def inputSample (s : State) : State :=
  if fromLog s then loadInputs s else { s with fab := { s.fab with logic := { s.fab.logic with inDue := true } } }

/-- B7: the samples of the input edge are in the data-store bits of cycle n + 1; the edge has come by then, two ticks after B4 at the latest
(R30, R389). -/
def inputWrite (s : State) (i : Image) : State :=
  { s with ds := { s.ds with rows := (cellsOf i 0 ++ cellsOf i 2).foldl (fun m p => putBit m p.loc (inputBit s p)) s.ds.rows } }

/-- Crossing-register transfers that failed their check and were resent, by die; 8 is the I/O die (FAB_CROSS_ERR, R405). -/
def countCross (s : State) (ds : List Nat) : State := ds.foldl (fun s d => bump s (rkey (if d == 8 then 15 else d) 0x10 0x00C) 16 1) s

/-- What the board gives the pads now, and the transfers that failed; cycle markers whose tick has come leave their weirs. -/
def takeLevels (s0 : State) (e : BoundEnv) : State :=
  let s := releaseMarks s0
  givePads { countCross s e.crossErr with util := { s.util with pads := e.util, floats := e.utilFloats, forced := e.utilForced } } e.pads e.floats

/-- B12 to B15 of the capture units and engines; EXT is the TRIG_IN level of the log or of the pad (R258, R611). -/
def boundaryCommit (s : State) (i : Image) : State :=
  let s := if fromLog s then s else { s with fab := { s.fab with ext := trigIn s } }
  toggleHandoff (captureCommit s i)

/-- The work of boundary step Bi: B0 clears, B2 output edge, B4 input edge, B7 input bits, B8 to B11 transactors, B12 commits, B15 log
entry. -/
def boundaryWork (s : State) (i : Image) (b : Nat) : State :=
  match b with
  | 0 => boundaryClear s
  | 2 => outputTransfer s
  | 4 => inputSample s
  | 7 => inputWrite (noteReady s) i
  | 8 => if fromLog s then deliverLog (collect (replayChanges s)) else deliverLive (collect s)
  | 12 => boundaryCommit s i
  | 15 => releaseTaken (closeEntry s)
  | _ => s

/-- CYCLE_BOUNDARY_STEP. -/
def cycleBoundaryStep (s : State) (e : BoundEnv) : State :=
  match s.seq.tick, s.img.resident with
  | .bound b, some i =>
    if b < 16 && canTick s (.bound b) then
      let s1 := (e.ecc.filter (eccMet s i (i.hdr.depth + b))).foldl eccError (boundaryWork (takeLevels s e) i b)
      advance { s1 with seq := { s1.seq with tick := .bound (b + 1) } }
    else s
  | _, _ => s

/-! ### The end of a cycle (R12, R40 to R43, R142, R290, R294) -/

/-- CAP_AUTO_CYCLES is due in this cycle (R246). -/
def autoCyclesDue (s : State) : Bool :=
  isLead s && autoEn s && !autoTime s && s.cap.mode == .armed && s.cap.trigDcn.isNone && !s.cap.autoDone
  && s.seq.dcn + 1 == s.cap.armDcn + capAuto s

/-- Rows of B12 to B15 that the end of the cycle waits for (log 12). -/
def endWaits (s : State) : Bool := captureEndDue s || s.chn.any (fun e => closeDue s e.2) || autoCyclesDue s

/-- Stepping ends: the mode and sub-state, with the event that carries the effective DCN (R40). Stops fixed for a later DCN lapse, a
DESIGN CHOICE of log 60: their commands have been answered, and the state that they ask for is not entered. -/
def endStepping (s : State) (m : Mode) : State :=
  let dbg := s.md.debug && m == .run
  let s := { s with md := { s.md with stops := [] }, haz := { s.haz with haltPending := false }, seq := { s.seq with tick := .idle } }
  modeEvent (setMode s m .halted dbg) (lastDcn s)

/-- A stop of a kind is fixed for a cycle that has ended. -/
def stopDue (s : State) (ks : List StopKind) : Bool := s.md.stops.any (fun x => ks.contains x.kind && decide (x.dcn < s.seq.dcn))

/-- Stepping ends at the boundary of a device in SAFE HOLD, which is the first cause: the mode stays (R43, R44). -/
def holdStop (s : State) : State := { s with md := { s.md with stops := [] }, seq := { s.seq with tick := .idle } }

/-- MODE_CHANGE: the first cause in the order of R43 that is fixed for the cycle that has ended. -/
def modeChange (s : State) : State :=
  if inSafeHold s then (if stopDue s [.runStop, .replayStop, .halt, .trigger, .hazard] then holdStop s else s)
  else if stopDue s [.runStop] then endStepping s .loaded
  else if stopDue s [.replayStop] then endReplay s .loaded
  else if stopDue s [.halt, .trigger, .hazard] && !inReplay s then endStepping s .run
  else s

/-- The periodic checkpoint that falls on the DCN that now reads (R290). -/
def periodicDue (s : State) : State :=
  let e := fld (ioReg s 0x08 0x000) 5 0
  if 10 ≤ e && s.seq.dcn % 2 ^ e == 0 && s.md.mode == .run && !fromLog s && s.ckp.recovery.isNone then
    { s with ckp := { s.ckp with due := s.ckp.due ++ [s.seq.dcn] } }
  else s

/-- PLANNED_HOLD_ENTRY: the holds agreed for the cycle that has ended (R142, R143). -/
def enterHolds (s : State) (n : Nat) : State :=
  let now := s.slu.agreed.filter (fun a => a.1 ≤ n)
  let s := { s with slu := { s.slu with agreed := s.slu.agreed.filter (fun a => !(a.1 ≤ n)) } }
  let works := now.filterMap (·.2)
  let ck := works.contains .checkpoint
  let s := if ck then startCheckpoint { s with ckp := { s.ckp with forcedAt := none } } (s.ckp.forcedAt.isSome) else s
  let rest := works.filter (fun w => w != .checkpoint)
  if now.isEmpty || (ck && rest.isEmpty) then s else startHold s rest

/-- The staging buffer above 12 MB, the COW area or the log short of space (R294, R301, R302). -/
def endChecks (s : State) : State :=
  let s := if 12 * 2 ^ 20 < s.ckp.log.stagedBytes then holdReq s 6 0 else s
  forceCheckpoint s

/-- CYCLE_END: the DCN becomes n + 1 and everything fixed for the end of B15 of cycle n takes effect. SLU_MAXCYC counts whole cycles: the
cycle in progress joins it here, and a read in mid-cycle leaves its count (DESIGN CHOICE, log 60). -/
def cycleEnd (s : State) : State :=
  if s.seq.epoch && stepping s && s.seq.tick == .bound 16 && !endWaits s then
    let n := s.seq.dcn
    let rep := inReplay s || inRecovery s
    let s := applyChanges s
    let s := applyEnables s (n + 1)
    let s := maxIo s 0x02 0x020 s.slu.cyc
    let s := { s with
      seq := { s.seq with dcn := n + 1, tick := .step 0 }
      slu := { s.slu with cyc := 0 }
      haz := { s.haz with made := [], takes := [] }
      ckp := { s.ckp with
        badDcn := if s.ckp.badDcn == some n then none else s.ckp.badDcn
        kept := if s.ckp.kept == some (n + 1) then none else s.ckp.kept
        collected := if s.ckp.collected == some n then none else s.ckp.collected } }
    let s := endChecks s
    let s := match s.cap.armAt with | some a => if a ≤ n then armNow s (n + 1) else s | none => s
    let s := if rep && !s.md.stops.any (fun x => x.dcn ≤ n) && (match s.ckp.recovery with | some r => n + 1 < r.f | none => true)
      then applyHostWrites s else s
    enterHolds (modeChange (periodicDue s)) n
  else s

/-- STEP_N_EXPIRY: HALTED after the last of the N cycles (R43, R372). -/
def stepNExpiry (s : State) : State :=
  if s.md.mode == .run && s.md.sub == .stepN && s.seq.tick == .step 0 && stopDue s [.stepN] then
    (if inSafeHold s then holdStop s else endStepping s .run)
  else s

/-- REPLAY_END at the target DCN, a halting trigger, or the end of the log (R308, R309). -/
def replayEnd (s : State) : State :=
  if inReplay s && s.seq.tick == .step 0 && stopDue s [.replayTarget, .replayLog] then
    let atEnd := stopDue s [.replayLog]
    if inSafeHold s then holdStop s else endReplay (setLogErr s (atEnd && (logReach s).2)) .run
  else s

/-- PERIODIC_CHECKPOINT: the planned hold of the checkpoint at the DCN that reads (R290). -/
def periodicCheckpoint (s : State) : State :=
  if s.ckp.due.contains s.seq.dcn && (s.seq.tick == .step 0 || s.seq.tick == .idle) then
    startCheckpoint { s with ckp := { s.ckp with due := s.ckp.due.filter (fun c => c != s.seq.dcn) } } false
  else s

/-- B12 has passed, and the boundary is not frozen: B13 to B15, or their end (R132). -/
def lateBoundary (s : State) : Bool := match s.seq.tick with | .bound b => b == 16 || (decide (13 ≤ b) && !frozen s) | _ => false

/-- CAPTURE_END in B12 to B15 of cycle END_DCN: every die writes its end marker and closes its block (R241). -/
def captureEnd (s : State) : State :=
  if captureEndDue s && lateBoundary s then
    let s := (diesOf s).foldl endDie s
    { s with cap := { s.cap with cause := capCause s } }
  else s

/-- CAP_AUTO_CYCLES (R246). -/
def capAutoCycles (s : State) : State :=
  if autoCyclesDue s && lateBoundary s then
    driveEvent { s with cap := { s.cap with autoDone := true } } 0 3 15 s.seq.dcn
  else s

/-- Nanoseconds since the arm, by signed difference (R559). -/
def sinceArm (s : State) : Int := tdiff s.time.sec s.time.ns (s.cap.armTime / 1000000000) (s.cap.armTime % 1000000000)

/-- CAP_AUTO_TIME (R247): the row says that the time has come; the comparison is made on the device's own time. In the replayed cycles of a
recovery no line is driven (R635), and the timer stays due. -/
def capAutoTime (s : State) : State :=
  if isLead s && autoEn s && autoTime s && s.cap.mode == .armed && s.cap.trigDcn.isNone && !s.cap.autoDone
    && !inRecovery s && decide ((capAuto s : Int) ≤ sinceArm s) then
    driveEvent { s with cap := { s.cap with autoDone := true } } 0 4 15 s.seq.dcn
  else s

/-- CHECKPOINT_COMPLETE (R292). -/
def checkpointComplete (s : State) : State := completeCheckpoint s

end Sys2Proof.Machine
end

