-- ==== Sys2Proof/Machine/RegMap.lean ====
section
/-! DEFINITION. Machine/RegMap.lean: what every register of the register maps reads, what a read clears or latches (R19 to R22,
R103, R125, R156, R187, R221, R260, R261, R287, R317, R347, R405, R414, R475, R509, R526, R553, R569, R578, R593, R612, R632).
Hidden keys at offset 0x80000 above a LO or HI register hold values that its read shows. -/
namespace Sys2Proof.Machine

/-! ### Which register a register address names (R368) -/

/-- The block exists. -/
def isBlock (b : Nat) : Bool := (1 ≤ b && b ≤ 9) || (0x10 ≤ b && b ≤ 0x18)

/-- The block exists on a die of this kind. -/
def blockOn (site b : Nat) : Bool :=
  if b == 0x10 || b == 0x12 || b == 0x13 then true
  else if b == 0x01 || b == 0x06 || b == 0x07 || b == 0x11 then site < 8
  else site == 15

/-- Bytes of a block. -/
def blockEnd (b : Nat) : Nat :=
  match b with
  | 0x01 => 0x60 | 0x02 => 0xC0 | 0x03 => 0x24 | 0x04 => 0x34 | 0x05 => 0x44 | 0x06 => 0x184 | 0x07 => 0x28 | 0x08 => 0x3C
  | 0x09 => 0x5000 | 0x10 => 0x818 | 0x11 => 0x108 | 0x12 => 0x1000 | 0x13 => 0x500 | 0x14 => 0x38 | 0x15 => 0x3C | 0x16 => 0x80
  | 0x17 => 0x1C | 0x18 => 0x800 | _ => 0

/-- A site of the part: a present compute die, an accessory die that has been admitted (R8), and which reads failed once its module is lost
(R473), or the I/O die. -/
def sitePresent (s : State) (site : Nat) : Bool := site == 15 || site < nDies s || (site == 8 && (s.acc.st == 4 || s.acc.st == 6))

/-- Status of an access to `n` registers from a register address on: 0 when it names them all (log 15). -/
def regCheck (s : State) (addr : Word) (n : Nat) : Nat :=
  let site := wfld addr 31 28
  let b := wfld addr 27 20
  let off := wfld addr 19 0
  if off % 4 != 0 then 0x0106
  else if !isBlock b then 0x0103
  else if 9 ≤ site && site != 15 then 0x0105
  else if !blockOn site b then 0x0103
  else if !sitePresent s site then 0x0107
  else if blockEnd b < off + 4 * n then 0x0103
  else 0

/-! ### Read values -/

/-- Stored part of a register. -/
def sv (s : State) (site b off : Nat) : Nat := (reg s (rkey site b off)).toNat
/-- Low or high half of a 64-bit value: the high half as latched (R19). -/
def half64 (s : State) (site b lo off v : Nat) : Nat := if off == lo then v % 2 ^ 32 else sv s site b off

/-- Engine signal ENG_STEP (R388). -/
def engStep (s : State) : Bool := stepping s && s.seq.epoch && !frozen s && !s.seq.degrade && s.seq.tick != .idle

/-- WEIR_STATn (R125); DRIFT and RECENTRED are stored. Without an image no share is declared, and NOSTEP keeps its reset value. -/
def weirStat (s : State) (d c : Nat) : Nat :=
  let p := lookup s.phys (8 * d + c)
  let v2 := c == 0 && (match linkOf s d with | some b => b.version == 2 | none => false)
  p.getD 0 % 256 + 2 ^ 8 * (match p with | some p => padOf c p | none => 0) + fld (sv s d 0x01 (0x040 + 4 * c)) 19 16 * 2 ^ 16
    + 2 ^ 20 * b2n (weirShort s d c) + 2 ^ 21 * b2n (bitOf (sv s d 0x01 (0x040 + 4 * c)) 21) + 2 ^ 22 * b2n (!routeExists s d c)
    + 2 ^ 23 * b2n ((s.img.resident.isSome && rxShare s d c == 0) || v2 || weirShort s d c)

/-- SEQ_ block (R103). DRAIN shows every stop that is fixed, also a STEP-N expiry and the end of a replay: DESIGN CHOICE of log 60. -/
def readSeq (s : State) (d off : Nat) : Nat :=
  match off with
  | 0x000 =>
    let ph := if !stepping s then 0 else if !engStep s then 3 else (match s.seq.tick with | .bound _ => 2 | _ => 1)
    let st := match s.seq.tick with | .step t => t | .bound b => min b 15 * 2 ^ 12 | .idle => 0
    st + 2 ^ 16 * ph + 2 ^ 18 * b2n (s.md.mode == .run && s.md.debug) + 2 ^ 19 * b2n (!s.md.stops.isEmpty)
  | 0x004 => depthOf s
  | 0x008 | 0x00C => half64 s d 0x01 0x008 off s.seq.dcn
  | 0x010 | 0x014 => half64 s d 0x01 0x010 off s.seq.ticks
  | 0x018 => s.seq.marked.length
  | 0x01C => sv s d 0x01 0x01C
  | _ => if 0x040 ≤ off then weirStat s d ((off - 0x040) / 4) else 0

/-- SLU_ block (R156). -/
def readSlu (s : State) (off : Nat) : Nat :=
  match off with
  | 0x000 => (sluStatus s).toNat
  | 0x008 | 0x00C => half64 s 15 0x02 0x008 off s.slu.total
  | 0x018 | 0x01C => half64 s 15 0x02 0x018 off (sv s 15 0x02 0x80018)
  | _ => sv s 15 0x02 off

/-- HAZ_ block (R221). -/
def readHaz (s : State) (off : Nat) : Nat :=
  match off with
  | 0x004 =>
    b2n (s.md.mode == .run && s.md.debug) + 2 * b2n s.haz.noAnnot + 4 * b2n s.haz.haltPending + (if bitOf (sv s 15 0x04 4) 3 then 8 else 0)
      + 2 ^ 8 * s.haz.queue.length
  | 0x008 | 0x00C => half64 s 15 0x04 0x008 off (s.haz.first.getD 0)
  | _ => sv s 15 0x04 off

/-- CAP_ block (R260). -/
def readCap (s : State) (off : Nat) : Nat :=
  match off with
  | 0x014 => (capStatus s).toNat
  | 0x018 | 0x01C => half64 s 15 0x05 0x018 off s.cap.armDcn
  | 0x020 | 0x024 => half64 s 15 0x05 0x020 off (s.cap.trigDcn.getD 0)
  | 0x028 | 0x02C => half64 s 15 0x05 0x028 off (s.cap.endDcn.getD 0)
  | 0x030 | 0x034 => half64 s 15 0x05 0x030 off (if isLead s then s.cap.oldest else 0)
  | 0x038 => s.cap.ring.length
  | _ => sv s 15 0x05 off

/-- TRG_ block of a die (R261). -/
def readTrg (s : State) (d off : Nat) : Nat :=
  if off == 0x180 then
    match capDie s d with
    | some c => c.saved.st + 8 * b2n c.fired + 16 * (c.saved.occ % 2 ^ 24)
    | none => 0
  else sv s d 0x06 off

/-- CHN_ block of a die (R287). -/
def readChn (s : State) (d off : Nat) : Nat :=
  match chnOf s d with
  | none => sv s d 0x07 off
  | some c =>
    match off with
    | 0x000 => (match c.pend with | some (e, w) => b2n e + 2 * w | none => b2n c.m.en + 2 * c.m.wexp)
    | 0x004 =>
      (if c.fault then 3 else if c.m.running then 2 else if c.m.en then 1 else 0) + (sv s d 0x07 4) % 128 / 4 * 4 + 2 ^ 7 * b2n c.fault + 2 ^ 8 * c.m.pc
    | 0x008 => if (s.img.resident).isSome then budget s (match c.pend with | some (_, w) => w | none => c.m.wexp) else 0
    | 0x014 | 0x018 => half64 s d 0x07 0x014 off c.m.winDcn
    | 0x024 => bufBytes c
    | _ => sv s d 0x07 off

/-- CKP_STATUS, LOG_OLDEST_DCN and LOG_USED (R317). -/
def ckpStatus (s : State) : Nat :=
  b2n s.ckp.last.isSome + 2 * b2n s.ckp.busy.isSome + 4 * b2n s.ckp.recovery.isSome + 8 * b2n (s.md.mode == .replay)
    + fld (sv s 15 0x08 4) 5 4 * 16
def logOldest (s : State) : Nat := match s.ckp.log.entries with | e :: _ => e.dcn | [] => 0
def logUsedMb (s : State) : Nat := cdiv (logBytes s.ckp.log.entries) (2 ^ 20)

/-- CKP_ block (R317). -/
def readCkp (s : State) (off : Nat) : Nat :=
  match off with
  | 0x004 => ckpStatus s
  | 0x008 | 0x00C => half64 s 15 0x08 0x008 off ((lastCkpDcn s).getD 0)
  | 0x018 => cdiv (cowUsed s) (2 ^ 20)
  | 0x028 => logUsedMb s
  | 0x02C | 0x030 => half64 s 15 0x08 0x02C off (logOldest s)
  | _ => sv s 15 0x08 off

/-- The four words of a channel (R347). -/
def chanWord (ch : Chan) (k : Nat) : Nat :=
  match k with
  | 0 =>
    b2n ch.isOpen + 2 * b2n (inHeld ch) + 4 * b2n (headFence ch).isSome + 8 * b2n ch.flush
      + 2 ^ 4 * ch.inq.length + 2 ^ 15 * ch.outq.length + 2 ^ 26 * b2n (pktOpen ch)
  | 1 => ch.inErr
  | 2 => ch.outErr
  | _ => (headFence ch).getD 0 % 2 ^ 16 + 2 ^ 16 * ch.cuts

/-- Protocol engines that run: from the end of BOOT on, but for those that restart (R345, R347). -/
def engOk (s : State) : Nat := if s.md.mode == .boot then 0 else bitsWhere 4 (fun e => !s.trx.restarts.contains e)

/-- Words of a channel that the resident map does not list: the counts that an earlier map left. -/
def pastWord (s : State) (c k : Nat) : Nat :=
  match lookup s.trx.past c, k with
  | some p, 1 => p.1
  | some p, 2 => p.2.1
  | some p, 3 => 2 ^ 16 * p.2.2
  | _, _ => 0

/-- TRX_ block (R347); 229,376 queue slots (R322), of which none is free in BOOT. -/
def readTrx (s : State) (off : Nat) : Nat :=
  match off with
  | 0x000 =>
    engOk s + 16 * b2n (s.slu.held.any (fun r => r.1 == 6 && 0 < r.2)) + 2 ^ 16 * (openChans s).length
  | 0x004 => if s.md.mode == .boot then 0 else 229376 - (s.trx.chans.map (fun c => c.2.cfg.inDepth + c.2.cfg.outDepth)).sum
  | 0x018 => fenceWaits s
  | _ =>
    if 0x1000 ≤ off then (match chanOf s ((off - 0x1000) / 16) with | some ch => chanWord ch (off % 16 / 4) | none => pastWord s ((off - 0x1000) / 16) (off % 16 / 4))
    else sv s 15 0x09 off

/-- Regions of a die (R380). -/
def dieRegion (site r : Nat) : Nat := if site == 15 then 32 + r else 4 * site + r

/-- BOOT_STATUS (R414); a relay-booted device waits in PHASE 1 once its board links have trained (R426). -/
def bootStatus (s : State) : Nat :=
  (if s.boot.phase == 0 && s.straps.boot && linksSettled s then 1 else s.boot.phase) + 16 * b2n s.boot.line + 32 * b2n s.boot.cfgErr + 64 * b2n s.straps.boot + 2 ^ 8 * s.boot.cause
/-- BOOT_WAIT on the lead. -/
def bootWait (s : State) : Nat :=
  if isLead s then bitsWhere 16 (fun p => if p == 0 then !s.boot.released else s.boot.wait.contains p) else 0

/-- Dies are gated (D1) in STANDBY, LOADED and HALTED (R621). -/
def dieD1 (s : State) : Bool := s.md.mode == .standby || s.md.mode == .loaded || isHalted s

/-- Code 5 is held for condition c of a site (R624). -/
def thrHeld (s : State) (site c : Nat) : Bool := s.slu.held.contains (5, 8 * site + c)

/-- PWR_ registers of a site (R632). -/
def readPwr (s : State) (site off : Nat) : Nat :=
  match off with
  | 0x800 =>
    b2n (site < 8 && dieD1 s) + bitsWhere 4 (fun c => thrHeld s site c) * 2 + 32 * b2n (site == 15 && thrHeld s 15 4)
      + 64 * b2n (bitOf (sv s site 0x10 0x800) 6)
  | _ => sv s site 0x10 off

/-- FAB_IOCFGp (R405). -/
def readIocfg (s : State) (p : Nat) : Nat := iocfg s p + 2 ^ 23 * b2n (targetPad s p)

/-- A word of the DVSEC of the endpoint (R414): the header, whose extended capability ID is PCI Express's (PRESUMED, log 78), and the registers. -/
def dvsecWord (s : State) (off : Nat) : Nat :=
  match off with
  | 0x00 => 0x0023 + 2 ^ 16 * Config.dvsecLink.toNat
  | 0x04 => Config.vendorId.toNat + 2 ^ 16 * Config.dvsecRevision.toNat + 2 ^ 20 * 0x1C
  | 0x08 => 0x0001
  | 0x0C => sv s 15 0x10 0x040
  | 0x10 => bootStatus s
  | 0x14 => bootElapsed s
  | 0x18 => bootWait s
  | _ => 0

/-- Fabric block of a site (R405, R414, R632). -/
def readFab (s : State) (site off : Nat) : Nat :=
  if 0x800 ≤ off then readPwr s site off
  else if 0x100 ≤ off then
    (if site == 15 && off < 0x400 then readIocfg s ((off - 0x100) / 4) else 0)
  else match off with
  | 0x000 =>
    let n := if site == 15 then 8 else if site < 8 then 4 else 0
    ((List.range 8).map (fun r => (if r < n then regionCode (regionSt s (dieRegion site r)) else 3) * 4 ^ r)).sum
  | 0x004 => b2n (s.fab.gsr || s.fab.logic.gsrEnds) + 2 * b2n (engStep s) + 4 * b2n (liveSignal s)
  | 0x008 | 0x00C => sv s site 0x10 off
  | _ => if site == 15 && 0x040 ≤ off && off < 0x050 then dvsecWord s (0x0C + (off - 0x040)) else 0

/-- A set of numbers as a bit mask. -/
def maskOf (n : Nat) (xs : List Nat) : Nat := bitsWhere n (fun i => xs.contains i)

/-- Guaranteed rate G of R493 in Gbit/s. -/
def guarRate (s : State) (b : BoardLink) (share : Nat) : Nat :=
  let k := if gradeEff s == 2 then 4 else 3
  let g := (986 - k * (10 + share)) / 144 * 64
  if b.version != 3 || !linkUp b then 0 else if b.width8 then g / 2 else g

/-- Board-link block of a die (R509). -/
def readBl (s : State) (d off : Nat) : Nat :=
  match linkOf s d with
  | none => 0
  | some b =>
    match off with
    | 0x000 => b.st + 8 * b.version + 32 * b2n b.width8 + 2 ^ 8 * b.cause + 2 ^ 12 * b2n b.spill
    | 0x004 => b.peerPos + 16 * b.peerDie + 2 ^ 8 * b.part
    | 0x008 => maskOf 18 b.txUsed
    | 0x00C => maskOf 18 b.rxUsed
    | 0x010 => maskOf 18 b.txFail
    | 0x014 => maskOf 18 b.rxFail
    | 0x018 => txShare0 s d + 2 ^ 8 * rxShare s d 0 + 2 ^ 16 * vn2Of s d + 2 ^ 24 * (guarRate s b (txShare0 s d) / 8)
    | 0x01C => b.peak + 16 * b2n (b.version == 3 && linkUp b) + 2 ^ 8 * b.eye
    | _ => sv s d 0x11 off

/-- Channels booked on a direction of a module (R448, R449): a ring module carries its pair, or nothing when it is down; spoke
modules share the units of the spoke-routed pairs alternately, in order of link code. -/
def spokeUnits (s : State) (im : Image) (d : Nat) (tx : Bool) : Nat :=
  ((List.range 8).map (fun c =>
    let o := (d + c) % 8
    if c == 0 || ringPair s d o then 0 else if tx then shareOf im d c / 16 else shareOf im o ((8 - c) % 8) / 16)).sum
def moduleStep (s : State) (m : Nat) (txCompute : Bool) : Nat :=
  match s.img.resident with
  | none => 0
  | some im =>
    if m < 16 then 16 * ((spokeUnits s im (m / 2) txCompute + 1 - m % 2) / 2)
    else if m < 24 then
      let (i, j) := moduleEnds s m
      if ringPair s i j then (if txCompute then shareOf im i ((j + 8 - i) % 8) else shareOf im j ((i + 8 - j) % 8)) else 0
    else 0

/-- Least packet payload per tick (R451, R452). -/
def packetBits (s : State) (u : UcieMod) (ch : Nat) : Nat :=
  if u.st == 3 then (if gradeEff s == 2 then 640 else 800) - ch else if u.st == 4 then 64 else 0

/-- A module of a compute die that the spillway isolates shows STATE 5 until the release, but for one that is down (R466, R475, log 70). -/
def isolated (s : State) (m : Nat) (u : UcieMod) : Bool :=
  m < 24 && u.st != 1 && (s.net.spill.contains (moduleEnds s m).1 || s.net.spill.contains (moduleEnds s m).2)

/-- Group of module m as the end at `site` shows it (R475). -/
def readModule (s : State) (site m k : Nat) : Nat :=
  match modOf s m with
  | none => 0
  | some u =>
    let (a, b) := moduleEnds s m
    if site != a && site != b then 0
    else
      let far := if site == a then b else a
      let tx := moduleStep s m (site == a)
      let rx := moduleStep s m (site != a)
      match k with
      | 0 => (if isolated s m u then 5 else u.st) + 8 * u.half + 16 * (if u.st == 3 || u.st == 4 then far else 0) + 2 ^ 8 * u.proto + 2 ^ 12 * u.cause
      | 1 =>
        if site == a then u.txFused + 8 * u.txTrained + 64 * u.rxFused + 512 * u.rxTrained
        else u.rxFused + 8 * u.rxTrained + 64 * u.txFused + 512 * u.txTrained
      | 2 => maskOf 32 u.failed
      | 3 => maskOf 32 ((u.failed.filter (fun l => 32 ≤ l)).map (· - 32))
      | 4 => tx + 2 ^ 16 * rx
      | 5 => packetBits s u tx
      | _ => 0

/-- UCIe and packet-network block of a site (R475). -/
def readIpi (s : State) (site off : Nat) : Nat :=
  match off with
  | 0x000 => if site == 15 then 16 + 32 * b2n s.ident.small else site
  | 0x004 => if site == 15 then s.acc.st + 16 * s.acc.kind + 2 ^ 8 * s.acc.cause else 0
  | 0x008 => maskOf 9 (s.net.spill.filter (fun t => site == 15 || (site < 8 && t < 8 && ringNeighbours s site t)))
  | _ =>
    if 0x800 ≤ off && off < 0xE40 then
      (let m := (off - 0x800) / 64
       if (moduleEnds s m).1 == site || (moduleEnds s m).2 == site then sv s (moduleSite m) 0x12 off else 0)
    else if 0x100 ≤ off && off < 0x420 then readModule s site ((off - 0x100) / 32) (off % 32 / 4)
    else if off < 0x020 then sv s site 0x12 off else 0

/-- A service bank. -/
def bankOf (s : State) (b : Nat) : Bank := nth State.resetBank s.banks b

/-- Scrubber and bank block of a site (R526). -/
def readScr (s : State) (site off : Nat) : Nat :=
  if 0x400 ≤ off then
    (if site != 15 then 0
    else
      let b := bankOf s ((off - 0x400) / 16)
      match off % 16 / 4 with
      | 0 => b.power + sv s 15 0x13 off % 8 / 4 * 4 + 2 ^ 8 * b.owner
      | 1 => b.region + sv s 15 0x13 off / 2 ^ 16 * 2 ^ 16
      | 2 => b.used + 8 * b2n b.pinned
      | _ => sv s 15 0x13 off)
  else if 0x100 ≤ off then (if off < 0x220 && scrubHere site ((off - 0x100) / 32) then
      (if off % 32 == 0x14 then min (2 ^ 32 - 1) (scrubOwed s site ((off - 0x100) / 32) / tickRate s) else sv s site 0x13 off) else 0)
  else match off with
  | 0x000 => bitsWhere 9 (scrubHere site) + sv s site 0x13 0 / 2 ^ 16 * 2 ^ 16
  | 0x010 => if site == 15 then sv s 15 0x13 0x010 else 0
  | _ => 0

/-- Version of the standby's firmware; 0 when it is failed. -/
def standbyFw (s : State) : Word := if s.ctl.activeB then (if s.ctl.aFailed then 0 else s.ctl.fwA) else if s.ctl.bFailed then 0 else s.ctl.fwB

/-- Fault block (R553). -/
def readFlt (s : State) (off : Nat) : Nat :=
  match off with
  | 0x000 => s.err.queue.length + 128 * b2n (decide (60 ≤ s.err.queue.length)) + 2 ^ 16 * s.err.overflow
  | 0x004 => s.err.seq % 2 ^ 32
  | 0x030 => s.ctl.order
  | 0x034 => (standbyFw s).toNat
  | _ => sv s 15 0x14 off

/-- Time block (R569). -/
def readTime (s : State) (off : Nat) : Nat :=
  match off with
  | 0x004 => timeQual s + fld (sv s 15 0x15 4) 9 8 * 2 ^ 8
  | 0x008 => (stamp s).toNat % 2 ^ 32
  | 0x020 => sv s 15 0x15 0x80020
  | _ => sv s 15 0x15 off

/-- Trace block (R578). -/
def readTrc (s : State) (off : Nat) : Nat :=
  match off with
  | 0x004 => s.trc.st + 8 * b2n s.trc.on + 16 * b2n s.trc.priv + 32 * b2n (bitOf (sv s 15 0x16 4) 5)
  | _ => sv s 15 0x16 off

/-- Code of a key slot's state (R593). -/
def slotCode : SlotSt → Nat
  | .empty => 0 | .installed => 1 | .locked => 2 | .revoked => 3
/-- State and key of a customer slot. -/
def slotOf? (s : State) (k : Nat) : SlotSt × Digest := match lookup s.sec.slots k with | some v => v | none => (.empty, 0)
/-- SEC_SLOTS. -/
def secSlots (s : State) : Nat := ((List.range 15).map (fun k => slotCode (slotOf? s (k + 1)).1 * 4 ^ k)).sum

/-- Security block (R593). -/
def readSec (s : State) (off : Nat) : Nat :=
  match off with
  | 0x000 => secSlots s
  | 0x004 => b2n s.sec.reqSigned + 2 * b2n s.sec.authTrace + 4 * b2n s.sec.authService + 2 ^ 8 * s.sec.floor
  | 0x008 => s.sec.sessions.length
  | _ => sv s 15 0x17 off

/-- What a register reads. -/
def regValue (s : State) (site b off : Nat) : Word :=
  BitVec.ofNat 32 (match b with
  | 0x01 => readSeq s site off
  | 0x02 => readSlu s off
  | 0x03 => if off == 0x004 then s.img.area else sv s 15 0x03 off
  | 0x04 => readHaz s off
  | 0x05 => readCap s off
  | 0x06 => readTrg s site off
  | 0x07 => readChn s site off
  | 0x08 => readCkp s off
  | 0x09 => readTrx s off
  | 0x10 => readFab s site off
  | 0x11 => readBl s site off
  | 0x12 => readIpi s site off
  | 0x13 => readScr s site off
  | 0x14 => readFlt s off
  | 0x15 => readTime s off
  | 0x16 => readTrc s off
  | 0x17 => readSec s off
  | 0x18 => readUtil s off
  | _ => 0)

/-! ### What a read does (R19) -/

/-- Bits of a register that a read clears (code RC). -/
def rcMask (site b off : Nat) : Nat :=
  let all := 2 ^ 32 - 1
  match b with
  | 0x01 => if off == 0x01C then all else 0
  | 0x02 => if 0x020 ≤ off then all else 0
  | 0x03 => if 0x008 ≤ off then all else 0
  | 0x04 => if 0x010 ≤ off then all else 0
  | 0x05 => if off == 0x03C || off == 0x040 then all else 0
  | 0x07 => if off == 0x010 || off == 0x01C || off == 0x020 then all else 0
  | 0x08 => if off == 0x034 || off == 0x038 then all else 0
  | 0x09 => if off == 0x008 || off == 0x00C || off == 0x014 then all else 0
  | 0x10 => if off == 0x008 || off == 0x00C || off == 0x810 || off == 0x814 then all else 0
  | 0x12 => if 0x00C ≤ off && off < 0x01C then all else 0
  | 0x13 =>
    if off == 0x000 then all
    else if 0x100 ≤ off && off < 0x220 then (if 8 ≤ off % 32 && off % 32 < 20 then all else 0)
    else if 0x400 ≤ off && (off % 16 == 4 || off % 16 == 12) && site == 15 then all else 0
  | 0x14 => if 0x010 ≤ off && off < 0x030 then all else 0
  | 0x15 => if off == 0x034 || off == 0x038 then all else 0
  | 0x16 => if off == 0x018 then all else 0
  | 0x17 => if 0x00C ≤ off then all else 0
  | _ => 0

/-- High halves that a read of a low half latches: (offset, value). -/
def latches (s : State) (b off : Nat) : List (Nat × Nat) :=
  let hi (v : Nat) : List (Nat × Nat) := [(off + 4, v / 2 ^ 32 % 2 ^ 32)]
  match b, off with
  | 0x01, 0x008 => hi s.seq.dcn
  | 0x01, 0x010 => hi s.seq.ticks
  | 0x02, 0x008 => hi s.slu.total
  | 0x02, 0x018 => [(0x01C, sv s 15 0x02 0x8001C)]
  | 0x04, 0x008 => hi (s.haz.first.getD 0)
  | 0x05, 0x018 => hi s.cap.armDcn
  | 0x05, 0x020 => hi (s.cap.trigDcn.getD 0)
  | 0x05, 0x028 => hi (s.cap.endDcn.getD 0)
  | 0x05, 0x030 => hi (if isLead s then s.cap.oldest else 0)
  | 0x08, 0x008 => hi ((lastCkpDcn s).getD 0)
  | 0x08, 0x02C => hi (logOldest s)
  | 0x15, 0x008 => [(0x00C, (stamp s).toNat / 2 ^ 32 % 2 ^ 32), (0x010, (stamp s).toNat / 2 ^ 64)]
  | 0x15, 0x020 => [(0x024, sv s 15 0x15 0x80024), (0x028, sv s 15 0x15 0x80028)]
  | _, _ => []

/-- High half of the churn window DCN of a die. -/
def chnLatch (s : State) (site b off : Nat) : List (Nat × Nat) :=
  if b == 0x07 && off == 0x014 then
    match chnOf s site with
    | some c => [(0x018, c.m.winDcn / 2 ^ 32 % 2 ^ 32)]
    | none => []
  else []

/-- A register read: what it returns, with what it clears and latches. -/
def readReg (s : State) (site b off : Nat) : State × Word :=
  let v := regValue s site b off
  let k := rkey site b off
  let s1 := if rcMask site b off == 0 then s else setReg s k 0
  ((latches s b off ++ chnLatch s site b off).foldl (fun a e => setReg a (rkey site b e.1) (BitVec.ofNat 32 e.2)) s1, v)

/-- Reads of n consecutive registers in ascending order (R369). -/
def readRegs : Nat → State → Nat → Nat → Nat → State × List Word
  | 0, s, _, _, _ => (s, [])
  | n + 1, s, site, b, off =>
    let r := readReg s site b off
    let rest := readRegs n r.1 site b (off + 4)
    (rest.1, r.2 :: rest.2)

end Sys2Proof.Machine
end

