-- ==== Sys2Proof/Machine/HostWrite.lean ====
section
/-! DEFINITION. Machine/HostWrite.lean: host reads and writes of design state, and the bulk window (R93 to R96, R184 to R186, R300,
R374). -/
namespace Sys2Proof.Machine

/-- 16-bit values packed two in a word, lower half first. -/
def packHalves : List Half → List Word
  | a :: b :: r => BitVec.ofNat 32 (a.toNat + 65536 * b.toNat) :: packHalves r
  | [a] => [BitVec.ofNat 32 a.toNat]
  | [] => []

/-- The first n values of packed words. -/
def unpackHalves (ws : List Word) (n : Nat) : List Half :=
  (List.range n).map (fun j => BitVec.ofNat 16 ((nth 0 ws (j / 2)).toNat >>> (16 * (j % 2))))

/-- A host write of values in a space (0 rows, 1 tile units, 2 region words): applied, and logged as an item of KIND 0x05. While a recovery
steps in LOADED or HALTED the write joins the log alone, and takes effect as the recovery ends (R93, DESIGN CHOICE of log 60). -/
def hostWrite (s : State) (space : Nat) (loc : Word) (at0 : Nat) (vs : List Half) : State :=
  let it : LogItem := {
    kind := 5, index := 0, payload := packW [(0, 2, space), (16, 16, vs.length)] :: loc :: lo32 at0 :: packHalves vs }
  logHostWrite (if recoverySteps s then s else applyHostItem s it) it (2 * vs.length)

/-- A long host write of region words, in items of 2,048 words, one granule of data each. -/
def hostWriteRegion : Nat → State → Nat → Nat → List Half → State
  | 0, s, _, _, _ => s
  | n + 1, s, r, at0, vs =>
    if vs.isEmpty then s else hostWriteRegion n (hostWrite s 2 (lo32 r) at0 (vs.take 2048)) r (at0 + 2048) (vs.drop 2048)

/-- Declaration of a region of the resident image. -/
def regionDecl (s : State) (r : Nat) : Option RegionDecl :=
  match s.img.resident with
  | some i => i.regions.find? (fun d => d.index == r)
  | none => none

/-- Words of a region from an offset on, as they stand. -/
def regionWords (s : State) (r at0 n : Nat) : List Half := (List.range n).map (fun j => rd s.ds.regions (2 ^ 32 * r + at0 + j))

/-- A read of region words meets a DDR5 word that holds poison (R513, R514). -/
def regionPoisoned (s : State) (r at0 n : Nat) : Bool :=
  s.ds.poison.any (fun k => decide (2 ^ 32 * r + at0 < 4 * k + 4) && decide (4 * k < 2 ^ 32 * r + at0 + n))

/-- Word address of the first DDR5 word with poison that a read of region words meets; of the read's first word where it finds none. -/
def poisonAddr (s : State) (r at0 n : Nat) : Nat :=
  match s.ds.poison.find? (fun k => decide (2 ^ 32 * r + at0 < 4 * k + 4) && decide (4 * k < 2 ^ 32 * r + at0 + n)) with
  | some k => ddrWordAddr s (4 * k)
  | none => ddrWordAddr s (2 ^ 32 * r + at0)

/-! ### The bulk window (R354, R374) -/

/-- BULK_SEL: target a design region, region, window. -/
def bulkSel (s : State) : Nat := (reg s (bkey 0x1080)).toNat
/-- Bytes of the selected target: the staging area, or the words of a region. -/
def bulkBytes (s : State) : Nat :=
  if bitOf (bulkSel s) 0 then (match regionDecl s (fld (bulkSel s) 15 8) with | some d => 2 * d.words | none => 0)
  else s.img.stageBytes.getD 0
/-- BULK_LIMIT. -/
def bulkLimit (s : State) : Nat := min (2 ^ 28) (bulkBytes s - 2 ^ 28 * fld (bulkSel s) 21 16)

/-- A design region is selected and cannot be reached now (R184, R186). -/
def bulkBarred (s : State) : Bool := bitOf (bulkSel s) 0 && (modeSteps s || s.img.resetting)

/-- Address of a byte of the selected window within its target, and the region word there. -/
def bulkAt (s : State) (off : Nat) : Nat := 2 ^ 28 * fld (bulkSel s) 21 16 + off / 4 * 4
def bulkKey (s : State) (off : Nat) : Nat := 2 ^ 32 * fld (bulkSel s) 15 8 + bulkAt s off / 2

/-- The DDR5 word behind a read comes (R511, R513): what that does to the state, and whether the word is delivered. Of a staging word the address is
a free value. -/
def bulkMet (s : State) (off : Nat) (w : DdrWordFound) : State × Bool :=
  if bitOf (bulkSel s) 0 then
    let a := ddrWordAddr s (bulkKey s off)
    if s.ds.poison.contains (bulkKey s off / 4) then (ddrPoisonRead s a 0 0, false)
    else ddrWordRead s (fun s => poisonWord s (bulkKey s off)) a w
  else ddrWordRead (tickFree s) id (Config.freeNat s.freeCtr) w

/-- The 32 bits that a window read finds. -/
def bulkValue (s : State) (off : Nat) : Word :=
  if bitOf (bulkSel s) 0 then
    BitVec.ofNat 32 ((rd s.ds.regions (bulkKey s off)).toNat + 65536 * (rd s.ds.regions (bulkKey s off + 1)).toNat)
  else rd s.img.staged (bulkAt s off / 4)

/-- BULK_WINDOW_READ of a 32-bit word: none is Completer Abort. Beyond the limit, of a barred region and in SAFE HOLD nothing is read. -/
def bulkRead (s : State) (off : Nat) (w : DdrWordFound) : State :=
  if !pcieOpen s then s
  else if inSafeHold s || bulkLimit s < off + 4 || bulkBarred s then { s with io := { s.io with bar2 := none } }
  else
    let r := bulkMet s off w
    { r.1 with io := { r.1.io with bar2 := if r.2 then some (bulkValue s off) else none } }

/-- BULK_WINDOW_WRITE of a 32-bit word; a discarded write counts in MEM_BULK_REFUSED. -/
def bulkWrite (s : State) (off : Nat) (w : Word) : State :=
  let a := 2 ^ 28 * fld (bulkSel s) 21 16 + off / 4 * 4
  let r := fld (bulkSel s) 15 8
  if !hostOpen s then s
  else if bulkLimit s < off + 4 || bulkBarred s then bumpIo s 0x03 0x020 16 1
  else if bitOf (bulkSel s) 0 then hostWrite s 2 (lo32 r) (a / 2) (unpackHalves [w] 2)
  else { s with img := { s.img with staged := wr s.img.staged (a / 4) w } }

/-- BULK_WINDOW_READ (R374). -/
def execBulkWindowRead (off : Nat) (w : DdrWordFound) (s : State) : Host.Outcome State Fault Refusal := .next (bulkRead s off w)
/-- BULK_WINDOW_WRITE (R374). -/
def execBulkWindowWrite (off : Nat) (w : Word) (s : State) : Host.Outcome State Fault Refusal := .next (bulkWrite s off w)

end Sys2Proof.Machine
end

