-- ==== Sys2Proof/Machine/RegWrite.lean ====
section
/-! DEFINITION. Machine/RegWrite.lean: register writes by block (R19 to R21, R260, R261, R265, R267, R284, R287, R317, R405, R415, R509,
R520, R526, R553, R566, R569, R570, R578, R605, R607, R608) and the BAR0 registers (R349 to R356). -/
namespace Sys2Proof.Machine

/-! ### Access codes -/

/-- A field (low bit, width) of an old value takes the written bits when they satisfy a test, else keeps (log 15). -/
def fieldIf (old new lo w : Nat) (ok : Nat → Bool) : Nat :=
  let v := fld new (lo + w - 1) lo
  (if ok v then v else fld old (lo + w - 1) lo) * 2 ^ lo

/-- A field that takes every value. -/
def fieldAny (new lo w : Nat) : Nat := fld new (lo + w - 1) lo * 2 ^ lo

/-- Clear the W1C bits that a write names; the rest of the stored part stays. -/
def w1c (s : State) (site b off mask : Nat) (w : Word) : State :=
  setReg s (rkey site b off) (reg s (rkey site b off) &&& ~~~(w &&& BitVec.ofNat 32 mask))

/-- Store a register's RW part. -/
def putReg (s : State) (site b off v : Nat) : State := setReg s (rkey site b off) (BitVec.ofNat 32 v)

/-! ### Blocks -/

/-- CAP_ registers, 0x000 to 0x010 (R260). -/
def writeCapReg (s : State) (off : Nat) (w : Word) : State :=
  let old := sv s 15 0x05 off
  let v := w.toNat
  match off with
  | 0x000 => putReg s 15 5 0 (fieldAny v 0 1 + fieldIf old v 1 5 (· ≤ 24) + fieldIf old v 6 5 (fun r => r == 0 || 10 ≤ r) + fieldAny v 11 3)
  | 0x004 => putReg s 15 5 4 (fieldIf old v 0 9 (fun g => 4 ≤ g && g ≤ 256))
  | 0x008 => putReg s 15 5 8 (fieldIf old v 0 32 (8 ≤ ·))
  | 0x00C | 0x010 => putReg s 15 5 off v
  | _ => s

/-- TRG_ registers of a die (R261). -/
def writeTrg (s : State) (d off : Nat) (w : Word) : State :=
  let m :=
    if off < 0x100 then (if off % 16 == 0 then 2 ^ 27 - 1 else if off % 16 < 12 then 2 ^ 32 - 1 else 0)
    else if off < 0x180 then (if off % 16 < 8 then 2 ^ 28 - 1 else if off % 16 == 8 then 2 ^ 24 - 1 else 0)
    else 0
  if m == 0 then s else putReg s d 6 off (w.toNat % (m + 1))

/-- The engine of a die; a die without a churn section has an empty program (R286). -/
def engineOf (s : State) (d : Nat) : ChurnDie := (chnOf s d).getD (newEngine [] [] 0)

/-- EN as CHN_CTRL reads it. -/
def chnEn (c : ChurnDie) : Bool := match c.pend with | some (e, _) => e | none => c.m.en
/-- WIN_EXP as CHN_CTRL reads it. -/
def chnWexp (c : ChurnDie) : Nat := match c.pend with | some (_, w) => w | none => c.m.wexp

/-- A write of CHN_CTRL (R265, R267, R284): while EN is set only EN ← 0 counts; an enable needs A of 4,096. Effective at the end of B15,
or at once when not stepping. -/
def writeChnCtrl (s : State) (d : Nat) (w : Word) : State :=
  let c := engineOf s d
  let e := bitOf w.toNat 0
  let wexp := if wfld w 5 1 ≤ 24 then wfld w 5 1 else chnWexp c
  if chnEn c then
    if e then s
    else if stepping s then setChn s d { c with pend := some (false, chnWexp c) }
    else setChn s d (disableEngine c c.m.wexp)
  else if !e then
    match c.pend with
    | some _ => setChn s d { c with pend := some (false, wexp) }
    | none => setChn s d { c with m := { c.m with wexp := wexp } }
  else if availCycles s wexp < 4096 then
    let c := match c.pend with
      | some _ => { c with pend := some (false, wexp) }
      | none => { c with m := { c.m with wexp := wexp } }
    orChnStatus (setChn s d c) d 32
  else if stepping s then setChn s d { c with pend := some (true, wexp) }
  else setChn s d (enableEngine c wexp s.seq.dcn)

/-- CKP_ registers: RW in STANDBY and LOADED only; a value out of its range leaves its field (R317). -/
def writeCkp (s : State) (off : Nat) (w : Word) : State :=
  let old := sv s 15 0x08 off
  let v := w.toNat
  if off == 0x004 then w1c s 15 8 4 0x30 w
  else if s.md.mode != .standby && s.md.mode != .loaded then s
  else match off with
  | 0x000 => putReg s 15 8 0 (fieldIf old v 0 6 (fun e => e == 0 || (10 ≤ e && e ≤ 40)) + fieldAny v 6 1)
  | 0x014 => putReg s 15 8 0x014 (fieldIf old v 0 7 (fun g => 1 ≤ g && g ≤ 64))
  | 0x01C => putReg s 15 8 0x01C (fieldIf old v 0 20 (256 ≤ ·))
  | 0x020 => if v % 2 ^ 12 == 0 then putReg s 15 8 0x020 v else s
  | 0x024 => putReg s 15 8 0x024 v
  | _ => s

/-- FAB_IOCFGp: MODE and DDR only without a resident image; delays, pull and CLKSEL always (R393, R396, R405). -/
def writeIocfg (s : State) (p : Nat) (w : Word) : State :=
  if 192 ≤ p then s
  else
    let off := 0x100 + 4 * p
    let old := sv s 15 0x10 off
    let v := w.toNat
    let m := if s.img.resident.isSome then fieldAny old 0 3 else fieldAny v 0 3
    holdPad (putReg s 15 0x10 off (m + fieldAny v 3 7 + fieldAny v 10 7 + fieldAny v 17 2 + fieldAny v 19 4)) p

/-- Scrubbers and banks (R520, R526). -/
def writeScr (s : State) (site off : Nat) (w : Word) : State :=
  let v := w.toNat
  if 0x400 ≤ off then (if site == 15 && off % 16 == 0 then putReg s 15 0x13 off (fieldAny v 2 1) else s)
  else if 0x100 ≤ off then
    (let c := (off - 0x100) / 32
     if off % 32 == 0 && off < 0x220 && scrubHere site c then
       putReg { s with err := { s.err with scrub := put s.err.scrub (16 * site + c) (s.seq.ticks, scrubOwed s site c) } } site 0x13 off
         (max (scrubRate c).2.1 (min (scrubRate c).2.2 v))
     else s)
  else if off == 0x010 && site == 15 then putReg s 15 0x13 off (fieldIf (sv s 15 0x13 off) v 0 16 (16 ≤ ·))
  else s

/-- PPS_CFG and PPS_OFFS (R569). -/
def offsOk (v : Nat) : Bool := decide (-500000000 ≤ sgn 32 v) && decide (sgn 32 v ≤ 499999999)
def writeTime (s : State) (off : Nat) (w : Word) : State :=
  let v := w.toNat
  match off with
  | 0x000 => writeTimeCtrl s w
  | 0x004 => w1c s 15 0x15 4 0x300 w
  | 0x02C => putReg s 15 0x15 off (fieldAny v 0 1 + fieldIf (sv s 15 0x15 off) v 8 8 (1 ≤ ·))
  | 0x030 => if offsOk v then putReg s 15 0x15 off v else s
  | _ => s

/-- Setting TRC_CTRL.EN enters state 0 with ON 0 and empty buffers; clearing it stops recording (R571, R575). -/
def enableTrc (s : State) : State :=
  { s with trc := { s.trc with
    st := 0, on := false, stored := 0, errIn := false, modeIn := false, hostIn := false, seqs := [], since := [], lost := [] } }

/-- TRC_CTRL: while EN is set only EN is written (R578). -/
def writeTrcCtrl (s : State) (w : Word) : State :=
  let old := trcCtrl s
  let e := bitOf w.toNat 0
  if bitOf old 0 then (if e then s else { setIo s 0x16 0 (old - 1) with trc := { s.trc with on := false } })
  else
    let dest := wfld w 15 14
    let v := fieldAny w.toNat 0 14 + (if dest == 3 then fieldAny old 14 2 else dest * 2 ^ 14) + fieldAny w.toNat 16 4
    let s := setIo s 0x16 0 v
    if e then enableTrc s else s

/-- Trace registers (R578). -/
def writeTrc (s : State) (off : Nat) (w : Word) : State :=
  let v := w.toNat
  let old := sv s 15 0x16 off
  if off == 0x000 then writeTrcCtrl s w
  else if off == 0x004 then w1c s 15 0x16 4 0x20 w
  else if bitOf (trcCtrl s) 0 then s
  else if off == 0x008 then (if v % 2 ^ 12 == 0 then putReg s 15 0x16 off v else s)
  else if off == 0x00C then putReg s 15 0x16 off v
  else if off == 0x010 then putReg s 15 0x16 off (fieldIf old v 0 19 (fun u => 1 ≤ u && u ≤ 262144))
  else if off == 0x01C then putReg s 15 0x16 off (v % 2 ^ 24)
  else if 0x020 ≤ off && off < 0x060 then
    (match off % 16 with
     | 0 => putReg s 15 0x16 off (fieldIf old v 0 2 (· != 3) + fieldAny v 2 5)
     | 4 | 8 => putReg s 15 0x16 off v
     | _ => s)
  else if 0x060 ≤ off then putReg s 15 0x16 off (v % 2 ^ 15)
  else s

/-- Utility block (R605, R607, R608). -/
def writeUtil (s : State) (off : Nat) (w : Word) : State :=
  if 0x400 ≤ off then writeMap s ((off - 0x400) / 4) w
  else if 0x010 ≤ off && off < 0x01C then writeUtilIo s ((off - 0x010) / 4) w
  else if 0x060 ≤ off && off < 0x070 then putReg s 15 0x18 off (w.toNat % 2 ^ 24)
  else if 0x100 ≤ off && off < 0x1C0 then putReg s 15 0x18 off (w.toNat % 2 ^ 3)
  else s

/-- A write of one register of a block: RW, W1C and WO fields only. -/
def writeReg (s : State) (site b off : Nat) (w : Word) : State :=
  match b with
  | 0x01 => if 0x040 ≤ off then w1c s site 1 off (2 ^ 21) w else s
  | 0x02 => if off == 0x000 then w1c s 15 2 0 64 w else if off == 0x010 then putReg s 15 2 off w.toNat else s
  | 0x04 => if off == 0x000 then putReg s 15 4 0 (w.toNat % 32) else if off == 0x004 then w1c s 15 4 4 8 w else s
  | 0x05 => writeCapReg s off w
  | 0x06 => writeTrg s site off w
  | 0x07 => if off == 0x000 then writeChnCtrl s site w else if off == 0x004 then w1c s site 7 4 0x7C w else s
  | 0x08 => writeCkp s off w
  | 0x09 => if off == 0x010 then putReg s 15 9 off (w.toNat % 2 ^ 12) else s
  | 0x10 =>
    if site != 15 then s
    else if off == 0x040 then writeDeadline s w
    else if 0x100 ≤ off && off < 0x400 then writeIocfg s ((off - 0x100) / 4) w
    else s
  | 0x11 =>
    if off == 0x100 then putReg s site 0x11 off (fieldAny w.toNat 0 1 + fieldIf (sv s site 0x11 off) w.toNat 8 8 (1 ≤ ·) + fieldAny w.toNat 16 1)
    else if off == 0x104 then putReg s site 0x11 off (w.toNat % 32)
    else s
  | 0x13 => writeScr s site off w
  | 0x14 => if off == 0x00C then putReg s 15 0x14 off (w.toNat % 2) else s
  | 0x15 => writeTime s off w
  | 0x16 => writeTrc s off w
  | 0x18 => writeUtil s off w
  | _ => s

/-- Writes of consecutive registers in ascending order (R369). -/
def writeRegs (s : State) (site b off : Nat) : List Word → State
  | [] => s
  | w :: ws => writeRegs (writeReg s site b off w) site b (off + 4) ws

/-- CAP_ and TRG_ registers cannot be written now (R259). -/
def capBarred (s : State) (b : Nat) : Bool := (b == 0x05 || b == 0x06) && s.cap.mode != .idle && s.cap.mode != .frozen

/-! ### BAR0 (R349 to R356) -/

/-- HSB_MODE. -/
def hsbMode (s : State) : Word :=
  packW [(0, 3, modeNum s.md.mode), (3, 2, subField s), (5, 1, b2n (s.md.mode == .run && s.md.debug)), (6, 1, b2n (frozen s)),
    (7, 1, b2n (inSafeHold s)), (8, 1, b2n s.ckp.recovery.isSome), (9, 1, b2n s.img.loading.isSome), (10, 1, b2n (isLead s)),
    (11, 4, posOf s), (15, 1, b2n s.boot.cfgErr)]

/-- HSB_FAULT. -/
def hsbFault (s : State) : Word :=
  packW [(0, 5, bitsWhere 5 (fun k => if k == 3 then runsDegraded s else s.err.seen.contains (k + 1))), (5, 1, b2n (bitOf (ioReg s 0x14 0x008) 0)), (16, 16, s.err.cause)]

/-- HSB_CTRL. -/
def hsbCtrl (s : State) : Word := packW [(0, 1, b2n s.ctl.activeB), (1, 1, b2n s.ctl.aFailed), (2, 1, b2n s.ctl.bFailed)]

/-- What a BAR0 register reads (R352, R354). -/
def bar0Value (s : State) (off : Nat) : Word :=
  match off with
  | 0x000 => 1
  | 0x004 => hsbMode s
  | 0x008 => hsbFault s
  | 0x00C => s.err.unit
  | 0x010 => dcnLo s
  | 0x018 => s.ctl.beatA
  | 0x01C => s.ctl.beatB
  | 0x020 => hsbCtrl s
  | 0x024 => packW [(0, 7, s.err.queue.length), (16, 16, s.err.overflow)]
  | 0x028 => s.ctl.fw
  | 0x02C => s.io.version.getD 0
  | 0x1084 => lo32 (bulkLimit s)
  | 0x9000 => BitVec.ofNat 32 (bitsWhere 32 (fun v => s.io.pba.contains v))
  | 0x9004 => BitVec.ofNat 32 (bitsWhere 32 (fun v => s.io.pba.contains (32 + v)))
  | _ => reg s (bkey off)

/-- A BAR0 access of a size in bytes: one naturally aligned dword (R349). -/
def oneDword (off size : Nat) : Bool := size == 4 && off % 4 == 0

/-- What a BAR0 read of a size completes with: none is Completer Abort (R349). -/
def bar0Read (s : State) (off size : Nat) : Option Word := if oneDword off size then some (bar0Value s off) else none

/-- HSB_DCN_LO_READ, a read of one dword, latches DCN [63:32]. -/
def readDcnLo (s : State) : State :=
  if pcieOpen s then setReg { s with io := { s.io with bar0 := bar0Read s 0x010 4 } } (bkey 0x014) (hi32 s.seq.dcn) else s

/-- The checks of an enable (R355): alignment and ring sizes. -/
def ringsOk (s : State) : Bool :=
  let v (o : Nat) : Nat := (reg s (bkey o)).toNat
  v 0x1004 % 64 == 0 && [0x1010, 0x1030, 0x1050].all (fun o => v o % 4096 == 0)
    && [0x1018, 0x1038].all (fun o => 4 ≤ v o && v o ≤ 12) && 6 ≤ v 0x1058 && v 0x1058 ≤ 16

/-- Every index 0. -/
def clearIndices (s : State) : State := [0x101C, 0x1020, 0x103C, 0x1040, 0x105C, 0x1060].foldl (fun a o => setReg a (bkey o) 0) s

/-- A write that the endpoint takes while it answers and the device is not in SAFE HOLD (R364, R413). -/
def hostWrites (s : State) (f : State → State) : State := if hostOpen s then f s else s

/-- A write of RING_CTRL: ERR is W1C; EN set is checked and resets every index; EN cleared ends the agreement of R367, once the command in
progress has replied (R355). A write of 1 before that takes the clearing back (DESIGN CHOICE, log 68). -/
def writeRingCtrl (s : State) (w : Word) : State :=
  let old := (reg s (bkey 0x1000)).toNat
  let err := bitOf old 1 && !bitOf w.toNat 1
  let put (s : State) (en err : Bool) : State := setReg s (bkey 0x1000) (BitVec.ofNat 32 (b2n en + 2 * b2n err))
  if bitOf w.toNat 0 then
    if bitOf old 0 then put { s with io := { s.io with stopping := false } } true err
    else if ringsOk s then clearIndices (put s true err)
    else put s false true
  else
    if bitOf old 0 then finishDisable { put s true err with io := { s.io with stopping := true } } else put s false err

/-- The doorbell of a channel: the inbound producer index of its ring, bounded by ENTRIES at the ring (R325). -/
def trxDoorbell (s : State) (c : Nat) (prod : Word) : State :=
  match chanOf s c with
  | some ch => setChan s c { ch with ring := { ch.ring with prod := prod.toNat } }
  | none => s

/-- An MSI-X table word; unmasking a vector whose pending bit is set sends it. -/
def writeMsix (s : State) (off : Nat) (w : Word) : State :=
  let v := (off - 0x8000) / 16
  let s1 := setReg s (bkey off) (match off % 16 with | 0 => w &&& 0xFFFFFFFC | 12 => w &&& 1 | _ => w)
  if off % 16 == 12 && !bitOf w.toNat 0 && s.io.pba.contains v then
    signal { s1 with io := { s1.io with pba := s1.io.pba.filter (· != v) } } v
  else s1

/-- A write of a BAR0 dword. Registers that EN locks ignore it; reserved and read-only locations ignore it. -/
def writeBar0 (s : State) (off : Nat) (w : Word) : State := hostWrites s fun s =>
  let set (m : Nat) : State := setReg s (bkey off) (w &&& BitVec.ofNat 32 m)
  if off == 0x1000 then writeRingCtrl s w
  else if [0x1004, 0x1008, 0x1010, 0x1014, 0x1030, 0x1034, 0x1050, 0x1054].contains off then (if ringsOn s then s else set (2 ^ 32 - 1))
  else if off == 0x1018 || off == 0x1038 then (if ringsOn s then s else set 15)
  else if off == 0x1058 then (if ringsOn s then s else set 31)
  else if off == 0x100C then set 0x3F3F
  else if off == 0x101C || off == 0x1040 || off == 0x1060 then set (2 ^ 32 - 1)
  else if off == 0x1080 then set 0x3FFF01
  else if 0x4000 ≤ off && off < 0x5000 then trxDoorbell s ((off - 0x4000) / 4) w
  else if 0x8000 ≤ off && off < 0x8400 then writeMsix s off w
  else s

/-- A write of a block register of a site: nothing in SAFE HOLD (R364, R544); toward an isolated site the gateway absorbs and counts it (R466). -/
def siteWrite (s : State) (d : Nat) (f : State → State) : State :=
  if inSafeHold s then s else if s.net.spill.contains d then countNoc s 0x010 else f s

/-- REGISTER_WRITE: BAR0, or a register block; a register address that names no register is ignored, and so is a CAP_ or TRG_ write that
R259 bars. -/
def registerWrite (s : State) (a : RegAddr) (w : Word) : State :=
  match a with
  | .bar0 off size => if oneDword off size then writeBar0 s off w else s
  | .block addr =>
    if regCheck s addr 1 != 0 || capBarred s (wfld addr 27 20) then s
    else siteWrite s (wfld addr 31 28) fun s => writeReg s (wfld addr 31 28) (wfld addr 27 20) (wfld addr 19 0) w

/-- COMMAND_DOORBELL: a write of CMDR_PROD. -/
def execCommandDoorbell (prod : Word) (s : State) : Host.Outcome State Fault Refusal := .next (writeBar0 s 0x101C prod)
/-- REPLY_RING_CONSUME: a write of RPLR_CONS. -/
def execReplyRingConsume (cons : Word) (s : State) : Host.Outcome State Fault Refusal := .next (writeBar0 s 0x1040 cons)
/-- EVENT_RING_CONSUME: a write of EVTR_CONS. -/
def execEventRingConsume (cons : Word) (s : State) : Host.Outcome State Fault Refusal := .next (writeBar0 s 0x1060 cons)
/-- RING_ENABLE: a write of RING_CTRL with EN set. -/
def execRingEnable (w : Word) (s : State) : Host.Outcome State Fault Refusal := .next (writeBar0 s 0x1000 (w ||| 1))
/-- RING_DISABLE: a write of RING_CTRL with EN clear. -/
def execRingDisable (w : Word) (s : State) : Host.Outcome State Fault Refusal := .next (writeBar0 s 0x1000 (w &&& ~~~1))
/-- HSB_DCN_LO_READ (R352). -/
def execHsbDcnLoRead (s : State) : Host.Outcome State Fault Refusal := .next (readDcnLo s)
/-- BULK_SEL_WRITE (R354). -/
def execBulkSelWrite (w : Word) (s : State) : Host.Outcome State Fault Refusal := .next (writeBar0 s 0x1080 w)
/-- TRX_DOORBELL (R325). -/
def execTrxDoorbell (ch : Nat) (prod : Word) (s : State) : Host.Outcome State Fault Refusal := .next (hostWrites s fun s => trxDoorbell s ch prod)
/-- CHN_ENABLE: a write of CHN_CTRL with EN set (R265). -/
def execChnEnable (die : Nat) (w : Word) (s : State) : Host.Outcome State Fault Refusal :=
  .next (if die < nDies s then siteWrite s die fun s => writeChnCtrl s die (w ||| 1) else s)
/-- CHN_DISABLE: a write of CHN_CTRL with EN clear (R284). -/
def execChnDisable (die : Nat) (w : Word) (s : State) : Host.Outcome State Fault Refusal :=
  .next (if die < nDies s then siteWrite s die fun s => writeChnCtrl s die (w &&& ~~~1) else s)
/-- UTIL_MAP_WRITE (R608): a write at an offset of the utility block. -/
def execUtilMapWrite (off : Nat) (w : Word) (s : State) : Host.Outcome State Fault Refusal :=
  .next (if 0x400 ≤ off && off < 0x800 && off % 4 == 0 then siteWrite s 15 fun s => writeUtil s off w else s)
/-- UTIL_IO_WRITE (R605): a write at an offset of the utility block. -/
def execUtilIoWrite (off : Nat) (w : Word) (s : State) : Host.Outcome State Fault Refusal :=
  .next (if 0x010 ≤ off && off < 0x01C && off % 4 == 0 then siteWrite s 15 fun s => writeUtil s off w else s)
/-- FAB_IOCFG_WRITE (R396). -/
def execFabIocfgWrite (pin : Nat) (w : Word) (s : State) : Host.Outcome State Fault Refusal := .next (siteWrite s 15 fun s => writeIocfg s pin w)
/-- TRC_ENABLE: a write of TRC_CTRL with EN set (R575). -/
def execTrcEnable (w : Word) (s : State) : Host.Outcome State Fault Refusal := .next (siteWrite s 15 fun s => writeTrcCtrl s (w ||| 1))
/-- TIME_PREFER_WRITE: a write of TIME_CTRL (R566). -/
def execTimePreferWrite (w : Word) (s : State) : Host.Outcome State Fault Refusal := .next (siteWrite s 15 fun s => writeTimeCtrl s w)
/-- REGISTER_WRITE (R19). -/
def execRegisterWrite (a : RegAddr) (w : Word) (s : State) : Host.Outcome State Fault Refusal := .next (registerWrite s a w)

end Sys2Proof.Machine
end

