-- ==== Sys2Proof/Machine/Sm4.lean ====
section
/-! DEFINITION. Machine/Sm4.lean: the SM4 block cipher in counter mode and the section key of an encrypted image (R580, R587, R588). The spec
names the algorithms by their standards, GB/T 32907 and GB/T 32918.4; their steps are PRESUMED from those standards (log 7). -/
namespace Sys2Proof.Machine

/-- Rows of the substitution table, 16 bytes each, the first byte most significant. -/
def sm4Rows : List Nat :=
  [0xd690e9fecce13db716b614c228fb2c05,
   0x2b679a762abe04c3aa44132649860699,
   0x9c4250f491ef987a33540b43edcfac62,
   0xe4b31ca9c908e89580df94fa758f3fa6,
   0x4707a7fcf37317ba83593c19e6854fa8,
   0x686b81b27164da8bf8eb0f4b70569d35,
   0x1e240e5e6358d1a225227c3b01217887,
   0xd40046579fd327524c3602e7a0c4c89e,
   0xeabf8ad240c738b5a3f7f2cef96115a1,
   0xe0ae5da49b341a55ad933230f58cb1e3,
   0x1df6e22e8266ca60c02923ab0d534e6f,
   0xd5db3745defd8e2f03ff6a726d6c5b51,
   0x8d1baf92bbddbc7f11d95c411f105ad8,
   0x0ac13188a5cd7bbd2d74d012b8e5b4b0,
   0x8969974a0c96777e65b9f109c56ec684,
   0x18f07dec3adc4d2079ee5f3ed7cb3948]

/-- Substitution of a byte. -/
def sm4Sub (b : Byte) : Byte := BitVec.ofNat 8 (nth 0 sm4Rows (b.toNat / 16) >>> (8 * (15 - b.toNat % 16)))
/-- Substitution of the four bytes of a word. -/
def sm4Tau (w : Word) : Word :=
  sm4Sub (w.extractLsb' 24 8) ++ sm4Sub (w.extractLsb' 16 8) ++ sm4Sub (w.extractLsb' 8 8) ++ sm4Sub (w.extractLsb' 0 8)

/-- The mixing of a round, and that of the key schedule. -/
def sm4Mix (w : Word) : Word := let b := sm4Tau w; b ^^^ b.rotateLeft 2 ^^^ b.rotateLeft 10 ^^^ b.rotateLeft 18 ^^^ b.rotateLeft 24
def sm4KeyMix (w : Word) : Word := let b := sm4Tau w; b ^^^ b.rotateLeft 13 ^^^ b.rotateLeft 23

/-- Constant CK of round i. -/
def sm4Ck (i : Nat) : Word := BitVec.ofNat 32 (((List.range 4).map (fun j => (4 * i + j) * 7 % 256 * 2 ^ (8 * (3 - j)))).sum)

/-- Four words on which a round works. -/
structure Sm4Reg where
  a : Word
  b : Word
  c : Word
  d : Word

/-- n rounds of the key schedule from round i on: the round keys. -/
def sm4Schedule : Nat → Nat → Sm4Reg → List Word
  | 0, _, _ => []
  | n + 1, i, v =>
    let k := v.a ^^^ sm4KeyMix (v.b ^^^ v.c ^^^ v.d ^^^ sm4Ck i)
    k :: sm4Schedule n (i + 1) { a := v.b, b := v.c, c := v.d, d := k }

/-- The round keys of a key. -/
def sm4Keys (key : BitVec 128) : List Word :=
  sm4Schedule 32 0 { a := key.extractLsb' 96 32 ^^^ 0xA3B1BAC6, b := key.extractLsb' 64 32 ^^^ 0x56AA3350, c := key.extractLsb' 32 32 ^^^ 0x677D9197, d := key.extractLsb' 0 32 ^^^ 0xB27022DC }

/-- A block under the round keys. -/
def sm4Block (ks : List Word) (x : BitVec 128) : BitVec 128 :=
  let r := ks.foldl (fun (v : Sm4Reg) k => { a := v.b, b := v.c, c := v.d, d := v.a ^^^ sm4Mix (v.b ^^^ v.c ^^^ v.d ^^^ k) })
    { a := x.extractLsb' 96 32, b := x.extractLsb' 64 32, c := x.extractLsb' 32 32, d := x.extractLsb' 0 32 }
  r.d ++ r.c ++ r.b ++ r.a

/-- Counter block of block b of the section at table index i: NONCE, i, b, most significant byte first (R588). -/
def counterBlock (nonce : DWord) (i b : Nat) : BitVec 128 := nonce ++ BitVec.ofNat 32 i ++ BitVec.ofNat 32 b

/-- The bytes of a section combined with the key stream from block b on; the last block is truncated (R588). -/
def sm4Ctr (ks : List Word) (nonce : DWord) (i : Nat) : Nat → Nat → List Byte → List Byte
  | 0, _, _ => []
  | n + 1, b, bs =>
    List.zipWith (· ^^^ ·) (bs.take 16) (leBytes 16 (sm4Block ks (counterBlock nonce i b)).toNat).reverse ++ sm4Ctr ks nonce i n (b + 1) (bs.drop 16)

/-- The first 32 bytes of the key derivation function over a byte string. -/
def kdf (z : List Byte) : Digest := sm3 (z ++ [0, 0, 0, 1])

/-- A point or a public key as bytes, and from the words of a command (R580). -/
def pointBytes (p : BitVec 512) : List Byte := (leBytes 64 p.toNat).reverse
def wordsPoint (ws : List Word) : BitVec 512 := BitVec.ofNat 512 (ofLe (wordBytes (ws.take 16)).reverse)

/-- The section key: the first 16 bytes of the key derivation over Z.x, Z.y, SET_ID in its stored bytes and NONCE, where Z is the identity
private key times the image's ephemeral public key (R587). -/
def sectionKey (ephemeral : BitVec 512) (setId nonce : DWord) : BitVec 128 :=
  (kdf (pointBytes (Config.keyAgreement ephemeral) ++ leBytes 8 setId.toNat ++ (leBytes 8 nonce.toNat).reverse)).extractLsb' 128 128

/-- A section is stored as ciphertext: every one but the two signatures (R587). -/
def sealedType (typ : Nat) : Bool := typ != 0x01 && typ != 0x60

/-- The staged copy of an image with ENC set after its decryption in place: its section bytes, and BODY_DIGEST over them (R586 to R589). -/
def decryptImage (i : Image) : Image :=
  match i.customer with
  | some c =>
    if i.hdr.flags.toNat.testBit 2 then
      let ks := sm4Keys (sectionKey c.ephemeral i.hdr.setId c.nonce)
      let plain := ((List.range i.stored.length).zip i.stored).map (fun e =>
        match i.table[e.1]? with
        | some t => if sealedType t.typ then sm4Ctr ks c.nonce e.1 (cdiv e.2.length 16) 0 e.2 else e.2
        | none => e.2)
      { i with stored := plain, measured := sm3 plain.flatten }
    else i
  | none => i

end Sys2Proof.Machine
end

