-- ==== Sys2Proof/Machine/LoadCheck.lean ====
section
/-! DEFINITION. Machine/LoadCheck.lean: the checks of the image loader in the order of R209, each as the list of its failing items
(R59, R61, R69, R72, R74, R77, R79, R97, R106, R108 to R111, R118, R122, R170, R176, R188 to R202, R215, R216, R225, R235, R255, R261,
R267, R271, R281, R285, R286, R319, R322, R387, R398 to R400, R494, R586, R589, R634). FIELD is a bit offset within an instruction
word, a descriptor or an entry of a table of bits, and a byte offset within the header, the section table, the configuration
signature, the customer signature, the churn section and the channel map (log 31). -/
namespace Sys2Proof.Machine

/-- A failing item (R213): section index (2^32 − 1 for the header), location address, step (0xFFFF for none), field, byte offset;
`fit`: it is the fit of check 12. -/
structure FailItem where
  sec : Nat
  loc : Word
  step : Nat
  field : Nat
  byte : Nat
  fit : Bool
  deriving DecidableEq, Repr

/-! ### Naming an item -/

/-- A header item. -/
def hdrItem (off : Nat) : FailItem := { sec := 2 ^ 32 - 1, loc := 0, step := 0xFFFF, field := off, byte := off, fit := false }
/-- A test of header fields. -/
def hdrItems (bs : List (Bool × Nat)) : List FailItem := (bs.filter (·.1)).map (fun b => hdrItem b.2)

/-- Index and entry of the section of a type whose SCOPE satisfies a test. -/
def sectionOf (i : Image) (typ : Nat) (p : Word → Bool) : Option (Nat × SectionEntry) :=
  match i.table.findIdx? (fun e => e.typ == typ && p e.scope) with
  | some k => (i.table[k]?).map (fun e => (k, e))
  | none => none

/-- An item at a byte of a section; the offset alone where the image has no such section. -/
def secItem (i : Image) (typ : Nat) (p : Word → Bool) (rel : Nat) (loc : Word) (step field : Nat) : FailItem :=
  match sectionOf i typ p with
  | some (k, e) => { sec := k, loc := loc, step := step, field := field, byte := e.offset + rel, fit := false }
  | none => { sec := 2 ^ 32 - 1, loc := loc, step := step, field := field, byte := rel, fit := false }

/-- SCOPE names a cluster; a die. -/
def forClu (gc : Nat) (w : Word) : Bool := locGc w == gc
def forDie (d : Nat) (w : Word) : Bool := locSite w == d
def anyScope (_ : Word) : Bool := true

/-- An item at an instruction word of a store section (R193), by section type and key. -/
def instrItem (i : Image) (typ key field : Nat) : FailItem :=
  let t := key % 4096
  let u := key / 4096
  if typ == 0x10 then secItem i typ (forClu (u / 512)) (11 * ((32 * t + u / 16 % 32) * 16 + u % 16)) (mkLoc (u / 512) (u / 16 % 32) (u % 16) 0) t field
  else if typ == 0x11 then secItem i typ (forClu (u / 32)) (9 * (32 * t + u % 32)) (mkLoc (u / 32) (u % 32) 0 0) t field
  else secItem i typ (forClu u) (18 * t) (mkLoc u 0 0 0) t field

/-- Items of the bad fields of one thing. -/
def fieldsOf (f : Nat → FailItem) (bs : List (Bool × Nat)) : List FailItem := (bs.filter (·.1)).map (fun b => f b.2)

/-- Of two entries that a check relates, the one in the section with the higher index in the section table (R634); the second is of a section that
the image may lack. -/
def higherItem (a b : FailItem) : FailItem := if a.sec < b.sec && b.sec != 2 ^ 32 - 1 then b else a

/-- The list with each element's index. -/
def indexed {α : Type} (xs : List α) : List (Nat × α) := (List.range xs.length).zip xs

/-! ### Checks 1 to 5 -/

/-- Check 1: header; `bytes` is P4–P5 of IMAGE_LOAD. -/
def check1 (s : State) (i : Image) (bytes : Nat) : List FailItem :=
  let h := i.hdr
  hdrItems [(h.magic != 0x49444541, 0x00), (h.hdrBytes != 256, 0x08), (wfld h.flags 31 4 != 0, 0x0C), (h.imageBytes != bytes, 0x10),
    (h.depth < 64 || 3072 < h.depth, 0x20),
    (if bitOf h.flags.toNat 0 then h.actQuota != 0 else h.actQuota < 1 || 13312 < h.actQuota, 0x24)]
  ++ (match h.reserved with | some o => [hdrItem o] | none => [])
  ++ h.stepShare.flatMap (fun e =>
      let d := e.1 / 8
      let c := e.1 % 8
      hdrItems [(e.2 != 0 && (!dieHere s d || (c != 0 && !dieHere s ((d + c) % 8))), 0x80 + e.1)])
  ++ h.vn2.flatMap (fun e => hdrItems [(e.2 != 0 && !dieHere s e.1, 0xC0 + e.1)])

/-- Check 2: format 1.0. -/
def check2 (i : Image) : List FailItem := hdrItems [(i.hdr.fmtMajor != 1, 4), (i.hdr.fmtMinor != 0, 6)]

/-- FLAGS of the header. -/
def imgAnnot (i : Image) : Bool := bitOf i.hdr.flags.toNat 1
def imgEnc (i : Image) : Bool := bitOf i.hdr.flags.toNat 2
def imgSigned (i : Image) : Bool := bitOf i.hdr.flags.toNat 3

/-- Check 3: customer signature (R589). `slots` is SEC_SLOTS as the load began. -/
def check3 (s : State) (i : Image) (slots : Nat) : List FailItem :=
  if !imgSigned i then hdrItems [(s.sec.reqSigned || imgEnc i, 0x0C)]
  else match i.customer with
    | none => [hdrItem 0x0C]
    | some c =>
      let st := slotOf? s c.slot
      let at0 (o : Nat) : FailItem := secItem i 0x60 anyScope o 0 0xFFFF o
      (match c.bad with | some o => [at0 o] | none => [])
        ++ fieldsOf at0 [
          (c.slot < 1 || 15 < c.slot || st.1 == .empty || st.1 == .revoked || fld slots (2 * c.slot - 1) (2 * c.slot - 2) != slotCode st.1, 2),
          (!c.contentOk, 0x10), (c.key != some st.2, 0x80)]

/-- Check 4: BODY_DIGEST over the decrypted sections (R586, R589). -/
def check4 (i : Image) : List FailItem := hdrItems [((decryptImage i).measured != i.hdr.bodyDigest, 0x50)]

/-- Offset of the first byte in which two byte strings differ. -/
def firstDiff : Nat → List Byte → List Byte → Option Nat
  | n, a :: as, b :: bs => if a == b then firstDiff (n + 1) as bs else some n
  | _, [], [] => none
  | n, _, _ => some n

/-- Check 5: the signature section against the live signature byte by byte, SIG_DIGEST, position and device count. The
difference of the section is named first. -/
def check5 (s : State) (i : Image) : List FailItem :=
  (match firstDiff 0 i.sig s.ctl.sig with
   | some o => [secItem i 0x01 anyScope o 0 0xFFFF o]
   | none => [])
  ++ hdrItems [(i.hdr.devicePos != posOf s, 0x22), (i.hdr.devices != (nth 0 i.sig 0).toNat, 0x23), (i.hdr.sigDigest != liveDigest s, 0x30)]

/-! ### Check 6: the section table -/

/-- What SCOPE names by section type: 0 nothing, 1 a cluster, 2 a die, 3 a region. -/
def scopeKind (typ : Nat) : Nat :=
  if [0x10, 0x11, 0x12, 0x13, 0x15, 0x20, 0x21, 0x50, 0x51].contains typ then 1
  else if [0x14, 0x30, 0x32].contains typ then 2 else if typ == 0x23 then 3 else 0

/-- Section types (R192). -/
def sectionTypes : List Nat :=
  [0x01, 0x10, 0x11, 0x12, 0x13, 0x14, 0x15, 0x16, 0x20, 0x21, 0x22, 0x23, 0x30, 0x31, 0x32, 0x40, 0x41, 0x50, 0x51, 0x60, 0xF0]

/-- SCOPE names a present unit and its other fields are 0. -/
def scopeOk (s : State) (i : Image) (e : SectionEntry) : Bool :=
  match scopeKind e.typ with
  | 1 => dieHere s (locSite e.scope) && e.scope == mkLoc (locGc e.scope) 0 0 0
  | 2 => dieHere s (locSite e.scope) && e.scope == siteLoc (locSite e.scope)
  | 3 => i.regions.any (fun r => BitVec.ofNat 32 r.index == e.scope)
  | _ => e.typ == 0xF0 || e.scope == 0

/-- Two sections share a byte. -/
def overlaps (a b : SectionEntry) : Bool := decide (a.offset < b.offset + b.length) && decide (b.offset < a.offset + a.length)

/-- Types and units of the sections that must be there. -/
def requiredSections (s : State) (i : Image) : List (Nat × Nat) :=
  [(0x01, 0), (0x16, 0)] ++ (diesOf s).map (fun d => (0x14, d))
  ++ (List.range (64 * nDies s)).flatMap (fun gc => ([0x10, 0x11, 0x12, 0x13, 0x15] ++ (if imgAnnot i then [0x50] else [])).map (fun t => (t, gc)))
  ++ (if imgSigned i then [(0x60, 0)] else [])

/-- The unit that an entry serves. -/
def scopeUnit (e : SectionEntry) : Nat :=
  match scopeKind e.typ with | 1 => locGc e.scope | 2 => locSite e.scope | 3 => e.scope.toNat | _ => 0

/-- Bytes of a section whose length the schedule depth or the part fixes (R193, R194). -/
def lengthOk (i : Image) (e : SectionEntry) : Bool :=
  match e.typ with
  | 0x10 => e.length == 11 * 512 * i.hdr.depth
  | 0x11 => e.length == 9 * 32 * i.hdr.depth
  | 0x12 => e.length == 18 * i.hdr.depth
  | 0x20 => e.length == 196608
  | _ => true

/-- Check 6: the table entries (R189, R191, R192). A missing section is named by the header at 0x28, a byte that is not 0 between sections by
the header: DESIGN CHOICE of log 63. -/
def check6 (s : State) (i : Image) : List FailItem :=
  let head : SectionEntry := { typ := 0xF0, scope := 0, offset := 0, length := 256, reserved := false }
  let tab : SectionEntry := { typ := 0xF0, scope := 0, offset := i.hdr.secTable, length := 32 * i.table.length, reserved := false }
  (indexed i.table).flatMap (fun (k, e) =>
    let f (o : Nat) : FailItem := { sec := k, loc := if scopeKind e.typ == 3 then 0 else e.scope, step := 0xFFFF, field := o, byte := i.hdr.secTable + 32 * k, fit := false }
    let before := i.table.take k
    let again := e.typ != 0xF0 && before.any (fun b => b.typ == e.typ && scopeUnit b == scopeUnit e)
    fieldsOf f [(!sectionTypes.contains e.typ || again || ((e.typ == 0x50 || e.typ == 0x51) && !imgAnnot i) || (e.typ == 0x60 && !imgSigned i), 0),
      (e.reserved, 2), (e.reserved18, 0x18), (!scopeOk s i e, 4),
      (e.offset % 64 != 0 || before.any (overlaps e) || overlaps e head || overlaps e tab, 8), (i.hdr.imageBytes < e.offset + e.length || !lengthOk i e, 0x10)])
  ++ hdrItems [((requiredSections s i).any (fun r => !i.table.any (fun e => e.typ == r.1 && scopeUnit e == r.2)), 0x28),
      (overlaps tab head || i.hdr.imageBytes < tab.offset + tab.length, 0x2C)]
  ++ (match i.gap with | some o => [hdrItem o] | none => [])

/-! ### Checks 7 and 8 -/

/-- Check 7: stored check bits. -/
def check7 (i : Image) : List FailItem :=
  i.badCheck.map (fun e => instrItem i e.1 e.2 (if e.1 == 0x10 then 80 else if e.1 == 0x11 then 64 else 128))

/-- A descriptor that the image defines. -/
def descDefined (i : Image) (gc d : Nat) : Bool := (lookup i.desc (64 * gc + d)).isSome

/-- A write names a descriptor whose data lines run beyond line 31 or overlap its address lines, of which there may be none (R188). -/
def badDataLines (w : BitVec 128) : Bool :=
  decide (32 < dDline w + dW w) || (decide (0 < dA w) && decide (dDline w < dAline w + dA w) && decide (dAline w < dDline w + dW w))

/-- Check 8: field ranges and reserved fields of instruction words. -/
def check8Words (i : Image) : List FailItem :=
  i.ep.flatMap (fun (k, w) => fieldsOf (instrItem i 0x10 k) (
    (List.range 5).map (fun n => (decide (112 ≤ opSel w n), 13 + 7 * n)) ++ [(wfld w 12 10 != 0, 10), (!ctlPOE w && ctlPORT w != 0, 4)]))
  ++ i.grp.flatMap (fun (k, w) => fieldsOf (instrItem i 0x11 k) (
    (List.range 4).map (fun p => (decide (3071 < rowAddr w p), 12 * p)) ++ [(wfld w 63 52 != 0, 52)]))
  ++ i.clu.flatMap (fun (k, w) => fieldsOf (instrItem i 0x12 k) (
    (List.range 4).flatMap (fun n =>
      let op := tpOp w n
      let d := tpDesc w n
      [(op == 3, 70 + 8 * n), (op == 0 && d != 0, 64 + 8 * n), ((op == 1 || op == 2) && !descDefined i (k / 4096) d, 64 + 8 * n),
        (op == 2 && descDefined i (k / 4096) d && badDataLines (descOf i (k / 4096) d), 64 + 8 * n)])
    ++ [(wfld w 127 96 != 0, 96)]))
  ++ i.cluPad.map (fun k => instrItem i 0x12 k 137)

/-- An item at a descriptor. -/
def descItem (i : Image) (k field : Nat) : FailItem := secItem i 0x15 (forClu (k / 64)) (16 * (k % 64)) (mkLoc (k / 64) 0 0 0) 0xFFFF field

/-- Check 8: fields of descriptors (R158, R188). -/
def check8Desc (i : Image) : List FailItem :=
  i.desc.flatMap (fun (k, w) =>
    let tile := dKind w == 0
    fieldsOf (descItem i k) [(wfld w 31 29 != 0, 29), (wfld w 127 116 != 0, 116), (tile && dRegion w != 0, 96), (tile && dLead w != 0, 104),
      (tile && 20 < dA w, 1), (dLimit w == 0 || 2 ^ dA w < dLimit w, 64), (16 < dBit0 w + dW w, 25), (32 < dAline w + dA w, 10),
      (tile && (wfld w 63 52 != 0 || 2 ^ 20 < dBase w + dLimit w), 32)])

/-- Check 8. -/
def check8 (i : Image) : List FailItem := check8Words i ++ check8Desc i

/-! ### Check 9: per-step structure -/

/-- EP words of a group at a step that satisfy a test. -/
def epsWhere (i : Image) (gg t : Nat) (p : BitVec 80 → Bool) : Nat :=
  (i.ep.filter (fun e => e.1 % 4096 == t && e.1 / 4096 / 16 == gg && p e.2)).length
/-- EP words of a cluster at a step that satisfy a test. -/
def cluEpsWhere (i : Image) (gc t : Nat) (p : BitVec 80 → Bool) : Nat :=
  (i.ep.filter (fun e => e.1 % 4096 == t && e.1 / 4096 / 512 == gc && p e.2)).length

/-- Cluster steps at which the image holds an EP or a cluster entry, key 4096 gc + step. -/
def cluSteps (i : Image) : List Nat :=
  List.foldl ins [] (i.clu.map (·.1) ++ i.ep.map (fun e => 4096 * (e.1 / 4096 / 512) + e.1 % 4096))

/-- The EP that an image names by a location address has a word with a property at the step of its row. -/
def epAtLoc (i : Image) (loc : Word) (p : BitVec 80 → Bool) : Bool := p (epWord i (16 * locGg loc + locEp loc) (locRow loc))

/-- The boundary map entry of a row. -/
def bmapOf (i : Image) (loc : Word) : Option BoundaryEntry := i.bmap.find? (fun e => portRow e.loc == portRow loc)
/-- MASK and SOURCE of a boundary map entry. -/
def bMask (e : BoundaryEntry) : Nat := wfld e.w1 15 0
def bSource (e : BoundaryEntry) : Nat := wfld e.w1 17 16
/-- The boundary map names a bit. -/
def bmapBit (i : Image) (row b : Nat) : Bool := i.bmap.any (fun e => portRow e.loc == row && bitOf (bMask e) b)

/-- An item at a boundary map entry. -/
def bmapItem (i : Image) (k : Nat) (e : BoundaryEntry) (field : Nat) : FailItem := secItem i 0x16 anyScope (8 + 8 * k) e.loc 0xFFFF field

/-- Check 9 (R69, R72, R74, R79). -/
def check9 (i : Image) : List FailItem :=
  (indexed i.bmap).flatMap (fun (k, e) =>
    (numsWhere 16 (fun b => bitOf (bMask e) b && decide (locRow e.loc < i.hdr.depth)
      && ctlWE (epWord i (16 * locGg e.loc + b) (locRow e.loc)))).map (fun b => bmapItem i k e (32 + b)))
  ++ (cluSteps i).flatMap (fun k =>
    let gc := k / 4096
    let t := k % 4096
    let w := cluWord i gc t
    fieldsOf (instrItem i 0x12 k) (
      (List.range 32).map (fun j =>
        let n := epsWhere i (32 * gc + j) t ctlBCR
        (if bcastEn w j then n != 1 else n != 0, j))
      ++ (List.range 16).map (fun p =>
        let n := cluEpsWhere i gc t (fun e => ctlPOE e && ctlPORT e == p)
        (if outEn w p then n != 1 else n != 0, 32 + p))))
  ++ (i.ep.filter (fun e => ctlCAP e.2
        && (i.ep.filter (fun f => f.1 % 4096 == e.1 % 4096 && f.1 / 65536 == e.1 / 65536 && f.1 < e.1 && ctlCAP f.2)).length == 1)).map
      (fun e => instrItem i 0x10 e.1 2)

/-! ### Check 10: slot tables and paths (R106, R112, R114, R118) -/

/-- V, KIND and INDEX of a source encoding. -/
def srcV (w : Half) : Bool := bitOf w.toNat 15
def srcKind (w : Half) : Nat := wfld w 14 13

/-- A valid source is wrong for a sink of die d at step t; `lat` steps lie between an out-port of this die and the sink. -/
def srcBad (s : State) (i : Image) (d t lat : Nat) (w : Half) : Bool :=
  if srcKind w == 0 then
    wfld w 12 10 != 0 || t < lat || !outEn (cluWord i (64 * d + wfld w 9 4) (t - lat)) (wfld w 3 0)
  else if srcKind w == 1 then
    (let c := wfld w 12 10
     let ch := wfld w 9 0
     if c == 0 then !routeHere s d 0 || 192 ≤ ch
     else !routeHere s d c || shareOf i ((d + c) % 8) ((8 - c) % 8) ≤ ch)
  else true

/-- Field of a wrong source: a reserved KIND, otherwise INDEX. -/
def srcField (w : Half) : Nat := if srcKind w < 2 then 0 else 13

/-- An item at an in-port entry, key 4096 (16 gc + port) + step: the table holds the 3,072 entries of port 0, then of port 1 (log 31). -/
def inPortItem (i : Image) (k field : Nat) : FailItem :=
  let u := k / 4096
  secItem i 0x13 (forClu (u / 16)) (2 * (3072 * (u % 16) + k % 4096)) (mkLoc (u / 16) 0 0 0) (k % 4096) field

/-- Keys of in-port entries that are listed or that a set IN_LIVE bit asks for. -/
def inPortKeys (i : Image) : List Nat :=
  List.foldl ins []
    (i.inPort.map (·.1) ++ i.clu.flatMap (fun e => (numsWhere 16 (inLive e.2)).map (fun p => 4096 * (16 * (e.1 / 4096) + p) + e.1 % 4096)))

/-- In-port entries. -/
def check10In (s : State) (i : Image) : List FailItem :=
  (inPortKeys i).flatMap (fun k =>
    let gc := k / 65536
    let t := k % 4096
    let w := rd i.inPort k
    fieldsOf (inPortItem i k) [(srcV w != inLive (cluWord i gc t) (k / 4096 % 16), 15), (srcV w && srcBad s i (gc / 64) t 8 w, srcField w)])

/-- Egress entries of a die with their index in the section and, of their list, how many entries of the same step stand before and
whether a later step stands before. -/
def check10Out (s : State) (i : Image) : List FailItem :=
  (indexed i.egress).flatMap (fun (k, e) =>
    let before := i.egress.take k
    let rel := 8 * (before.filter (fun b => b.die == e.die)).length
    let mine := before.filter (fun b => b.die == e.die && b.code == e.code)
    let t := wfld e.w0 11 0
    let src : Half := BitVec.ofNat 16 e.w1.toNat
    let share := shareOf i e.die e.code
    fieldsOf (secItem i 0x14 (forDie e.die) rel (siteLoc e.die) t) [
      (i.hdr.depth ≤ t || mine.any (fun b => t < wfld b.w0 11 0) || i.hdr.depth ≤ t + (if e.code == 0 then 160 else 40)
        || share ≤ (mine.filter (fun b => wfld b.w0 11 0 == t)).length, 0),
      (wfld e.w0 15 12 != 0, 12), (share ≤ wfld e.w0 25 16, 16), (wfld e.w0 31 26 != 0, 26), (srcV src && srcBad s i e.die t 0 src, 32 + srcField src),
      (wfld e.w1 31 16 != 0, 48)])

/-- Check 10. -/
def check10 (s : State) (i : Image) : List FailItem := check10In s i ++ check10Out s i

/-! ### Check 11: shares and reserves against the trained links (R108 to R111, R122, R494) -/

/-- Step share of a spoke-routed pair in or out of a die, in channels. -/
def spokeSum (s : State) (i : Image) (d : Nat) (tx : Bool) : Nat := 16 * spokeUnits s i d tx

/-- An ingress channel of the board link of die d is named. -/
def namesBoard (i : Image) (d : Nat) : Bool :=
  i.inPort.any (fun e => e.1 / 65536 / 64 == d && srcV e.2 && srcKind e.2 == 1 && wfld e.2 12 10 == 0)
  || i.egress.any (fun e => e.die == d && bitOf e.w1.toNat 15 && wfld e.w1 14 13 == 1 && wfld e.w1 12 10 == 0)

/-- Check 11. -/
def check11 (s : State) (i : Image) : List FailItem :=
  (diesOf s).flatMap (fun d =>
    let b := linkOf s d
    let up := match b with | some b => linkUp b | none => false
    let v2 := match b with | some b => b.version == 2 | none => false
    let vn := (lookup i.hdr.vn2 d).getD 0
    let sh := shareOf i d 0
    hdrItems (
      [(sh != 0 && (192 < sh || !up || v2), 0x80 + 8 * d), (weirShort s d 0 && (sh != 0 || namesBoard i d), 0x80 + 8 * d),
        (1024 < spokeSum s i d true || 1024 < spokeSum s i d false, 0x80 + 8 * d),
        (vn != 0 && (!up || v2), 0xC0 + d),
        (up && !v2 && (match b with | some b => guarRate s b sh < 8 * vn + 8 | none => false), 0xC0 + d)]
      ++ (List.range 8).map (fun c =>
        let j := (d + c) % 8
        (c != 0 && shareOf i d c != 0 && ((ringPair s d j && 512 < shareOf i d c) || weirShort s j ((8 - c) % 8)), 0x80 + 8 * d + c))))

/-! ### Check 12: memory map -/

/-- One tile-port operation: cluster-entry key, port, operation, descriptor. -/
structure LoadOp where
  key : Nat
  port : Nat
  op : Nat
  d : BitVec 128

/-- The port operations of an image. -/
def loadOps (i : Image) : List LoadOp :=
  i.clu.flatMap (fun (k, w) => (numsWhere 4 (fun n => tpOp w n == 1 || tpOp w n == 2)).map (fun n =>
    { key := k, port := n, op := tpOp w n, d := descOf i (k / 4096) (tpDesc w n) }))

/-- Delivery of a read: step, global group, bits. -/
def deliveryStep (o : LoadOp) : Nat := o.key % 4096 + (if dKind o.d == 0 then 2 else dLead o.d)
def deliveryGroup (o : LoadOp) : Nat := 32 * (o.key / 4096) + dGroup o.d

/-- Two ranges of bits of one unit meet. -/
def bitsMeet (a b : BitVec 128) : Bool := decide (dBit0 a < dBit0 b + dW b) && decide (dBit0 b < dBit0 a + dW a)

/-- A read delivers to a bit with another writer: an EP at that row's step, another read of the same step, the boundary map. -/
def deliveryClash (i : Image) (ops : List LoadOp) (o : LoadOp) : Bool :=
  let r := deliveryStep o
  let g := deliveryGroup o
  (List.range 16).any (fun b => decide (dBit0 o.d ≤ b) && decide (b < dBit0 o.d + dW o.d)
    && (ctlWE (epWord i (16 * g + b) r) || bmapBit i (4096 * g + r) b))
  || ops.any (fun p => p.op == 1 && (p.key != o.key || p.port != o.port) && deliveryStep p == r && deliveryGroup p == g && bitsMeet p.d o.d)

/-- The entries of other sections that a delivery meets: the EP instruction that writes the bit, the boundary map entry that names it. -/
def clashItems (i : Image) (o : LoadOp) : List FailItem :=
  let r := deliveryStep o
  let g := deliveryGroup o
  (numsWhere 16 (fun b => decide (dBit0 o.d ≤ b) && decide (b < dBit0 o.d + dW o.d))).flatMap (fun b =>
    (if ctlWE (epWord i (16 * g + b) r) then [instrItem i 0x10 (4096 * (16 * g + b) + r) 0] else [])
    ++ ((indexed i.bmap).filter (fun e => portRow e.2.loc == 4096 * g + r && bitOf (bMask e.2) b)).map (fun e => bmapItem i e.1 e.2 (32 + b)))

/-- DDR reads of a die outstanding at step t (R176). -/
def outstandingAt (ops : List LoadOp) (die t : Nat) : Nat :=
  (ops.filter (fun p => p.op == 1 && dKind p.d == 1 && p.key / 4096 / 64 == die && decide (p.key % 4096 ≤ t) && decide (t < p.key % 4096 + dLead p.d))).length

/-- A load under R434: after a warm reset, the identifiers are those of the last checkpoint. -/
def keepsCheckpoint (s : State) (i : Image) : Bool :=
  s.img.warm && (match s.ckp.last with | some c => c.setId == i.hdr.setId && c.sigDigest == i.hdr.sigDigest | none => false)

/-- CAP_SPILL.GB that an image sets aside on the lead (R170). -/
def spillOf (i : Image) : Nat := match i.capture with | some c => par c.cap 1 % 512 | none => 4

/-- MB of the replay log in DDR5 that the settings ask for: none in host memory (R170, R317). -/
def logSetting (s : State) : Nat := if bitOf (ioReg s 0x08 0) 6 then 0 else ioReg s 0x08 0x01C

/-- Capture spill GB, log MB and COW GB that a load sets aside: as the settings stood when it began, or as recorded with the checkpoint
(R170, R434). -/
def areasFor (s : State) (j : LoadJob) : Nat × Nat × Nat :=
  if keepsCheckpoint s j.image then (s.img.spillGb, s.img.logMb, s.img.cowGb)
  else (if isLead s then spillOf j.image else 0, j.logMb, j.cowGb)

/-- Bytes of the design area that a load leaves (R169). -/
def areaBytes (s : State) (j : LoadJob) : Nat :=
  let (sp, lg, cow) := areasFor s j
  s.img.ddrGb * 2 ^ 30 - (4 * 2 ^ 30 + goldenBytes j.image + storeBytes s cow + sp * 2 ^ 30 + lg * 2 ^ 20)

/-- Granules of the regions that an image declares. -/
def regionGranules (i : Image) : Nat := (i.regions.map (·.granules)).sum

/-- Check 12 (R170, R176, R188). The layout of the region declarations is not stated: an item names the section (log 31). Two
declarations of one index and a declaration whose words exceed its granules are refused: DESIGN CHOICE of log 63. -/
def check12 (s : State) (j : LoadJob) : List FailItem :=
  let i := j.image
  let ops := loadOps i
  let reg0 : FailItem := secItem i 0x22 anyScope 0 0 0xFFFF 0
  (if areaBytes s j < 4096 * regionGranules i || 10 * 2 ^ 30 < goldenBytes i then [{ reg0 with fit := true }] else [])
  ++ (indexed i.regions).flatMap (fun (k, r) =>
    if 256 ≤ r.index || 2 ^ 32 < r.words || 2048 * r.granules < r.words || (i.regions.take k).any (fun q => q.index == r.index) then [reg0] else [])
  ++ i.desc.flatMap (fun (k, w) =>
    if dKind w == 0 then []
    else match i.regions.find? (fun r => r.index == dRegion w) with
      | none => [descItem i k 96]
      | some r => if r.words < dBase w + dLimit w then [higherItem (descItem i k 32) reg0] else [])
  ++ (ops.filter (fun o => o.op == 1)).flatMap (fun o =>
    let ddr := dKind o.d == 1
    let own := (ddr && (dLead o.d < 640 || 3071 < dLead o.d)) || i.hdr.depth ≤ deliveryStep o
        || (ddr && 2048 < outstandingAt ops (o.key / 4096 / 64) (o.key % 4096))
    let item := instrItem i 0x12 o.key (64 + 8 * o.port)
    if own then [item] else if deliveryClash i ops o then [(clashItems i o).foldl higherItem item] else [])

/-! ### Check 13: probes, capture, churn, port cells, channels, annotation -/

/-- Valid probe entries of a die by index. -/
def probeValid (i : Image) (d n : Nat) : Bool := i.probes.any (fun p => p.die == d && p.index == n && bitOf p.w1.toNat 0)

/-- Header of a section with COUNT and reserved bytes, the first of them at a byte (R319, R398, R399). -/
def checkHead (i : Image) (typ n rsvAt : Nat) (h : SectionHead) : List FailItem :=
  if i.table.any (fun t => t.typ == typ) then fieldsOf (secItem i typ anyScope 0 0 0xFFFF) [(h.count != n, 0), (h.reserved, rsvAt)] else []

/-- Reserved bit 12 of a location address (R25). -/
def locRsv (loc : Word) : Bool := bitOf loc.toNat 12

/-- Probe table (R223, R225). -/
def checkProbes (i : Image) : List FailItem :=
  (indexed i.probes).flatMap (fun (k, p) =>
    let valid := bitOf p.w1.toNat 0
    let again := (i.probes.take k).any (fun q => bitOf q.w1.toNat 0 && q.loc == p.loc)
    fieldsOf (secItem i 0x30 (forDie p.die) (8 * p.index) p.loc (if valid then locRow p.loc else 0xFFFF)) (
      if valid then
        [(locRsv p.loc || locSite p.loc != p.die || again, 0), (i.hdr.depth ≤ locRow p.loc || !epAtLoc i p.loc (fun w => ctlWE w && ctlCAP w), 0),
          (wfld p.w1 31 2 != 0, 34)]
      else [(p.loc != 0, 0), (p.w1 != 0, 32)]))
  ++ (i.ep.filter (fun e => ctlCAP e.2 && !i.probes.any (fun p => bitOf p.w1.toNat 0
        && p.loc == mkLoc (e.1 / 4096 / 512) (e.1 / 65536 % 32) (e.1 / 4096 % 16) (e.1 % 4096)))).map (fun e => instrItem i 0x10 e.1 2)

/-- OP codes that a comparator kind allows (R254). -/
def cmpOpOk (kind op : Nat) : Bool :=
  match kind with
  | 0 => op == 0
  | 1 => [0, 1, 4, 5, 6].contains op
  | 2 => [0, 1, 2, 3, 6].contains op
  | _ => op == 0 || op == 3

/-- A comparator configuration breaks R255 by itself. -/
def cmpBad (cfg : Nat) : Bool :=
  let e := fld cfg 21 5
  let wm := fld cfg 26 22
  !cmpOpOk (fld cfg 1 0) (fld cfg 4 2) || cfg / 2 ^ 27 != 0 || (fld cfg 1 0 == 1 && wm != 0) || (fld cfg 1 0 == 2 && decide (131071 < e + wm))

/-- The first probe entry that a comparator configuration names and that is not valid (R255). -/
def cmpUnused (used : Nat → Bool) (cfg : Nat) : Option Nat :=
  let e := fld cfg 21 5
  let n := if fld cfg 1 0 == 1 then 1 else if fld cfg 1 0 == 2 then fld cfg 26 22 + 1 else 0
  ((List.range n).map (e + ·)).find? (fun k => !used k)

/-- Separator mode cannot be used (R235). -/
def sepBad (k depth devices : Nat) : Bool := decide (4 < devices) || decide (2 ^ k * (depth + 16) < 1048576) || decide (24 < k)

/-- Capture and trigger configuration (R235, R255, R260, R261); the TRG_ registers of die d stand after the 20 bytes of the CAP_ part. -/
def checkCapture (s : State) (i : Image) : List FailItem :=
  (match i.capture with
  | none => []
  | some c =>
    let at0 (o : Nat) : FailItem := secItem i 0x31 anyScope o 0 0xFFFF o
    let ctrl := par c.cap 0
    fieldsOf at0 [
      (ctrl / 2 ^ 14 != 0 || (fld ctrl 10 6 != 0 && fld ctrl 10 6 < 10) || (!bitOf ctrl 0 && sepBad (fld ctrl 5 1) i.hdr.depth i.hdr.devices), 0),
      (par c.cap 1 < 4 || 256 < par c.cap 1, 4), (par c.cap 2 < 8, 8)]
    ++ c.trg.flatMap (fun (d, off, v) =>
      fieldsOf at0 [(
        if off < 0x100 then off % 16 == 0 && cmpBad v.toNat
        else if off % 16 < 8 then v.toNat / 2 ^ 28 != 0 else v.toNat / 2 ^ 24 != 0, 20 + 384 * d + off)]
      ++ (match if off < 0x100 && off % 16 == 0 && !cmpBad v.toNat then cmpUnused (probeValid i d) v.toNat else none with
        | some k => [higherItem (at0 (20 + 384 * d + off)) (secItem i 0x30 (forDie d) (8 * k) 0 0xFFFF 32)]
        | none => [])))
  ++ (if i.probes.isEmpty && i.capture.isNone then [] else (diesOf s).flatMap (fun d => hdrItems [(10 < (lookup i.hdr.vn2 d).getD 0, 0xC0 + d)]))

/-- Churn sections (R267, R271, R281, R285, R286). -/
def checkChurn (i : Image) : List FailItem :=
  i.churn.flatMap (fun c =>
    let n := c.program.length
    let it (o : Nat) : FailItem := secItem i 0x32 (forDie c.die) o (siteLoc c.die) 0xFFFF o
    let w := wfld c.ctrl 5 1
    fieldsOf it [(n < 1 || 4096 < n, 0), (8192 < c.coeff.length, 2), (wfld c.ctrl 31 6 != 0 || 24 < w || 2 ^ w * (i.hdr.depth + 16) / 4 < 4096, 4)]
    ++ (indexed c.program).flatMap (fun (a, p) =>
      fieldsOf it [(match Decode.churn c.die p with
        | none => true
        | some x => !x.wellFormed || !Instr.targetOk n x || (match x with
          | .repeatN _ _ => (match c.program[a + 1]? with
            | none => true
            | some q => (match Decode.churn c.die q with | some y => !y.repeatable | none => true))
          | _ => false), 8 + 4 * a)])
    ++ (indexed c.coeff).flatMap (fun (a, y) =>
      fieldsOf it [(wfld y 31 24 != (if bitOf y.toNat 23 then 255 else 0), 8 + 4 * n + 4 * a)]))

/-- The item of the boundary map entry of a row at a field; another item where the map has none. -/
def bmapAtRow (i : Image) (row field : Nat) (other : FailItem) : FailItem :=
  match (indexed i.bmap).find? (fun e => portRow e.2.loc == row) with
  | some e => bmapItem i e.1 e.2 field
  | none => other

/-- KIND, SECOND and NUMBER of a port-cell map entry. -/
def pcKind (e : PortCellEntry) : Nat := wfld e.w1 1 0
def pcSecond (e : PortCellEntry) : Bool := bitOf e.w1.toNat 2
def pcNum (e : PortCellEntry) : Nat := wfld e.w1 31 16
/-- A row writer of KIND 0 or 2. -/
def pcWrites (e : PortCellEntry) : Bool := pcKind e == 0 || pcKind e == 2

/-- A cell or pin number that the part has. -/
def pcHere (s : State) (e : PortCellEntry) : Bool :=
  if pcKind e ≤ 1 then decide (pcNum e ≤ 40959) && (decide (32768 ≤ pcNum e) || dieHere s (pcNum e / 4096)) else decide (pcNum e ≤ 191)

/-- SOURCE that the boundary map gives the bit of a KIND 0 or 2 entry. -/
def pcSource (e : PortCellEntry) : Nat := if pcKind e == 0 then 2 else 1

/-- Port-cell map (R387, R398, R400). -/
def checkCells (s : State) (i : Image) : List FailItem :=
  checkHead i 0x40 i.portCells.length 4 i.cellHead ++ (indexed i.portCells).flatMap (fun (k, e) =>
    let cell := secItem i 0x40 anyScope (8 + 8 * k) e.loc 0xFFFF
    let before := i.portCells.take k
    let pin := 2 ≤ pcKind e
    let marked := match bmapOf i e.loc with | some b => bitOf (bMask b) (locEp e.loc) && bSource b == pcSource e | none => false
    (if pcWrites e && !marked then [higherItem (cell 0) (bmapAtRow i (portRow e.loc) (32 + locEp e.loc) (cell 0))] else [])
    ++ fieldsOf cell [
      (wfld e.w1 15 3 != 0, 35), (pcSecond e && pcKind e != 2, 34), (!pcHere s e, 48),
      (locRsv e.loc || !dieHere s (locSite e.loc) || (!pin && pcNum e < 32768 && locSite e.loc != pcNum e / 4096) || 3071 < locRow e.loc
        || (!pcWrites e && i.hdr.depth ≤ locRow e.loc) || (pcWrites e && before.any (fun b => pcWrites b && b.loc == e.loc)), 0),
      (before.any (fun b => pcKind b == pcKind e && pcNum b == pcNum e && pcSecond b == pcSecond e)
        || (pin && before.any (fun b => 2 ≤ pcKind b && pcKind b != pcKind e && pcNum b == pcNum e)), 48),
      (pcSecond e && !i.portCells.any (fun b => pcKind b == 2 && pcNum b == pcNum e && !pcSecond b), 34)])

/-- Boundary map (R399, R400). -/
def checkBmap (s : State) (i : Image) : List FailItem :=
  checkHead i 0x16 i.bmap.length 4 i.bmapHead ++ (indexed i.bmap).flatMap (fun (k, e) =>
    let writes (b : Nat) (p : PortCellEntry) : Bool := pcWrites p && portRow p.loc == portRow e.loc && locEp p.loc == b
    let lacks := numsWhere 16 (fun b => (bSource e == 1 || bSource e == 2) && bitOf (bMask e) b
      && !i.portCells.any (fun p => writes b p && pcSource p == bSource e))
    fieldsOf (bmapItem i k e) [
      (locRsv e.loc || locEp e.loc != 0 || 3071 < locRow e.loc || !dieHere s (locSite e.loc) || (i.bmap.take k).any (fun b => e.loc.toNat ≤ b.loc.toNat), 0),
      (wfld e.w1 31 18 != 0, 50), (bSource e == 0, 48), (bSource e == 3 && bMask e != 0xFFFF, 32)]
    ++ lacks.map (fun b => match (indexed i.portCells).find? (fun p => writes b p.2) with
      | some p => higherItem (bmapItem i k e (32 + b)) (secItem i 0x40 anyScope (8 + 8 * p.1) p.2.loc 0xFFFF 32)
      | none => bmapItem i k e (32 + b)))

/-- Ports of a channel: status row location and rows. -/
def portsOf (e : ChannelEntry) : List (Word × Nat) :=
  (if hasIn e then [(e.inLoc, 2 * e.inMaxW + 1)] else []) ++ (if hasOut e then [(e.outLoc, 2 * e.outMaxW + 1)] else [])

/-- Two ports share a row. -/
def portsMeet (a b : Word × Nat) : Bool :=
  locGg a.1 == locGg b.1 && decide (locRow a.1 < locRow b.1 + b.2) && decide (locRow b.1 < locRow a.1 + a.2)

/-- A port's place is wrong: EP not 0, rows beyond 3,071, an absent or unusable group. -/
def portPlaceBad (s : State) (p : Word × Nat) : Bool :=
  locEp p.1 != 0 || 3072 < locRow p.1 + p.2 || !dieHere s (locSite p.1) || usableGroups s (locGc p.1) ≤ locGroup p.1

/-- A row of the group at a location is named in the boundary map as a transactor port; is named at all. -/
def rowIsPort (i : Image) (loc : Word) (n : Nat) : Bool := i.bmap.any (fun b => portRow b.loc == portRow loc + n && bSource b == 3 && bMask b == 0xFFFF)
def rowNamed (i : Image) (loc : Word) (n : Nat) : Bool := i.bmap.any (fun b => portRow b.loc == portRow loc + n)

/-- Ranges of the fields of a channel map entry (R319): offset and whether it is wrong. -/
def channelFields (s : State) (e : ChannelEntry) : List (Bool × Nat) :=
  let bad (here : Bool) (v lo hi : Nat) : Bool := if here then v < lo || hi < v else v != 0
  let top := if e.format == 2 then 16 else 32
  [(wfld e.channel 15 10 != 0, 0), (wfld e.dir 7 2 != 0, 2), (2 < e.source.toNat, 3), (e.reserved, 0x1B),
    (bad (hasIn e) e.inMaxW 1 top, 0x10), (bad (hasOut e) e.outMaxW 1 top, 0x11), (63 < e.fgroup || (!hasIn e && e.fgroup != 0), 0x12),
    (15 < e.outRing || (!hasOut e && e.outRing != 0), 0x13), (bad (hasIn e) e.inDepth 4 1024, 0x14), (bad (hasOut e) e.outDepth 16 1024, 0x16),
    (hasOut e && e.outDepth < e.maxPkt + 8, 0x16), (bad (hasOut e) e.maxPkt 1 64, 0x18), (e.format != 2 && e.format != 3, 0x19),
    (if e.source == 2 then 7 < e.link || !dieHere s e.link else e.link != 0, 0x1A),
    (!hasIn e && e.inLoc != 0, 4), (!hasIn e && e.readyLoc != 0, 8), (!hasOut e && e.outLoc != 0, 0x0C)]

/-- An admitted partner die (R322). -/
def partnerHere (s : State) : Bool := s.acc.st == 4 && s.acc.kind == 2

/-- Transactor channel map (R319 to R322). -/
def checkChannels (s : State) (i : Image) : List FailItem :=
  checkHead i 0x41 i.channels.length 2 i.chanHead ++ (indexed i.channels).flatMap (fun (k, e) =>
    let before := i.channels.take k
    let others := before.flatMap portsOf
    let meets (p : Word × Nat) : Bool := others.any (portsMeet p)
      || 8 ≤ (others.filter (fun q => locGc q.1 == locGc p.1)).length
    let own := hasIn e && hasOut e && (portsMeet (e.inLoc, 2 * e.inMaxW + 1) (e.outLoc, 2 * e.outMaxW + 1)
      || (locGc e.inLoc == locGc e.outLoc && 7 ≤ (others.filter (fun q => locGc q.1 == locGc e.outLoc)).length))
    let chan := secItem i 0x41 anyScope (8 + 32 * k) (if hasIn e then e.inLoc else e.outLoc) 0xFFFF
    let related (here : Bool) (loc : Word) (maxW at0 : Nat) (bad : Nat → Bool) : List FailItem :=
      if here then (numsWhere (2 * maxW + 1) bad).map (fun n => higherItem (chan at0) (bmapAtRow i (portRow loc + n) 32 (chan at0))) else []
    related (hasIn e) e.inLoc e.inMaxW 4 (fun n => !rowIsPort i e.inLoc n) ++ related (hasOut e) e.outLoc e.outMaxW 0x0C (rowNamed i e.outLoc)
    ++ fieldsOf chan (channelFields s e ++ [
        (before.any (fun b => b.channel == e.channel), 0),
        (e.source == 1 && !partnerHere s, 3), (e.source == 2 && topoAt s (posOf s) e.link / 2 ^ 15 == 0, 0x1A),
        (hasIn e && (locRsv e.inLoc || portPlaceBad s (e.inLoc, 2 * e.inMaxW + 1) || meets (e.inLoc, 2 * e.inMaxW + 1)), 4),
        (hasOut e && (locRsv e.outLoc || portPlaceBad s (e.outLoc, 2 * e.outMaxW + 1) || meets (e.outLoc, 2 * e.outMaxW + 1) || own), 0x0C),
        (hasIn e && e.readyLoc != 0xFFFFFFFF && (locRsv e.readyLoc || i.hdr.depth ≤ locRow e.readyLoc || !dieHere s (locSite e.readyLoc)), 8),
        (229376 < ((before ++ [e]).map (fun c => c.inDepth + c.outDepth)).sum, 0x14)]))

/-- Port marks and freshness tables (R215, R216). -/
def checkAnnot (i : Image) : List FailItem :=
  i.marks.flatMap (fun (k, b) =>
    let gg := k / 4096
    let t := k % 4096
    fieldsOf (secItem i 0x50 (forClu (gg / 32)) (32 * t + gg % 32) (mkLoc (gg / 32) (gg % 32) 0 0) t) ((List.range 4).map (fun p =>
      let m := wfld b (2 * p + 1) (2 * p)
      (m == 3, 2 * p)))
    ++ ((numsWhere 4 (fun p => wfld b (2 * p + 1) (2 * p) != 0 && wfld b (2 * p + 1) (2 * p) != 3 && !rpEn (grpWord i gg t) p)).map (fun p =>
      higherItem (secItem i 0x50 (forClu (gg / 32)) (32 * t + gg % 32) (mkLoc (gg / 32) (gg % 32) 0 0) t (2 * p)) (instrItem i 0x11 k (48 + p)))))
  ++ (indexed i.fresh).flatMap (fun (k, f) =>
    let before := (i.fresh.take k).filter (fun g => g.gc == f.gc)
    fieldsOf (secItem i 0x51 (forClu f.gc) (4 * before.length) (mkLoc f.gc 0 0 0) (wfld f.w 11 0)) [
      (16384 ≤ before.length || before.any (fun g => wfld f.w 11 0 < wfld g.w 11 0), 0),
      (wfld f.w 18 12 < 64 || 111 < wfld f.w 18 12, 12), (bitOf f.w.toNat 19, 19)])

/-- Check 13. -/
def check13 (s : State) (i : Image) : List FailItem :=
  checkProbes i ++ checkCapture s i ++ checkChurn i ++ checkCells s i ++ checkBmap s i ++ checkChannels s i ++ checkAnnot i

/-! ### Check 14 and the order of the checks -/

/-- The left-hand side of R202 is at most a cap, for an activity quota. -/
def powerFits (s : State) (quota cap : Nat) : Bool :=
  let (leak, service, full2) := powerTerms s
  decide (2 * 13312 * (leak + service) + full2 * quota ≤ 2 * 13312 * cap)

/-- Check 14: power under budget discipline. -/
def check14 (s : State) (i : Image) : List FailItem := hdrItems [(!bitOf i.hdr.flags.toNat 0 && !powerFits s i.hdr.actQuota s.pwr.cap, 0x24)]

/-- The failing items of check n of R209. -/
def loadCheck (s : State) (j : LoadJob) (n : Nat) : List FailItem :=
  let i := j.image
  match n with
  | 1 => check1 s i j.bytes
  | 2 => check2 i
  | 3 => check3 s i j.slots
  | 4 => check4 i
  | 5 => check5 s i
  | 6 => check6 s i
  | 7 => check7 i
  | 8 => check8 i
  | 9 => check9 i
  | 10 => check10 s i
  | 11 => check11 s i
  | 12 => check12 s j
  | 13 => check13 s i
  | 14 => check14 s i
  | _ => []

/-- The item to report: the difference of the signature in check 5, otherwise the one at the lowest byte (log 31). -/
def firstItem (n : Nat) : List FailItem → Option FailItem
  | [] => none
  | f :: fs => if n == 5 then some f else some (fs.foldl (fun a b => if b.byte < a.byte then b else a) f)

/-- Status of a failing check (R366). -/
def checkStatus (n : Nat) (fit : Bool) : Nat :=
  match n with
  | 2 => 0x0620
  | 3 => 0x0420
  | 5 => 0x0305
  | 11 => 0x0302
  | 12 => if fit then 0x0320 else 0x0120
  | 14 => 0x0320
  | _ => 0x0120

/-- The load report (R213). -/
def loadReport (n status : Nat) (f : FailItem) (items : Nat) : List Word :=
  [packW [(0, 16, n), (16, 16, status)], lo32 f.sec, f.loc, packW [(0, 16, f.step), (16, 16, f.field)], lo32 f.byte, hi32 f.byte,
    lo32 (min items (2 ^ 32 - 1)), 0]

/-- The checks from number n on, `k` of them: the first that fails with its status and report. An uncorrectable error in the staged
copy that a check meets fails it with 0x0502. -/
def runChecks (s : State) (j : LoadJob) (uncorrAt : Option Nat) : Nat → Nat → Option (Nat × List Word)
  | 0, _ => none
  | k + 1, n =>
    if uncorrAt == some n then some (0x0502, loadReport n 0x0502 { hdrItem 0 with field := 0 } 0)
    else
      let items := loadCheck s j n
      match firstItem n items with
      | some f => some (checkStatus n f.fit, loadReport n (checkStatus n f.fit) f items.length)
      | none => runChecks s j uncorrAt k (n + 1)

/-- The last check that a load comes to, of `k` from number n on: the first that fails, or the last. -/
def checkReached (s : State) (j : LoadJob) : Nat → Nat → Nat
  | 0, n => n - 1
  | k + 1, n => if (loadCheck s j n).isEmpty then checkReached s j k (n + 1) else n

end Sys2Proof.Machine
end

