-- ==== Sys2Proof/Machine/Loader.lean ====
section
/-! DEFINITION. Machine/Loader.lean: what an image load, an image reset and an unload do (R128, R156, R183, R184, R209 to R212, R259, R284,
R303, R345, R434). -/
namespace Sys2Proof.Machine

/-! ### The parts of the device that a load or a reset sets -/

/-- Initial contents of rows, tiles and regions (R183, R194); a load under R434 keeps the regions. -/
def initialData (s : State) (i : Image) (keepRegions : Bool) : DataState :=
  { State.resetDs with
    rows := wrAll [] i.rows, tiles := wrAll [] i.tiles
    regions := if keepRegions then s.ds.regions
      else wrAll [] (i.regionInit.filter (fun e => i.regions.any (fun r => r.index == e.1 / 2 ^ 32 && decide (e.1 % 2 ^ 32 < r.words))))
    poison := if keepRegions then s.ds.poison else []
    failed := s.ds.failed
    spares := ((List.range (64 * nDies s)).filter (fun gc => (lookup s.ds.failed gc).isNone)).map (fun gc => (gc, holdWord, 0)) }

/-- Capture IDLE, ring discarded, probe values those of the initial contents (R224, R259). A load that keeps the checkpoint after a warm reset
leaves the areas where they were, and with them the ring, which stays readable (R244, R434; DESIGN CHOICE, log 28). -/
def initialCapture (s0 : State) (i : Image) (keep : Bool) : State :=
  let s := captureIdle s0
  let s := if keep then { s with cap := { s.cap with ring := s0.cap.ring, hdr := s0.cap.hdr, put := s0.cap.put, oldest := s0.cap.oldest } } else s
  { s with cap := { s.cap with dies := (diesOf s).map (fun d => (d, newCapDie (probeOnes s i d))) } }

/-- CAP_CTRL to CAP_AUTO_HI and the TRG_ registers take the image's section, or their reset values without one (R261). -/
def initialCapRegs (s : State) (i : Image) : State :=
  let mine (k : Nat) : Bool := k < 2 ^ 32 && ((fld k 27 20 == 5 && fld k 19 0 < 0x014) || (fld k 27 20 == 6 && fld k 19 0 < 0x180))
  let s := { s with regs := s.regs.filter (fun e => !mine e.1) }
  match i.capture with
  | none => s
  | some c =>
    let s := ((List.range 5).foldl (fun s n => putReg s 15 5 (4 * n) (par c.cap n)) s)
    c.trg.foldl (fun s e => putReg s e.1 6 e.2.1 e.2.2.toNat) s

/-- Churn engine of a die with its section of an image; the host ring and the records waiting stay (R284 to R286). -/
def initialEngine (s : State) (i : Image) (d : Nat) : ChurnDie :=
  let old := engineOf s d
  let keep (n : ChurnDie) : ChurnDie := { n with ring := old.ring, ringProd := old.ringProd, ringData := old.ringData, buf := old.buf, lostNext := old.lostNext }
  match i.churn.find? (fun c => c.die == d) with
  | none => keep (newEngine [] [] 0)
  | some c =>
    let n := newEngine (wrAll [] (indexed c.program)) (wrAll [] (indexed c.coeff)) c.program.length
    let w := wfld c.ctrl 5 1
    keep (if bitOf c.ctrl.toNat 0 then enableEngine n w 0 else { n with m := { n.m with wexp := w } })

/-- Counts of a channel that stay until it opens (R347). -/
def pastCounts (s : State) : List (Nat × Nat × Nat × Nat) :=
  s.trx.chans.foldl (fun m e => put m e.1 (e.2.inErr, e.2.outErr, e.2.cuts)) s.trx.past

/-- Completions of the flushes of every channel. -/
def flushAll (s : State) : State :=
  s.trx.chans.foldl (fun s e => e.2.flushed.foldl (fun s _ => flushDone s e.1) s) s

/-- Every channel closes; flushes that wait take effect, complete packets are still to be written, and counts stay (R343 to R345). -/
def discardChannels (s : State) : State :=
  let s := flushAll (closeAll s)
  let s := (s.trx.chans.map (·.1)).foldl (fun s c => dropReq s 6 (c + 1)) s
  let left := s.trx.chans.flatMap (fun e => (chanPackets e.1 e.2).map (fun p => (e.2.cfg.outRing, p)))
  { s with trx := { s.trx with chans := [], staged := [], readyCh := [], left := s.trx.left ++ left, past := pastCounts s } }

/-- Channels of an image's map, CLOSED, with the counts they had. -/
def initialChannels (past : List (Nat × Nat × Nat × Nat)) (i : Image) : List (Nat × Chan) :=
  i.channels.foldl (fun m e =>
    let c := wfld e.channel 9 0
    let p := (lookup past c).getD (0, 0, 0)
    put m c { newChan e with inErr := p.1, outErr := p.2.1, cuts := p.2.2 }) []

/-- Hazard detector after a load: the records that wait stay. -/
def initialHazards (h : HazState) (annot : Bool) : HazState :=
  { h with first := none, made := [], takes := [], noAnnot := !annot, haltPending := false }

/-- Design state as at DCN 0 of an image that is resident (R184, R211): data, capture, engines, log and checkpoint store, SLU_TOTAL. -/
def beginImage (s : State) (i : Image) (keepStore keepRegions : Bool) : State :=
  let s := { s with
    ds := initialData s i keepRegions
    seq := { s.seq with dcn := 0, tick := .idle, degrade := false, marker := 0 }
    haz := initialHazards s.haz (imgAnnot i)
    slu := { s.slu with total := 0, cyc := 0, fresh := true }
    casc := { s.casc with drive := [], delivered := [], rerun := none }
    ckp := if keepStore then { State.resetCkp with last := s.ckp.last, log := { emptyLog with entries := s.ckp.log.entries, freed := s.ckp.log.freed, seq := s.ckp.log.seq }, stale := true }
      else State.resetCkp
    md := { s.md with stops := [] } }
  let s := initialCapture s i keepStore
  let s := { s with chn := (diesOf s).map (fun d => (d, initialEngine s i d)) }
  if s.peers.isEmpty then s else sendFw s (.imageChanged (posOf s))

/-! ### IMAGE_LOAD -/

/-- Every check has passed (R211, R434). -/
def applyLoad (s : State) (j : LoadJob) : State :=
  let i := j.image
  let keep := keepsCheckpoint s i
  let (sp, lg, cow) := areasFor s j
  let granules := areaBytes s j / 4096
  let s := discardChannels s
  let s := { s with
    img := { s.img with
      resident := some i, loading := none, spillGb := sp, logMb := lg, cowGb := cow, golden := goldenBytes i, area := granules, free := granules - regionGranules i,
      warm := false, poison := if keep then s.img.poison else s.img.poison.filter (fun w => areaAt s (8 * w) == 0) }
    trx := { s.trx with chans := initialChannels s.trx.past i } }
  let s := beginImage s i keep keep
  let s := remark (initialCapRegs s i)
  if s.md.mode == .standby then modeEvent (setMode s .loaded .free false) 0 else s

/-- The staging area of a load that used it is freed as it completes (R370). -/
def freeStaging (s : State) (j : LoadJob) : State :=
  if j.staged then { s with img := { s.img with stageBytes := none, staged := [] } } else s

/-- The customer signature fails under the key of a slot that could verify it: one more for SEC_VERIFY_FAIL (R589, R593). -/
def signatureFails (s : State) (i : Image) : Bool :=
  match i.customer with
  | some c =>
    let st := slotOf? s c.slot
    (st.1 == .installed || st.1 == .locked) && c.key != some st.2
  | none => false

/-- IMAGE_LOAD_COMPLETE: the checks of R209 in their order, then the load; `uncorrAt`: the check in which the staged copy meets an
uncorrectable error. -/
def loadComplete (s : State) (uncorrAt : Option Nat) : State :=
  match s.img.loading with
  | none => s
  | some j =>
    match runChecks s j (if j.spoiled then some (max 1 j.check) else uncorrAt) 14 1 with
    | some (status, report) =>
      let s := if status == 0x0502 && !j.spoiled then ddrLost (tickFree s) id 0 none (Config.freeNat s.freeCtr) 0 0 else s
      let s := if status == 0x0420 && signatureFails s j.image then bumpIo s 0x17 0x018 32 1 else s
      completeAll { freeStaging s j with img := { (freeStaging s j).img with loading := none } } 0x0102 status report
    | none => completeAll (freeStaging (applyLoad s { j with image := decryptImage j.image }) j) 0x0102 0 (List.replicate 8 0)

/-! ### IMAGE_RESET and IMAGE_UNLOAD -/

/-- The resident image declares regions. -/
def hasRegions (s : State) : Bool := match s.img.resident with | some i => !i.regions.isEmpty | none => false

/-- IMAGE_RESET before its reply: everything but the regions; with regions the reset goes on until IMAGE_RESET_COMPLETE (R184). -/
def imageReset (s : State) : State :=
  match s.img.resident with
  | none => s
  | some i =>
    let s := flushAll (closeAll s)
    let s := beginImage s i false (hasRegions s)
    { s with img := { s.img with resetting := hasRegions s } }

/-- IMAGE_RESET_COMPLETE: every region is written. -/
def imageResetDone (s : State) : State :=
  match s.img.resident with
  | some i =>
    if s.img.resetting then
      let d := initialData s i false
      completeAll { s with ds := { s.ds with regions := d.regions, poison := d.poison }, img := { s.img with resetting := false } } 0x0104 0 []
    else s
  | none => s

/-- IMAGE_UNLOAD (R39, R259, R284, R345): LOADED to STANDBY. -/
def imageUnload (s : State) : State :=
  let s := captureIdle (discardChannels s)
  let s := { s with
    img := { s.img with resident := none, free := s.img.area }
    chn := s.chn.map (fun e => (e.1, { e.2 with m := { e.2.m with en := false, running := false }, pend := none }))
    seq := { s.seq with dcn := 0, tick := .idle, marked := [] }
    haz := { s.haz with noAnnot := false }
    md := { s.md with stops := [] } }
  modeEvent (setMode s .standby .free false) 0

/-- IMAGE_LOAD_COMPLETE (R209 to R213). -/
def execImageLoadComplete (uncorrAt : Option Nat) (s : State) : Host.Outcome State Fault Refusal := .next (unlessHeld s fun s => loadComplete s uncorrAt)
/-- IMAGE_RESET_COMPLETE (R184). -/
def execImageResetComplete (s : State) : Host.Outcome State Fault Refusal := .next (unlessHeld s fun s => imageResetDone s)
/-- FLUSH_TAKES_EFFECT (R340). -/
def execFlushTakesEffect (ch : Nat) (s : State) : Host.Outcome State Fault Refusal := .next (unlessHeld s fun s => flushDone s ch)

end Sys2Proof.Machine
end

