-- ==== Sys2Proof/Machine/Cmd.lean ====
section
/-! DEFINITION. Machine/Cmd.lean: how a command packet is taken, checked, relayed and answered (R46, R356 to R366, R370 to R379). The
opcodes themselves are in the Cmd<Family> files. -/
namespace Sys2Proof.Machine

/-- What a command answers: a status that refuses it, a status with an effect that the spec gives a failure (R591, R593), result words,
0x0001, or a reply that waits for a planned hold. -/
inductive Res where
  | refuse (status : Nat)
  | fail (status : Nat)
  | ok (words : List Word)
  | accept
  | defer
  deriving DecidableEq, Repr

/-- Fields of TARGET (R357). -/
def cSite (c : Cmd) : Nat := wfld c.target 3 0
def cPos (c : Cmd) : Nat := wfld c.target 19 16

/-- Parameter word i, two of them as a 64-bit number; the entry's bytes beyond PARAM_WORDS are ignored. -/
def cPar (c : Cmd) (i : Nat) : Nat := if i < c.nParams then par c.params i else 0
def cPar64 (c : Cmd) (i : Nat) : Nat := cPar c i + 2 ^ 32 * cPar c (i + 1)
/-- Parameter words i to i + n − 1. -/
def cWords (c : Cmd) (i n : Nat) : List Word := (List.range n).map (fun j => BitVec.ofNat 32 (cPar c (i + j)))

/-- What the opcode tables give an opcode: fewest and most parameter words, the modes of its line, whether it stands in HALTED besides
them, whether only the lead takes it, whether SITE names a compute die, whether it is a write refused while stepping. -/
structure OpSpec where
  pmin : Nat
  pmax : Nat
  modes : List Mode
  halted : Bool := false
  lead : Bool := false
  die : Bool := false
  write : Bool := false

/-- Mode letters of R370. -/
def mAll : List Mode := [.boot, .standby, .loaded, .run, .replay, .service]
def mSLRPV : List Mode := [.standby, .loaded, .run, .replay, .service]
def mSLRP : List Mode := [.standby, .loaded, .run, .replay]
def mLRP : List Mode := [.loaded, .run, .replay]

/-- The opcode tables (R370, R372, R373). -/
def opSpec : Nat → Option OpSpec
  | 0x0000 => some { pmin := 2, pmax := 2, modes := mAll }
  | 0x0001 => some { pmin := 0, pmax := 0, modes := mAll }
  | 0x0002 => some { pmin := 2, pmax := 2, modes := mSLRPV }
  | 0x0003 => some { pmin := 2, pmax := 240, modes := mSLRPV }
  | 0x0004 => some { pmin := 3, pmax := 3, modes := mSLRPV }
  | 0x0005 => some { pmin := 1, pmax := 1, modes := mSLRPV }
  | 0x0006 => some { pmin := 1, pmax := 1, modes := mSLRPV }
  | 0x0007 => some { pmin := 1, pmax := 1, modes := mSLRPV }
  | 0x0008 => some { pmin := 1, pmax := 1, modes := mSLRPV }
  | 0x0100 => some { pmin := 0, pmax := 0, modes := mSLRP }
  | 0x0101 => some { pmin := 2, pmax := 2, modes := [.standby, .loaded] }
  | 0x0102 => some { pmin := 6, pmax := 6, modes := [.standby, .loaded] }
  | 0x0103 => some { pmin := 0, pmax := 0, modes := [.loaded] }
  | 0x0104 => some { pmin := 0, pmax := 0, modes := [.loaded] }
  | 0x0105 => some { pmin := 0, pmax := 0, modes := mLRP }
  | 0x0200 => some { pmin := 1, pmax := 3, modes := [.loaded], lead := true }
  | 0x0201 => some { pmin := 0, pmax := 0, modes := [.run], lead := true }
  | 0x0202 => some { pmin := 1, pmax := 3, modes := [], halted := true, lead := true }
  | 0x0203 => some { pmin := 0, pmax := 0, modes := [.run], lead := true }
  | 0x0204 => some { pmin := 0, pmax := 0, modes := mLRP, lead := true }
  | 0x0300 => some { pmin := 2, pmax := 2, modes := mLRP }
  | 0x0301 => some { pmin := 2, pmax := 240, modes := [.loaded], halted := true, write := true }
  | 0x0302 => some { pmin := 3, pmax := 3, modes := mLRP }
  | 0x0303 => some { pmin := 3, pmax := 240, modes := [.loaded], halted := true, write := true }
  | 0x0304 => some { pmin := 3, pmax := 3, modes := mLRP }
  | 0x0305 => some { pmin := 3, pmax := 240, modes := [.loaded], halted := true, write := true }
  | 0x0306 => some { pmin := 0, pmax := 0, modes := mSLRPV }
  | 0x0307 => some { pmin := 6, pmax := 6, modes := [.loaded], halted := true }
  | 0x0308 => some { pmin := 6, pmax := 6, modes := [.loaded], halted := true, write := true }
  | 0x0400 => some { pmin := 0, pmax := 0, modes := mSLRP }
  | 0x0401 => some { pmin := 0, pmax := 0, modes := mLRP, lead := true }
  | 0x0402 => some { pmin := 0, pmax := 0, modes := mLRP }
  | 0x0403 => some { pmin := 0, pmax := 0, modes := mLRP }
  | 0x0404 => some { pmin := 4, pmax := 4, modes := mLRP }
  | 0x0500 => some { pmin := 0, pmax := 0, modes := mSLRP }
  | 0x0501 => some { pmin := 6, pmax := 6, modes := mLRP, die := true }
  | 0x0502 => some { pmin := 3, pmax := 3, modes := mLRP, die := true }
  | 0x0503 => some { pmin := 3, pmax := 240, modes := mLRP, die := true }
  | 0x0600 => some { pmin := 0, pmax := 0, modes := mSLRP }
  | 0x0601 => some { pmin := 0, pmax := 0, modes := [.loaded, .run], lead := true }
  | 0x0602 => some { pmin := 3, pmax := 3, modes := [.loaded], lead := true }
  | 0x0603 => some { pmin := 0, pmax := 0, modes := [.replay], lead := true }
  | 0x0604 => some { pmin := 4, pmax := 4, modes := [.loaded] }
  | 0x0605 => some { pmin := 4, pmax := 4, modes := [.loaded] }
  | 0x0700 => some { pmin := 1, pmax := 1, modes := mSLRP }
  | 0x0701 => some { pmin := 6, pmax := 6, modes := [.loaded, .run] }
  | 0x0702 => some { pmin := 1, pmax := 1, modes := [.loaded, .run] }
  | 0x0703 => some { pmin := 1, pmax := 1, modes := mLRP }
  | 0x0704 => some { pmin := 7, pmax := 7, modes := [.standby, .loaded, .run] }
  | 0x0800 => some { pmin := 1, pmax := 1, modes := mAll }
  | 0x0801 => some { pmin := 1, pmax := 1, modes := mAll }
  | 0x0802 => some { pmin := 1, pmax := 1, modes := [.standby, .loaded, .service] }
  | 0x0803 => some { pmin := 2, pmax := 2, modes := [.standby, .loaded, .service] }
  | 0x0900 => some { pmin := 0, pmax := 0, modes := mAll }
  | 0x0901 => some { pmin := 3, pmax := 3, modes := mSLRPV }
  | 0x0902 => some { pmin := 2, pmax := 2, modes := mSLRPV }
  | 0x0903 => some { pmin := 2, pmax := 2, modes := mSLRPV }
  | 0x0A00 => some { pmin := 2, pmax := 2, modes := mAll }
  | 0x0A01 => some { pmin := 10, pmax := 10, modes := mSLRPV }
  | 0x0A02 => some { pmin := 1, pmax := 240, modes := mSLRPV }
  | 0x0A03 => some { pmin := 1, pmax := 240, modes := [.standby, .loaded] }
  | 0x0A04 => some { pmin := 1, pmax := 240, modes := mSLRPV }
  | 0x0B00 => some { pmin := 0, pmax := 0, modes := mSLRPV }
  | 0x0B01 => some { pmin := 0, pmax := 0, modes := [.standby] }
  | 0x0B02 => some { pmin := 0, pmax := 0, modes := [.service] }
  | 0x0B03 => some { pmin := 5, pmax := 5, modes := mSLRPV }
  | 0x0B04 => some { pmin := 1, pmax := 1, modes := mSLRPV }
  | 0x0B05 => some { pmin := 2, pmax := 2, modes := mSLRPV }
  | 0x0B06 => some { pmin := 7, pmax := 7, modes := mSLRPV }
  | 0x0B07 => some { pmin := 0, pmax := 240, modes := [.service] }
  | 0x0C00 => some { pmin := 5, pmax := 5, modes := [.boot] }
  | 0x0C01 => some { pmin := 6, pmax := 6, modes := mSLRP }
  | 0x0C02 => some { pmin := 1, pmax := 1, modes := mAll }
  | _ => none

/-- Families that a mode admits at all (R46). -/
def familyIn (m : Mode) (fam : Nat) : Bool :=
  match m with
  | .boot => [0x00, 0x08, 0x09, 0x0A, 0x0C].contains fam
  | .standby => fam != 0x02
  | .loaded | .run | .replay => true
  | .service => [0x00, 0x03, 0x08, 0x09, 0x0A, 0x0B, 0x0C].contains fam

/-- The opcode's own modes (check 6): 0, 0x0205 for a write while stepping, 0x0202 otherwise. -/
def modeStatus (s : State) (o : OpSpec) : Nat :=
  if o.modes.contains s.md.mode || (o.halted && isHalted s) then 0
  else if o.write && (s.md.mode == .run || s.md.mode == .replay) then 0x0205 else 0x0202

/-- An opcode whose packet must hold exactly as many words as it names: (words before the values, place of the count, values per word). -/
def countedWords : Nat → Option (Nat × Nat × Nat)
  | 0x0003 => some (2, 1, 1)
  | 0x0301 => some (2, 1, 2)
  | 0x0303 => some (3, 2, 2)
  | 0x0305 => some (3, 2, 2)
  | 0x0503 => some (3, 2, 1)
  | _ => none

/-- Words of the security opcodes by their OP (R584, R591, R592). -/
def opWords (op : Nat) (c : Cmd) : Option Nat :=
  match op with
  | 0x0A02 => (match fld (cPar c 0) 1 0 with | 0 => some 34 | 1 => some 1 | 2 => some 2 | _ => none)
  | 0x0A03 => if fld (cPar c 0) 6 4 == 0 then some 17 else if fld (cPar c 0) 6 4 ≤ 3 then some 1 else none
  | 0x0A04 => if cPar c 0 == 0 then some 1 else if cPar c 0 == 1 then some 33 else none
  | _ => none

/-- PARAM_WORDS is right for the opcode; a step count needs its words, and values need exactly theirs. -/
def paramsOk (op : Nat) (o : OpSpec) (c : Cmd) : Bool :=
  decide (o.pmin ≤ c.nParams) && decide (c.nParams ≤ o.pmax)
    && (match countedWords op with
      | some (n, k, per) => c.nParams == n + cdiv (cPar c k) per
      | none => match opWords op c with
        | some n => c.nParams == n
        | none => if op == 0x0200 || op == 0x0202 then c.nParams == 3 || (c.nParams == 1 && fld (cPar c 0) 1 0 != 1) else true)

/-- Check 1 of R362: reserved bits, opcode, PARAM_WORDS. -/
def headerStatus (op : Nat) (c : Cmd) : Nat :=
  if wfld c.flags 15 1 != 0 || c.rsvd != 0 || wfld c.target 15 4 != 0 || wfld c.target 31 20 != 0 then 0x0104
  else match opSpec op with
    | none => 0x0101
    | some o => if paramsOk op o c then 0 else 0x0102

/-- The path has agreed on a command set (R367). -/
def negotiated (s : State) (p : Path) : Bool :=
  match p with
  | .pcie => s.io.version.isSome
  | .session id => s.sec.sessions.any (fun x => x.id == id && x.version.isSome)
  | .relay _ _ => true

/-- Check 2. -/
def negotiateStatus (s : State) (op : Nat) (c : Cmd) : Nat :=
  if op == 0x0000 || op == 0x0001 || negotiated s c.path then 0 else 0x0605

/-- The opcode's parameters name host memory (R379). -/
def namesHost (op : Nat) (c : Cmd) : Bool :=
  [0x0307, 0x0308, 0x0404, 0x0501, 0x0704, 0x0604, 0x0605, 0x0A01, 0x0B03, 0x0C00, 0x0C01].contains op
    || (op == 0x0102 && cPar c 0 == 0) || (op == 0x0701 && cPar c 3 != 0)

/-- TARGET (check 5): SITE 9 to 14 names nothing; for an opcode that acts on a compute die, SITE names a present one. -/
def targetStatus (s : State) (o : OpSpec) (op : Nat) (c : Cmd) : Nat :=
  let d := cSite c
  if 9 ≤ d && d < 15 then 0x0105
  else if o.die || (op == 0x0006 && cPar c 0 == 1) then (if d == 15 then 0x0105 else if d < nDies s then 0 else 0x0107)
  else 0

/-- Command on a management port, of this device or of the one that relays it, whose parameters name host memory (R358, R379). -/
def pathStatus (op : Nat) (c : Cmd) : Nat :=
  match c.path with
  | .session _ | .relay _ true => if namesHost op c then 0x0108 else 0
  | _ => 0

/-- The site off the I/O die that a command reaches: that of a register, a row, a tile, a churn engine or the end that answers for a link. -/
def reachedSite (op : Nat) (c : Cmd) : Option Nat :=
  match op with
  | 0x0002 | 0x0003 | 0x0004 | 0x0300 | 0x0301 | 0x0302 | 0x0303 => some (fld (cPar c 0) 31 28)
  | 0x0501 | 0x0502 | 0x0503 => some (cSite c)
  | 0x0800 | 0x0801 =>
    let n := fld (cPar c 0) 5 1
    some (if bitOf (cPar c 0) 0 then moduleSite n else n)
  | _ => none

/-- A command that reaches a unit behind the spillway (R466). -/
def behindSpillway (s : State) (op : Nat) (c : Cmd) : Bool :=
  match reachedSite op c with
  | some d => s.net.spill.contains d
  | none => false

/-- The first non-zero status. -/
def firstBad : List Nat → Nat
  | [] => 0
  | x :: xs => if x != 0 then x else firstBad xs

/-- Checks 3 to 6 of R362; `chk` is the opcode's own check of parameters. -/
def statusOf (s : State) (op : Nat) (chk : State → Cmd → Nat) (c : Cmd) : Nat :=
  match opSpec op with
  | none => 0x0101
  | some o => firstBad [if familyIn s.md.mode (op / 256) then 0 else 0x0201, if o.lead && !isLead s then 0x0208 else 0, targetStatus s o op c,
      pathStatus op c, chk s c, modeStatus s o]

/-- Change one session. -/
def mapSession (s : State) (id : Word) (f : Session → Session) : State :=
  { s with sec := { s.sec with sessions := s.sec.sessions.map (fun x => if x.id == id then f x else x) } }

/-! ### Taking and answering (R356, R358, R359, R361, R364) -/

/-- Write a reply into the reply ring. -/
def writeReply (s : State) (r : Reply) : State :=
  let prod := reg s (bkey 0x103C)
  let i := prod.toNat % 2 ^ (reg s (bkey 0x1038)).toNat
  let s := { s with io := { s.io with replies := put s.io.replies i r } }
  let s := setReg s (bkey 0x103C) (prod + 1)
  finishDisable (signal (writeBack s) (wfld (reg s (bkey 0x100C)) 5 0))

/-- Send a reply on the command's path; a session keeps the replies of its last 16 commands (R378). A device in SAFE HOLD answers nothing
(R364). -/
def sendReply (s : State) (p : Path) (r : Reply) : State :=
  if inSafeHold s then s
  else match p with
  | .pcie => writeReply s r
  | .session id =>
    let s := { s with sec := { s.sec with
      sessions := s.sec.sessions.map (fun x => if x.id == id then { x with replies := ((r.seq, r) :: x.replies).take 16 } else x) } }
    sendMgmt s id (.inl r)
  | .relay q _ => { s with net := { s.net with
      relayBack := ((q, .inl r) :: s.net.relayBack).take 16, out := s.net.out ++ [vn3Packet s q 0x39 (bytesWords (replyPacket r))] } }

/-- The reply of a command now; `flags`: 1 TAKEOVER, 2 RELAYED. -/
def mkReply (s : State) (op : Nat) (c : Cmd) (status flags : Nat) (ws : List Word) : Reply := {
  opcode := op, status := status, flags := flags, tag := c.tag, dcnLo := dcnLo s, seq := c.seq
  results := if status ≤ 1 then ws else [] }

/-- Answer a command with a status and words. -/
def answer (s : State) (op : Nat) (c : Cmd) (status : Nat) (ws : List Word) : State := sendReply s c.path (mkReply s op c status 0 ws)

/-- A command that waits. -/
def waitingOf (op : Nat) (c : Cmd) : Waiting := { opcode := op, tag := c.tag, path := c.path, cmd := c, quiet := false, tko := false }

/-- Every earlier command of the path has been answered, and for an ORDERED one completed (R361). -/
def inOrder (s : State) (c : Cmd) : Bool :=
  s.io.deferred.all (fun w => w.path != c.path) && s.io.relayed.all (fun r => r.path != c.path || r.accepted)
    && (!bitOf c.flags.toNat 0 || (s.io.waiting.isEmpty && s.io.relayed.isEmpty))

/-- The ring has an entry that the device can take: EN stays set, the reply has room, and the entry before has its reply (R355, R356, R361). -/
def ringWork (s : State) : Bool :=
  ringsOn s && !s.io.stopping && reg s (bkey 0x101C) != reg s (bkey 0x1020) && replyRoom s && !ringBusy s

/-- Steps from a command's SEQ up to the one that its session expects next: 0 for a new command, 1 to 16 for a repeated one (R378). -/
def seqBack (x : Session) (c : Cmd) : Nat := match x.nextSeq with | some n => (n - c.seq).toNat | none => 0

/-- A source is served again only after the ring, where that has work (R363): whether other sources have, the state does not show (log 68). -/
def turnOf (s : State) (c : Cmd) : Bool := c.path == .pcie || s.io.served != some c.path || !ringWork s

/-- The device can take a command now: not in SAFE HOLD, nor with its outputs disabled (R617), in its source's turn; from the ring an entry is
there and the reply has room (R356, R364); in a session SEQ is that of a new command (R378). -/
def canTake (s : State) (c : Cmd) : Bool :=
  !inSafeHold s && !s.pwr.disabled && inOrder s c && turnOf s c
    && (match c.path with
      | .pcie => ringWork s
      | .session id => s.sec.sessions.any (fun x => x.id == id && seqBack x c == 0)
      | .relay _ _ => true)

/-- The entry is consumed, or the session's SEQ moves on. -/
def takeEntry (s : State) (c : Cmd) : State :=
  let s := { s with io := { s.io with served := some c.path } }
  match c.path with
  | .pcie => setReg s (bkey 0x1020) (reg s (bkey 0x1020) + 1)
  | .session id => mapSession s id (fun x => { x with nextSeq := some (c.seq + 1) })
  | .relay _ _ => s

/-- Count a dropped datagram or command (R377, R378). -/
def dropDatagram (s : State) (off : Nat) : State := bumpIo s 0x17 off 32 1

/-- A session's command that is not taken (R378): a repeated one has its stored reply sent again, any other SEQ is dropped and counted. -/
def repeated (s : State) (id : Word) (c : Cmd) : State :=
  if inSafeHold s then s
  else match s.sec.sessions.find? (fun x => x.id == id) with
    | none => s
    | some x =>
      if seqBack x c == 0 then s
      else if 16 < seqBack x c then dropDatagram s 0x014
      else match x.replies.find? (fun e => e.1 == c.seq) with
        | some e => sendMgmt s id (.inl e.2)
        | none => s

/-- Positions that a set of positions reaches over version 3 board links (R358, R495), by the topology the controllers know. -/
def reachStep (s : State) (ps : List Nat) : List Nat :=
  (ps.flatMap (fun p => (List.range 8).filterMap (fun d =>
    let t := topoAt s p d
    if bitOf t 15 && !bitOf t 14 then some (fld t 3 0) else none))).foldl ins ps
def reachN (s : State) : Nat → List Nat → List Nat
  | 0, ps => ps
  | n + 1, ps => reachN s n (reachStep s ps)
/-- A route leads to a position. -/
def reaches (s : State) (p : Nat) : Bool := (reachN s 16 [posOf s]).contains p

/-- Relay a command (R358). -/
def relay (s : State) (op : Nat) (c : Cmd) : State :=
  let p := cPos c
  if !s.peers.any (fun q => q.pos == p) then answer s op c 0x0105 []
  else if !reaches s p then sendReply s c.path (mkReply s op c 0x0504 2 [])
  else { s with
    io := { s.io with relayed := s.io.relayed ++ [{ pos := p, opcode := op, tag := c.tag, seq := c.seq, accepted := false, path := c.path, tko := false }] }
    net := { s.net with
      relayOut := ((p, op, c) :: s.net.relayOut).take 16, out := s.net.out ++ [vn3Packet s p 0x38 (bytesWords (commandPacket op c))] } }

/-- The lead fixes a planned hold, in which its own work is `w`, and tells every device (R41, R142); the DCN is a free value (log 8). -/
def fixHold (s : State) (w : Option HoldWork) : State :=
  let n := chooseDcn s
  sendFw (tickFree { s with slu := { s.slu with agreed := s.slu.agreed ++ [(n, w)] } }) (.orderHold n)

/-- A planned hold for a host access is agreed (R94, R142): another device asks the lead for it. -/
def agreeHold (s : State) (w : HoldWork) : State :=
  if s.slu.agreed.any (fun a => a.2 == some w) then s
  else if isLead s then fixHold s (some w)
  else sendFw s (.holdRequest (posOf s))

/-- The lead's planned hold on another device: reads that wait there are its work (R142, R143). -/
def joinHold (s : State) (dcn : Nat) : State :=
  if stepping s then
    { s with slu := { s.slu with agreed := s.slu.agreed ++ [(dcn, if s.io.deferred.isEmpty then none else some .hostAccess)] } }
  else s

/-- What a command's answer does: a refusal leaves the state u in which it was run; a command that is to complete later waits, of which
there are at most 64 (check 7); a read of design state while stepping waits for a planned hold. -/
def settle (u : State) (op : Nat) (c : Cmd) : State × Res → State
  | (_, .refuse st) => answer u op c st []
  | (s', .fail st) => answer s' op c st []
  | (s', .ok ws) => answer s' op c 0 ws
  | (s', .accept) =>
    if 64 ≤ u.io.waiting.length then answer u op c 0x0306 []
    else answer { s' with io := { s'.io with waiting := s'.io.waiting ++ [waitingOf op c] } } op c 1 []
  | (s', .defer) => agreeHold { s' with io := { s'.io with deferred := s'.io.deferred ++ [waitingOf op c] } } .hostAccess

/-- A check has refused the command: one of its opcode's own, or no place is left among those that wait (R361, R362). -/
def refusedBy (u : State) : Res → Bool
  | .refuse _ => true
  | .accept => decide (64 ≤ u.io.waiting.length)
  | _ => false

/-- Run a command that has passed check 2 on this device: checks 3 to 7, effect, answer. The access of a command that no check refuses is
answered by the spillway where its unit is isolated, and counted (R466). -/
def runCmd (op : Nat) (chk : State → Cmd → Nat) (act : State → Cmd → State × Res) (c : Cmd) (s : State) : State :=
  let st := statusOf s op chk c
  let r := act s c
  if st != 0 then answer s op c st []
  else if behindSpillway s op c && !refusedBy s r.2 then answer (countNoc s 0x00C) op c 0x0501 []
  else settle s op c r

/-- A command row: take the packet, check it, relay it or run it (R358, R362). A relayed one has passed checks 1 and 2 elsewhere. -/
def hostCmd (op : Nat) (chk : State → Cmd → Nat) (act : State → Cmd → State × Res) (c : Cmd) (s : State) : State :=
  if !canTake s c then (match c.path with | .session id => repeated s id c | _ => s)
  else
    let s := takeEntry s c
    match c.path with
    | .relay _ _ => runCmd op chk act c s
    | _ =>
      let st := firstBad [headerStatus op c, negotiateStatus s op c]
      if st != 0 then answer s op c st []
      else if cPos c != posOf s then relay s op c
      else runCmd op chk act c s

/-- The status codes that can end a command (R366): all of the table but 0x0001. -/
def finalStatus (n : Nat) : Bool :=
  [0x0000, 0x0101, 0x0102, 0x0103, 0x0104, 0x0105, 0x0106, 0x0107, 0x0108, 0x0120, 0x0201, 0x0202, 0x0203, 0x0204, 0x0205, 0x0206, 0x0207, 0x0208,
    0x0301, 0x0302, 0x0303, 0x0304, 0x0305, 0x0306, 0x0307, 0x0320, 0x0401, 0x0402, 0x0403, 0x0420, 0x0501, 0x0502, 0x0503, 0x0504, 0x0601, 0x0602, 0x0604, 0x0605,
    0x0620].contains n

/-- No parameter to check. -/
def noCheck (_ : State) (_ : Cmd) : Nat := 0

end Sys2Proof.Machine
end

