-- ==== Sys2Proof/Machine/DieOps.lean ====
section
/-! DEFINITION. Machine/DieOps.lean: the loss and the return of one compute die (R310, R406, R465, R468). -/
namespace Sys2Proof.Machine

/-- A register of a compute die that its reset clears: all but the trigger registers, which its reinitialisation writes again, since the
capture goes on without a gap (R259, R406; DEDUCED, log 51). -/
def dieRegister (d k : Nat) : Bool := k < 2 ^ 32 && k / 2 ^ 28 == d && fld k 27 20 != 6

/-- The fabric of a compute die: its regions UNCONFIGURED, what their frames held gone (R402, R406). -/
def dropFabric (s : State) (d : Nat) : State :=
  let mine (r : Nat) : Bool := r < 32 && r / 4 == d
  let l := s.fab.logic
  let s := { s with fab := { s.fab with
    regions := s.fab.regions.filter (fun e => !mine e.1), loads := s.fab.loads.filter (fun e => !mine e.1)
    logic := { l with
      frames := l.frames.filter (fun e => !mine (addrRegion e.1)), on := l.on.filter (fun n => !(nodeRegion n).any mine)
      ffs := l.ffs.filter (fun n => !mine (tileRegion (n / 16))), cross := l.cross.filter (fun c => !mine c.region), fresh := l.fresh.filter (fun r => !mine r) } } }
  completeWhere s (fun w => w.opcode == 0x0C01 && mine (cPar w.cmd 0)) 0x0501 []

/-- The churn engine of a reset die: as the image gives it, its result buffer lost; its ring is the I/O die's (DESIGN CHOICE, log 51). -/
def dropEngine (s : State) (d : Nat) : State :=
  let c := match s.img.resident with | some i => initialEngine s i d | none => { newEngine [] [] 0 with ring := (engineOf s d).ring, ringProd := (engineOf s d).ringProd, ringData := (engineOf s d).ringData }
  { s with chn := s.chn.map (fun e => if e.1 == d then (d, { c with buf := [], lostNext := false, lastLeft := e.2.lastLeft }) else e) }

/-- Modules and the board link of a reset die train again from the start, with credits and weirs anew (R465, R468). -/
def dropLinks (s : State) (d : Nat) : State :=
  let ms := dieModules s d
  { s with
    net := { s.net with spill := ins s.net.spill d, credits := s.net.credits.filter (fun e => !ms.contains (e.1 / 16)) }
    ucie := s.ucie.map (fun e => (e.1, if ms.contains e.1 then { e.2 with st := 2, proto := 0, heard := [] } else e.2))
    bl := s.bl.map (fun e => (e.1, if e.1 == d then { State.resetLink with st := 2 } else e.2))
    phys := s.phys.filter (fun e => !(e.1 / 8 == d || (e.1 % 8 != 0 && (e.1 / 8 + e.1 % 8) % 8 == d))) }

/-- A compute die is reset (R406, R465): the spillway engages, the die's registers, fabric, engine, capture SRAM and links start anew, and the
board needs the recovery of R310. -/
def loseDie (s : State) (d cause : Nat) : State :=
  let s := dropEngine (dropFabric (dropLinks s d) d) d
  let s := buildRoutes { s with
    regs := s.regs.filter (fun e => !dieRegister d e.1)
    err := { s.err with scrub := s.err.scrub.filter (fun e => e.1 / 16 != d) }
    pwr := { s.pwr with seen := s.pwr.seen.filter (fun x => x != d), railUs := del s.pwr.railUs d }
    trc := { s.trc with bufs := del s.trc.bufs (d + 2) } }
  needRecovery (loseSram s d) { cls := 3, cause := cause, unit := siteLoc d }

/-- Every module of a die has trained again (R468). -/
def dieTrained (s : State) (d : Nat) : Bool :=
  (dieModules s d).all (fun m => match modOf s m with | some u => modTrained u && u.proto != 0 | none => true)

end Sys2Proof.Machine
end

