-- ==== Sys2Proof/Machine/RunOps.lean ====
section
/-! DEFINITION. Machine/RunOps.lean: what starts and stops stepping on a device of the board, by its own command on the lead or by the
lead's order (R38 to R43, R101, R156, R199, R295, R306 to R308, R316, R403). -/
namespace Sys2Proof.Machine

/-! ### Conditions of a run start and a replay start -/

/-- Ingress channels of a die's board link that the image names lie below the peer's share (R118, R199). -/
def ingressOk (s : State) (i : Image) : Bool :=
  let ok (d ch : Nat) : Bool := decide (ch < rxShare s d 0)
  i.inPort.all (fun e => !(srcV e.2 && srcKind e.2 == 1 && wfld e.2 12 10 == 0) || ok (e.1 / 65536 / 64) (wfld e.2 9 0))
  && i.egress.all (fun e => !(bitOf e.w1.toNat 15 && wfld e.w1 14 13 == 1 && wfld e.w1 12 10 == 0) || ok e.die (wfld e.w1 9 0))

/-- Transmit share, in channels, that the image of a position declares on the board link of a die. -/
def boardShareAt (s : State) (pos die : Nat) : Nat :=
  if pos == posOf s then (match s.img.resident with | some i => shareOf i die 0 | none => 0)
  else match s.peers.find? (fun p => p.pos == pos) with | some p => 16 * (lookup p.share (8 * die)).getD 0 | none => 0

/-- The ingress channels that another device's image names lie below the share of the device at the far end of each link (R199). -/
def peerIngressOk (s : State) (p : Peer) : Bool :=
  p.named.all (fun e =>
    let t := (lookup p.topology e.1).getD 0
    bitOf t 15 && decide (e.2 ≤ boardShareAt s (t % 16) (fld t 6 4)))

/-- Every device of the board holds a matching image (R101, R199). -/
def imagesMatch (s : State) : Bool :=
  match s.img.resident with
  | none => false
  | some i =>
    s.peers.length + 1 == i.hdr.devices && ingressOk s i && s.peers.all (peerIngressOk s)
      && s.peers.all (fun p => p.mode == 2 && p.setId == i.hdr.setId && p.depth == i.hdr.depth && p.discipline == bitOf i.hdr.flags.toNat 0
        && p.sigDigest == i.hdr.sigDigest)

/-- A region is connected: the resident image binds a cell or a direct pin of it (R403). -/
def connected (s : State) (r : Nat) : Bool :=
  match s.img.resident with
  | none => false
  | some i => i.portCells.any (fun e => if pcKind e ≤ 1 then cellRegion (pcNum e) == r else r == 32)

/-- A connected region is LOADING or INVALID. -/
def fabricBars (s : State) : Bool :=
  s.fab.regions.any (fun e => (e.2 == .loading || e.2 == .invalid) && connected s e.1)

/-- An image load or reset is in progress on the board (R184, R212). -/
def boardBusy (s : State) : Bool := s.img.loading.isSome || s.img.resetting || s.peers.any (·.busy)

/-- Status of what bars a run start and a replay start alike, the board's images apart. -/
def startBars (s : State) : Nat :=
  if boardBusy s then 0x0204 else if s.ckp.recovery.isSome || fabricBars s then 0x0202 else 0

/-! ### Starts -/

/-- SLU_TOTAL clears at the first start after a load or reset of any device, which its controllers tell the others (R156). -/
def clearTotals (s : State) : State :=
  if s.slu.fresh then { s with slu := { s.slu with total := 0, fresh := false } } else s

/-- Enter RUN stepping or HALTED at the DCN that reads; the checkpoint of R295 is taken where `ckp` says so. -/
def enterRun (s : State) (sub : Sub) (debug : Bool) (n : Nat) (ckp : Bool) : State :=
  let s := if sub == .halted then s else resumeLogging s
  let s := { s with
    md := { s.md with stops := [] }, seq := { s.seq with tick := if sub == .halted then .idle else .step 0 }
    haz := { s.haz with haltPending := false } }
  let s := if sub == .stepN then fixStop s (s.seq.dcn + n - 1) .stepN else s
  let s := modeEvent (setMode s .run sub debug) s.seq.dcn
  if ckp then startCheckpoint s false else s

/-- RUN_START on a device (R39, R295). -/
def startRun (s : State) (sub : Sub) (debug : Bool) (n : Nat) (ckp : Bool) : State :=
  let s := clearTotals s
  enterRun { s with haz := { s.haz with first := none, seq := 0 }, seq := { s.seq with recent := [] }, net := { s.net with marksIn := [] } } sub debug n ckp

/-- RUN_RESUME on a device: the debug flag stays (R38). -/
def resumeRun (s : State) (sub : Sub) (n : Nat) (ckp : Bool) : State := enterRun s sub s.md.debug n ckp

/-- A run start takes a checkpoint unless the last one holds this DCN on every device and no host write has followed; a resume does
when host writes total more than 16 MB (R295). -/
def needsStartCkp (s : State) : Bool :=
  lastCkpDcn s != some s.seq.dcn || s.ckp.hostBytes != 0 || s.peers.any (fun p => p.ckpDcn != some s.seq.dcn || p.wrote != 0)
def needsResumeCkp (s : State) : Bool :=
  decide (16 * 2 ^ 20 < s.ckp.hostBytes) || s.peers.any (fun p => decide (16 * 2 ^ 20 < p.wrote))

/-- Sub-state of P0 [1:0]. -/
def subOf (n : Nat) : Sub := if n == 1 then .stepN else if n == 2 then .halted else .free

/-- A stop of a device that does not step: LOADED at once. -/
def stopHalted (s : State) : State :=
  modeEvent (setMode { s with md := { s.md with stops := [] }, seq := { s.seq with tick := .idle } } .loaded .free false) (lastDcn s)

/-! ### Replay -/

/-- DCN at which the board's logs end: the least over the devices. -/
def boardLogEnd (s : State) : Nat := s.peers.foldl (fun a p => min a p.logEnd) (logReach s).1

/-- REPLAY_START on a device (R306, R308): restore the last checkpoint and step from the log; where nothing is to be stepped, HALTED at
once. -/
def startReplay (s : State) (target : Option Nat) (debug : Bool) : State :=
  match s.ckp.last with
  | none => s
  | some c =>
    let s := clearTotals s
    let s := if s.ckp.log.cut.isSome then s else closeHostWrites s
    let s := restoreFrom s c
    let s := { s with
      ckp := { s.ckp with
        replay := some { target := target, debug := debug }, stale := false, badDcn := none, kept := none, collected := none
        log := { s.ckp.log with heldHost := [], host := [], cut := none } }
      casc := { s.casc with delivered := [], rerun := none }
      chn := s.chn.map (fun e => (e.1, { e.2 with lastLeft := none, mute := none }))
      md := { s.md with stops := [] }, haz := { s.haz with first := none, seq := 0, haltPending := false } }
    let s := modeEvent (setMode s .replay .free false) c.dcn
    let fin := boardLogEnd s
    if target == some c.dcn then endReplay s .run
    else if fin ≤ c.dcn then endReplay (setLogErr s (logReach s).2) .run
    else
      let s := applyHostWrites s
      let s := match target with | some t => fixStop s (t - 1) .replayTarget | none => s
      fixStop s (fin - 1) .replayLog

/-! ### Commands of family 0x02 (R372, R373) -/

/-- P0 of RUN_START and RUN_RESUME: reserved bits, sub-state, N of STEP-N. -/
def runPars (subs : List Nat) (lowRsvd : Nat) (c : Cmd) : Nat :=
  if cPar c 0 / 2 ^ lowRsvd != 0 then 0x0104
  else if !subs.contains (fld (cPar c 0) 1 0) then 0x0103
  else if fld (cPar c 0) 1 0 == 1 && (cPar64 c 1 < 1 || 2 ^ 48 < cPar64 c 1) then 0x0103
  else 0

/-- RUN_START. -/
def chkRunStart (_ : State) (c : Cmd) : Nat := runPars [0, 1, 2] 3 c
def actRunStart (s : State) (c : Cmd) : State × Res :=
  if startBars s != 0 then (s, .refuse (startBars s))
  else if s.ckp.stale || s.peers.any (·.stale) then (s, .refuse 0x0202)
  else if !imagesMatch s || s.peers.any (fun p => p.dcn != s.seq.dcn) then (s, .refuse 0x0203)
  else
    let sub := fld (cPar c 0) 1 0
    let dbg := bitOf (cPar c 0) 2
    let ck := needsStartCkp s
    let s' := sendFw s (.orderRunStart sub dbg (cPar64 c 1) ck)
    (startRun s' (subOf sub) dbg (cPar64 c 1) ck, .ok (dwords s.seq.dcn))

/-- RUN_HALT: in HALTED the DCN it halted at. -/
def actRunHalt (s : State) (_ : Cmd) : State × Res :=
  if isHalted s then (s, .ok (dwords (lastDcn s)))
  else
    let r := stopAt s (stopLow s) .halt
    (r.1, .ok (dwords r.2))

/-- RUN_RESUME. -/
def chkRunResume (_ : State) (c : Cmd) : Nat := runPars [0, 1] 2 c
def actRunResume (s : State) (c : Cmd) : State × Res :=
  if s.ckp.recovery.isSome then (s, .refuse 0x0202)
  else
    let sub := fld (cPar c 0) 1 0
    let ck := needsResumeCkp s
    let s' := sendFw s (.orderResume sub (cPar64 c 1) ck)
    (resumeRun s' (subOf sub) (cPar64 c 1) ck, .ok (dwords s.seq.dcn))

/-- RUN_STOP: from HALTED at once. -/
def actRunStop (s : State) (_ : Cmd) : State × Res :=
  if isHalted s then (stopHalted (sendFw s (.orderStop (lastDcn s))), .ok (dwords (lastDcn s)))
  else
    let r := stopAt s (stopLow s) .runStop
    (r.1, .ok (dwords r.2))

/-- RUN_STATUS. -/
def actRunStatus (s : State) (_ : Cmd) : State × Res :=
  (s, .ok (hsbMode s :: dwords s.seq.dcn ++ dwords s.slu.total ++ [BitVec.ofNat 32 s.seq.marked.length]))

/-- RUN_START (R39, R199, R295). -/
def execRunStart (c : Cmd) (s : State) : Host.Outcome State Fault Refusal := .next (hostCmd 0x0200 chkRunStart actRunStart c s)
/-- RUN_HALT (R42, R373). -/
def execRunHalt (c : Cmd) (s : State) : Host.Outcome State Fault Refusal := .next (hostCmd 0x0201 noCheck actRunHalt c s)
/-- RUN_RESUME (R43). -/
def execRunResume (c : Cmd) (s : State) : Host.Outcome State Fault Refusal := .next (hostCmd 0x0202 chkRunResume actRunResume c s)
/-- RUN_STOP (R39, R373). -/
def execRunStop (c : Cmd) (s : State) : Host.Outcome State Fault Refusal := .next (hostCmd 0x0203 noCheck actRunStop c s)
/-- RUN_STATUS (R372). -/
def execRunStatus (c : Cmd) (s : State) : Host.Outcome State Fault Refusal := .next (hostCmd 0x0204 noCheck actRunStatus c s)

end Sys2Proof.Machine
end

