-- ==== Sys2Proof/Machine/CmdDevice.lean ====
section
/-! DEFINITION. Machine/CmdDevice.lean: command families 0x00 device and 0x01 image (R184, R202, R203, R208, R210, R212, R310, R367 to
R371, R406). -/
namespace Sys2Proof.Machine

/-! ### Family 0x00 -/

/-- NEGOTIATE: version 1.0, where the range holds it (R367). -/
def actNegotiate (s : State) (c : Cmd) : State × Res :=
  if cPar c 0 ≤ 0x10000 && 0x10000 ≤ cPar c 1 then
    let s' := match c.path with
      | .pcie => { s with io := { s.io with version := some 0x10000 } }
      | .session id => { s with sec := { s.sec with
          sessions := s.sec.sessions.map (fun x => if x.id == id then { x with version := some 0x10000 } else x) } }
      | .relay _ _ => s
    (s', .ok [0x10000])
  else (s, .refuse 0x0601)

/-- IDENTIFY (R371). -/
def actIdentify (s : State) (_ : Cmd) : State × Res := (s, .ok (identWords s ++ dwords s.ident.serial.toNat ++ [0, 0]))

/-- A register address of P0 with a count of 1 to `top`. -/
def regRange (s : State) (c : Cmd) (n top : Nat) : Nat := if n < 1 || top < n then 0x0103 else regCheck s (BitVec.ofNat 32 (cPar c 0)) n
/-- SITE, BLOCK and offset of P0. -/
def regAt (c : Cmd) : Nat × Nat × Nat := (fld (cPar c 0) 31 28, fld (cPar c 0) 27 20, fld (cPar c 0) 19 0)

/-- REG_READ. -/
def chkRegRead (s : State) (c : Cmd) : Nat := regRange s c (cPar c 1) 240
def actRegRead (s : State) (c : Cmd) : State × Res :=
  let (site, b, off) := regAt c
  let r := readRegs (cPar c 1) s site b off
  (r.1, .ok r.2)

/-- REG_WRITE; CAP_ and TRG_ registers only in IDLE and FROZEN (R259). -/
def chkRegWrite (s : State) (c : Cmd) : Nat := regRange s c (cPar c 1) 238
def actRegWrite (s : State) (c : Cmd) : State × Res :=
  let (site, b, off) := regAt c
  if capBarred s b then (s, .refuse 0x0206) else (writeRegs s site b off (cWords c 2 (cPar c 1)), .ok [])

/-- REG_MODIFY: one read, then the write with the masked bits replaced. -/
def chkRegModify (s : State) (c : Cmd) : Nat := regRange s c 1 1
def actRegModify (s : State) (c : Cmd) : State × Res :=
  let (site, b, off) := regAt c
  if capBarred s b then (s, .refuse 0x0206)
  else
    let r := readReg s site b off
    let m := BitVec.ofNat 32 (cPar c 1)
    (writeReg r.1 site b off ((r.2 &&& ~~~m) ||| (BitVec.ofNat 32 (cPar c 2) &&& m)), .ok [r.2])

/-- SIGNATURE_GET (R196, R370, R636). -/
def chkSignature (s : State) (c : Cmd) : Nat := if s.ctl.sig.length / 4 < cPar c 0 then 0x0103 else 0
def actSignature (s : State) (c : Cmd) : State × Res :=
  let g := s.ctl.sig
  (s, .ok (BitVec.ofNat 32 g.length :: digestWords (sm3 g) ++ ((bytesWords g).drop (cPar c 0)).take 231))

/-- RESET: 0 a warm reset that is due 1 s after the reply; 1 the reset of the compute die SITE (R310, R406). -/
def chkReset (_ : State) (c : Cmd) : Nat := if cPar c 0 ≤ 1 then 0 else 0x0103
def actReset (s : State) (c : Cmd) : State × Res :=
  if cPar c 0 == 0 then ({ s with boot := { s.boot with resetDue := true } }, .ok []) else (loseDie s (cSite c) 0x0801, .accept)

/-- POWER_CAP (R202, R203): 0 queries. -/
def chkPowerCap (_ : State) (c : Cmd) : Nat := if cPar c 0 == 0 || (300 ≤ cPar c 0 && cPar c 0 ≤ 700) then 0 else 0x0103
def actPowerCap (s : State) (c : Cmd) : State × Res :=
  let w := cPar c 0
  let bars := match s.img.resident with | some i => !bitOf i.hdr.flags.toNat 0 && !powerFits s i.hdr.actQuota w | none => false
  if w == 0 then (s, .ok [BitVec.ofNat 32 s.pwr.cap])
  else if bars then (s, .refuse 0x0303)
  else ({ s with pwr := { s.pwr with cap := w } }, .ok [BitVec.ofNat 32 w])

/-- EVENT_MASK. -/
def actEventMask (s : State) (c : Cmd) : State × Res := ({ s with io := { s.io with mask := BitVec.ofNat 32 (cPar c 0) } }, .ok [s.io.mask])

/-- NEGOTIATE. -/
def execNegotiate (c : Cmd) (s : State) : Host.Outcome State Fault Refusal := .next (hostCmd 0x0000 noCheck actNegotiate c s)
/-- IDENTIFY. -/
def execIdentify (c : Cmd) (s : State) : Host.Outcome State Fault Refusal := .next (hostCmd 0x0001 noCheck actIdentify c s)
/-- REG_READ (R369). -/
def execRegRead (c : Cmd) (s : State) : Host.Outcome State Fault Refusal := .next (hostCmd 0x0002 chkRegRead actRegRead c s)
/-- REG_WRITE (R369). -/
def execRegWrite (c : Cmd) (s : State) : Host.Outcome State Fault Refusal := .next (hostCmd 0x0003 chkRegWrite actRegWrite c s)
/-- REG_MODIFY (R369). -/
def execRegModify (c : Cmd) (s : State) : Host.Outcome State Fault Refusal := .next (hostCmd 0x0004 chkRegModify actRegModify c s)
/-- SIGNATURE_GET. -/
def execSignatureGet (c : Cmd) (s : State) : Host.Outcome State Fault Refusal := .next (hostCmd 0x0005 chkSignature actSignature c s)
/-- RESET with P0 = 0, as the packet gives it. -/
def execResetWarm (c : Cmd) (s : State) : Host.Outcome State Fault Refusal := .next (hostCmd 0x0006 chkReset actReset c s)
/-- RESET with P0 = 1, as the packet gives it. -/
def execResetDie (c : Cmd) (s : State) : Host.Outcome State Fault Refusal := .next (hostCmd 0x0006 chkReset actReset c s)
/-- POWER_CAP. -/
def execPowerCap (c : Cmd) (s : State) : Host.Outcome State Fault Refusal := .next (hostCmd 0x0007 chkPowerCap actPowerCap c s)
/-- EVENT_MASK. -/
def execEventMask (c : Cmd) (s : State) : Host.Outcome State Fault Refusal := .next (hostCmd 0x0008 noCheck actEventMask c s)

/-! ### Family 0x01 -/

/-- A load or a reset of an image is in progress. -/
def imageBusy (s : State) : Bool := s.img.loading.isSome || s.img.resetting

/-- IMAGE_STATUS. The checks end in one row, IMAGE_LOAD_COMPLETE; how far they are before it is a free value that never falls and never passes
the first check that fails (log 31). -/
def actImageStatus (s : State) (_ : Cmd) : State × Res :=
  let setId := match s.img.resident with | some i => dwords i.hdr.setId.toNat | none => [0, 0]
  match s.img.loading with
  | some j =>
    let n := min (checkReached s j 14 1) (max j.check (Config.freeNat s.freeCtr % 15))
    (tickFree { s with img := { s.img with loading := some { j with check := n } } },
      .ok ([1, BitVec.ofNat 32 n] ++ setId ++ [BitVec.ofNat 32 (depthOf s)]))
  | none => (s, .ok ([if s.img.resident.isSome then 2 else 0, 0] ++ setId ++ [BitVec.ofNat 32 (depthOf s)]))

/-- Bytes of the design area that are free for staging: in LOADED the free part, always enough in STANDBY (R208). -/
def noStagingRoom (s : State) (bytes : Nat) : Bool := s.md.mode == .loaded && decide (4096 * s.img.free < bytes)

/-- Bytes that a load in its own staging area needs beside the area that IMAGE_STAGE has reserved (R208). -/
def besideStaging (s : State) (bytes : Nat) : Nat := bytes + 4096 * cdiv (s.img.stageBytes.getD 0) 4096

/-- IMAGE_STAGE: the area that an earlier one reserved is freed. -/
def actImageStage (s : State) (c : Cmd) : State × Res :=
  let n := cPar64 c 0
  if s.img.loading.isSome then (s, .refuse 0x0204)
  else if noStagingRoom s n then (s, .refuse 0x0301)
  else ({ s with img := { s.img with stageBytes := some n, staged := [] } }, .ok [lo32 (cdiv n (2 ^ 28))])

/-- Bytes that are no image. -/
def noImage : Image := {
  hdr := {
    magic := 0, fmtMajor := 0, fmtMinor := 0, hdrBytes := 0, flags := 0, imageBytes := 0, setId := 0, depth := 0, devicePos := 0,
    devices := 0, actQuota := 0, secTable := 0, sigDigest := 0, bodyDigest := 0, stepShare := [], vn2 := [], reserved := none }
  table := [], measured := 0, gap := none, sig := [], ep := [], grp := [], clu := [], badCheck := [], cluPad := [], inPort := [], egress := [],
  desc := [], bmapHead := { count := 0, reserved := false }, bmap := [], rows := [], tiles := [], regions := [], regionInit := [], probes := [], capture := none, churn := [],
  cellHead := { count := 0, reserved := false }, portCells := [], chanHead := { count := 0, reserved := false }, channels := [], marks := [], fresh := [], customer := none }

/-- IMAGE_LOAD: a load that names BAR2 staging needs an area of its size. -/
def chkImageLoad (s : State) (c : Cmd) : Nat :=
  if 1 < cPar c 0 then 0x0103
  else if cPar c 0 == 1 && (match s.img.stageBytes with | some n => n < cPar64 c 4 | none => false) then 0x0103 else 0
def actImageLoad (s : State) (c : Cmd) : State × Res :=
  if imageBusy s then (s, .refuse 0x0204)
  else if cPar c 0 == 1 && s.img.stageBytes.isNone then (s, .refuse 0x0202)
  else if noStagingRoom s (if cPar c 0 == 0 then besideStaging s (cPar64 c 4) else cPar64 c 4) then (s, .refuse 0x0301)
  else
    let i := match c.data with | .image i => i | _ => noImage
    ({ s with img := { s.img with
      loading := some { image := i, bytes := cPar64 c 4, slots := secSlots s, staged := cPar c 0 == 1, logMb := logSetting s, cowGb := ioReg s 0x08 0x014, check := 0 } } }, .accept)

/-- IMAGE_UNLOAD. -/
def actImageUnload (s : State) (_ : Cmd) : State × Res := if imageBusy s then (s, .refuse 0x0204) else (imageUnload s, .ok [])

/-- IMAGE_RESET. -/
def actImageReset (s : State) (_ : Cmd) : State × Res :=
  if imageBusy s then (s, .refuse 0x0204) else (imageReset s, if hasRegions s then .accept else .ok [])

/-- IMAGE_DIGEST. -/
def actImageDigest (s : State) (_ : Cmd) : State × Res :=
  match s.img.resident with
  | some i => if s.img.loading.isSome then (s, .refuse 0x0204) else (s, .ok (dwords i.hdr.setId.toNat ++ digestWords i.hdr.bodyDigest ++ digestWords i.hdr.sigDigest))
  | none => (s, .refuse 0x0202)

/-- IMAGE_STATUS. -/
def execImageStatus (c : Cmd) (s : State) : Host.Outcome State Fault Refusal := .next (hostCmd 0x0100 noCheck actImageStatus c s)
/-- IMAGE_STAGE. -/
def execImageStage (c : Cmd) (s : State) : Host.Outcome State Fault Refusal := .next (hostCmd 0x0101 noCheck actImageStage c s)
/-- IMAGE_LOAD. -/
def execImageLoad (c : Cmd) (s : State) : Host.Outcome State Fault Refusal := .next (hostCmd 0x0102 chkImageLoad actImageLoad c s)
/-- IMAGE_UNLOAD. -/
def execImageUnload (c : Cmd) (s : State) : Host.Outcome State Fault Refusal := .next (hostCmd 0x0103 noCheck actImageUnload c s)
/-- IMAGE_RESET. -/
def execImageReset (c : Cmd) (s : State) : Host.Outcome State Fault Refusal := .next (hostCmd 0x0104 noCheck actImageReset c s)
/-- IMAGE_DIGEST. -/
def execImageDigest (c : Cmd) (s : State) : Host.Outcome State Fault Refusal := .next (hostCmd 0x0105 noCheck actImageDigest c s)

end Sys2Proof.Machine
end

