-- ==== Sys2Proof/Machine/CmdMemory.lean ====
section
/-! DEFINITION. Machine/CmdMemory.lean: command family 0x03, design memories (R93 to R96, R142, R184, R185, R370, R633), and the end of
the work of a planned hold. -/
namespace Sys2Proof.Machine

/-! ### Waiting commands -/

/-! ### Checks of the parameters -/

/-- The site of a location address is a present compute die. -/
def dieStatus (s : State) (w : Nat) : Nat :=
  let d := fld w 31 28
  if 8 ≤ d then 0x0105 else if d < nDies s then 0 else 0x0107

/-- ROW_READ and ROW_WRITE: location, a count of 1 to `top`. -/
def chkRows (top : Nat) (s : State) (c : Cmd) : Nat :=
  let w := cPar c 0
  let l := BitVec.ofNat 32 w
  if bitOf w 12 then 0x0104
  else if locEp l != 0 || cPar c 1 < 1 || top < cPar c 1 || 3072 < locRow l + cPar c 1 then 0x0103
  else if dieStatus s w != 0 then dieStatus s w
  else if usableGroups s (locGc l) ≤ locGroup l then 0x0105
  else 0

/-- TILE_READ and TILE_WRITE: a cluster, a unit address. -/
def chkTiles (top : Nat) (s : State) (c : Cmd) : Nat :=
  let w := cPar c 0
  if bitOf w 12 then 0x0104
  else if w % 2 ^ 22 != 0 || cPar c 2 < 1 || top < cPar c 2 || 2 ^ 20 < cPar c 1 + cPar c 2 then 0x0103
  else dieStatus s w

/-- REGION_READ and REGION_WRITE: a declared region, its words. -/
def chkRegion (top : Nat) (s : State) (c : Cmd) : Nat :=
  match regionDecl s (cPar c 0) with
  | none => 0x0103
  | some r => if cPar c 2 < 1 || top < cPar c 2 || r.words < cPar c 1 + cPar c 2 then 0x0103 else 0

/-- REGION_DMA_READ and REGION_DMA_WRITE: bytes a multiple of 4 KB up to 1 GB, within the region's granules. -/
def chkRegionDma (s : State) (c : Cmd) : Nat :=
  match regionDecl s (cPar c 0) with
  | none => 0x0103
  | some r =>
    let n := cPar c 5
    if n % 4096 != 0 || n == 0 || 2 ^ 30 < n || 2048 * r.granules < cPar64 c 1 + n / 2 then 0x0103 else 0

/-! ### Reads: at once, or in a planned hold while the board steps (R94, R185) -/

/-- Values of a read command: a status that refuses it, or its words. -/
def readValues (s : State) (op : Nat) (c : Cmd) : Nat × List Word :=
  let l := BitVec.ofNat 32 (cPar c 0)
  match op with
  | 0x0300 => (0, packHalves ((List.range (cPar c 1)).map (fun j => rd s.ds.rows (4096 * locGg l + locRow l + j))))
  | 0x0302 => (0, packHalves ((List.range (cPar c 2)).map (fun j => rd s.ds.tiles (2 ^ 20 * locGc l + cPar c 1 + j))))
  | _ =>
    if s.img.resetting then (0x0204, [])
    else if regionPoisoned s (cPar c 0) (cPar c 1) (cPar c 2) then (0x0502, [])
    else (0, packHalves (regionWords s (cPar c 0) (cPar c 1) (cPar c 2)))

/-- A read command. -/
def actRead (op : Nat) (s : State) (c : Cmd) : State × Res :=
  if op == 0x0304 && s.img.resetting then (s, .refuse 0x0204)
  else if modeSteps s then (s, .defer)
  else
    let r := readValues s op c
    if r.1 != 0 then (if r.1 == 0x0502 then ddrPoisonRead s (poisonAddr s (cPar c 0) (cPar c 1) (cPar c 2)) 0 0 else s, .refuse r.1) else (s, .ok r.2)

/-- Serve every read that waits for a planned hold; an endpoint reset has taken the ring of some (R407). -/
def serveReads (s : State) : State :=
  let ws := s.io.deferred
  ws.foldl (fun s w =>
    if w.quiet then s
    else
      let r := readValues s w.opcode w.cmd
      let s := if r.1 == 0x0502 then ddrPoisonRead s (poisonAddr s (cPar w.cmd 0) (cPar w.cmd 1) (cPar w.cmd 2)) 0 0 else s
      sendReply s w.path (mkReply s w.opcode w.cmd r.1 (b2n w.tko) r.2)) { s with io := { s.io with deferred := [] } }

/-! ### Writes -/

/-- ROW_WRITE. -/
def actRowWrite (s : State) (c : Cmd) : State × Res :=
  if modeSteps s then (s, .refuse 0x0205)
  else (hostWrite s 0 (BitVec.ofNat 32 (cPar c 0)) 0 (unpackHalves (cWords c 2 (c.nParams - 2)) (cPar c 1)), .ok [])
/-- TILE_WRITE. -/
def actTileWrite (s : State) (c : Cmd) : State × Res :=
  if modeSteps s then (s, .refuse 0x0205)
  else (hostWrite s 1 (BitVec.ofNat 32 (cPar c 0)) (cPar c 1) (unpackHalves (cWords c 3 (c.nParams - 3)) (cPar c 2)), .ok [])
/-- REGION_WRITE. -/
def actRegionWrite (s : State) (c : Cmd) : State × Res :=
  if s.img.resetting then (s, .refuse 0x0204)
  else if modeSteps s then (s, .refuse 0x0205)
  else (hostWrite s 2 (BitVec.ofNat 32 (cPar c 0)) (cPar c 1) (unpackHalves (cWords c 3 (c.nParams - 3)) (cPar c 2)), .ok [])

/-- DDR_INFO. -/
def actDdrInfo (s : State) (_ : Cmd) : State × Res :=
  (s, .ok [regValue s 15 0x03 0x000, regValue s 15 0x03 0x004, BitVec.ofNat 32 s.img.free])

/-! ### DMA (log 32) -/

/-- REGION_DMA_READ: the words are read as REGION_DMA_COMPLETE comes. -/
def actDmaRead (s : State) (_ : Cmd) : State × Res :=
  if s.img.resetting then (s, .refuse 0x0204) else if modeSteps s then (s, .refuse 0x0202) else (s, .accept)
/-- REGION_DMA_WRITE: the words are in the region from its acceptance on. -/
def actDmaWrite (s : State) (c : Cmd) : State × Res :=
  if s.img.resetting then (s, .refuse 0x0204)
  else if modeSteps s then (s, .refuse 0x0205)
  else
    let ws := match c.data with | .words ws => ws | _ => []
    let s := hostWriteRegion (cPar c 5 / 4096) s (cPar c 0) (cPar64 c 1) (unpackHalves ws (cPar c 5 / 2))
    (clearPoison s (2 ^ 32 * cPar c 0 + cPar64 c 1) (cPar c 5 / 2), .accept)

/-- A region transfer. -/
def isDma (w : Waiting) : Bool := w.opcode == 0x0307 || w.opcode == 0x0308

/-- The words of a region transfer that came other than good, by DDR5 word of the transfer; those that hold poison are not among them. -/
def dmaWord (c : Cmd) (r : State × Bool) (f : Nat × DdrWordFound) : State × Bool :=
  let k := 2 ^ 32 * cPar c 0 + (cPar64 c 1 / 4 + f.1) * 4
  if cPar c 5 / 2 ≤ 4 * f.1 || r.1.ds.poison.contains (k / 4) then r
  else
    let q := ddrWordRead r.1 (fun s => poisonWord s k) (ddrWordAddr r.1 k) f.2
    (q.1, r.2 && q.2)

/-- REGION_DMA_COMPLETE of the oldest transfer; `found`: the words of a read that the code did not find good. -/
def dmaComplete (s : State) (found : List (Nat × DdrWordFound)) : State :=
  match firstWaiting s isDma with
  | none => s
  | some w =>
    if w.opcode == 0x0308 then completeFirst s isDma 0 []
    else
      let c := w.cmd
      let n := cPar c 5 / 2
      let old := regionPoisoned s (cPar c 0) (cPar64 c 1) n
      let s := if old then ddrPoisonRead s (poisonAddr s (cPar c 0) (cPar64 c 1) n) 0 0 else s
      let r := found.foldl (dmaWord c) (s, !old)
      let s := r.1
      if !r.2 then completeFirst s isDma 0x0502 []
      else
        let s := { s with io := { s.io with dma := put s.io.dma (cPar64 c 3) (packHalves (regionWords s (cPar c 0) (cPar64 c 1) n)) } }
        completeFirst s isDma 0 []

/-! ### The work of a planned hold ends (R142, R292) -/

/-- PLANNED_HOLD_WORK_END: reads are served, the checkpoint's copy is whole, or the DDR writes are committed. Reads that still wait when
the board no longer steps are served then as well. -/
def holdWorkEnd (s : State) (w : HoldWork) : State :=
  let has := match s.slu.hold with | some h => h.work.contains w | none => false
  match w with
  | .hostAccess =>
    if has then endWork (serveReads s) .hostAccess
    else if !modeSteps s then
      let s := serveReads s
      { s with slu := { s.slu with agreed := s.slu.agreed.filter (fun a => a.2 != some .hostAccess) } }
    else s
  | .checkpoint =>
    if has then
      let s := endWork s .checkpoint
      match s.ckp.busy with
      | some c => if isLead s && s.peers.isEmpty then s else sendFw s (.ckpComplete (posOf s) c.dcn)
      | none => s
    else s
  | .ddrCommit => if has then endWork s .ddrCommit else s

/-- ROW_READ. -/
def execRowRead (c : Cmd) (s : State) : Host.Outcome State Fault Refusal := .next (hostCmd 0x0300 (chkRows 480) (actRead 0x0300) c s)
/-- ROW_WRITE. -/
def execRowWrite (c : Cmd) (s : State) : Host.Outcome State Fault Refusal := .next (hostCmd 0x0301 (chkRows 476) actRowWrite c s)
/-- TILE_READ. -/
def execTileRead (c : Cmd) (s : State) : Host.Outcome State Fault Refusal := .next (hostCmd 0x0302 (chkTiles 480) (actRead 0x0302) c s)
/-- TILE_WRITE. -/
def execTileWrite (c : Cmd) (s : State) : Host.Outcome State Fault Refusal := .next (hostCmd 0x0303 (chkTiles 474) actTileWrite c s)
/-- REGION_READ. -/
def execRegionRead (c : Cmd) (s : State) : Host.Outcome State Fault Refusal := .next (hostCmd 0x0304 (chkRegion 480) (actRead 0x0304) c s)
/-- REGION_WRITE. -/
def execRegionWrite (c : Cmd) (s : State) : Host.Outcome State Fault Refusal := .next (hostCmd 0x0305 (chkRegion 474) actRegionWrite c s)
/-- DDR_INFO. -/
def execDdrInfo (c : Cmd) (s : State) : Host.Outcome State Fault Refusal := .next (hostCmd 0x0306 noCheck actDdrInfo c s)
/-- REGION_DMA_READ. -/
def execRegionDmaRead (c : Cmd) (s : State) : Host.Outcome State Fault Refusal := .next (hostCmd 0x0307 chkRegionDma actDmaRead c s)
/-- REGION_DMA_WRITE. -/
def execRegionDmaWrite (c : Cmd) (s : State) : Host.Outcome State Fault Refusal := .next (hostCmd 0x0308 chkRegionDma actDmaWrite c s)
/-- REGION_DMA_COMPLETE. -/
def execRegionDmaComplete (found : List (Nat × DdrWordFound)) (s : State) : Host.Outcome State Fault Refusal := .next (unlessHeld s fun s => dmaComplete s found)
/-- PLANNED_HOLD_WORK_END. -/
def execPlannedHoldWorkEnd (w : HoldWork) (s : State) : Host.Outcome State Fault Refusal := .next (unlessHeld s fun s => holdWorkEnd s w)

end Sys2Proof.Machine
end

