-- ==== Sys2Proof/Machine/CmdCapture.lean ====
section
/-! DEFINITION. Machine/CmdCapture.lean: command families 0x04 capture and 0x05 churn (R226, R235, R240, R243, R245, R253, R255, R282,
R284, R370, R515). -/
namespace Sys2Proof.Machine

/-! ### Family 0x04 -/

/-- CAP_INFO: the spec gives R7 no content (log 9). -/
def actCapInfo (s : State) (_ : Cmd) : State × Res :=
  (tickFree s, .ok (capStatus s :: dwords s.cap.armDcn ++ dwords (s.cap.trigDcn.getD 0) ++ dwords (s.cap.endDcn.getD 0)
    ++ [Config.freeWord s.freeCtr, BitVec.ofNat 32 s.cap.ring.length]))

/-- A comparator of a die breaks R255 with the resident image's probes. -/
def badComparators (s : State) : Bool :=
  match s.img.resident with
  | none => false
  | some i => (diesOf s).any (fun d =>
      let ps := (probesOf i d).map (·.index)
      (List.range 16).any (fun c => cmpBad (trgReg s d (16 * c)) || (cmpUnused (fun n => ps.contains n) (trgReg s d (16 * c))).isSome))

/-- The deep-capture die is there and admitted (R245). -/
def deepCapture (s : State) : Bool := s.ident.accessory == 0x44 && s.acc.st == 4

/-- What bars an arm. -/
def armStatus (s : State) : Nat :=
  if s.cap.armAt.isSome || (s.cap.mode != .idle && s.cap.mode != .frozen) then 0x0206
  else if !capSkim s && sepBad (winExp s) (depthOf s) (nDevices s) then 0x0206
  else if badComparators s then 0x0206
  else if !capTarget s && s.img.spillGb < capReg s 0x004 then 0x0301
  else if capTarget s && !deepCapture s then 0x0304
  else 0

/-- CAP_ registers that an arm carries to the other devices. -/
def capWords (s : State) : List Word := (List.range 5).map (fun n => BitVec.ofNat 32 (capReg s (4 * n)))

/-- CAP_ARM: at once, or at the end of B15 of the cycle that the lead chooses (R240). The other devices take the configuration that the lead
holds now, the lead what it holds then: DESIGN CHOICE of log 62. -/
def actCapArm (s : State) (_ : Cmd) : State × Res :=
  if armStatus s != 0 then (s, .refuse (armStatus s))
  else if stepping s then
    let e := chooseDcn s
    let s := sendFw (tickFree s) (.orderArm (some (e + 1)) (capWords s))
    ({ s with cap := { s.cap with armAt := some e } }, .ok (dwords (e + 1)))
  else (armNow (sendFw s (.orderArm none (capWords s))) s.seq.dcn, .ok (dwords s.seq.dcn))

/-- The lead drives CASCADE0 with cause 2 or CASCADE1 with cause 7 in the next slot (R253). -/
def hostCascade (s : State) (stop : Bool) : State :=
  if isLead s then { s with casc := { s.casc with drive := s.casc.drive ++ [if stop then (1, 7, 15) else (0, 2, 15)] } }
  else sendFw s (.cascadeRequest stop)

/-- CAP_TRIGGER: ignored outside ARMED. -/
def actCapTrigger (s : State) (_ : Cmd) : State × Res := (if s.cap.mode == .armed then hostCascade s false else s, .ok [])
/-- CAP_STOP: ignored outside ARMED and TRIGGERED. -/
def actCapStop (s : State) (_ : Cmd) : State × Res := (if capturing s then hostCascade s true else s, .ok [])

/-- CAP_READ: a readable ring only; a first block that the ring does not hold is out of range. -/
def chkCapRead (s : State) (c : Cmd) : Nat :=
  if cPar c 1 < 1 || 65536 < cPar c 1 || (ringReadable s && s.cap.ring.length ≤ cPar c 0) then 0x0103 else 0
def actCapRead (s : State) (_ : Cmd) : State × Res := if ringReadable s then (s, .accept) else (s, .refuse 0x0206)

/-- SOURCE of a block: position and die. -/
def blockSource (b : Block) : Nat := b.pos + 16 * b.die

/-- A block as CAP_READ writes it: a poisoned one with a zero body (R515). -/
def blockOut (b : Block) : List Word := if b.poison then (blockWords b).take 8 ++ List.replicate 1016 0 else blockWords b

/-- A block of the ring in which an uncorrectable word is found, or that is poisoned already (R513, R515). -/
def blockFault (s : State) (b : Block) (found : Bool) : State :=
  if b.poison then ddrPoisonRead (tickFree s) (Config.freeNat s.freeCtr) (blockSource b) b.seq
  else if found then ddrLost (tickFree s) id 0 none (Config.freeNat s.freeCtr) (blockSource b) b.seq
  else s

/-- CAP_READ_COMPLETE: `poisoned` are the blocks, counted from the oldest, in which the read meets an uncorrectable word. -/
def capReadComplete (s : State) (poisoned : List Nat) : State :=
  let p (w : Waiting) : Bool := w.opcode == 0x0404
  match firstWaiting s p with
  | none => s
  | some w =>
    let first := cPar w.cmd 0
    let bs := (s.cap.ring.drop first).take (cPar w.cmd 1)
    let s := (bs.zipIdx).foldl (fun s b => blockFault s b.1 (poisoned.contains (first + b.2))) s
    let bs := (bs.zipIdx).map (fun b => { b.1 with poison := b.1.poison || poisoned.contains (first + b.2) })
    let s := { s with cap := { s.cap with ring := s.cap.ring.take first ++ bs ++ s.cap.ring.drop (first + bs.length) } }
    let s := { s with io := { s.io with
      dma := (bs.zipIdx).foldl (fun d b => put d (cPar64 w.cmd 2 + 4096 * b.2) (blockOut b.1)) s.io.dma } }
    completeFirst s p 0 [BitVec.ofNat 32 bs.length]

/-! ### Family 0x05 -/

/-- CHN_INFO: CHN_STATUS of dies 0 to 7, 0 for an absent one; the spec gives R8 no content (log 9). -/
def actChnInfo (s : State) (_ : Cmd) : State × Res :=
  (tickFree s, .ok ((List.range 8).map (fun d => if d < nDies s then BitVec.ofNat 32 (readChn s d 4) else 0) ++ [Config.freeWord s.freeCtr]))

/-- A power of two between two others. -/
def pow2In (lo hi n : Nat) : Bool := (List.range (hi + 1 - lo)).any (fun k => n == 2 ^ (lo + k))

/-- CHN_RING. -/
def chkChnRing (_ : State) (c : Cmd) : Nat :=
  if cPar64 c 0 % 4096 != 0 then 0x0106 else if !pow2In 16 24 (cPar c 2) || 63 < cPar c 5 then 0x0103 else 0
def actChnRing (s : State) (c : Cmd) : State × Res :=
  let d := cSite c
  (setChn s d { engineOf s d with ring := some (cPar64 c 0, cPar c 2, cPar64 c 3, cPar c 5), ringProd := 0, ringData := [] }, .ok [])

/-- Words of a churn memory. -/
def chnMemSize (m : Nat) : Nat := if m == 0 then 4096 else 8192

/-- CHN_MEM_READ and CHN_MEM_WRITE. -/
def chkChnMem (top : Nat) (_ : State) (c : Cmd) : Nat :=
  if 2 < cPar c 0 || cPar c 2 < 1 || top < cPar c 2 || chnMemSize (cPar c 0) < cPar c 1 + cPar c 2 then 0x0103 else 0
/-- Poisoned words of a range of a churn memory. -/
def chnBad (e : ChurnDie) (c : Cmd) : List Nat :=
  let lo := chnWord (cPar c 0) (cPar c 1)
  e.poison.filter (fun p => decide (lo ≤ p) && decide (p < lo + cPar c 2))
def actChnMemRead (s : State) (c : Cmd) : State × Res :=
  let e := engineOf s (cSite c)
  match chnBad e c with
  | p :: _ => (fault s { cls := 2, cause := 0x0103, flags := 2, unit := siteLoc (cSite c), memClass := 4, address := p }, .refuse 0x0502)
  | [] =>
  let m := if cPar c 0 == 0 then e.prog else if cPar c 0 == 1 then e.m.y else e.m.z
  (s, .ok ((List.range (cPar c 2)).map (fun j => rd m (cPar c 1 + j))))

/-- A churn memory with words written from an address on. -/
def chnMemPut (m : List (Nat × Word)) (c : Cmd) : List (Nat × Word) :=
  (List.range (cPar c 2)).foldl (fun m j => wr m (cPar c 1 + j) (BitVec.ofNat 32 (cPar c (3 + j)))) m
def actChnMemWrite (s : State) (c : Cmd) : State × Res :=
  let e := engineOf s (cSite c)
  if chnEn e || e.m.en then (s, .refuse 0x0207)
  else
    let lo := chnWord (cPar c 0) (cPar c 1)
    let e := { e with poison := e.poison.filter (fun p => p < lo || lo + cPar c 2 ≤ p) }
    let e := match cPar c 0 with
      | 0 => { e with prog := chnMemPut e.prog c, progLen := max e.progLen (cPar c 1 + cPar c 2) }
      | 1 => { e with m := { e.m with y := chnMemPut e.m.y c } }
      | _ => { e with m := { e.m with z := chnMemPut e.m.z c } }
    (setChn s (cSite c) e, .ok [])

/-- CAP_INFO. -/
def execCapInfo (c : Cmd) (s : State) : Host.Outcome State Fault Refusal := .next (hostCmd 0x0400 noCheck actCapInfo c s)
/-- CAP_ARM. -/
def execCapArm (c : Cmd) (s : State) : Host.Outcome State Fault Refusal := .next (hostCmd 0x0401 noCheck actCapArm c s)
/-- CAP_TRIGGER. -/
def execCapTrigger (c : Cmd) (s : State) : Host.Outcome State Fault Refusal := .next (hostCmd 0x0402 noCheck actCapTrigger c s)
/-- CAP_STOP. -/
def execCapStop (c : Cmd) (s : State) : Host.Outcome State Fault Refusal := .next (hostCmd 0x0403 noCheck actCapStop c s)
/-- CAP_READ. -/
def execCapRead (c : Cmd) (s : State) : Host.Outcome State Fault Refusal := .next (hostCmd 0x0404 chkCapRead actCapRead c s)
/-- CAP_READ_COMPLETE. -/
def execCapReadComplete (poisoned : List Nat) (s : State) : Host.Outcome State Fault Refusal := .next (unlessHeld s fun s => capReadComplete s poisoned)
/-- CHN_INFO. -/
def execChnInfo (c : Cmd) (s : State) : Host.Outcome State Fault Refusal := .next (hostCmd 0x0500 noCheck actChnInfo c s)
/-- CHN_RING. -/
def execChnRing (c : Cmd) (s : State) : Host.Outcome State Fault Refusal := .next (hostCmd 0x0501 chkChnRing actChnRing c s)
/-- CHN_MEM_READ. -/
def execChnMemRead (c : Cmd) (s : State) : Host.Outcome State Fault Refusal := .next (hostCmd 0x0502 (chkChnMem 240) actChnMemRead c s)
/-- CHN_MEM_WRITE. -/
def execChnMemWrite (c : Cmd) (s : State) : Host.Outcome State Fault Refusal := .next (hostCmd 0x0503 (chkChnMem 237) actChnMemWrite c s)

end Sys2Proof.Machine
end

