-- ==== Sys2Proof/Machine/Export.lean ====
section
/-! DEFINITION. Machine/Export.lean: a checkpoint export as a byte string: its sections, its section table, its digest (R315, R316). -/
namespace Sys2Proof.Machine

/-! ### Contents of the sections -/

/-- A unit-state block: unit code, length of what follows the header, 8 reserved bytes, then registers and memories, as many as a 32-bit
length names. -/
def unitData (u : UnitState) : List Word := (Config.unitWords u).take (2 ^ 30 - 1)
def unitBlock (code : Nat) (u : UnitState) : List Byte :=
  wordBytes ([Config.unitCode code, lo32 (4 * (unitData u).length), 0, 0] ++ unitData u)
def unitLen (u : UnitState) : Nat := 16 + 4 * (unitData u).length

/-- Rows of the clusters of a die, in the layout of R194, and its tile units. -/
def dieRows (m : List (Nat × Half)) (d : Nat) : List Byte :=
  (List.range 64).flatMap (fun c => (List.range 32).flatMap (fun g => (List.range 3072).flatMap (fun r =>
    leBytes 2 (rd m (4096 * (32 * (64 * d + c) + g) + r)).toNat)))
def dieTiles (m : List (Nat × Half)) (d : Nat) : List Byte :=
  (List.range 64).flatMap (fun c => (List.range (2 ^ 20)).flatMap (fun u => leBytes 2 (rd m (2 ^ 20 * (64 * d + c) + u)).toNat))

/-- Capture-unit and churn-engine state of a die. -/
def dieUnits (k : Checkpoint) (d : Nat) : List (Nat × UnitState) :=
  (match lookup k.caps d with | some v => [(0, .capture v)] | none => []) ++ (match lookup k.churn d with | some m => [(1, .churn m)] | none => [])

/-- Section 0x0101 of a die. -/
def dieSection (k : Checkpoint) (d : Nat) : List Byte :=
  dieRows k.rows d ++ dieTiles k.tiles d ++ (dieUnits k d).flatMap (fun u => unitBlock u.1 u.2)
def dieSectionLen (k : Checkpoint) (d : Nat) : Nat := 64 * 196608 + 64 * 2 ^ 21 + ((dieUnits k d).map (fun u => unitLen u.2)).sum

/-- Sequence numbers of a channel. -/
def chanBytes (k : Checkpoint) (c : Nat) : List Byte :=
  match lookup k.chans c with
  | some v => leBytes 4 v.inSeq.toNat ++ leBytes 4 v.outSeq.toNat
  | none => List.replicate 8 0

/-- Section 0x0102. -/
def ioSection (e : CkpExport) : List Byte :=
  leBytes 8 e.state.dcn ++ leBytes 8 e.state.setId.toNat ++ digestBytes e.state.sigDigest
    ++ (List.range 1024).flatMap (chanBytes e.state)
    ++ (List.range 128).map (fun b => BitVec.ofNat 8 (bitsWhere 8 (fun i => e.state.chans.any (fun c => c.1 == 8 * b + i && c.2.isOpen))))
    ++ unitBlock 2 (.collector e.ioUnits) ++ unitBlock 3 (.recorder e.ioUnits)
def ioSectionLen (e : CkpExport) : Nat := 48 + 8192 + 128 + unitLen (.collector e.ioUnits) + unitLen (.recorder e.ioUnits)

/-- Section 0x0103 of a region of so many bytes. -/
def regionSection (m : List (Nat × Half)) (r bytes : Nat) : List Byte :=
  (List.range (bytes / 2)).flatMap (fun j => leBytes 2 (rd m (2 ^ 32 * r + j)).toNat)

/-- Section 0x0104. -/
def logSection (es : List LogEntry) : List Byte := es.flatMap (fun e => wordBytes (entryImage e))

/-- The bytes of a section as its table entry names it. -/
def sectionBytes (e : CkpExport) (t : SectionEntry) : List Byte :=
  match t.typ with
  | 0x0101 => dieSection e.state (locSite t.scope)
  | 0x0102 => ioSection e
  | 0x0103 => regionSection e.regions (wfld t.scope 7 0) t.length
  | _ => logSection e.log

/-- The header of an export (R315). -/
def exportHeader (e : CkpExport) : List Byte :=
  leBytes 4 e.magic ++ leBytes 2 e.fmtMajor ++ leBytes 2 e.fmtMinor.toNat ++ leBytes 8 e.totalBytes ++ leBytes 8 e.state.dcn
    ++ leBytes 8 e.state.setId.toNat ++ digestBytes e.sigDigest ++ leBytes 1 e.position ++ leBytes 1 e.part ++ leBytes 2 0
    ++ leBytes 4 e.table.length ++ leBytes 8 e.logEnd ++ digestBytes e.bodyDigest ++ List.replicate 144 0

/-! ### The table and the body -/

/-- A multiple of 64 at or above a number. -/
def ceil64 (n : Nat) : Nat := (n + 63) / 64 * 64

/-- Dies of a PART. -/
def partDies (part : Nat) : List Nat := List.range (if part == 0x40 then 4 else 8)

/-- The sections of an export with some region sections: type, SCOPE, length (R315). -/
def sectionsFor (e : CkpExport) (regs : List (Nat × Word × Nat)) : List (Nat × Word × Nat) :=
  (partDies e.part).map (fun d => (0x0101, mkLoc (64 * d) 0 0 0, dieSectionLen e.state d)) ++ [(0x0102, 0, ioSectionLen e)] ++ regs
    ++ [(0x0104, 0, logBytes e.log)]

/-- One region section for each declared region of the resident image. -/
def regionSections (s : State) : List (Nat × Word × Nat) :=
  match s.img.resident with | some i => i.regions.map (fun r => (0x0103, BitVec.ofNat 32 r.index, 2 * r.words)) | none => []

/-- Table entries of sections one after another from an offset on, and the end of the last. -/
def placeSections : Nat → List (Nat × Word × Nat) → List SectionEntry
  | _, [] => []
  | o, (typ, scope, len) :: r =>
    { typ := typ, scope := scope, offset := ceil64 o, length := len, reserved := false } :: placeSections (ceil64 o + len) r
def sectionsEnd : Nat → List (Nat × Word × Nat) → Nat
  | o, [] => o
  | o, (_, _, len) :: r => sectionsEnd (ceil64 o + len) r

/-- A table entry in its form of R191. -/
def tableBytes (t : SectionEntry) : List Byte :=
  leBytes 2 t.typ ++ [0, 0] ++ leBytes 4 t.scope.toNat ++ leBytes 8 t.offset ++ leBytes 8 t.length ++ List.replicate 8 0

/-- Insert a table entry by its offset. -/
def insSection : List SectionEntry → SectionEntry → List SectionEntry
  | [], t => [t]
  | x :: xs, t => if t.offset < x.offset then t :: x :: xs else x :: insSection xs t

/-- Bytes 0x100 to TOTAL_BYTES − 1: the section table and the sections at their offsets, zeros between. -/
def exportBody (e : CkpExport) : List Byte :=
  let b := (e.table.foldl insSection []).foldl (fun b t => b ++ List.replicate (t.offset - 0x100 - b.length) 0 ++ sectionBytes e t)
    (e.table.flatMap tableBytes)
  b ++ List.replicate (e.totalBytes - 0x100 - b.length) 0

/-- The checkpoint is one of the resident image. -/
def ofResident (s : State) (e : CkpExport) : Bool := match s.img.resident with | some i => e.state.setId == i.hdr.setId | none => false

/-- The section table of an export: the sections of R315 of its own part and no others, each at a multiple of 64 bytes behind the table,
inside the export, and apart from the others; one for each region that the resident image declares where the export is one of it, and no two
of one region in any other. -/
def tableOk (s : State) (e : CkpExport) : Bool :=
  let es : List (Nat × Word × Nat) := e.table.map (fun t => (t.typ, t.scope, t.length))
  let regs : List (Nat × Word × Nat) := es.filter (fun t => t.1 == 0x0103)
  es.isPerm (sectionsFor e regs)
  && (if ofResident s e then regs.isPerm (regionSections s) else decide ((regs.map (fun t => t.2.1)).Nodup))
  && e.table.all (fun t => !t.reserved && !t.reserved18 && t.offset % 64 == 0 && decide (0x100 + 32 * e.table.length ≤ t.offset)
    && decide (t.offset + t.length ≤ e.totalBytes))
  && decide (e.table.Pairwise (fun a b => a.offset + a.length ≤ b.offset ∨ b.offset + b.length ≤ a.offset))

/-! ### The export of a checkpoint -/

/-- Log entries from the marker of C through LOG_END (R315). -/
def exportLog (s : State) (k : Checkpoint) : List LogEntry :=
  match fromMarker s.ckp.log.entries k.dcn with
  | [] => []
  | m :: rest => m :: (goodEntries m.seq k.dcn rest).1

/-- The export without its table and digest. -/
def exportCore (s : State) (k : Checkpoint) : CkpExport := {
  magic := 0x50434541, fmtMajor := 1, fmtMinor := Config.exportMinor, totalBytes := 0, position := posOf s, part := partByte s
  sigDigest := match s.img.resident with | some i => i.hdr.sigDigest | none => 0
  logEnd := (logEnd s.ckp.log.entries k.dcn).1, bodyDigest := 0, table := [], state := { k with cow := [], imported := false }
  ioUnits := s.freeCtr, regions := restoreRegions s.ds.regions k.cow, log := exportLog s k }

/-- The export of the last checkpoint, its sections one after another; LOG_END is C where the log holds no cycle entry after the marker
(DESIGN CHOICE, log 34). -/
def exportOf (s : State) (k : Checkpoint) : CkpExport :=
  let e := exportCore s k
  let secs := sectionsFor e (regionSections s)
  let e := { e with table := placeSections (0x100 + 32 * secs.length) secs, totalBytes := sectionsEnd (0x100 + 32 * secs.length) secs }
  { e with bodyDigest := sm3 (exportBody e) }

end Sys2Proof.Machine
end

