-- ==== Sys2Proof/Machine/CmdCheckpoint.lean ====
section
/-! DEFINITION. Machine/CmdCheckpoint.lean: command families 0x06 checkpoint and replay and 0x07 transactor channels (R290, R303, R305,
R306, R310, R315, R316, R324, R337, R340, R341, R343, R370). -/
namespace Sys2Proof.Machine

/-! ### Family 0x06 -/

/-- CKP_INFO. -/
def actCkpInfo (s : State) (_ : Cmd) : State × Res :=
  (s, .ok (BitVec.ofNat 32 (ckpStatus s) :: dwords ((lastCkpDcn s).getD 0) ++ dwords (logOldest s) ++ [BitVec.ofNat 32 (logUsedMb s)]))

/-- DCN at the end of whose B15 a commanded checkpoint is taken: the lead's choice, not within the cycles of a recovery (log 8, log 33). -/
def ckpChoice (s : State) : Nat :=
  match s.ckp.recovery with
  | some r => if s.md.mode == .run && s.md.sub != .halted then max r.f (chooseDcn s) else r.f - 1
  | none => chooseDcn s

/-- CKP_TAKE: at the chosen DCN, or at once where the board does not step. -/
def actCkpTake (s : State) (_ : Cmd) : State × Res :=
  if stepping s || s.ckp.recovery.isSome then
    let n := ckpChoice s
    let s := sendFw (tickFree s) (.orderCheckpoint n false)
    ({ s with slu := { s.slu with agreed := s.slu.agreed ++ [(n, some .checkpoint)] } }, .accept)
  else (startCheckpoint (sendFw s (.orderCheckpoint s.seq.dcn false)) false, .accept)

/-- REPLAY_START: reserved bits, and a target below the checkpoint's DCN; target 0 is the end of the log. -/
def chkReplayStart (s : State) (c : Cmd) : Nat :=
  if cPar c 0 / 8 != 0 || bitOf (cPar c 0) 1 then 0x0104
  else match s.ckp.last with
    | some k => if cPar64 c 1 != 0 && cPar64 c 1 < k.dcn then 0x0103 else 0
    | none => 0

/-- Board conditions of a replay: every device holds its part of one checkpoint, imported where P0 [0] asks for it (R39, R306, R316). -/
def replayBoard (s : State) (imported : Bool) : Bool :=
  match s.ckp.last with
  | none => false
  | some k =>
    imagesMatch s && s.peers.all (fun p => p.ckpDcn == some k.dcn)
      && (!imported || (k.imported && s.peers.all (·.imported)))

/-- The checkpoint belongs to the resident image (R305). -/
def ckpMatches (s : State) : Bool :=
  match s.ckp.last, s.img.resident with
  | some k, some i => k.setId == i.hdr.setId && k.sigDigest == i.hdr.sigDigest
  | _, _ => false

/-- REPLAY_START; a checkpoint with an uncorrectable word is not delivered to it (R514). -/
def actReplayStart (s : State) (c : Cmd) : State × Res :=
  let imp := bitOf (cPar c 0) 0
  if startBars s != 0 then (s, .refuse (startBars s))
  else if !replayBoard s imp then (s, .refuse 0x0203)
  else if !ckpMatches s then (s, .refuse 0x0307)
  else if s.ckp.last.any (·.spoiled) then (s, .refuse 0x0502)
  else
    let t := if cPar64 c 1 == 0 then none else some (cPar64 c 1)
    let dbg := bitOf (cPar c 0) 2
    let d := (lastCkpDcn s).getD 0
    (startReplay (sendFw s (.orderReplay t dbg imp)) t dbg, .ok (dwords d))

/-- REPLAY_STOP. -/
def actReplayStop (s : State) (_ : Cmd) : State × Res :=
  let r := stopAt s (stopLow s) .replayStop
  (r.1, .ok (dwords r.2))

/-- CKP_EXPORT; of a checkpoint with an uncorrectable word it ends with 0x0502 (R514). -/
def actCkpExport (s : State) (_ : Cmd) : State × Res := if s.ckp.last.isSome then (s, .accept) else (s, .refuse 0x0202)

/-- CKP_EXPORT_COMPLETE. -/
def ckpExportComplete (s : State) : State :=
  let p (w : Waiting) : Bool := w.opcode == 0x0604
  match firstWaiting s p, s.ckp.last with
  | some w, some k =>
    let e := exportOf s k
    let n := e.totalBytes
    let s := tickFree s
    if cPar64 w.cmd 2 < n then completeFirst s p 0x0301 (dwords n)
    else if k.spoiled then completeFirst s p 0x0502 []
    else
      let s := { s with io := { s.io with
        exports := put s.io.exports (cPar64 w.cmd 0) e, dma := put s.io.dma (cPar64 w.cmd 0) (bytesWords (exportHeader e)) } }
      completeFirst s p 0 (dwords n)
  | some _, none => completeFirst s p 0x0202 []
  | none, _ => s

/-- CKP_IMPORT. -/
def actCkpImport (s : State) (_ : Cmd) : State × Res := (s, .accept)

/-- The checks of an import in their order (R316). -/
def importStatus (s : State) (e : CkpExport) (bytes : Nat) : Nat :=
  if e.magic != 0x50434541 || e.totalBytes != bytes || !tableOk s e then 0x0103
  else if e.fmtMajor != 1 then 0x0620
  else if sm3 (exportBody e) != e.bodyDigest then 0x0103
  else if e.position != posOf s || e.part != partByte s then 0x0305
  else match s.img.resident with
    | some i => if e.state.setId == i.hdr.setId && e.sigDigest == i.hdr.sigDigest then 0 else 0x0307
    | none => 0x0202

/-- An import that passes every check. -/
def applyImport (s0 : State) (e : CkpExport) : State :=
  let s := clearArea (clearArea s0 2) 4
  let seq := match e.log.getLast? with | some x => (x.seq + 1) % 2 ^ 32 | none => 0
  { s with
    ds := { s.ds with regions := wrAll [] e.regions, poison := [] }
    ckp := { s.ckp with
      last := some { e.state with cow := [], imported := true }
      log := { emptyLog with entries := e.log, seq := seq }
      hostBytes := 0, hostAt := 0, stale := true } }

/-- CKP_IMPORT_COMPLETE; an import that comes to its end outside LOADED changes nothing (log 35). -/
def ckpImportComplete (s : State) : State :=
  let p (w : Waiting) : Bool := w.opcode == 0x0605
  match firstWaiting s p with
  | none => s
  | some w =>
    let st := match w.cmd.data with
      | .ckp e => if s.md.mode == .loaded then importStatus s e (cPar64 w.cmd 2) else 0x0202
      | _ => 0x0103
    if st != 0 then completeFirst s p st []
    else match w.cmd.data with
      | .ckp e => completeFirst (applyImport s e) p 0 []
      | _ => s

/-! ### Family 0x07 -/

/-- A channel that the map lists. -/
def chkChan (s : State) (c : Cmd) : Nat := if (chanOf s (cPar c 0)).isSome then 0 else 0x0103

/-- CH_STATUS. -/
def actChStatus (s : State) (c : Cmd) : State × Res :=
  match chanOf s (cPar c 0) with
  | some ch => (s, .ok ((List.range 4).map (fun k => BitVec.ofNat 32 (chanWord ch k)) ++ [ch.inSeq, ch.outSeq]))
  | none => (s, .refuse 0x0103)

/-- Channel and format of CH_OPEN. -/
def openChan (c : Cmd) : Nat := fld (cPar c 0) 9 0
def openFormat (c : Cmd) : Nat := fld (cPar c 0) 23 16

/-- CH_OPEN takes an inbound ring. -/
def takesRing (ch : Chan) : Bool := ch.cfg.source == 0 && hasIn ch.cfg

/-- CH_OPEN. -/
def chkChOpen (s : State) (c : Cmd) : Nat :=
  if fld (cPar c 0) 15 10 != 0 || fld (cPar c 0) 31 24 != 0 then 0x0104
  else match chanOf s (openChan c) with
    | none => 0x0103
    | some ch => if takesRing ch then (if cPar64 c 1 % 16 != 0 then 0x0106 else if pow2In 4 16 (cPar c 3) then 0 else 0x0103) else 0
def actChOpen (s : State) (c : Cmd) : State × Res :=
  match chanOf s (openChan c) with
  | none => (s, .refuse 0x0103)
  | some ch =>
    let r : InRing := { base := cPar64 c 1, entries := cPar c 3, wb := cPar64 c 4, prod := 0, cons := 0 }
    if ch.isOpen || ch.opening.isSome then (s, .refuse 0x0202)
    else if openFormat c < ch.cfg.format then (s, .refuse 0x0604)
    else if stepping s then (setChan s (openChan c) { ch with opening := some r, changeAt := s.seq.dcn }, .ok [])
    else (logChange (setChan s (openChan c) (openedChan ch r)) (openChan c) true, .ok [])

/-- CH_CLOSE: of an OPEN channel, or of one whose open it cancels. -/
def actChClose (s : State) (c : Cmd) : State × Res :=
  let n := cPar c 0
  match chanOf s n with
  | none => (s, .refuse 0x0103)
  | some ch =>
    if ch.isOpen then
      (if stepping s then (setChan s n { ch with closing := true, changeAt := s.seq.dcn }, .ok [])
      else (logChange (closeChan s n ch) n false, .ok []))
    else if ch.opening.isSome then (setChan s n { ch with opening := none }, .ok [])
    else (s, .refuse 0x0202)

/-- CH_FLUSH: at once where no packet is in progress; it completes at FLUSH_TAKES_EFFECT. -/
def actChFlush (s : State) (c : Cmd) : State × Res :=
  match chanOf s (cPar c 0) with
  | none => (s, .refuse 0x0103)
  | some ch =>
    if ch.flush then (s, .refuse 0x0202)
    else if pktOpen ch then (setChan s (cPar c 0) { ch with flush := true }, .accept)
    else (flushPoint s (cPar c 0), .accept)

/-- OUT_RING. -/
def chkOutRing (_ : State) (c : Cmd) : Nat := if 15 < cPar c 0 || !pow2In 4 16 (cPar c 3) || 63 < cPar c 6 then 0x0103 else 0
def actOutRing (s : State) (c : Cmd) : State × Res :=
  let n := cPar c 0
  if s.trx.chans.any (fun e => e.2.isOpen && hasOut e.2.cfg && e.2.cfg.outRing == n) then (s, .refuse 0x0202)
  else
    let r : OutRing := { base := cPar64 c 1, entries := cPar c 3, wb := cPar64 c 4, vec := cPar c 6, prod := 0, data := [] }
    ({ s with trx := { s.trx with rings := put s.trx.rings n r } }, .ok [])

/-- CKP_INFO. -/
def execCkpInfo (c : Cmd) (s : State) : Host.Outcome State Fault Refusal := .next (hostCmd 0x0600 noCheck actCkpInfo c s)
/-- CKP_TAKE. -/
def execCkpTake (c : Cmd) (s : State) : Host.Outcome State Fault Refusal := .next (hostCmd 0x0601 noCheck actCkpTake c s)
/-- REPLAY_START. -/
def execReplayStart (c : Cmd) (s : State) : Host.Outcome State Fault Refusal := .next (hostCmd 0x0602 chkReplayStart actReplayStart c s)
/-- REPLAY_STOP. -/
def execReplayStop (c : Cmd) (s : State) : Host.Outcome State Fault Refusal := .next (hostCmd 0x0603 noCheck actReplayStop c s)
/-- CKP_EXPORT. -/
def execCkpExport (c : Cmd) (s : State) : Host.Outcome State Fault Refusal := .next (hostCmd 0x0604 noCheck actCkpExport c s)
/-- CKP_EXPORT_COMPLETE. -/
def execCkpExportComplete (s : State) : Host.Outcome State Fault Refusal := .next (unlessHeld s fun s => ckpExportComplete s)
/-- CKP_IMPORT. -/
def execCkpImport (c : Cmd) (s : State) : Host.Outcome State Fault Refusal := .next (hostCmd 0x0605 noCheck actCkpImport c s)
/-- CKP_IMPORT_COMPLETE. -/
def execCkpImportComplete (s : State) : Host.Outcome State Fault Refusal := .next (unlessHeld s fun s => ckpImportComplete s)
/-- CH_STATUS. -/
def execChStatus (c : Cmd) (s : State) : Host.Outcome State Fault Refusal := .next (hostCmd 0x0700 chkChan actChStatus c s)
/-- CH_OPEN. -/
def execChOpen (c : Cmd) (s : State) : Host.Outcome State Fault Refusal := .next (hostCmd 0x0701 chkChOpen actChOpen c s)
/-- CH_CLOSE. -/
def execChClose (c : Cmd) (s : State) : Host.Outcome State Fault Refusal := .next (hostCmd 0x0702 chkChan actChClose c s)
/-- CH_FLUSH. -/
def execChFlush (c : Cmd) (s : State) : Host.Outcome State Fault Refusal := .next (hostCmd 0x0703 chkChan actChFlush c s)
/-- OUT_RING. -/
def execOutRing (c : Cmd) (s : State) : Host.Outcome State Fault Refusal := .next (hostCmd 0x0704 chkOutRing actOutRing c s)

end Sys2Proof.Machine
end

