-- ==== Sys2Proof/Machine/CmdLinks.lean ====
section
/-! DEFINITION. Machine/CmdLinks.lean: command families 0x08 links and 0x09 time (R370, R438, R474, R475, R487, R507, R509, R557, R564,
R569). -/
namespace Sys2Proof.Machine

/-! ### Family 0x08 -/

/-- P0 names a UCIe module, and which link. -/
def lnkModule (c : Cmd) : Bool := bitOf (cPar c 0) 0
def lnkIndex (c : Cmd) : Nat := fld (cPar c 0) 5 1

/-- P0 of a link command: reserved bits (`clr`: [8] is one of its fields), a link of the part. -/
def chkLink (clr : Bool) (s : State) (c : Cmd) : Nat :=
  if fld (cPar c 0) 7 6 != 0 || cPar c 0 / 512 != 0 || (!clr && bitOf (cPar c 0) 8) then 0x0104
  else if lnkModule c then (if (modOf s (lnkIndex c)).isSome then 0 else 0x0107)
  else if 8 ≤ lnkIndex c then 0x0105
  else if lnkIndex c < nDies s then 0 else 0x0107

/-- LINK_STATUS: eight words; the spec gives R8 no content (log 9). -/
def actLinkStatus (s : State) (c : Cmd) : State × Res :=
  let n := lnkIndex c
  let ws := (List.range 8).map (fun k => BitVec.ofNat 32 (if lnkModule c then readModule s (moduleSite n) n k else readBl s n (4 * k)))
  (tickFree s, .ok (ws ++ [Config.freeWord s.freeCtr]))

/-- Keys of a link's 16 counters. -/
def counterKeys (c : Cmd) : List Nat :=
  let n := lnkIndex c
  (List.range 16).map (fun k => if lnkModule c then rkey (moduleSite n) 0x12 (0x800 + 64 * n + 4 * k) else rkey n 0x11 (0x040 + 4 * k))

/-- LINK_COUNTERS: P0 [8] clears them after the read; the spec gives R16 no content (log 9). -/
def actCounters (s : State) (c : Cmd) : State × Res :=
  let ks := counterKeys c
  let s' := if bitOf (cPar c 0) 8 then ks.foldl (fun s k => setReg s k 0) s else s
  (tickFree s', .ok (ks.map (reg s) ++ [Config.freeWord s.freeCtr]))

/-- The resident image books a step share on a die's board link, in either direction. -/
def linkBooked (s : State) (d : Nat) : Bool := txShare0 s d != 0 || rxShare s d 0 != 0

/-- Admission is withdrawn and starts again (R465, R474). -/
def withdrawAccessory (s : State) : State :=
  let s := if s.acc.st == 4 then { s with net := { s.net with spill := ins s.net.spill 8 } } else s
  { s with acc := { s.acc with st := 1, kind := 0, identOk := false } }

/-- LINK_TRAIN: a link that trains loses its lanes until its training row comes. -/
def actLinkTrain (s : State) (c : Cmd) : State × Res :=
  let n := lnkIndex c
  if lnkModule c then
    (if n != 24 && s.img.resident.isSome then (s, .refuse 0x0202)
    else
      let s := { s with ucie := s.ucie.map (fun e => if e.1 == n then (e.1, { e.2 with st := 2, proto := 0, heard := [] }) else e) }
      (buildRoutes (if n == 24 then withdrawAccessory s else s), .accept))
  else if s.md.mode == .loaded && linkBooked s n then (s, .refuse 0x0202)
  else (buildRoutes { s with bl := s.bl.map (fun e => if e.1 == n then (e.1, { e.2 with st := 2, quick := false }) else e) }, .accept)

/-- The peer of a link is in STANDBY, LOADED or SERVICE. -/
def peerIdle (s : State) (b : BoardLink) : Bool := s.peers.any (fun p => p.pos == b.peerPos && [1, 2, 5].contains p.mode)

/-- Say a link message (R486). The flit that says it leaves before the loop stops flits. -/
def linkMessageOut (s : State) (d code : Nat) : State := flitSlot (queueMark s d (itemMessage code)) d

/-- LINK_LOOP: 3 is no loop of a module. -/
def chkLoop (s : State) (c : Cmd) : Nat :=
  if chkLink false s c != 0 then chkLink false s c else if (if lnkModule c then 2 else 3) < cPar c 1 then 0x0103 else 0

/-- LINK_LOOP of a module: in SERVICE only; turning the loop off retrains. -/
def loopModule (s : State) (n p : Nat) : State × Res :=
  if s.md.mode != .service then (s, .refuse 0x0202)
  else
    let next (u : UcieMod) : UcieMod := if p == 0 && u.loopMode != 0 then { u with loopMode := p, st := 2, proto := 0, heard := [] } else { u with loopMode := p }
    (buildRoutes { s with ucie := s.ucie.map (fun e => if e.1 == n then (e.1, next e.2) else e) }, .ok [])

/-- LINK_LOOP of a board link. -/
def loopBoard (s : State) (n p : Nat) : State × Res :=
  match linkOf s n with
  | none => (s, .refuse 0x0107)
  | some b =>
    if s.md.mode == .loaded && linkBooked s n then (s, .refuse 0x0202)
    else if p == 3 && !(b.version == 3 && linkUp b && peerIdle s b) then (s, .refuse 0x0202)
    else
      let off := p == 0 && b.st == 5
      let b' := { b with st := if p != 0 then 5 else if off then 2 else b.st, loopMode := p }
      let s := if p == 3 then linkMessageOut s n 1 else if off && b.loopMode == 3 then linkMessageOut s n 2 else s
      (buildRoutes { s with bl := s.bl.map (fun e => if e.1 == n then (e.1, { e.2 with
        st := b'.st, loopMode := p, quick := e.2.quick && !off, rx := if b'.st == 5 then e.2.rx.map (fun l => { l with scr := 0 }) else e.2.rx }) else e) }, .ok [])

/-- LINK_LOOP. -/
def actLoop (s : State) (c : Cmd) : State × Res :=
  if lnkModule c then loopModule s (lnkIndex c) (cPar c 1) else loopBoard s (lnkIndex c) (cPar c 1)

/-! ### Family 0x09 -/

/-- TIME_GET. -/
def actTimeGet (s : State) (_ : Cmd) : State × Res := (s, .ok (words96 (stamp s) ++ dwords s.seq.dcn))

/-- The 12-byte format of P0 to P2. -/
def timePar (c : Cmd) : Nat := cPar c 0 + 2 ^ 32 * cPar c 1 + 2 ^ 64 * cPar c 2

/-- TIME_SET: NS [31:30] are reserved, NS is below 10^9. -/
def chkTimeSet (_ : State) (c : Cmd) : Nat :=
  let ns := fld (timePar c) 47 16
  if ns / 2 ^ 30 != 0 then 0x0104 else if 1000000000 ≤ ns then 0x0103 else 0
def actTimeSet (s : State) (c : Cmd) : State × Res :=
  if fld (ioReg s 0x15 0x000) 1 0 == 2 && !isLead s then (s, .refuse 0x0202)
  else
    let v := timePar c
    let again := timeSrc s == 1 || timeSrc s == 3
    let fresh (d : TimeDom) : TimeDom := { d with locked := false, run := 0, mayStep := d.mayStep || again }
    let s := { s with time := { s.time with
      sec := v / 2 ^ 48, ns := fld v 47 16, frac := v % 2 ^ 16, unset := false, locked := false, a := fresh s.time.a, b := fresh s.time.b } }
    (orIo s 0x15 0x004 256, .ok [])

/-- PTP_CONFIG. -/
def chkPtp (_ : State) (c : Cmd) : Nat :=
  let p := cPar c 0
  let q := cPar c 1
  if fld p 7 6 != 0 || fld p 31 16 != 0 || fld q 31 16 != 0 then 0x0104
  else if fld p 4 3 == 3 || !(decide (-7 ≤ sgn 8 (q % 256)) && decide (sgn 8 (q % 256) ≤ 0)) || fld q 15 8 < 2 || 10 < fld q 15 8 then 0x0103
  else 0
def actPtp (s : State) (c : Cmd) : State × Res :=
  let b := bitOf (cPar c 0) 0
  (setDom s b { domOf s b with cfg0 := BitVec.ofNat 32 (cPar c 0), cfg1 := BitVec.ofNat 32 (cPar c 1) }, .ok [])

/-- PPS_CONFIG. -/
def chkPps (_ : State) (c : Cmd) : Nat :=
  let p := cPar c 0
  if fld p 7 1 != 0 || fld p 31 16 != 0 then 0x0104 else if fld p 15 8 == 0 || !offsOk (cPar c 1) then 0x0103 else 0
def actPps (s : State) (c : Cmd) : State × Res := (setIo (setIo s 0x15 0x02C (cPar c 0)) 0x15 0x030 (cPar c 1), .ok [])

/-- LINK_STATUS. -/
def execLinkStatus (c : Cmd) (s : State) : Host.Outcome State Fault Refusal := .next (hostCmd 0x0800 (chkLink false) actLinkStatus c s)
/-- LINK_COUNTERS. -/
def execLinkCounters (c : Cmd) (s : State) : Host.Outcome State Fault Refusal := .next (hostCmd 0x0801 (chkLink true) actCounters c s)
/-- LINK_TRAIN. -/
def execLinkTrain (c : Cmd) (s : State) : Host.Outcome State Fault Refusal := .next (hostCmd 0x0802 (chkLink false) actLinkTrain c s)
/-- LINK_LOOP. -/
def execLinkLoop (c : Cmd) (s : State) : Host.Outcome State Fault Refusal := .next (hostCmd 0x0803 chkLoop actLoop c s)
/-- TIME_GET. -/
def execTimeGet (c : Cmd) (s : State) : Host.Outcome State Fault Refusal := .next (hostCmd 0x0900 noCheck actTimeGet c s)
/-- TIME_SET. -/
def execTimeSet (c : Cmd) (s : State) : Host.Outcome State Fault Refusal := .next (hostCmd 0x0901 chkTimeSet actTimeSet c s)
/-- PTP_CONFIG. -/
def execPtpConfig (c : Cmd) (s : State) : Host.Outcome State Fault Refusal := .next (hostCmd 0x0902 chkPtp actPtp c s)
/-- PPS_CONFIG. -/
def execPpsConfig (c : Cmd) (s : State) : Host.Outcome State Fault Refusal := .next (hostCmd 0x0903 chkPps actPps c s)

end Sys2Proof.Machine
end

