-- ==== Sys2Proof/Machine/CmdSecurity.lean ====
section
/-! DEFINITION. Machine/CmdSecurity.lean: command family 0x0A security (R370, R579 to R595). A signature is known by the key under
which it verifies: the command's host data names that key's identity, the SM3 of its 64 bytes (log 7). -/
namespace Sys2Proof.Machine

/-- The model's counter moved on by n. -/
def tickN (s : State) (n : Nat) : State := { s with freeCtr := s.freeCtr + n }

/-- A failed signature check is counted (R593). -/
def verifyFailed (s : State) : State := bumpIo s 0x17 0x018 32 1

/-- Key under which the signature that a command carries verifies. -/
def sigKey (c : Cmd) : Option Digest :=
  match c.data with
  | .words ws => if ws.length == 8 then some (wordsDigest ws) else none
  | _ => none

/-- A slot accepts signatures (R585). -/
def slotUsable : SlotSt → Bool
  | .installed | .locked => true
  | .empty | .revoked => false

/-! ### CERT_GET (R583) -/

/-- Words of a certificate. -/
def certLen (i : Nat) : Nat := cdiv (Config.certBytes i) 4

/-- CERT_GET: an index of 0 to 2, an offset within the certificate (log 15). -/
def chkCert (_ : State) (c : Cmd) : Nat := if 2 < cPar c 0 || certLen (cPar c 0) < cPar c 1 then 0x0103 else 0
def actCert (s : State) (c : Cmd) : State × Res :=
  let i := cPar c 0
  let n := min 239 (certLen i - cPar c 1)
  (s, .ok (BitVec.ofNat 32 (Config.certBytes i) :: (List.range n).map (fun j => Config.certWord i (cPar c 1 + j))))

/-! ### ATTEST (R590) -/

/-- ATTEST. -/
def actAttest (s : State) (_ : Cmd) : State × Res := (s, .accept)

/-- Digest of the last partial bitstreams of the 40 regions. -/
def prDigest (s : State) : Digest := sm3 ((List.range 40).flatMap (fun r => digestBytes ((lookup s.sec.prDigests r).getD 0)))

/-- Slot that signed an image. -/
def imageSlot (i : Image) : Nat := match i.customer with | some k => k.slot | none => 0

/-- The 72 words of the report that the signature covers. -/
def attestWords (s : State) (nonce : List Word) : List Word :=
  let img {α : Type} (d : α) (f : Image → α) : α := match s.img.resident with | some i => f i | none => d
  let id := identWords s
  [0x54414541, packW [(0, 16, 1), (16, 16, 352)]] ++ dwords s.ident.serial.toNat ++ [nth 0 id 0, hsbMode s] ++ dwords s.seq.dcn
    ++ words96 (stamp s) ++ [s.ctl.fw] ++ nonce ++ digestWords s.ctl.fwDigest ++ digestWords s.sec.baseDigest
    ++ dwords (img 0 (fun i => i.hdr.setId.toNat)) ++ [packW [(0, 8, img 0 imageSlot)], nth 0 id 1]
    ++ digestWords (img 0 (·.hdr.bodyDigest)) ++ digestWords (img 0 (·.hdr.sigDigest)) ++ digestWords (prDigest s)
    ++ [BitVec.ofNat 32 (secSlots s), packW [(0, 1, b2n s.sec.reqSigned), (1, 1, b2n s.sec.authTrace), (2, 1, b2n s.sec.authService)]]
    ++ List.replicate 6 0

/-- ATTEST_COMPLETE: the report goes to host memory; its signature is a free value (log 7). -/
def attestComplete (s : State) : State :=
  let p (w : Waiting) : Bool := w.opcode == 0x0A01
  match firstWaiting s p with
  | none => s
  | some w =>
    let s := privGap s
    let ws := attestWords s (cWords w.cmd 0 8) ++ digestWords (Config.freeDigest s.freeCtr) ++ digestWords (Config.freeDigest (s.freeCtr + 1))
    let s := tickN s 2
    completeFirst { s with io := { s.io with dma := put s.io.dma (cPar64 w.cmd 8) ws } } p 0 [352]

/-! ### SESSION (R592) -/

/-- The session of a path. -/
def pathSession (p : Path) : Option Word := match p with | .session id => some id | _ => none

/-- SESSION: a customer slot for an open, a session's path for the others. -/
def chkSession (s : State) (c : Cmd) : Nat :=
  let op := cPar c 0
  if op / 4 != 0 then 0x0104
  else if op == 0 then (if cPar c 1 < 1 || 15 < cPar c 1 then 0x0103 else 0)
  else if op == 3 then 0x0103
  else match pathSession c.path with
    | some id => if s.sec.sessions.any (fun x => x.id == id) then 0 else 0x0103
    | none => 0x0103

/-- The first word from w on that names no open session. -/
def freshId (s : State) : Nat → Word → Word
  | 0, w => w
  | n + 1, w => if w == 0 || s.sec.sessions.any (fun x => x.id == w) then freshId s n (w + 1) else w

/-- The session key: the first 32 bytes of the key derivation over the shared point, Eh and Ed (R592). -/
def sessionKey (n : Nat) (eh ed : List Word) : Digest :=
  kdf (pointBytes (Config.sessionPoint n (wordsPoint eh)) ++ wordBytes eh ++ wordBytes ed)

/-- OP 0: identifier, ephemeral key and signature are free values (log 7). -/
def openSession (s : State) (c : Cmd) : State × Res :=
  let slot := slotOf? s (cPar c 1)
  if 8 ≤ s.sec.sessions.length then (s, .refuse 0x0306)
  else if !slotUsable slot.1 then (s, .refuse 0x0403)
  else if sigKey c != some slot.2 then (verifyFailed s, .fail 0x0401)
  else
    let n := s.freeCtr
    let id := freshId s 9 (Config.freeWord n)
    let ed := digestWords (Config.freeDigest (n + 1)) ++ digestWords (Config.freeDigest (n + 2))
    let x : Session := {
      id := id, key := sessionKey n (cWords c 2 16) ed, slot := cPar c 1, ctrIn := 0, ctrOut := 0, nextSeq := none, version := none, mask := 0
      replies := [], closing := false }
    let ws := id :: ed ++ [Config.freeWord (n + 3)]
      ++ digestWords (Config.freeDigest (n + 4)) ++ digestWords (Config.freeDigest (n + 5))
    (tickN { s with sec := { s.sec with sessions := s.sec.sessions ++ [x] } } 7, .ok ws)

/-- SESSION. -/
def actSession (s : State) (c : Cmd) : State × Res :=
  let s := privGap s
  match cPar c 0, pathSession c.path with
  | 0, _ => openSession s c
  | 1, some id => (mapSession s id (fun x => { x with closing := true }), .ok [])
  | 2, some id => (mapSession s id (fun x => { x with mask := BitVec.ofNat 32 (cPar c 1) }), .ok [])
  | _, _ => (s, .refuse 0x0103)

/-- A session that has answered its close is gone. -/
def dropClosing (s : State) : State := { s with sec := { s.sec with sessions := s.sec.sessions.filter (fun x => !x.closing) } }

/-! ### KEY_SLOT (R584, R585) -/

/-- OP of KEY_SLOT. -/
def ksOp (c : Cmd) : Nat := fld (cPar c 0) 6 4
/-- SLOT of KEY_SLOT. -/
def ksSlot (c : Cmd) : Nat := fld (cPar c 0) 3 0

/-- KEY_SLOT: slot 1 to 15, slot 0 for OP 3. -/
def chkKeySlot (_ : State) (c : Cmd) : Nat :=
  if cPar c 0 / 128 != 0 then 0x0104
  else if 3 < ksOp c || (ksOp c == 3) != (ksSlot c == 0) then 0x0103
  else 0

/-- A load in progress uses a slot. -/
def slotInUse (s : State) (k : Nat) : Bool :=
  (match s.img.loading with | some j => imageSlot j.image == k | none => false) || s.fab.loads.any (fun e => e.2.keySlot == k)

/-- Set a slot. -/
def setSlot (s : State) (k : Nat) (st : SlotSt) (key : Digest) : State := { s with sec := { s.sec with slots := put s.sec.slots k (st, key) } }

/-- KEY_SLOT. -/
def actKeySlot (s : State) (c : Cmd) : State × Res :=
  let k := ksSlot c
  let (st, key) := slotOf? s k
  if ksOp c == 3 then ({ privGap s with sec := { (privGap s).sec with reqSigned := true } }, .ok [])
  else if slotInUse s k then (s, .refuse 0x0204)
  else match ksOp c, st with
    | 0, .empty | 0, .installed => (setSlot (privGap s) k .installed (sm3 (wordBytes (cWords c 1 16))), .ok [])
    | 1, .installed => (setSlot (privGap s) k .locked key, .ok [])
    | 2, .installed | 2, .locked => (setSlot (privGap s) k .revoked key, .ok [])
    | _, _ => (s, .refuse 0x0403)

/-! ### AUTHORISE (R591) -/

/-- AUTHORISE: P0 of 0 or 1. -/
def chkAuthorise (_ : State) (c : Cmd) : Nat := if cPar c 0 ≤ 1 then 0 else 0x0103

/-- The record in P1 to P32 holds what it must, the signature apart. -/
def authRecordOk (s : State) (c : Cmd) : Bool :=
  let w (i : Nat) : Nat := cPar c (1 + i)
  w 0 == 0x55484541 && (w 1 == 1 || w 1 == 2) && w 2 + 2 ^ 32 * w 3 == s.ident.serial.toNat
    && (match s.sec.challenge with | some d => wordsDigest (cWords c 5 8) == d | none => false)
    && (List.range 4).all (fun i => w (12 + i) == 0)

/-- AUTHORISE: a fresh challenge, or a record that is accepted or fails; either way it spends the challenge. R8 of a challenge is a word
that the spec gives no content (log 9). -/
def actAuthorise (s : State) (c : Cmd) : State × Res :=
  let s := privGap s
  if cPar c 0 == 0 then
    let d := Config.freeDigest s.freeCtr
    (tickN { s with sec := { s.sec with challenge := some d } } 2, .ok (digestWords d ++ [Config.freeWord (s.freeCtr + 1)]))
  else
    let spent := { s with sec := { s.sec with challenge := none } }
    if !authRecordOk s c then (spent, .fail 0x0401)
    else if sigKey c != some Config.lenauxKey then (verifyFailed spent, .fail 0x0401)
    else if cPar c 2 == 1 then ({ spent with sec := { spent.sec with authService := true } }, .ok [])
    else ({ spent with sec := { spent.sec with authTrace := true }, trc := { spent.trc with priv := true } }, .ok [])

/-- CERT_GET. -/
def execCertGet (c : Cmd) (s : State) : Host.Outcome State Fault Refusal := .next (hostCmd 0x0A00 chkCert actCert c s)
/-- ATTEST. -/
def execAttest (c : Cmd) (s : State) : Host.Outcome State Fault Refusal := .next (hostCmd 0x0A01 noCheck actAttest c s)
/-- ATTEST_COMPLETE. -/
def execAttestComplete (s : State) : Host.Outcome State Fault Refusal := .next (unlessHeld s fun s => attestComplete s)
/-- SESSION with OP 0, as the packet gives it. -/
def execSessionOpen (c : Cmd) (s : State) : Host.Outcome State Fault Refusal := .next (dropClosing (hostCmd 0x0A02 chkSession actSession c s))
/-- SESSION with OP 1, as the packet gives it. -/
def execSessionClose (c : Cmd) (s : State) : Host.Outcome State Fault Refusal := .next (dropClosing (hostCmd 0x0A02 chkSession actSession c s))
/-- SESSION with OP 2, as the packet gives it. -/
def execSessionSubscribe (c : Cmd) (s : State) : Host.Outcome State Fault Refusal := .next (dropClosing (hostCmd 0x0A02 chkSession actSession c s))
/-- KEY_SLOT with OP 0, as the packet gives it. -/
def execKeySlotInstall (c : Cmd) (s : State) : Host.Outcome State Fault Refusal := .next (hostCmd 0x0A03 chkKeySlot actKeySlot c s)
/-- KEY_SLOT with OP 1, as the packet gives it. -/
def execKeySlotLock (c : Cmd) (s : State) : Host.Outcome State Fault Refusal := .next (hostCmd 0x0A03 chkKeySlot actKeySlot c s)
/-- KEY_SLOT with OP 2, as the packet gives it. -/
def execKeySlotRevoke (c : Cmd) (s : State) : Host.Outcome State Fault Refusal := .next (hostCmd 0x0A03 chkKeySlot actKeySlot c s)
/-- KEY_SLOT with OP 3, as the packet gives it. -/
def execKeySlotReqSigned (c : Cmd) (s : State) : Host.Outcome State Fault Refusal := .next (hostCmd 0x0A03 chkKeySlot actKeySlot c s)
/-- AUTHORISE with P0 = 0, as the packet gives it. -/
def execAuthoriseChallenge (c : Cmd) (s : State) : Host.Outcome State Fault Refusal := .next (hostCmd 0x0A04 chkAuthorise actAuthorise c s)
/-- AUTHORISE with P0 = 1, as the packet gives it. -/
def execAuthorisePresent (c : Cmd) (s : State) : Host.Outcome State Fault Refusal := .next (hostCmd 0x0A04 chkAuthorise actAuthorise c s)

end Sys2Proof.Machine
end

