-- ==== Sys2Proof/Machine/CmdService.lean ====
section
/-! DEFINITION. Machine/CmdService.lean: command family 0x0B service (R370, R418, R419, R523, R548 to R551, R575, R577, R578, R591). -/
namespace Sys2Proof.Machine

/-! ### The checks of a base personality or a firmware package (R418, R419) -/

/-- Security epoch of a firmware version (R594). -/
def fwEpoch (w : Word) : Nat := wfld w 29 24

/-- Checks 1 to 5 for a byte count: 0, or the number of the first that fails. -/
def packageCheck (s : State) (b : BasePersonality) (bytes : Nat) : Nat :=
  if b.totalBytes != bytes || b.bytes != bytes || 64 * 2 ^ 20 < bytes || b.magic != 0x53424541 || !b.reservedOk then 1
  else if b.fmtMajor != 1 || fwEpoch b.fwVersion < s.sec.floor then 2
  else if !b.sigOk then 3
  else if !b.digestOk then 4
  else if !bitOf b.partMask.toNat (b2n s.ident.small) then 5
  else 0

/-- CAUSE and status of a failed check. -/
def checkCause (k : Nat) : Nat × Nat :=
  match k with
  | 1 | 6 => (0x02, 0x0103)
  | 2 => (0x03, 0x0602)
  | 3 => (0x04, 0x0401)
  | 4 => (0x05, 0x0401)
  | _ => (0x06, 0x0103)

/-! ### SVC_STATUS, SERVICE_ENTER, SERVICE_EXIT -/

/-- SVC_STATUS. -/
def actSvcStatus (s : State) (_ : Cmd) : State × Res := (s, .ok [hsbCtrl s, s.ctl.fw, standbyFw s])

/-- SERVICE_ENTER: not while an image load is in progress (R39, R212). -/
def actServiceEnter (s : State) (_ : Cmd) : State × Res :=
  if s.img.loading.isSome then (s, .refuse 0x0204)
  else if !s.sec.authService then (s, .refuse 0x0402)
  else (modeEvent (setMode s .service .free false) s.seq.dcn, .ok [])

/-- Every unit runs a firmware, by orders 2 to 7: the standby becomes active, the former active controller and the die controllers
restart (R549). -/
def switchFirmware (s : State) (v : Word) (d : Digest) : State :=
  let s := { s with ctl := { s.ctl with activeB := !s.ctl.activeB, fwA := v, fwB := v, fw := v, fwDigest := d, order := 0 } }
  bumpIo (pauseServos s) 0x14 0x02C 16 (nDies s)

/-- SERVICE_EXIT: back to the production firmware (R551). -/
def actServiceExit (s : State) (_ : Cmd) : State × Res :=
  let s := if s.ctl.fw == s.ctl.prod then s else switchFirmware s s.ctl.prod s.ctl.prodDigest
  (modeEvent (setMode s .standby .free false) s.seq.dcn, .ok [])

/-! ### FW_UPDATE (R548 to R551) -/

/-- The package that a command brings. -/
def packageOf (c : Cmd) : Option BasePersonality := match c.data with | .base b => some b | _ => none

/-- FW_UPDATE: no frames. -/
def chkFwUpdate (_ : State) (c : Cmd) : Nat :=
  match packageOf c with
  | some b => if b.frames.isEmpty then 0 else 0x0103
  | none => 0x0103

/-- FW_UPDATE: the package is verified before the reply, order 1 (R549). -/
def actFwUpdate (s : State) (c : Cmd) : State × Res :=
  if s.ctl.update.isSome || s.ckp.recovery.isSome then (s, .refuse 0x0202)
  else match packageOf c with
    | none => (s, .refuse 0x0103)
    | some b =>
      let k := packageCheck s b (cPar64 c 3)
      if k == 3 then (verifyFailed (privGap s), .fail 0x0401)
      else if k != 0 then (s, .refuse (checkCause k).2)
      else if bitOf b.fwVersion.toNat 31 != (s.md.mode == .service) then (s, .refuse 0x0602)
      else
        let s := privGap s
        ({ s with ctl := { s.ctl with update := some b, order := 1 } }, .accept)

/-- FW_UPDATE_COMPLETE: orders 2 to 7, or the old firmware stays (R550). A device without a standby has no unit for order 2. -/
def fwUpdateComplete (s : State) (ok : Bool) : State :=
  match s.ctl.update with
  | none => s
  | some b =>
    let s := { s with ctl := { s.ctl with update := none, order := 0 } }
    if ok && !s.ctl.aFailed && !s.ctl.bFailed then
      let s := switchFirmware s b.fwVersion b.fwDigest
      let s := if bitOf b.fwVersion.toNat 31 then s else { s with ctl := { s.ctl with prod := b.fwVersion, prodDigest := b.fwDigest } }
      completeAll s 0x0B03 0 []
    else completeAll s 0x0B03 0x0503 []

/-! ### TRACE_CTRL, BANK_POWER, MGMT_CONFIG, DIAG -/

/-- TRACE_CTRL. -/
def chkTraceCtrl (_ : State) (c : Cmd) : Nat := if cPar c 0 / 4 != 0 then 0x0104 else 0

/-- State 0 of the event machine with ON at 0 (R575). -/
def trcRestart (s : State) : State :=
  let s := { s with trc := { s.trc with st := 0, on := false, stored := 0 } }
  setIo (setIo s 0x16 0x014 0) 0x16 0x018 0

/-- TRACE_CTRL: P0 [1] restarts the machine, P0 [0] is a HOST pulse. -/
def actTraceCtrl (s : State) (c : Cmd) : State × Res :=
  let s := if bitOf (cPar c 0) 1 then trcRestart s else s
  (if bitOf (cPar c 0) 0 then { s with trc := { s.trc with hostIn := true } } else s, .ok [])

/-- BANK_POWER: a bank, a power state. -/
def chkBankPower (_ : State) (c : Cmd) : Nat := if 15 < cPar c 0 || 2 < cPar c 1 then 0x0103 else 0

/-- The owner of a bank is a service controller in use (R523). -/
def bankInUse (s : State) (b : Bank) : Bool := (b.owner == 0 && !s.ctl.aFailed) || (b.owner == 1 && !s.ctl.bFailed)

/-- The trace goes to a bank. -/
def traceBank (s : State) (n : Nat) : Bool := trcDest s == 0 && trcBank s == n && bitOf (trcCtrl s) 0

/-- BANK_POWER (R523, R577): the trace's bank first acts as a STOP and waits for the funnel; off loses the contents. -/
def actBankPower (s : State) (c : Cmd) : State × Res :=
  let n := cPar c 0
  let p := cPar c 1
  match s.banks[n]? with
  | none => (s, .refuse 0x0103)
  | some b =>
    if p == 2 && b.power != 2 && bankInUse s b then (s, .refuse 0x0202)
    else
      let s := if p != 0 && traceBank s n then trcStop s else s
      let s := if p == 2 && trcDest s == 0 && trcBank s == n then { s with trc := { s.trc with data := [] } } else s
      (bankPower s n p, .ok [])

/-- MGMT_CONFIG: a port, a UDP port, reserved bits of P6. -/
def chkMgmt (_ : State) (c : Cmd) : Nat := if cPar c 6 / 2 ^ 13 != 0 then 0x0104 else if 1 < cPar c 0 || 65535 < cPar c 1 then 0x0103 else 0
def actMgmt (s : State) (c : Cmd) : State × Res :=
  ({ s with ctl := { s.ctl with mgmt := put s.ctl.mgmt (cPar c 0) (cWords c 1 6) } }, .ok [])

/-- DIAG: the diagnostics are the vendor's (log 26). -/
def actDiag (s : State) (_ : Cmd) : State × Res := (s, .accept)

/-- DIAG_COMPLETE: the diagnostics end with one of the status codes. -/
def diagComplete (s : State) (status : Nat) (ws : List Word) : State :=
  if !finalStatus status then s else completeFirst s (fun w => w.opcode == 0x0B07) status ws

/-- SVC_STATUS. -/
def execSvcStatus (c : Cmd) (s : State) : Host.Outcome State Fault Refusal := .next (hostCmd 0x0B00 noCheck actSvcStatus c s)
/-- SERVICE_ENTER (R39). -/
def execServiceEnter (c : Cmd) (s : State) : Host.Outcome State Fault Refusal := .next (hostCmd 0x0B01 noCheck actServiceEnter c s)
/-- SERVICE_EXIT. -/
def execServiceExit (c : Cmd) (s : State) : Host.Outcome State Fault Refusal := .next (hostCmd 0x0B02 noCheck actServiceExit c s)
/-- FW_UPDATE. -/
def execFwUpdate (c : Cmd) (s : State) : Host.Outcome State Fault Refusal := .next (hostCmd 0x0B03 chkFwUpdate actFwUpdate c s)
/-- FW_UPDATE_COMPLETE. -/
def execFwUpdateComplete (ok : Bool) (s : State) : Host.Outcome State Fault Refusal := .next (unlessHeld s fun s => fwUpdateComplete s ok)
/-- TRACE_CTRL with P0 [0], as the packet gives it. -/
def execTraceCtrlHost (c : Cmd) (s : State) : Host.Outcome State Fault Refusal := .next (hostCmd 0x0B04 chkTraceCtrl actTraceCtrl c s)
/-- TRACE_CTRL with P0 [1], as the packet gives it. -/
def execTraceCtrlRestart (c : Cmd) (s : State) : Host.Outcome State Fault Refusal := .next (hostCmd 0x0B04 chkTraceCtrl actTraceCtrl c s)
/-- BANK_POWER. -/
def execBankPower (c : Cmd) (s : State) : Host.Outcome State Fault Refusal := .next (hostCmd 0x0B05 chkBankPower actBankPower c s)
/-- MGMT_CONFIG. -/
def execMgmtConfig (c : Cmd) (s : State) : Host.Outcome State Fault Refusal := .next (hostCmd 0x0B06 chkMgmt actMgmt c s)
/-- DIAG. -/
def execDiag (c : Cmd) (s : State) : Host.Outcome State Fault Refusal := .next (hostCmd 0x0B07 noCheck actDiag c s)
/-- DIAG_COMPLETE. -/
def execDiagComplete (status : Nat) (results : List Word) (s : State) : Host.Outcome State Fault Refusal := .next (unlessHeld s fun s => diagComplete s status results)

end Sys2Proof.Machine
end

