-- ==== Sys2Proof/Machine/CmdFabric.lean ====
section
/-! DEFINITION. Machine/CmdFabric.lean: command family 0x0C fabric configuration (R401 to R404, R417 to R419, R427, R429 to R433). -/
namespace Sys2Proof.Machine

/-! ### BASE_LOAD (R417 to R419) -/

/-- Frame addresses rise strictly. -/
def risingFrames : List Word → Bool
  | a :: b :: r => decide (a < b) && risingFrames (b :: r)
  | _ => true

/-- Check 6: SITE 0xF, ascending unique addresses, correct check bits. -/
def framesOk (b : BasePersonality) : Bool := b.frames.all (fun f => wfld f.addr 31 28 == 15 && f.checkOk) && risingFrames (b.frames.map (·.addr))

/-- Bytes that are no base personality: they fail check 1. -/
def noPersonality : BasePersonality := {
  bytes := 0, magic := 0, fmtMajor := 0, totalBytes := 0, partMask := 0, fwVersion := 0, reservedOk := false, sigOk := false, digestOk := false
  bodyDigest := 0, fwDigest := 0, frames := [], baseLock := 0, prKey := 0, utilMap := [], ioCells := [], owners := [] }

/-- BASE_LOAD: not after a start-up failure, nor a second time (R419). -/
def actBaseLoad (s : State) (c : Cmd) : State × Res :=
  if s.boot.phase == 7 || s.boot.base.isSome then (s, .refuse 0x0202)
  else ({ s with boot := { s.boot with base := some ((packageOf c).getD noPersonality), phase := 2 } }, .accept)

/-- I/O cell frames configure their pins; MODE and DDR of a pin that the resident image maps stay the image's (R393). -/
def configurePins (s : State) (cells : List (Nat × Word)) : State :=
  cells.foldl (fun s e => if e.1 < 192 then holdPad (putReg s 15 0x10 (0x100 + 4 * e.1) (e.2.toNat % 2 ^ 23)) e.1 else s) s

/-- I/O-die regions named by a frame become VALID. -/
def namedRegions (fs : List FrameRec) : List Nat := (fs.map (fun f => 32 + wfld f.addr 27 24)).foldl ins []

/-- The firmware starts and the frames are written (R418). -/
def startPersonality (s : State) (b : BasePersonality) : State :=
  let s := writeFrames s b.frames
  let s := { s with
    ctl := { s.ctl with
      fw := b.fwVersion, fwA := b.fwVersion, fwB := b.fwVersion, prod := b.fwVersion, fwDigest := b.fwDigest, prodDigest := b.fwDigest }
    fab := { s.fab with
      regions := (namedRegions b.frames).foldl (fun m r => put m r .valid) s.fab.regions, baseLock := b.baseLock, prKey := b.prKey }
    sec := { s.sec with baseDigest := b.bodyDigest }
    banks := s.banks.zipIdx.map (fun e => { e.1 with owner := nth 0 b.owners e.2 })
    boot := { s.boot with accepted := true, phase := 3 } }
  configurePins s b.ioCells

/-- BASE_LOAD_COMPLETE: the last byte has come; the checks of R418, and what follows. -/
def baseLoadComplete (s : State) : State :=
  match s.boot.base, firstWaiting s (fun w => w.opcode == 0x0C00) with
  | some b, some w =>
    if s.boot.phase != 2 then s
    else
      let s := privGap { s with boot := { s.boot with received := true, phase := 3 } }
      let k := packageCheck s b (cPar64 w.cmd 3)
      let k := if k == 0 && !framesOk b then 6 else k
      if k != 0 then
        let s := if k == 3 then verifyFailed s else s
        startUpFailure s (checkCause k).1 (checkCause k).2
      else completeAll (startPersonality s b) 0x0C00 0 []
  | _, _ => s

/-! ### PR_LOAD (R429 to R433) -/

/-- SITE and REGION of a device region, as a frame address names them (R401). -/
def regionFrame (r : Nat) : Nat := if r < 32 then r / 4 * 2 ^ 28 + r % 4 * 2 ^ 24 else 15 * 2 ^ 28 + (r - 32) * 2 ^ 24

/-- A frame exists in a region (R401). -/
def frameHere (r f : Nat) : Bool :=
  f < (if r < 32 then 0xC00 else 0x800) || (0xD00 ≤ f && f < 0xD10) || (0xE00 ≤ f && f < 0xE80) || (r == 32 && 0xF00 ≤ f && f < 0xF18)
    || (0xF80 ≤ f && f < 0xF90)

/-- A table entry names a frame of the region. -/
def entryHere (r : Nat) (a : Word) : Bool := a.toNat / 2 ^ 12 * 2 ^ 12 == regionFrame r && frameHere r (wfld a 11 0)

/-- The bitstream that a command brings. -/
def bitsOf (c : Cmd) : Option PartialBits := match c.data with | .frames p => some p | _ => none

/-- P0 of PR_LOAD and FAB_STATUS: a region of a present die. -/
def chkFabRegion (s : State) (c : Cmd) : Nat :=
  let r := cPar c 0
  if 40 ≤ r then 0x0103 else if r < 32 && nDies s ≤ r / 4 then 0x0107 else 0

/-- PR_LOAD: the region and the header (R430). -/
def chkPrLoad (s : State) (c : Cmd) : Nat :=
  if chkFabRegion s c != 0 then chkFabRegion s c
  else match bitsOf c with
    | none => 0x0103
    | some p =>
      if !p.reservedOk then 0x0104
      else if p.magic != 0x52504541 || p.fmtMajor != 1 || p.nFrames < 1 || 4096 < p.nFrames then 0x0103
      else if p.regionAddr.toNat != regionFrame (cPar c 0) then 0x0105
      else 0

/-- Unit under which a region that is to be reloaded holds code 8 (R404). -/
def regionUnit (r : Nat) : Nat := 256 + r

/-- The region may not be loaded now: locked, LOADING, or connected while the board is in RUN or REPLAY, but for one that R404 has made
INVALID and for which the sluice holds (R403, R430). -/
def prBars (s : State) (r : Nat) : Nat :=
  if (32 ≤ r && bitOf s.fab.baseLock.toNat (r - 32)) || regionSt s r == .loading then 0x0202
  else if (s.md.mode == .run || s.md.mode == .replay) && connected s r && !(regionSt s r == .invalid && s.slu.held.contains (8, regionUnit r)) then 0x0201
  else 0

/-- Key that a partial load must verify under: PR_KEY 0 is Lenaux's, whose check the host data answers with the key of R581. -/
def prKeyOk (s : State) (p : PartialBits) : Bool := p.keySlot == s.fab.prKey && (s.fab.prKey == 0 || slotUsable (slotOf? s s.fab.prKey).1)
def prSigOk (s : State) (p : PartialBits) : Bool :=
  p.key == some (if s.fab.prKey == 0 then Config.firmwareKey else (slotOf? s s.fab.prKey).2)

/-- PR_LOAD (R430, R431). -/
def actPrLoad (s : State) (c : Cmd) : State × Res :=
  match bitsOf c with
  | none => (s, .refuse 0x0103)
  | some p =>
    let r := cPar c 0
    if prBars s r != 0 then (s, .refuse (prBars s r))
    else if !prKeyOk s p then (s, .refuse 0x0403)
    else if !prSigOk s p then (verifyFailed (privGap s), .fail 0x0401)
    else if p.table.length != p.nFrames || !risingFrames p.table || !p.table.all (entryHere r) then (s, .refuse 0x0103)
    else
      let s := privGap s
      ({ s with fab := { s.fab with regions := put s.fab.regions r .loading, loads := put s.fab.loads r p } }, .accept)

/-- Status of the body's end: 0, or what aborts the load (R432). -/
def bodyStatus (p : PartialBits) : Nat :=
  let n := p.table.length
  if p.records.length < n || !((p.records.take n).zip p.table).all (fun e => e.1.addr == e.2 && e.1.checkOk) then 0x0103
  else if !p.digestOk then 0x0401
  else if n < p.records.length then 0x0103
  else 0

/-- Records that are written: each before the next is examined, up to the first that fails (R431, R432). -/
def writtenRecords (p : PartialBits) : List FrameRec :=
  ((p.records.zip p.table).takeWhile (fun e => e.1.addr == e.2 && e.1.checkOk)).map (·.1)

/-- A region becomes VALID or INVALID at the end of its load; a VALID one is released at the next FABRIC edge (R432, R433). -/
def endPrLoad (s : State) (r : Nat) (p : PartialBits) : State × Nat :=
  let st := bodyStatus p
  let s := writeFrames s (writtenRecords p)
  let s := { s with fab := { s.fab with loads := del s.fab.loads r, regions := put s.fab.regions r (if st == 0 then .valid else .invalid) } }
  if st == 0 then
    let s := { s with
      sec := { s.sec with prDigests := put s.sec.prDigests r p.bodyDigest }
      fab := { s.fab with logic := { s.fab.logic with fresh := ins s.fab.logic.fresh r } } }
    (dropReq (configurePins s (if r == 32 then p.ioCells else [])) 8 (regionUnit r), 0)
  else (fault s { cls := 2, cause := 0x0903, unit := siteLoc (if r < 32 then r / 4 else 15), d1 := r }, st)

/-- PR_LOAD_COMPLETE of the oldest load. -/
def prLoadComplete (s : State) : State :=
  let q (w : Waiting) : Bool := w.opcode == 0x0C01
  match firstWaiting s q with
  | none => s
  | some w =>
    match lookup s.fab.loads (cPar w.cmd 0) with
    | none => s
    | some p =>
      let r := endPrLoad s (cPar w.cmd 0) p
      completeFirst r.1 q r.2 []

/-- FAB_STATUS: the codes of FAB_REGION (R405), which names UNCONFIGURED as well. -/
def actFabStatus (s : State) (c : Cmd) : State × Res := (s, .ok [BitVec.ofNat 32 (regionCode (regionSt s (cPar c 0)))])

/-- BASE_LOAD. -/
def execBaseLoad (c : Cmd) (s : State) : Host.Outcome State Fault Refusal := .next (hostCmd 0x0C00 noCheck actBaseLoad c s)
/-- BASE_LOAD_COMPLETE. -/
def execBaseLoadComplete (s : State) : Host.Outcome State Fault Refusal := .next (unlessHeld s fun s => baseLoadComplete s)
/-- PR_LOAD. -/
def execPrLoad (c : Cmd) (s : State) : Host.Outcome State Fault Refusal := .next (hostCmd 0x0C01 chkPrLoad actPrLoad c s)
/-- PR_LOAD_COMPLETE. -/
def execPrLoadComplete (s : State) : Host.Outcome State Fault Refusal := .next (unlessHeld s fun s => prLoadComplete s)
/-- FAB_STATUS. -/
def execFabStatus (c : Cmd) (s : State) : Host.Outcome State Fault Refusal := .next (hostCmd 0x0C02 chkFabRegion actFabStatus c s)

end Sys2Proof.Machine
end

