-- ==== Sys2Proof/Machine/Faults.lean ====
section
/-! DEFINITION. Machine/Faults.lean: controllers, dies, groups, clocks, power and temperature (R36, R37, R85 to R91, R167, R345, R353,
R528 to R545, R594, R602, R617 to R625). -/
namespace Sys2Proof.Machine

/-! ### Service controllers (R353, R541, R542) -/

/-- A controller is failed; the active one. -/
def ctlFailed (s : State) (b : Bool) : Bool := if b then s.ctl.bFailed else s.ctl.aFailed
/-- A restart of the controller that is not active is in progress. -/
def isRestart (r : ErrRec) : Bool := r.cause == 0x0701 || r.cause == 0x0702
def restarting (s : State) : Bool := s.err.pending.any isRestart

/-- TAKEOVER: the standby raises code 12, completes the journal and becomes active; the old active controller restarts. A reply that was
still to come carries TAKEOVER (R365). -/
def takeover (s : State) : State :=
  if s.ctl.aFailed || s.ctl.bFailed || restarting s then s
  else
    let n := repairSlots s
    let s := bumpIo s 0x14 0x028 16 1
    let s := if slotsRun s && !inSafeHold s then startRepair (tickFree s) { code := 12, unit := 0, left := some n, driven := 0, word := none, recs := [] } else s
    let s := pauseServos (pendFault s { cls := 3, cause := 0x0701, unit := siteLoc 15, source := 12 })
    { s with
      ctl := { s.ctl with activeB := !s.ctl.activeB }
      io := { s.io with
        deferred := s.io.deferred.map (fun w => { w with tko := true })
        relayed := s.io.relayed.map (fun r => if r.accepted then r else { r with tko := true }) } }

/-- STANDBY_RESTART: no stall. -/
def standbyRestart (s : State) : State :=
  if ctlFailed s (!s.ctl.activeB) || restarting s then s
  else pendFault s { cls := 3, cause := 0x0702, unit := siteLoc 15 }

/-- SAFE_HOLD_ENTRY: hardware finds neither heartbeat changed for 40 µs. -/
def safeHoldEntry (s : State) : State :=
  if inSafeHold s then s
  else
    let s := { s with ctl := { s.ctl with aFailed := true, bFailed := true } }
    fault s { cls := 5, cause := 0x0703, unit := siteLoc 15 }

/-- HEARTBEAT of controller A (false) or B (true): a controller that was restarted runs the production firmware as the standby. -/
def heartbeat (s : State) (b : Bool) : State :=
  if ctlFailed s b then s
  else
    let s := { s with ctl := if b then { s.ctl with beatB := s.ctl.beatB + 1 } else { s.ctl with beatA := s.ctl.beatA + 1 } }
    if b == s.ctl.activeB then { s with util := { s.util with beat := !s.util.beat } }
    else if restarting s then
      let s := { s with ctl := if b then { s.ctl with fwB := s.ctl.fw } else { s.ctl with fwA := s.ctl.fw } }
      endFault s isRestart id
    else s

/-- CONTROLLER_RESTART_TIMEOUT: no heartbeat within 1 ms. -/
def restartTimeout (s : State) : State :=
  if restarting s then
    let s := { s with ctl := if s.ctl.activeB then { s.ctl with aFailed := true } else { s.ctl with bFailed := true } }
    endFault s isRestart (fun r => { r with cls := 4 })
  else s

/-! ### Die controllers and protocol engines (R543, R345) -/

/-- DIE_CONTROLLER_RESTART with its outcome; the third failure within 1 s resets the die, and beyond restart a second time is FATAL. -/
def dieControllerRestart (s : State) (d : Nat) (ok : Bool) : State :=
  if nDies s ≤ d then s
  else
    let s := bumpIo s 0x14 0x02C 16 1
    if ok then fault s { cls := 3, cause := 0x0704, unit := siteLoc d }
    else
      let ts := ((lookup s.ctl.dieRestarts d).getD []).filter (fun t => nowNs s < t + 1000000000) ++ [nowNs s]
      if ts.length < 3 then { s with ctl := { s.ctl with dieRestarts := put s.ctl.dieRestarts d ts } }
      else
        let again := s.ctl.dieFailed.contains d
        let s := { s with ctl := { s.ctl with dieRestarts := del s.ctl.dieRestarts d, dieFailed := ins s.ctl.dieFailed d } }
        if again then fault s { cls := 5, cause := 0x0705, unit := siteLoc d, flags := 16 } else loseDie s d 0x0705

/-- PROTOCOL_ENGINE_RESTART: under the sluice; its channels keep their queues. -/
def engineRestart (s : State) (e : Nat) : State :=
  if e < 4 then
    let s := { s with trx := { s.trx with restarts := if slotsRun s && !inSafeHold s then s.trx.restarts ++ [e] else s.trx.restarts } }
    singleFault s 12 { cls := 3, cause := 0x0706, unit := siteLoc 15 }
  else s

/-! ### Supplies and clocks (R36, R37, R617) -/

/-- DIE_SUPPLY_LOSS. -/
def supplyLoss (s : State) (d : Nat) : State :=
  if nDies s ≤ d || s.pwr.lost.contains d then s
  else loseDie { s with pwr := { s.pwr with lost := ins s.pwr.lost d } } d 0x0802

/-- DIE_SUPPLY_RETURN: the die is released and its reinitialisation begins. -/
def supplyReturn (s : State) (d : Nat) : State := { s with pwr := { s.pwr with lost := s.pwr.lost.filter (fun x => x != d) } }

/-- RAIL_LOSS: every output disabled until cold reset. -/
def railLoss (s : State) (_ : Nat) : State := { s with pwr := { s.pwr with disabled := true } }

/-- Ring module that carries the secondary clock of a die. -/
def clockModule (s : State) (d : Nat) : Nat := if s.ident.small && d == 3 then 18 else 16 + d

/-- CLOCK_PATH_SWITCH: under the sluice to the secondary path; without one, both paths are lost. -/
def clockSwitch (s : State) (d : Nat) : State :=
  if nDies s ≤ d then s
  else if s.pwr.clk.contains d || !s.ucie.any (fun e => e.1 == clockModule s d && (e.2.st == 3 || e.2.st == 4)) then
    fault s { cls := 5, cause := 0x0502, unit := siteLoc d, flags := 16 }
  else
    singleFault { s with pwr := { s.pwr with clk := ins s.pwr.clk d } } 11 { cls := 3, cause := 0x0501, unit := siteLoc d }

/-! ### Instruction repair and groups (R85 to R92) -/

/-- INSTRUCTION_REPAIR under the sluice: the words that are first in line are rewritten, their requests end, the records are made (R86,
R532). -/
def instructionRepair (s : State) : State := if frozen s && !inSafeHold s then endRepairs s (fun r => r.word.isSome) else s

/-- Failed physical groups of a cluster. -/
def failedGroups (s : State) (gc : Nat) : List Nat := (lookup s.ds.failed gc).getD []

/-- A physical group that has failed stays failed over every reset (R91). -/
def wearGroup (s : State) (gc g : Nat) : State := { s with ident := { s.ident with worn := s.ident.worn ++ [(gc, g)] } }

/-- GROUP_FAILURE of a physical group (R89, R91): in RUN and REPLAY the unmapped spare, group 32, takes the place of a mapped group and the
design state is rebuilt; where the spare is mapped or has failed the fault is FATAL. Of an unmapped spare, and of a mapped group in
another mode while the spare is unmapped, the spec says nothing: the failure is kept for the next start (DESIGN CHOICE, log 60). -/
def groupFailure (s : State) (gc g : Nat) : State :=
  let fs := failedGroups s gc
  if nDies s ≤ gc / 64 || 32 < g || fs.contains g || s.ident.worn.contains (gc, g) then s
  else
    let s := wearGroup s gc g
    if !fs.isEmpty then fault s { cls := 5, cause := 0x0602, unit := mkLoc gc (if g == 32 then nth 0 fs 0 else g) 0 0, flags := 16 }
    else if g == 32 then { s with ds := { s.ds with failed := put s.ds.failed gc [g] } }
    else if s.md.mode == .run || s.md.mode == .replay then
      needRecovery { s with ds := { s.ds with failed := put s.ds.failed gc [g] } } { cls := 3, cause := 0x0601, unit := mkLoc gc g 0 0 }
    else s

/-- Failed groups by cluster from the fuse map, what has failed in operation, and the self-test. -/
def failedMap (fs : List (Nat × Nat)) : List (Nat × List Nat) :=
  fs.foldl (fun m e => if e.2 < 33 then put m e.1 (ins ((lookup m e.1).getD []) e.2) else m) []

/-- A whole die is beyond repair: each of its 64 clusters has more than one failed group. -/
def dieBeyond (m : List (Nat × List Nat)) (d : Nat) : Bool :=
  (List.range 64).all (fun k => match lookup m (64 * d + k) with | some l => decide (1 < l.length) | none => false)

/-- GROUP_SELF_TEST in BOOT: what it finds has failed for every later start too (R91). -/
def groupSelfTest (s : State) (found : List (Nat × Nat)) : State :=
  if s.md.mode != .boot || s.boot.remap then s
  else
    let m := failedMap (s.ident.badGroups ++ s.ident.worn ++ found)
    let s := { s with ident := { s.ident with worn := found.foldl (fun a e => if e.2 < 33 && !a.contains e then a ++ [e] else a) s.ident.worn } }
    if (diesOf s).any (dieBeyond m) then startUpFailure s 0x09 0x0501
    else { s with ds := { s.ds with failed := m }, boot := { s.boot with remap := true } }

/-- DDR5_TRAINING: the mask of trained channels, DIMMs per channel, identical DIMMs, installed GB; the design area is what the other areas
leave (R169). -/
def ddr5Training (s : State) (channels : Nat) (twoDpc identical : Bool) (gb : Nat) : State :=
  if s.md.mode != .boot || s.boot.ddr then s
  else
    let ok := channels % 256 == 255 && identical
    let s := setIo s 0x03 0x000 (channels % 256 + 256 * b2n twoDpc + 512 * b2n ok)
    if ok then
      let g := gb * 2 ^ 18 - cdiv (areaBase s 5) 4096
      { s with img := { s.img with ddrGb := gb, area := g, free := g }, boot := { s.boot with ddr := true } }
    else startUpFailure s 0x08 0x0501

/-! ### Temperature and power (R619 to R625) -/

/-- Code 5 of condition c of a site is held; raise it, counted by the die; drop it. -/
def thrUnit (site c : Nat) : Nat := 8 * site + c
def thrRaise (s : State) (site c : Nat) : State :=
  if s.slu.held.contains (5, thrUnit site c) then s
  else holdReq (bump s (rkey site 0x10 0x814) 16 1) 5 (thrUnit site c)
def thrSet (s : State) (site c : Nat) (on off : Bool) : State :=
  if on then thrRaise s site c else if off then dropReq s 5 (thrUnit site c) else s

/-- Last readings of a site. -/
def siteTemp (s : State) (site : Nat) : Int := sgn 12 (reg s (rkey site 0x10 0x804)).toNat
def siteVcc (s : State) (site : Nat) : Nat := (reg s (rkey site 0x10 0x808)).toNat % 2 ^ 12

/-- Neighbours of a site whose sensors have been read, dies without supply left out (R617, R622). -/
def neighbours (s : State) (site : Nat) : List Nat :=
  s.pwr.seen.filter (fun n => n != site && !s.pwr.lost.contains n && (n == 15 || site == 15 || (site < 8 && n < 8 && ringNeighbours s site n)))

/-- The two comparisons of a die with its neighbours. -/
def compareNeighbours (s : State) (x : Nat) : State :=
  let ns := neighbours s x
  let dt (n : Nat) : Int := siteTemp s x - siteTemp s n
  let dv (n : Nat) : Int := (siteVcc s n : Int) - (siteVcc s x : Int)
  let s := thrSet s x 1 (ns.any (fun n => decide (200 < dt n))) (ns.all (fun n => decide (dt n ≤ 160)))
  thrSet s x 3 (ns.any (fun n => decide (50 < dv n))) (ns.all (fun n => decide (dv n ≤ 40)))

/-- A voltage of a rail is in its operating range (R613). -/
def inRange (r : Rail) (nominal mv : Nat) : Bool := (railRange r nominal).1 ≤ mv && mv ≤ (railRange r nominal).2
/-- Both rails of a compute die are. -/
def railsIn (t : ThermalReading) : Bool := inRange (.vccD t.site) 750 t.vcc && inRange (.vcsD t.site) 850 t.vcs
/-- They are above the limits of a loss. -/
def railsLive (t : ThermalReading) : Bool := 650 ≤ t.vcc && 750 ≤ t.vcs

/-- Rails of a compute die: outside their range, above the loss limits, until both are in range for 10 µs. -/
def railCheck (s : State) (t : ThermalReading) : State :=
  if 8 ≤ t.site then s
  else if !railsIn t then
    let s := { s with pwr := { s.pwr with railUs := put s.pwr.railUs t.site 0 } }
    if railsLive t then thrRaise s t.site 2 else s
  else
    let n := (lookup s.pwr.railUs t.site).getD 10 + 1
    let s := { s with pwr := { s.pwr with railUs := put s.pwr.railUs t.site (min n 10) } }
    if 10 ≤ n then dropReq s 5 (thrUnit t.site 2) else s

/-- A site that has sensors. -/
def hasSensors (s : State) (site : Nat) : Bool := site < nDies s || site == 15 || (site == 8 && s.ident.accessory != 0x4E)

/-- THERMAL_SAMPLE of one die. -/
def thermalSample (s : State) (t : ThermalReading) : State :=
  if !hasSensors s t.site || s.pwr.lost.contains t.site then s
  else
    let k (off : Nat) : Nat := rkey t.site 0x10 off
    let tj := unsgn 12 (clampS 12 t.temp)
    let old := (reg s (k 0x810)).toNat
    let s := setReg s (k 0x804) (BitVec.ofNat 32 tj)
    let s := setReg s (k 0x808) (packW [(0, 12, t.vcc), (16, 12, t.vcs)])
    let s := setReg s (k 0x80C) (packW [(0, 16, t.power), (16, 16, (reg s (k 0x80C)).toNat / 2 ^ 16)])
    let s := if old == 0 || sgn 12 old < t.temp then setReg s (k 0x810) (BitVec.ofNat 32 tj) else s
    let s := { s with pwr := { s.pwr with seen := ins s.pwr.seen t.site } }
    let s := if 880 ≤ t.temp then setReg s (k 0x800) 64 else s
    let trip := bitOf (reg s (k 0x800)).toNat 6
    let s := thrSet s t.site 0 (trip || decide (760 ≤ t.temp)) (decide (t.temp ≤ 736))
    let s := railCheck s t
    (t.site :: neighbours s t.site).foldl compareNeighbours s

/-- PACKAGE_POWER_SAMPLE: the mean of 10 µs in 0.1 W. -/
def packageSample (s : State) (p : Nat) : State :=
  let k := rkey 15 0x10 0x80C
  let s := setReg s k (packW [(0, 16, (reg s k).toNat % 2 ^ 16), (16, 16, p)])
  thrSet s 15 4 (decide (7000 < p)) (decide (p < 6800))

/-! ### Fuses and timers (R594, R602) -/

/-- ANTI_ROLLBACK_FLOOR_BURN: up to the epoch of the production firmware. -/
def burnFloor (s : State) : State :=
  if s.ctl.fw == s.ctl.prod && s.sec.floor < fwEpoch s.ctl.fw then { s with sec := { s.sec with floor := fwEpoch s.ctl.fw } } else s

/-- TMR_TOGGLE: half a period is over; in SAFE HOLD the source keeps its last value (R610). -/
def tmrToggle (s : State) (k : Nat) : State :=
  if 4 ≤ k || inSafeHold s then s
  else if utReg s (0x060 + 4 * k) == 0 then { s with util := { s.util with tmr := s.util.tmr &&& ~~~(BitVec.ofNat 4 (2 ^ k)) } }
  else { s with util := { s.util with tmr := s.util.tmr ^^^ BitVec.ofNat 4 (2 ^ k) } }

/-! ### The log's staging buffer (R301) -/

/-- LOG_STAGING_BUFFER_DRAIN of a number of bytes. -/
def drainLog (s : State) (bytes : Nat) : State :=
  let l := s.ckp.log
  let s := { s with ckp := { s.ckp with log := { l with stagedBytes := l.stagedBytes - bytes } } }
  if s.ckp.log.stagedBytes < 8 * 2 ^ 20 then dropReq s 6 0 else s

/-- TAKEOVER. -/
def execTakeover (s : State) : Host.Outcome State Fault Refusal := .next (takeover s)
/-- STANDBY_RESTART. -/
def execStandbyRestart (s : State) : Host.Outcome State Fault Refusal := .next (standbyRestart s)
/-- SAFE_HOLD_ENTRY. -/
def execSafeHoldEntry (s : State) : Host.Outcome State Fault Refusal := .next (safeHoldEntry s)
/-- HEARTBEAT. -/
def execHeartbeat (b : Bool) (s : State) : Host.Outcome State Fault Refusal := .next (heartbeat s b)
/-- CONTROLLER_RESTART_TIMEOUT. -/
def execControllerRestartTimeout (s : State) : Host.Outcome State Fault Refusal := .next (restartTimeout s)
/-- DIE_CONTROLLER_RESTART. -/
def execDieControllerRestart (die : Nat) (ok : Bool) (s : State) : Host.Outcome State Fault Refusal := .next (dieControllerRestart s die ok)
/-- PROTOCOL_ENGINE_RESTART. -/
def execProtocolEngineRestart (e : Nat) (s : State) : Host.Outcome State Fault Refusal := .next (engineRestart s e)
/-- DIE_SUPPLY_LOSS. -/
def execDieSupplyLoss (die : Nat) (s : State) : Host.Outcome State Fault Refusal := .next (supplyLoss s die)
/-- DIE_SUPPLY_RETURN. -/
def execDieSupplyReturn (die : Nat) (s : State) : Host.Outcome State Fault Refusal := .next (supplyReturn s die)
/-- RAIL_LOSS. -/
def execRailLoss (rail : Nat) (s : State) : Host.Outcome State Fault Refusal := .next (railLoss s rail)
/-- CLOCK_PATH_SWITCH. -/
def execClockPathSwitch (die : Nat) (s : State) : Host.Outcome State Fault Refusal := .next (clockSwitch s die)
/-- INSTRUCTION_REPAIR. -/
def execInstructionRepair (s : State) : Host.Outcome State Fault Refusal := .next (instructionRepair s)
/-- GROUP_FAILURE. -/
def execGroupFailure (gc group : Nat) (s : State) : Host.Outcome State Fault Refusal := .next (groupFailure s gc group)
/-- GROUP_SELF_TEST. -/
def execGroupSelfTest (failed : List (Nat × Nat)) (s : State) : Host.Outcome State Fault Refusal := .next (groupSelfTest s failed)
/-- DDR5_TRAINING. -/
def execDdr5Training (channels : Nat) (twoDpc identical : Bool) (gb : Nat) (s : State) : Host.Outcome State Fault Refusal :=
  .next (ddr5Training s channels twoDpc identical gb)
/-- THERMAL_SAMPLE. -/
def execThermalSample (t : ThermalReading) (s : State) : Host.Outcome State Fault Refusal := .next (thermalSample s t)
/-- PACKAGE_POWER_SAMPLE. -/
def execPackagePowerSample (deciwatts : Nat) (s : State) : Host.Outcome State Fault Refusal := .next (packageSample s deciwatts)
/-- ANTI_ROLLBACK_FLOOR_BURN. -/
def execAntiRollbackFloorBurn (s : State) : Host.Outcome State Fault Refusal := .next (burnFloor s)
/-- TMR_TOGGLE. -/
def execTmrToggle (k : Nat) (s : State) : Host.Outcome State Fault Refusal := .next (tmrToggle s k)
/-- LOG_STAGING_BUFFER_DRAIN. -/
def execLogStagingBufferDrain (bytes : Nat) (s : State) : Host.Outcome State Fault Refusal := .next (unlessHeld s fun s => drainLog s bytes)

end Sys2Proof.Machine
end

