-- ==== Sys2Proof/Machine/Scrub.lean ====
section
/-! DEFINITION. Machine/Scrub.lean: DDR responses, the scrubbers and the test of the service banks (R180 to R182, R309, R314, R404, R510 to
R520, R524, R525). -/
namespace Sys2Proof.Machine

/-! ### What the store keeps (R293, R515) -/

/-- The word of a region is saved in the COW area of the last checkpoint. -/
def granuleSaved (s : State) (key : Nat) : Bool :=
  match s.ckp.last with
  | some c => (lookup c.cow (key / 2048)).isSome
  | none => false

/-! ### Responses (R180, R182) -/

/-- The oldest read of a port that has no response. -/
def waitingRead (s : State) (gc port : Nat) : Option DdrRead := s.ds.ddr.find? (fun r => r.gc == gc && r.port == port && !r.arrived)

/-- A read that never delivers: it writes no row and asks for no stall (R182, R514). -/
def dropRead (s : State) (r : DdrRead) : State :=
  dropReq { s with ds := { s.ds with ddr := s.ds.ddr.filter (fun x => x != r) } } 0 (ddrUnit r)

/-- A bad or missing response needs a recovery; one again at the DCN that the last such recovery replayed to is FATAL (R182). -/
def badResponse (s : State) (f : FaultInfo) : State :=
  if s.ckp.recovery.isNone && s.ckp.badDcn == some s.seq.dcn then fault s { f with cls := 5, flags := f.flags ||| 16, source := 13 }
  else needRecovery s f

/-- A design read that found an uncorrectable word (R182, R515). -/
def badRead (s : State) (r : DdrRead) (o : DdrOutcome) (synd : Nat) : State :=
  let s := dropRead s r
  let cause := if o == .poisoned then 0x0103 else if o == .addressError then 0x0104 else 0x0102
  let flags := (if o == .poisoned then 2 else 0) + (if o == .addressError then 4 else 0)
  let f := { ddrInfo 3 cause flags (mkLoc r.gc 0 0 0) (ddrWordAddr s r.key) with syndrome := some synd }
  let s := if o == .uncorrectable then countEcc (poisonWord s r.key) 15 7 true else s
  let s := if o == .addressError then bump16Hi s (rkey 15 0x13 0x1F0) else s
  if o == .addressError || granuleSaved s r.key then badResponse s f else fault s { f with cls := 5, flags := f.flags ||| 16, source := 13 }

/-- DDR_RESPONSE_ARRIVAL for the oldest read of a port; a word that holds poison reads so. -/
def ddrArrival (s : State) (gc port : Nat) (w : DdrWordFound) : State :=
  match waitingRead s gc port with
  | none => s
  | some r =>
    let s := maxIo s 0x03 0x010 (min (s.seq.ticks - r.tick) (2 ^ 16 - 1))
    let y := if s.ds.poison.contains (r.key / 4) then BitVec.ofNat 16 0xFFFF else ddrSyndrome (ddrWordAddr s r.key) w.synd w.wrong
    let o := ddrOutcome y
    if o == .good || o == .corrected then
      let s := { s with ds := { s.ds with ddr := s.ds.ddr.map (fun x => if x == r then { x with arrived := true } else x) } }
      let s := dropReq s 0 (ddrUnit r)
      if o == .corrected then
        fault (countEcc s 15 7 false) { ddrInfo 1 0x0101 0 (mkLoc gc 0 0 0) (ddrWordAddr s r.key) with syndrome := some y.toNat }
      else s
    else badRead s r o y.toNat

/-- DDR_RESPONSE_TIMEOUT: 100 µs after the issue of the oldest read of a port (log 14). -/
def ddrTimeout (s : State) (gc port : Nat) : State :=
  match waitingRead s gc port with
  | none => s
  | some r => badResponse (bumpIo (dropRead s r) 0x03 0x01C 16 1) { ddrInfo 3 0x0105 0 (mkLoc gc 0 0 0) (ddrWordAddr s r.key) with syndrome := some 0 }

/-! ### A forced checkpoint for a word that is lost (R294, R515) -/

/-- Force a checkpoint as R294 gives; where the board does not step, the lead takes it at once. -/
def forceNow (s : State) : State :=
  if s.ckp.last.isNone || s.ckp.wantForced || s.ckp.busy.isSome || s.ckp.forcedAt.isSome then s
  else if !stepping s && isLead s then startCheckpoint (sendFw s (.orderCheckpoint s.seq.dcn true)) true
  else
    let s := holdReq { s with ckp := { s.ckp with wantForced := true } } 7 0
    if isLead s then s else sendFw s (.forcedReport (posOf s))

/-! ### Scrubbers (R510, R512, R515 to R520) -/

/-- Frames of a region and code words of a class on a die (R401, R520). -/
def scrubWords (s : State) (site c : Nat) : Nat :=
  match c with
  | 0 => 110493696
  | 1 => 1622016
  | 2 => 16777216
  | 3 => 2097152
  | 4 => 20480
  | 5 => 48 * (if site == 15 then 8 * 2208 + 24 else 4 * 3232)
  | 6 => 33554432
  | 7 => s.img.ddrGb * 2 ^ 27
  | _ => 1024

/-- The units that a class skips as wholes, with their code words: the banks, and the regions of a die with the frames of its I/O cells
behind them (R520; the order of the frames in a pass is ascending by region, DESIGN CHOICE of log 41). -/
def scrubUnit (site c : Nat) : Option Nat :=
  if c == 6 then some (2 ^ 21) else if c == 5 then some (48 * (if site == 15 then 2208 else 3232)) else none
def unitSkipped (s : State) (site c u : Nat) : Bool :=
  if c == 6 then (match s.banks[u]? with | some b => b.power != 0 | none => true)
  else regionSt s (if site == 15 then 32 + u else 4 * site + u) == .loading

/-- The first code word at or above one that the pass reads; none is the end of the pass (R520). -/
def nextWord (s : State) (site c a : Nat) : Option Nat :=
  if scrubWords s site c ≤ a then none
  else match scrubUnit site c with
    | none => some a
    | some n =>
      if !unitSkipped s site c (a / n) then some a
      else ((List.range (cdiv (scrubWords s site c) n)).find? (fun u => decide (a / n < u) && !unitSkipped s site c u)).map (· * n)

/-- The pass moves on past a word; for class 7 SCR_POS shows word address [37:6]. -/
def scrubNext (s : State) (site c addr : Nat) : State :=
  let off := 0x100 + 32 * c
  let after := nextWord s site c (addr + 1)
  let done := after.isNone
  let next := if c == 7 then after.getD 0 / 64 else after.getD ((nextWord s site c 0).getD 0)
  let s := setReg s (rkey site 0x13 (off + 4)) (BitVec.ofNat 32 next)
  if done then bump s (rkey site 0x13 (off + 8)) 32 1 else s

/-- Device region of a frame address. -/
def frameRegion (site : Nat) (a : Word) : Nat := if site == 15 then 32 + wfld a 27 24 else 4 * site + wfld a 27 24 % 4

/-- The scrubber skips a word: of a region that loads, of a bank that is not on (R520); and while its sequencer's microcode is reloaded, the
classes of the I/O die that the sequencer serves pause (R517). -/
def scrubSkips (s : State) (f : ScrubFinding) : Bool :=
  nextWord s f.site f.cls f.addr != some f.addr
    || (match f.place with | .frame a => regionSt s (frameRegion f.site a) == .loading | _ => false)
    || (f.site == 15 && s.err.scrubPause.any (fun p => p.1 == Config.sequencerOf f.cls && decide (s.seq.ticks < p.2)))

/-- CONFIGURATION_UPSET (R404). -/
def frameUpset (s : State) (f : ScrubFinding) (a : Word) (hit : EccHit) : State :=
  let r := frameRegion f.site a
  let i : FaultInfo := { cls := 1, cause := 0x0901, unit := siteLoc f.site, memClass := 5, address := f.addr, d1 := r }
  match hit with
  | .corrected => fault (bump s (rkey f.site 0x10 0x008) 32 1) i
  | .uncorrectable =>
    let s := { s with fab := { s.fab with regions := put s.fab.regions r .invalid } }
    let s := fault s { i with cls := 2, cause := 0x0902 }
    if connected s r then holdReq s 8 (regionUnit r) else s

/-- An uncorrectable word of a churn memory (R284, R513). -/
def churnError (s : State) (f : ScrubFinding) (i : FaultInfo) : State :=
  let s := fault s { i with cls := 2 }
  match chnOf s f.site with
  | none => s
  | some c => churnStop (setChn s f.site (chnPoison c f.addr)) f.site

/-- An entry of the log fails its check: it counts as the end of the log, and LOG_ERR is set. A replay that has still to come to it ends before
it, at the earliest with the cycle that runs, whose entry has been read (R309; log 33). -/
def spoilEntry (s : State) (n : Nat) : State :=
  let s := setLogErr { s with ckp := { s.ckp with log := { s.ckp.log with
      entries := s.ckp.log.entries.zipIdx.map (fun e => if e.2 == n then { e.1 with bad := true } else e.1) } } } true
  if inReplay s then
    let last := max s.seq.dcn ((logReach s).1 - 1)
    { s with md := { s.md with stops := s.md.stops.map (fun x => if x.kind == .replayLog then { x with dcn := min x.dcn last } else x) } }
  else s

/-- A recovery is under way, and the log now ends before DCN F: the entries that it still has to take fail (R309, R314). -/
def logFails (s : State) : Bool :=
  match s.ckp.recovery, s.ckp.last with
  | some r, some c => decide ((logEnd s.ckp.log.entries (if r.stepping then s.seq.dcn else c.dcn)).1 < r.f)
  | _, _ => false

/-- The word that came is that of another address (R511). -/
def wrongAddr (f : ScrubFinding) : Bool := f.cls == 7 && ddrOutcome (ddrSyndrome f.addr f.synd f.wrong) == .addressError

/-- The load under way met an uncorrectable word of its staged copy (R515). -/
def spoilLoad (s : State) : State :=
  { s with img := { s.img with loading := s.img.loading.map (fun j => { j with spoiled := true }) } }

/-- A word of an area without design data becomes poison; one of another address stays as it is (R512, R513). -/
def areaPoison (s : State) (f : ScrubFinding) : State :=
  if wrongAddr f then s else { s with img := { s.img with poison := ins s.img.poison f.addr } }

/-- An uncorrectable DDR5 word by its area (R515). What is RECOVERED has cause 0x0104 for an address error (R534); a word that holds poison already
is read as such, without a further effect (R513). -/
def ddrScrubbed (s : State) (f : ScrubFinding) : State :=
  let bad := wrongAddr f
  let i : FaultInfo := { cls := 2, cause := 0x0102, unit := siteLoc 15, memClass := 7, address := f.addr, flags := if bad then 4 else 0 }
  let rec' : FaultInfo := { i with cls := 3, cause := if bad then 0x0104 else 0x0102 }
  let lost : FaultInfo := { i with cls := 5, flags := i.flags ||| 16, noReplace := true }
  let old : FaultInfo := { i with cause := 0x0103, flags := 2, syndrome := some 0xFFFF }
  if s.img.poison.contains f.addr then fault s old
  else match f.place with
  | .region key =>
    if s.ds.poison.contains (key / 4) then fault s old else fault (if bad then s else poisonWord s key) i
  | .golden st key =>
    if s.ds.faulty.contains (st, key) then fault s { rec' with cls := 5, cause := 0x0102, flags := i.flags ||| 16 } else fault s rec'
  | .store =>
    if s.ckp.recovery.isSome then fault s lost
    else
      let s := { s with ckp := { s.ckp with last := s.ckp.last.map (fun c => if bad then c else { c with spoiled := true }) } }
      forceNow (fault (areaPoison s f) rec')
  | .log n =>
    let s := if bad then setLogErr s true else spoilEntry (areaPoison s f) n
    if logFails s then fault s lost else forceNow (fault s rec')
  | .ring n =>
    match s.cap.ring[n]? with
    | some b =>
      let i := { (if b.poison then old else i) with d1 := blockSource b, d2 := b.seq }
      fault (if bad then s else { s with cap := { s.cap with ring := s.cap.ring.set n { b with poison := true } } }) i
    | none => s
  | .staging => fault (spoilLoad (areaPoison s f)) i
  | _ => fault (areaPoison s f) i

/-- A scrubber reads a word that holds poison already, which is no new fault (R513, R526). -/
def meetsPoison (s : State) (f : ScrubFinding) : Bool :=
  match f.cls, f.place with
  | 4, _ => (match chnOf s f.site with | some c => c.poison.contains f.addr | none => false)
  | 6, _ => bankPoisoned s f.addr
  | 7, .region key => s.ds.poison.contains (key / 4)
  | 7, .ring n => s.img.poison.contains f.addr || (match s.cap.ring[n]? with | some b => b.poison | none => false)
  | 7, _ => s.img.poison.contains f.addr
  | _, _ => false

/-- An uncorrectable word of a service bank; in a queued message of a channel the message is lost, and the record names channel and
sequence number (R345). -/
def queueError (s : State) (p : ScrubPlace) (i : FaultInfo) : State :=
  match p with
  | .inMsg c n =>
    (match (chanOf s c).bind (fun ch => (ch.inq[n]?).map (fun m => (ch, m))) with
    | some (ch, m) => if m.fence.isSome || m.taken then fault s i else loseIn (fault s { i with d1 := c, d2 := m.seq.toNat }) c n ch m
    | none => fault s i)
  | .outMsg c n =>
    (match (chanOf s c).bind (fun ch => (ch.outq[n]?).map (fun m => (ch, m))) with
    | some (ch, m) => loseOut (fault s { i with d1 := c, d2 := m.seq.toNat }) c n ch m
    | none => fault s i)
  | _ => fault s i

/-- The classes of a scrub sequencer pause while the other one reloads its microcode, for at most 20 µs: how long is a free value (R517). -/
def pauseSequencer (s : State) (b : Bool) : State :=
  let n := s.seq.ticks + Config.freeNat s.freeCtr % (ticksUs s 20 + 1)
  { tickFree s with err := { s.err with scrubPause := (b, n) :: s.err.scrubPause.filter (fun p => p.1 != b && s.seq.ticks < p.2) } }

/-- A microcode word of a sequencer is uncorrectable, beside the word that the row scans (R517, R526). -/
def reloadMicrocode (s : State) (b : Bool) : State :=
  pauseSequencer (fault (countEcc s 15 8 true) { cls := 3, cause := 0x0707, unit := siteLoc 15, memClass := 8 }) b

/-- What a scrubber does with an error, by class (R510). -/
def scrubError (s : State) (f : ScrubFinding) (hit : EccHit) : State :=
  let i : FaultInfo := { cls := 1, cause := 0x0101, unit := siteLoc f.site, memClass := f.cls, address := f.addr }
  let s := if hit == .uncorrectable && meetsPoison s f then s
    else if wrongAddr f && hit == .uncorrectable then bump16Hi s (rkey 15 0x13 0x1F0)
    else countEcc s f.site f.cls (hit == .uncorrectable)
  match hit, f.cls, f.place with
  | hit, 5, .frame a => frameUpset s f a hit
  | .corrected, _, _ => fault s i
  | .uncorrectable, 0, .instr st key => wordFault s st key { i with cause := 0x0102, unit := storeLoc st key }
  | .uncorrectable, 3, _ => needRecovery (loseSram s f.site) { i with cause := 0x0102 }
  | .uncorrectable, 4, _ => churnError s f (if meetsPoison s f then { i with cause := 0x0103, flags := 2 } else { i with cause := 0x0102 })
  | .uncorrectable, 6, p => queueError (bankPoison s f.addr) p (if meetsPoison s f then { i with cls := 2, cause := 0x0103, flags := 2 } else { i with cls := 2, cause := 0x0102 })
  | .uncorrectable, 7, _ => ddrScrubbed s f
  | .uncorrectable, 8, _ => pauseSequencer (fault s { i with cls := 3, cause := 0x0707 }) (f.micro == some true)
  | .uncorrectable, _, _ => needRecovery s { i with cause := 0x0102 }

/-- What a scrubber's decoder reports: of a DDR5 word as R511 has it; a word that holds poison reads uncorrectable (R513). -/
def foundHit (s : State) (f : ScrubFinding) : Option EccHit :=
  if meetsPoison s f then some .uncorrectable
  else if f.cls != 7 then f.hit
  else match ddrOutcome (ddrSyndrome f.addr f.synd f.wrong) with
    | .good => none
    | .corrected => some .corrected
    | _ => some .uncorrectable

/-- Scrubbers run in every mode but BOOT before the base personality starts. -/
def scrubbersRun (s : State) : Bool := s.md.mode != .boot || s.boot.accepted

/-- Site of an instruction word. -/
def storeSite (st : StoreKind) (key : Nat) : Nat := locSite (storeLoc st key)

/-- What the row says that a word is, is what its class and address make it: an instruction word of the die for class 0, a frame of the die for
class 5, and for class 7 what its word address makes it (R169, R401, R515). -/
def placeOk (s : State) (f : ScrubFinding) : Bool :=
  let k := areaAt s (8 * f.addr)
  if f.cls == 0 then (match f.place with | .instr st key => storeClass st == 0 && storeSite st key == f.site | _ => false)
  else if f.cls == 5 then (match f.place with | .frame a => wfld a 31 28 == f.site && (f.site == 15 || wfld a 27 24 < 4) && wfld a 27 24 < 8 | _ => false)
  else f.cls != 7 || (match f.place with
    | .region key => f.addr == ddrWordAddr s key
    | .golden st _ => k == 1 && storeClass st == 0
    | .store => k == 2
    | .ring _ => k == 3
    | .log _ => k == 4
    | .service => k == 0
    | .staging => k == 5
    | _ => k == 5)

/-- One word of a class is scanned: it no longer counts as behind the set rate (R518). -/
def scrubScanned (s : State) (site c : Nat) : State :=
  { s with err := { s.err with scrub := put s.err.scrub (16 * site + c) (s.seq.ticks, scrubOwed s site c - tickRate s) } }

/-- SCRUB_WORD. -/
def scrubWord (s : State) (f : ScrubFinding) : State :=
  if !scrubbersRun s || !placeOk s f || !scrubHere f.site f.cls || (f.site < 8 && nDies s ≤ f.site) then s
  else
    let s := if f.vote then fault (bump16Hi s (rkey f.site 0x13 0)) { cls := 1, cause := 0x0707, unit := siteLoc f.site } else s
    let s := match f.micro with | some b => if f.cls == 8 then s else reloadMicrocode s b | none => s
    if scrubSkips s f then s
    else
      let s := scrubScanned (scrubNext s f.site f.cls f.addr) f.site f.cls
      match foundHit s f with
      | some h => scrubError s f h
      | none => s

/-! ### Background test of the service banks (R524, R525) -/

/-- A region that fails once its bank has no spare left and its save buffer serves another: its words are uncorrectable (R510, R525). -/
def regionLost (s : State) (n region : Nat) : State :=
  let a := 2 ^ 21 * n + 512 * region
  fault ((List.range 512).foldl (fun s k => bankPoison s (a + k)) (countEcc s 15 6 true)) {
    cls := 2, cause := 0x0102, unit := siteLoc 15, memClass := 6, address := a }

/-- BANK_TEST_REGION: the tester of a bank that is on and tested. -/
def bankTest (s : State) (n : Nat) (pass : Bool) : State :=
  match s.banks[n]? with
  | none => s
  | some b =>
    if !bitOf (ioReg s 0x13 (0x400 + 16 * n)) 2 || b.power != 0 then s
    else if b.stopped then (if pass then s else regionLost (bump16Hi s (rkey 15 0x13 (0x404 + 16 * n))) n b.region)
    else
      let b' := { b with region := (b.region + 1) % 4096 }
      let i : FaultInfo := { cls := 3, cause := 0x0106, unit := siteLoc 15, memClass := 6, address := 2 ^ 21 * n + 512 * b.region }
      if pass then { s with banks := s.banks.set n b' }
      else
        let s := bump16Hi s (rkey 15 0x13 (0x404 + 16 * n))
        if b.used < 4 then fault { s with banks := s.banks.set n { b' with used := b.used + 1, spares := b.spares ++ [b.region] } } i
        else fault { s with banks := s.banks.set n { b' with pinned := true, saved := some b.region, stopped := true } } { i with cls := 4 }

/-- DDR_RESPONSE_ARRIVAL. -/
def execDdrResponseArrival (gc port : Nat) (w : DdrWordFound) (s : State) : Host.Outcome State Fault Refusal :=
  .next (ddrArrival s gc port w)
/-- DDR_RESPONSE_TIMEOUT. -/
def execDdrResponseTimeout (gc port : Nat) (s : State) : Host.Outcome State Fault Refusal := .next (ddrTimeout s gc port)
/-- SCRUB_WORD. -/
def execScrubWord (f : ScrubFinding) (s : State) : Host.Outcome State Fault Refusal := .next (scrubWord s f)
/-- BANK_TEST_REGION. -/
def execBankTestRegion (bank : Nat) (pass : Bool) (s : State) : Host.Outcome State Fault Refusal := .next (bankTest s bank pass)

end Sys2Proof.Machine
end

