-- ==== Sys2Proof/Machine/Ucie.lean ====
section
/-! DEFINITION. Machine/Ucie.lean: UCIe modules, the spillway, the accessory site, flits and credits inside the package (R119, R124, R438 to
R447, R464 to R473). -/
namespace Sys2Proof.Machine

/-- Replace a module. -/
def setMod (s : State) (m : Nat) (u : UcieMod) : State := { s with ucie := put s.ucie m u }
/-- A counter of a module, kept at the site that LINK_COUNTERS names (R475). -/
def bumpMod (s : State) (m off width n : Nat) : State := bump s (rkey (moduleSite m) 0x12 (0x800 + 64 * m + off)) width n
/-- What a module's record names (R536). -/
def modInfo (m cls cause : Nat) : FaultInfo := { cls := cls, cause := cause, unit := siteLoc (moduleSite m), address := m }

/-! ### Accessory site (R469 to R473) -/

/-- A link training has ended: the route tables are built anew (R461), the live signature after the end of BOOT (R196), and a LINK_TRAIN of
the link completes. -/
def trainDone (s : State) (isModule : Bool) (n status : Nat) : State :=
  completeWhere (buildRoutes (if s.md.mode == .boot then s else buildSig s)) (fun w => w.opcode == 0x0802 && lnkModule w.cmd == isModule && lnkIndex w.cmd == n) status []

/-- Admission is refused with a cause. -/
def refuseAccessory (s : State) (cause : Nat) : State :=
  trainDone { s with acc := { s.acc with st := 5, kind := 0, cause := cause } } true 24 0x0501

/-- KIND of the accessory die that the ordering code names: D deep-capture, P partner. -/
def orderedKind (s : State) : Nat := if s.ident.accessory == 0x44 then 1 else if s.ident.accessory == 0x50 then 2 else 0

/-- What admission finds of module 24 once its training has ended: its state, and its parameter record. -/
def admissionStep (s : State) : State :=
  match modOf s 24 with
  | none => s
  | some u =>
    if inTraining u.st then s
    else if u.st == 1 then refuseAccessory s (if u.cause == 1 then 1 else if u.cause == 3 then 3 else 2)
    else if u.proto == 0 then { s with acc := { s.acc with st := 2 } }
    else if s.acc.identOk then { s with acc := { s.acc with st := 3 } }
    else refuseAccessory s 3

/-- Admission runs: the firmware has started and the site is not settled. -/
def admitting (s : State) : Bool := s.boot.accepted && 1 ≤ s.acc.st && s.acc.st ≤ 3

/-- ACCESSORY_ADMISSION begins once the firmware has started. While admission runs the row says that its 100 ms are over, and the die that has
not answered is refused (R469, R471; log 14). -/
def accessoryAdmission (s : State) : State :=
  if !s.boot.accepted || (modOf s 24).isNone then s
  else if s.acc.st == 0 then admissionStep { s with acc := { s.acc with st := 1 } }
  else if admitting s then refuseAccessory s 1 else s

/-- First cause of R471 that a descriptor meets, in the order of that list; 0 for none. -/
def descriptorCause (s : State) (d : AdmissionDesc) : Nat :=
  firstBad [if d.sigOk then 0 else 4, if d.kind == orderedKind s then 0 else 5, if d.serial == s.acc.serial then 0 else 6,
    if d.magic == 0x44414541 && d.fmt == 1 && d.reservedOk then 0 else 7, if d.capacity == (if d.kind == 1 then 96 else 0) then 0 else 8]

/-- ADMISSION_DESCRIPTOR: admitted, or refused with its cause; a signature that fails counts in SEC_VERIFY_FAIL (R593). -/
def admissionDescriptor (s : State) (d : AdmissionDesc) : State :=
  if !(admitting s && s.acc.st == 3) then s
  else if descriptorCause s d != 0 then refuseAccessory (if d.sigOk then s else bumpIo s 0x17 0x018 32 1) (descriptorCause s d)
  else
    trainDone { s with
      acc := { s.acc with st := 4, kind := d.kind, channels := d.channels, gbps := d.gbps }
      net := { s.net with spill := s.net.spill.filter (fun x => x != 8) } } true 24 0

/-- Module 24 is lost in operation: no stall; a capture into the deep-capture die ends with a stop event of cause 6. -/
def accessoryLost (s : State) : State :=
  match modOf s 24 with
  | none => s
  | some u =>
    if !modTrained u then s
    else
      let s := setMod s 24 { u with st := 1, proto := 0, cause := 6 }
      let deep := s.acc.st == 4 && s.acc.kind == 1 && capTarget s && capturing s && isLead s
      let s := buildRoutes { s with acc := { s.acc with st := 6 }, net := { s.net with spill := ins s.net.spill 8 } }
      let s := if deep then driveEvent s 1 6 15 s.seq.dcn else s
      fault s { cls := 4, cause := 0x0A01, unit := siteLoc 8, address := 24 }

/-! ### Training (R440 to R445) -/

/-- A module ends its training down. At start a spoke is a start-up failure and a ring module DEGRADED; a training without a resident
image is like that of start for a ring module, and otherwise a module that is lost is FATAL (R445, R446). -/
def moduleDown (s : State) (m : Nat) (u : UcieMod) (cause : Nat) : State :=
  let s := setMod s m { u with st := 1, proto := 0, cause := cause }
  let s := if m == 24 then (if admitting s then admissionStep s else s)
    else if m < 16 && s.md.mode == .boot then startUpFailure s 0x0A 0x0501
    else fault s (modInfo m (if 16 ≤ m && s.img.resident.isNone then 4 else 5) 0x0204)
  if m == 24 then s else trainDone s true m 0x0501

/-- Lanes of a direction that no spare replaces: four spares, fused ones included (R443). -/
def unreplaced (fused failed : List Nat) : List Nat := failed.drop (4 - fused.length)

/-- The spare map of a module that was fused at assembly test: transmit, receive. -/
def fusedMap (s : State) (m : Nat) : List Nat × List Nat := (lookup s.ident.ucieFused m).getD ([], [])

/-- A module with a fused spare map after a training that reached some width: x64, else x32 on the half without an unreplaced lane (R443,
R444). -/
def trainWidth (u : UcieMod) (fuses : List Nat × List Nat) (t : UcieTraining) : UcieMod :=
  let bad := unreplaced fuses.1 t.txFailed ++ unreplaced fuses.2 t.rxFailed
  let u := { u with
    txFused := fuses.1.length, rxFused := fuses.2.length, txTrained := min t.txFailed.length (4 - fuses.1.length)
    rxTrained := min t.rxFailed.length (4 - fuses.2.length)
    failed := List.foldl ins [] (fuses.1 ++ fuses.2 ++ t.txFailed ++ t.rxFailed) }
  if bad.isEmpty then { u with st := 3, half := 0, cause := 0 }
  else if bad.all (fun l => 32 ≤ l) then { u with st := 4, half := 0, cause := 4 }
  else if bad.all (fun l => l < 32) then { u with st := 4, half := 1, cause := 4 }
  else { u with st := 1, half := 0, cause := 4 }

/-- The record of an end of this device: stepping A0 offers version 1 alone (R441, R442). -/
def ownRecord (s : State) (m : Nat) (second : Bool) : ParamRecord :=
  let e := moduleEnds s m
  let site := if second then e.2 else e.1
  let f := fusedMap s m
  { second := second, site := site, ioDie := site == 15, proto := if s.ident.stepping == 0 then 1 else Config.protoOffered s.ident.stepping
    caps := Config.endCaps m (b2n second), stepping := s.ident.stepping, serial := Config.dieSerial s.ident.serial site
    fusedTx := (if second then f.2 else f.1).length, fusedRx := (if second then f.1 else f.2).length }

/-- Its 32 bytes. -/
def recordBytes (r : ParamRecord) : List Byte :=
  [BitVec.ofNat 8 (r.site % 16 + 16 * b2n r.ioDie), BitVec.ofNat 8 r.proto] ++ leBytes 2 r.caps ++ leBytes 4 (r.stepping % 256) ++ leBytes 8 r.serial.toNat
    ++ [BitVec.ofNat 8 (r.fusedTx % 8 + 16 * (r.fusedRx % 8))] ++ List.replicate 15 0

/-- The records that this device's ends of a module send once the mainband has trained. -/
def sentRecords (s : State) (m : Nat) : List (List Byte) :=
  (if m == 24 then [true] else [false, true]).map (fun b => recordBytes (ownRecord s m b))

/-- A link comes up after a reset of an end: its counters are set, and nothing is checked (R464, R468). -/
def afterReset (s : State) (m : Nat) : Bool :=
  s.md.mode == .boot || s.net.spill.contains (moduleEnds s m).1 || s.net.spill.contains (moduleEnds s m).2

/-- UCIE_STARTUP of a module that trains; a module at x32 is DEGRADED, but for the accessory site's (R444, R464, R469). -/
def ucieStartup (s : State) (m : Nat) (t : UcieTraining) : State :=
  match modOf s m with
  | none => s
  | some u =>
    if !inTraining u.st then s
    else if !t.sideband then moduleDown s m u 1
    else if !t.mainband then moduleDown s m u 2
    else
      let v := trainWidth u (fusedMap s m) t
      if v.st == 1 then moduleDown s m v 4
      else
        let s := bumpMod (setMod s m { v with heard := [], sent := sentRecords s m }) m 0x10 16 1
        let s := if t.creditsOk || afterReset s m then s
          else fault (bump s (rkey (moduleSite m) 0x12 0x01C) 16 1) (modInfo m 5 0x0205)
        let s := if v.st == 4 && m != 24 then remark (fault s (modInfo m 4 0x0203)) else s
        if m == 24 && admitting s then admissionStep s else s

/-- IDENT of an end: a site's number, or the I/O die (R436, R441). -/
def identOf (site : Nat) (r : ParamRecord) : Bool := if site == 15 then r.ioDie else !r.ioDie && r.site == site

/-- The highest protocol version that two ends offer; 0 for none (R442). -/
def agreedProto (a b : Nat) : Nat := ((numsWhere 8 (fun v => bitOf a v && bitOf b v)).getLast?.map (· + 1)).getD 0

/-- Both ends' records are known: the highest common version and the AND of the CAPS, or no version in common (R442). -/
def recordsMet (s : State) (m : Nat) (u : UcieMod) (a b : Nat × Nat) : State :=
  let v := agreedProto a.1 b.1
  if v == 0 then moduleDown s m u 5
  else
    let s := setMod s m { u with proto := v, caps := a.2 &&& b.2 }
    if m != 24 then trainDone s true m 0
    else
      let s := { s with acc := { s.acc with identOk := bitOf a.2 (if orderedKind s == 1 then 5 else 6) } }
      if admitting s then admissionStep s else s

/-- UCIE_PARAMETER_RECORD of an end: its identity; the ends agree once both have reported. Of module 24 the I/O die's own record stands for its
end (R442, R469). -/
def parameterRecord (s : State) (m : Nat) (r : ParamRecord) : State :=
  match modOf s m with
  | none => s
  | some u =>
    if !modTrained u then s
    else
      let e := moduleEnds s m
      if !identOf (if r.second then e.2 else e.1) r then moduleDown s m u 3
      else
        let o := ownRecord s m true
        let h := put (if m == 24 then put u.heard 1 (o.proto, o.caps) else u.heard) (b2n r.second) (r.proto, r.caps)
        let u := { u with heard := h }
        let s := setMod s m u
        let s := if m == 24 && !r.second then { s with acc := { s.acc with serial := r.serial } } else s
        match lookup h 0, lookup h 1 with
        | some a, some b => recordsMet s m u a b
        | _, _ => s

/-! ### Operation (R446, R447) -/

/-- A module is lost in operation. -/
def moduleLost (s : State) (m : Nat) (u : UcieMod) (lane : Nat) : State :=
  if m == 24 then accessoryLost s
  else fault (buildRoutes (setMod s m { u with st := 1, proto := 0, cause := 6 })) { modInfo m 5 0x0204 with d1 := lane, flags := 16 }

/-- A lane of a direction has failed: remap onto a spare of that direction, x32, or the module's loss. At x32 the other half is not
monitored. -/
def laneLost (s : State) (m lane : Nat) (tx : Bool) : State :=
  match modOf s m with
  | none => s
  | some u =>
    if !modTrained u || 64 ≤ lane then s
    else if u.st == 4 then
      (if lane / 32 == u.half then moduleLost s m { u with failed := ins u.failed lane } lane else s)
    else
      let v := { u with failed := ins u.failed lane }
      if (if tx then u.txFused + u.txTrained else u.rxFused + u.rxTrained) < 4 then
        let v := if tx then { v with txTrained := v.txTrained + 1 } else { v with rxTrained := v.rxTrained + 1 }
        joinRepair (bumpMod (setMod s m v) m 0x0C 16 1) 9 (m + 1) { modInfo m 3 0x0202 with d1 := lane }
      else
        widthFault (setMod s m { v with st := 4, half := if lane < 32 then 1 else 0, cause := 4 }) (m + 1) { modInfo m 4 0x0203 with d1 := lane }

/-- UCIE_LANE_FAIL of one lane; without a lane the module itself is lost, at either width (R446). -/
def ucieLaneFail (s : State) (m : Nat) (lane : Option Nat) (tx : Bool) : State :=
  match lane, modOf s m with
  | some l, _ => laneLost s m l tx
  | none, some u => if modTrained u then moduleLost s m u 0 else s
  | none, none => s

/-- Failures attributed to a lane, the newest of the last eight first; it fails when all eight fall within 1 ms (R446). -/
def laneCrc (s : State) (u : UcieMod) (k : Nat) : List Nat := (nowNs s :: (lookup u.crcAt k).getD []).take 8
def laneCrcFails (s : State) (ts : List Nat) : Bool := ts.length == 8 && ts.all (fun t => nowNs s ≤ t + 1000000)

/-- UCIE_FLIT_CRC_FAIL: the adapter's retry, code 3 for one slot; the eighth failure of a lane within 1 ms is the lane's. -/
def ucieCrcFail (s : State) (m : Nat) (r : UcieRetry) : State :=
  match modOf s m with
  | none => s
  | some u =>
    if !modTrained u then s
    else
      let s := bumpMod (bumpMod (bumpMod s m 0 32 1) m 4 32 1) m 8 32 r.resent
      let s := fault (pulse s 3 1) { modInfo m 1 0x0201 with source := 3, stallUs := 1 }
      match r.lane with
      | none => s
      | some (l, tx) =>
        let k := l + 64 * b2n tx
        let ts := laneCrc s u k
        let s := setMod s m { u with crcAt := put u.crcAt k ts }
        if laneCrcFails s ts then laneLost s m l tx else s

/-! ### Flits and weirs (R119, R124) -/

/-- Key of a weir's register. -/
def weirKey (d c : Nat) : Nat := rkey d 0x01 (0x040 + 4 * c)
/-- DRIFT of a weir as the register shows it. -/
def setDrift (s : State) (d c : Nat) (drift : Int) : State :=
  let w := reg s (weirKey d c)
  setReg s (weirKey d c) (packW [(0, 16, w.toNat), (16, 4, unsgn 4 (clampS 4 drift)), (20, 12, w.toNat / 2 ^ 20)])

/-- Tracking of a weir's offset: beyond 2 steps the device requests the sluice under code 10, until the weir has been trained again in the
freeze (R124). -/
def trackDrift (s : State) (d c : Nat) (drift : Int) : State :=
  let s := setDrift s d c drift
  if drift.natAbs ≤ 2 || inSafeHold s || inRepair s 10 (8 * d + c) then s
  else
    let r := recordOf s { cls := 3, cause := 0x0401, unit := siteLoc d, source := 10, address := if c == 0 then d else 0 }
    let s' := startRepair s { code := 10, unit := 8 * d + c, left := if slotsRun s then some 1 else none, driven := 0, word := none, recs := [r] }
    if slotsRun s || c != 0 then s' else markWeir s' d

/-- Link codes of the routes that module m brings to die d. -/
def routesOver (s : State) (m d : Nat) : List Nat :=
  match s.img.resident with
  | some i => (List.range 8).filter (fun c => 0 < c && (routeModules s i d c).contains m)
  | none => []

/-- UCIE_FLIT_RECEIVE at a die: the step bits that it brings, those of send steps up to `step`, stand in their weirs; a flit that
reaches the I/O die passes on. -/
def ucieFlit (s : State) (m d step : Nat) (drift : Int) : State :=
  match modOf s m with
  | none => s
  | some u =>
    if !modTrained u || nDies s ≤ d || !((moduleEnds s m).1 == d || (moduleEnds s m).2 == d) then s
    else
      let s := { s with ds := { s.ds with weirs := s.ds.weirs.map (fun r =>
        if r.die == d && r.sent ≤ step then { r with wait := r.wait.filter (fun x => x != m) } else r) } }
      (routesOver s m d).foldl (fun s c => trackDrift s d c drift) s

/-! ### Credits and the spillway (R464, R465, R468) -/

/-- CREDIT_RETURN: one credit for each flit that has left the receiver's buffer. -/
def creditReturn (s : State) (unit vc n : Nat) : State := if vc < 10 then setOutstanding s unit vc (outstanding s unit vc - n) else s

/-- No flit is outstanding toward a die over its modules. -/
def quietToward (s : State) (d : Nat) : Bool :=
  (dieModules s d).all (fun m => s.net.credits.all (fun e => e.1 / 16 != m))

/-- SPILLWAY_RELEASE of a die (R468). -/
def spillwayRelease (s : State) (d : Nat) : State :=
  if d < 8 && s.net.spill.contains d && dieTrained s d && quietToward s d && !s.pwr.lost.contains d then
    { s with net := { s.net with spill := s.net.spill.filter (fun x => x != d) } }
  else s

/-- UCIE_STARTUP. -/
def execUcieStartup (m : Nat) (t : UcieTraining) (s : State) : Host.Outcome State Fault Refusal := .next (ucieStartup s m t)
/-- UCIE_PARAMETER_RECORD. -/
def execUcieParameterRecord (m : Nat) (r : ParamRecord) (s : State) : Host.Outcome State Fault Refusal := .next (parameterRecord s m r)
/-- UCIE_FLIT_CRC_FAIL. -/
def execUcieFlitCrcFail (m : Nat) (r : UcieRetry) (s : State) : Host.Outcome State Fault Refusal := .next (ucieCrcFail s m r)
/-- UCIE_LANE_FAIL. -/
def execUcieLaneFail (m : Nat) (lane : Option Nat) (tx : Bool) (s : State) : Host.Outcome State Fault Refusal := .next (ucieLaneFail s m lane tx)
/-- UCIE_FLIT_RECEIVE. -/
def execUcieFlitReceive (m die step : Nat) (drift : Int) (s : State) : Host.Outcome State Fault Refusal := .next (ucieFlit s m die step drift)
/-- SPILLWAY_RELEASE. -/
def execSpillwayRelease (die : Nat) (s : State) : Host.Outcome State Fault Refusal := .next (spillwayRelease s die)
/-- ACCESSORY_ADMISSION. -/
def execAccessoryAdmission (s : State) : Host.Outcome State Fault Refusal := .next (accessoryAdmission s)
/-- ADMISSION_DESCRIPTOR. -/
def execAdmissionDescriptor (d : AdmissionDesc) (s : State) : Host.Outcome State Fault Refusal := .next (admissionDescriptor s d)
/-- ACCESSORY_MODULE_LOST. -/
def execAccessoryModuleLost (s : State) : Host.Outcome State Fault Refusal := .next (accessoryLost s)
/-- CREDIT_RETURN. -/
def execCreditReturn (unit vc n : Nat) (s : State) : Host.Outcome State Fault Refusal := .next (creditReturn s unit vc n)

end Sys2Proof.Machine
end

