-- ==== Sys2Proof/Machine/BoardLinks.lean ====
section
/-! DEFINITION. Machine/BoardLinks.lean: training, lanes, flits, retries, idle and loops of the board links; weir training and cycle markers
(R120, R122, R124, R129, R130, R483 to R508). -/
namespace Sys2Proof.Machine

/-- Replace a link. -/
def setLink (s : State) (d : Nat) (b : BoardLink) : State := { s with bl := put s.bl d b }
/-- A counter of the board-link block of a die (R509). -/
def bumpBl (s : State) (d off width n : Nat) : State := bump s (rkey d 0x11 off) width n
/-- What a link's record names (R536). -/
def linkInfo (d cls cause : Nat) : FaultInfo := { cls := cls, cause := cause, unit := siteLoc d, address := d }
/-- A control register of the block. -/
def blReg (s : State) (d off : Nat) : Nat := (reg s (rkey d 0x11 off)).toNat

/-- A relay-booted device waits in PHASE 1 once its links have trained (R426). -/
def relayPhase (s : State) : State :=
  if s.straps.boot && s.boot.phase == 0 && s.bl.all (fun e => !inTraining e.2.st) then { s with boot := { s.boot with phase := 1 } } else s

/-- The end of a link's training: a LINK_TRAIN of it completes, and a relay-booted device goes on. -/
def linkTrained (s : State) (d status : Nat) : State := relayPhase (trainDone s false d status)

/-- Packets that wait for a link, by the heads of their flits. -/
def headsWaiting (b : BoardLink) : Nat := (b.tx.nets.filter (fun x => isHead x.2)).length

/-- A link goes down, and routes avoid it: FATAL when the image books a share on either bundle; otherwise its gateway absorbs traffic, that
which waits at it too (R499, R500). Its flits and credits start anew when it comes up again (DESIGN CHOICE, log 76). -/
def linkDown (s : State) (d : Nat) (b : BoardLink) (cause lane : Nat) : State :=
  let booked := linkBooked s d
  let s := if booked then s else bumpBl s d 0x074 32 (headsWaiting b)
  let b := { b with
    st := 1, cause := cause, spill := b.spill || !booked, quick := false, fresh := true, parts := [], timing := []
    tx := { State.resetTx with prbs := b.tx.prbs } }
  fault (buildRoutes (setLink s d b))
    { linkInfo d (if booked then 5 else 4) 0x0305 with d1 := lane, flags := if booked then 16 else 0 }

/-! ### Lanes (R489) -/

/-- Lanes among 0 to 17 that are not failed. -/
def goodLanes (failed : List Nat) : List Nat := numsWhere 18 (fun l => !failed.contains l)

/-- The logical lanes: the lowest 16 good lanes, else the lowest 8, else none. -/
def chooseLanes (failed : List Nat) : List Nat :=
  let g := goodLanes failed
  if 16 ≤ g.length then g.take 16 else if 8 ≤ g.length then g.take 8 else []

/-- Lanes of a die's link that fuses mark failed, transmit or receive. -/
def fusedLanes (s : State) (d : Nat) (rx : Bool) : List Nat :=
  (s.ident.badLanes.filter (fun e => e.1 == d && (if rx then 18 ≤ e.2 else decide (e.2 < 18)))).map (fun e => if rx then e.2 - 18 else e.2)

/-! ### Training (R487 to R491, R502) -/

/-- Versions that this end offers (R488). -/
def offered (s : State) (d : Nat) (v : Nat) : Bool := v == 3 || (v == 2 && bitOf (blReg s d 0x100) 16)
/-- The highest version that both ends offer; 0 for none. -/
def agreedVersion (s : State) (d versions : Nat) : Nat :=
  if offered s d 3 && bitOf versions 2 then 3 else if offered s d 2 && bitOf versions 1 then 2 else 0

/-- A lane that reached block lock, and its TS1 (R479, R480). -/
def laneTs1 (h : LaneHeard) : Option (Bool × BitVec 64) := if (lockSearch h.tests).locked then asTs1 h.ts1 else none
/-- What a training heard: the first TS1 of a locked lane, and the lanes of a mask. -/
def heardTs1 (t : LinkTraining) : Option (BitVec 64) := t.lanes.findSome? (fun h => (laneTs1 h).map (·.2))
def ts1Of (t : LinkTraining) : BitVec 64 := (heardTs1 t).getD 0
def maskLanes (v : Nat) : List Nat := numsWhere 18 (bitOf v)

/-- Lanes without block lock or without a TS1, which the receiver takes as failed beside those of the lane test. -/
def unheard (t : LinkTraining) : List Nat := numsWhere 18 (fun l => !t.lanes.any (fun h => h.lane == l && (laneTs1 h).isSome))

/-- A TS2 came, and the lanes that it names: the lowest 8 of them at WIDTH8. -/
def ts2Heard (t : LinkTraining) : Bool := wfld t.ts2 7 0 == 0x2D
def ts2Lanes (t : LinkTraining) : List Nat :=
  let ls := maskLanes (wfld t.ts2 33 16)
  if !ts2Heard t then [] else if bitOf t.ts2.toNat 34 then ls.take 8 else ls.take 16

/-- A payload as its lane's transmitter sent it. -/
def asSent (h : LaneHeard) (w : BitVec 64) : BitVec 64 := if ((asTs1 h.ts1).map (·.1)).getD false then ~~~w else w

/-- Deskew: every logical lane brought its ALIGN, of its number, and they came within 2 ns (R480, R487; the range is DESIGN CHOICE, log 77). -/
def deskewed (t : LinkTraining) : Bool :=
  let got := (ts2Lanes t).zipIdx.map (fun e => (t.lanes.find? (fun h => h.lane == e.1)).filter (fun h =>
    wfld (asSent h h.align) 7 0 == 0x33 && wfld (asSent h h.align) 13 8 == e.2))
  let ps := got.filterMap (fun h => h.map (·.alignPs))
  got.all (·.isSome) && ps.foldl max 0 ≤ ps.foldl min (ps.headD 0) + 2000

/-- TS1 says that the wiring is wrong: it names the own position, or another grade (R502). -/
def wrongTs1 (s : State) (t : LinkTraining) : Bool :=
  let a := ts1Of t
  wfld a 19 16 == posOf s || ((wfld a 31 24 == 0x80 || wfld a 31 24 == 0x40) && bitOf a.toNat 58 != (gradeEff s == 1))
/-- TS2 says it: another position or die was heard (R502). -/
def wrongTs2 (s : State) (d : Nat) (t : LinkTraining) : Bool := wfld t.ts2 39 36 != posOf s || wfld t.ts2 42 40 != d

/-- The receiver of a lane after its training; the DFE is version 3's (R490). -/
def laneAfter (version : Nat) (h : LaneHeard) : LaneRx :=
  let k := lockSearch h.tests
  { lane := h.lane, offset := k.offset, inverted := ((asTs1 h.ts1).map (·.1)).getD false, locked := k.locked, window := 0, badAt := [], scr := h.scr
    taps := if version == 3 then h.taps else [] }

/-- Scramblers of 16 lanes as a training leaves them: free values (log 9). -/
def freshScr (s : State) : List (BitVec 58) := (List.range 16).map (fun k => Config.scrambler (s.freeCtr + k))

/-- What a training leaves of a link: the identity heard, the lanes failed and chosen, receivers and transmitter from the start. One without
lane test keeps the lanes that have failed. -/
def heardLink (s : State) (d : Nat) (b : BoardLink) (t : LinkTraining) : BoardLink :=
  let a := ts1Of t
  let v := agreedVersion s d (wfld a 15 8)
  let txFail := List.foldl ins [] ((if b.quick then b.txFail else fusedLanes s d false) ++ maskLanes (wfld a 57 40))
  { b with
    version := v, peerPos := wfld a 19 16, peerDie := wfld a 22 20, part := wfld a 31 24, txFail := txFail
    rxFail := List.foldl ins [] ((if b.quick then b.rxFail else fusedLanes s d true ++ t.tested) ++ unheard t), txUsed := chooseLanes txFail
    rxUsed := ts2Lanes t, width8 := (chooseLanes txFail).length == 8, expect := 0, acked := 0, nakSent := false
    loopMode := 0, parts := [], rx := t.lanes.map (laneAfter v), tx := if b.quick then retrainTx b.tx (freshScr s) else freshTx b.tx (freshScr s) }

/-- The training blocks that this end sends: the TS1 of every physical lane, TS2, and the ALIGN of every logical lane (R480, R488). -/
def sentTraining (s : State) (d : Nat) (v : BoardLink) : List DWord × DWord × List DWord :=
  ((List.range 18).map (fun l =>
      ts1Word (2 * b2n (offered s d 2) + 4) (posOf s) d (if s.ident.small then 0x40 else 0x80) l v.rxFail (gradeEff s == 1)),
    ts2Word v.version v.txUsed v.width8 v.peerPos v.peerDie, (List.range v.txUsed.length).map alignWord)

/-- The lanes locked, exchanged TS1 and TS2, and were deskewed. -/
def trainedOk (t : LinkTraining) : Bool := (heardTs1 t).isSome && ts2Heard t && deskewed t

/-- CAUSE for which a training takes the link down, in the order of the table of R487; 0 for none. -/
def trainingCause (s : State) (d : Nat) (v : BoardLink) (t : LinkTraining) : Nat :=
  if (heardTs1 t).isNone then 7 else if v.version == 0 then 4 else if wrongTs1 s t then 6
  else if v.txUsed.isEmpty || (goodLanes v.rxFail).length < 8 then 5 else if !trainedOk t then 7 else if wrongTs2 s d t then 6
  else if wfld t.ts2 15 8 != v.version then 4 else if v.rxUsed.length < 8 then 5 else 0

/-- The live signature is built after a training that ends after BOOT (R196). -/
def signNow (s : State) : State := if s.md.mode == .boot then s else buildSig s

/-- The credit check of a retrain; a link that comes up after a reset of an end has its counters set instead (R464, R496). -/
def settleCredits (s : State) (d : Nat) (fresh ok : Bool) : State :=
  if fresh then
    setTx { s with net := { s.net with credits := s.net.credits.filter (fun e => e.1 / 16 != 32 + d) } } d (fun t => { t with owed := State.resetTx.owed })
  else if ok then s else fault (bumpBl s d 0x078 16 1) { linkInfo d 5 0x0205 with flags := 16 }

/-- The receiver's equaliser after a training: eye opening, and filter peaking of version 2 (R490, R491). -/
def equalised (s : State) (d : Nat) (v : BoardLink) (t : LinkTraining) : BoardLink :=
  let ctle := blReg s d 0x104
  { v with eye := t.eye, peak := if v.version == 2 && !bitOf ctle 4 then ctle % 16 else t.peak }

/-- A link that has trained takes its place: its training blocks went out, the count, credits (R464, R480, R509). -/
def placeLink (s : State) (d : Nat) (b v : BoardLink) (t : LinkTraining) : State :=
  let s := { s with freeCtr := s.freeCtr + 16, net := { s.net with training := put s.net.training d (sentTraining s d v) } }
  settleCredits (bumpBl (setLink s d { equalised s d v t with cause := 0, quick := false, fresh := false }) d 0x05C 16 1) d b.fresh t.creditsOk

/-- The link comes up: flits from sequence 0, its weir trained; a bundle at 8 lanes is DEGRADED (R120, R487, R489). -/
def linkComesUp (s : State) (d : Nat) (b v : BoardLink) (t : LinkTraining) : State :=
  let s := placeLink s d b { v with st := 3 } t
  let s := if v.width8 || v.rxUsed.length == 8 then remark (fault s (linkInfo d 4 0x0303)) else s
  linkTrained (trainWeir s d) d 0

/-- BOARD_LINK_TRAINING of a link that trains. -/
def boardTraining (s : State) (d : Nat) (t : LinkTraining) : State :=
  match linkOf s d with
  | none => s
  | some b =>
    if !inTraining b.st then s
    else
      let v := heardLink s d b t
      let c := trainingCause s d v t
      if c == 0 then linkComesUp s d b v t
      else linkTrained (linkDown s d (if c == 7 then b else v) c 0) d 0x0501

/-- BOARD_LINK_UNCONNECTED: no clock for 400 ms; not a fault. A gateway that absorbs traffic goes on (R501). -/
def boardUnconnected (s : State) (d : Nat) : State :=
  match linkOf s d with
  | none => s
  | some b =>
    if !inTraining b.st then s
    else linkTrained (setLink s d { State.resetLink with st := 1, cause := 1, spill := b.spill, txFail := b.txFail, rxFail := b.rxFail }) d 0x0501

/-- P of a training: the largest arrival minus send tick of its timing markers, rounded up to whole steps (R120). A marker is its send
tick and its arrival in 1/256 tick. -/
def trainedPhys (ms : List (Nat × Nat)) : Nat := ms.foldl (fun a m => max a (cdiv (m.2 - 256 * m.1) 256)) 0

/-- The repair at the head of the line is the re-centring of a weir. -/
def recentring (s : State) (d c : Nat) : Bool := match s.err.repairs with | r :: _ => r.code == 10 && r.unit == 8 * d + c | [] => false

/-- A training of a weir is one of 1,024 markers of a route that exists; one that R124 has asked for waits for its turn in the freeze. -/
def canTrainWeir (s : State) (d c : Nat) (ms : List (Nat × Nat)) : Bool :=
  c < 8 && d < nDies s && routeHere s d c && ms.length == 1024 && (!inRepair s 10 (8 * d + c) || (frozen s && recentring s d c))

/-- The end of the re-centring of a weir (R124): RECENTRED, the request drops, the record is RECOVERED. -/
def recentred (s : State) (d c : Nat) : State :=
  match s.err.repairs with
  | r :: rs =>
    if recentring s d c then
      endRepair (setReg { s with err := { s.err with repairs := rs } } (weirKey d c) (reg s (weirKey d c) ||| BitVec.ofNat 32 (2 ^ 21))) r
    else s
  | [] => s

/-- WEIR_TRAINING: P, DRIFT from 0, and the end of a re-centring; with link and weir trained again the gateway absorbs no more (R120,
R122, R124, R501). -/
def weirTrained (s : State) (d c : Nat) (ms : List (Nat × Nat)) : State :=
  if !canTrainWeir s d c ms then s
  else
    let s := recentred (setDrift { s with phys := put s.phys (8 * d + c) (trainedPhys ms) } d c 0) d c
    if c == 0 then { s with bl := s.bl.map (fun e => if e.1 == d then (e.1, { e.2 with spill := false }) else e) } else s

/-! ### Flits and retries (R483, R485, R496 to R498) -/

/-- While the board steps a retry requests the sluice under code 2 for two slots. -/
def retryRequest (s : State) : State := if stepping s then pulse s 2 2 else s

/-- Step records of a good flit stand in the die's weir of link code 0 until send step + 160; TAG names the send step by the tick that both
ends count (R104, R119, R485). A SHORT weir takes none (R122). -/
def takeRecords (s : State) (d : Nat) (rs : List (Nat × Nat)) : State :=
  let new := rs.filterMap (fun r => match lookup s.seq.recent r.1 with
    | some t => if t + 160 < depthOf s && !weirShort s d 0 then
        some ({ die := d, code := 0, sent := t, due := t + 160, channels := numsWhere 192 (bitOf r.2), wait := [] } : WeirRec) else none
    | none => none)
  { s with ds := { s.ds with weirs := s.ds.weirs ++ new } }

/-- Receive share of a bundle: 0 at version 2 (R484). -/
def rxS (s : State) (d : Nat) (b : BoardLink) : Nat := if b.version == 3 then rxShare s d 0 else 0

/-- A flit that fails its CRC asks for a retry, and flits are discarded until a good one: NAK in the next flit with the last good one as ACK,
but none within 128 ns of the last. Once those have passed a failure among the flits discarded asks again (R497, R498). -/
def badFlit (s : State) (d : Nat) (b : BoardLink) : State :=
  let nak := b.tx.nakWait == 0
  if b.nakSent && !nak then s
  else
    let tx := if nak then { b.tx with nakDue := true, nakWait := if b.version == 2 then 32 else 64 } else b.tx
    let s := retryRequest (setLink s d { b with nakSent := true, tx := tx })
    if b.nakSent then s else fault (bumpBl s d 0x040 32 1) { linkInfo d 1 0x0301 with source := 2, stallUs := b2n (stepping s) }

/-! ### Items (R486) -/

/-- LINK_MESSAGE of the peer: this end returns its lanes, or the loop ends and the link trains again. -/
def farLoop (s : State) (d : Nat) (on : Bool) : State :=
  match linkOf s d with
  | none => s
  | some b =>
    if on then
      (if b.version == 3 && (b.st == 3 || b.st == 4) && (s.md.mode == .standby || s.md.mode == .loaded || s.md.mode == .service) then
        buildRoutes (setLink s d { b with st := 5, loopMode := 4, rx := b.rx.map (fun l => { l with scr := 0 }) }) else s)
    else if b.loopMode == 4 then setLink s d { b with st := 2, loopMode := 0 } else s

/-- A network flit leaves its buffer at once, and its credit is owed; the last one of a packet completes it (R457, R464). -/
def takeNet (s : State) (d x : Nat) : State :=
  let v := vcIndex (fld x 132 131) (fld x 134 133)
  match linkOf s d with
  | none => s
  | some b =>
    let old := if isHead x then [] else (lookup b.parts v).getD []
    let fs := old ++ [x % 2 ^ 135]
    let tx := { b.tx with owed := b.tx.owed.set v (b.tx.owed.getD v 0 + 1) }
    if isTail x then
      { setLink s d { b with tx := tx, parts := del b.parts v } with net := { s.net with arrived := s.net.arrived ++ [(d, packetOf d fs)] } }
    else setLink s d { b with tx := tx, parts := put b.parts v fs }

/-- A cycle marker stands in its weir until its due tick; TAG names the send step by the tick that both ends count, and a TAG that names no
step 0 is a wrong one (R129, R130, R485). -/
def takeMark (s : State) (d x : Nat) : State :=
  let older := s.seq.recent.dropWhile (fun r => r.1 != fld x 25 16)
  match older with
  | (_, 0) :: _ =>
    let newer := s.seq.recent.take (s.seq.recent.length - older.length)
    let sent := s.seq.dcn - (newer.filter (fun r => r.2 == 0)).length - b2n (s.seq.tick == .step 0)
    { s with net := { s.net with marksIn := s.net.marksIn ++ [(d, sent, fld x 15 0)] } }
  | _ => if stepping s then markerMismatch s d 0 else s

/-- A timing marker; the last of 1,024 trains the weir (R120). -/
def takeTiming (s : State) (d x : Nat) : State :=
  match linkOf s d with
  | none => s
  | some b =>
    let ms := b.timing ++ [(s.seq.ticks - (s.seq.ticks + 2 ^ 32 - fld x 31 0) % 2 ^ 32, 256 * s.seq.ticks)]
    if ms.length < 1024 then setLink s d { b with timing := ms } else weirTrained (setLink s d { b with timing := [] }) d 0 ms

/-- What an item of a good flit brings (R464, R486, R496). -/
def takeItem (d : Nat) (s : State) (x : Nat) : State :=
  match fld x 143 140 with
  | 1 => takeNet s d x
  | 2 => (List.range 10).foldl (fun s v => creditReturn s (32 + d) v (fld x (8 * v + 7) (8 * v))) s
  | 3 => takeMark s d x
  | 4 => takeTiming s d x
  | 5 => if fld x 7 0 == 1 then farLoop s d true else if fld x 7 0 == 2 then farLoop s d false else s
  | _ => s

/-- A good flit: ACK, step records, items. -/
def goodFlit (s : State) (d : Nat) (b : BoardLink) (f : LinkFlit) (ctl : Nat) (body : FlitBody) : State :=
  let tx := ackFlits b.tx (ctl % 128)
  let b := { b with expect := (b.expect + 1) % 2 ^ 16, nakSent := false, acked := ctl % 128, tx := tx
                    st := if f.held && b.st == 3 then 6 else if !f.held && b.st == 6 && !inSafeHold s then 3 else b.st }
  let s := takeRecords (body.items.foldl (takeItem d) (setLink s d b)) d body.records
  if body.records.isEmpty then s else trackDrift s d 0 f.drift

/-- Lanes after a lane of a direction failed: remapped onto the lowest good spare, else narrowed to the lowest 8, else none. -/
def lanesAfter (used failed : List Nat) (l : Nat) : List Nat :=
  match (goodLanes failed).filter (fun x => !used.contains x) with
  | sp :: _ => used.map (fun x => if x == l then sp else x)
  | [] => if 16 ≤ used.length then (goodLanes failed).take 8 else []

/-- After a remap or retrain the weir is trained anew: within its stall (`passRepairs`), at once where there is none (R499). -/
def retrainWeir (s : State) (d : Nat) : State := if inRepair s 9 (linkUnit d) then s else trainWeir s d

/-- A lane in use has failed (R499): what becomes of the link. -/
def laneFailure (s : State) (d l : Nat) (tx : Bool) : State :=
  match linkOf s d with
  | none => s
  | some b =>
    let used := if tx then b.txUsed else b.rxUsed
    if !linkCarries b || !used.contains l then s
    else
      let failed := ins (if tx then b.txFail else b.rxFail) l
      let next := lanesAfter used failed l
      let v := if tx then { b with txFail := failed, txUsed := next, width8 := next.length == 8 } else { b with rxFail := failed, rxUsed := next }
      if next.isEmpty then linkDown s d v 5 l
      else if next.length == used.length then
        retrainWeir (joinRepair (bumpBl (setLink s d v) d 0x058 16 1) 9 (linkUnit d) { linkInfo d 3 0x0302 with d1 := l }) d
      else
        let first := match v.tx.retry with | f :: _ => f.seq | [] => v.tx.seq
        let v := if tx then { v with tx := { freshTx v.tx v.tx.scr with seq := first } } else v
        retrainWeir (widthFault (setLink s d v) (linkUnit d) { linkInfo d 4 0x0303 with d1 := l }) d

/-- The receivers of the lanes in use take a flit's blocks: receivers, invalid headers, locks lost, payloads. -/
def takeBlocks (now : Nat) (b : BoardLink) (bs : List LaneBlock) : List (LaneRx × Bool × BitVec 64) :=
  (b.rxUsed.zip bs).map (fun e => takeBlock now ((b.rx.find? (fun l => l.lane == e.1)).getD
    { lane := e.1, offset := 0, inverted := false, locked := true, window := 0, badAt := [], scr := 0 }) e.2)

/-- PRBS31 on a physical lane: bits that differ from what the last 31 bits continue; none before those have come (R507). -/
def loopLane (l : LaneRx) (b : LaneBlock) : LaneRx × Nat :=
  ({ l with scr := BitVec.ofNat 58 (b.payload.toNat >>> 6) }, if l.scr == 0 then 0 else prbsErrors (BitVec.ofNat 31 (l.scr.toNat >>> 27)) b.payload)
/-- The blocks of the physical lanes of a link that is looped at this end. -/
def loopFlit (s : State) (d : Nat) (b : BoardLink) (f : LinkFlit) : State :=
  let got := b.rx.map (fun l => match f.blocks[l.lane]? with | some x => loopLane l x | none => (l, 0))
  bumpBl (setLink s d { b with rx := got.map (·.1) }) d 0x070 32 (got.foldl (fun a x => a + x.2) 0)

/-- The equalisers of a version 3 link have adapted; not in idle (R490). -/
def adapt (b : BoardLink) (f : LinkFlit) : BoardLink :=
  match f.adapted with
  | some e => if b.version == 3 && b.st != 4 then { b with eye := e.eye, rx := b.rx.map (fun l => { l with taps := (lookup e.taps l.lane).getD l.taps }) } else b
  | none => b

/-- BOARD_FLIT_RECEIVE: the blocks of the logical lanes make a flit, judged under the sequence number expected; a lane that its headers fail
is handled as R499 says. -/
def boardFlit (s : State) (d : Nat) (f : LinkFlit) : State :=
  match linkOf s d with
  | none => s
  | some b =>
    if b.st == 5 && b.loopMode != 4 then loopFlit s d b f
    else if !linkCarries b || f.blocks.length != b.rxUsed.length then s
    else
      let wide := b.rxUsed.length == 16
      let got := takeBlocks (nowNs s) b f.blocks
      let v := ofLanes (got.map (fun g => g.2.2))
      let lost := got.filter (fun g => !g.1.locked && b.rx.any (fun l => l.lane == g.1.lane && l.locked))
      let b' := adapt { b with rx := b.rx.map (fun l => ((got.find? (fun g => g.1.lane == l.lane)).map (·.1)).getD l) } f
      let s := bumpBl (bumpBl (setLink s d b') d 0x050 32 (got.filter (fun g => g.2.1)).length) d 0x054 16 lost.length
      let s := if flitGood wide b.expect v then goodFlit s d b' f (v % 256) (parseBody wide (rxS s d b) (fld v (bodyBits wide + 7) 8))
        else badFlit s d b'
      (got.filter (fun g => laneFails (nowNs s) g.1)).foldl (fun s g => laneFailure s d g.1.lane false) s

/-- NAK_RECEIVED with CTL's ACK and NAK: after a NAK every flit from ACK + 1 is sent again. The receiver of the bad flit requests the stall
(R144, R498). -/
def nakReceived (s : State) (d ack : Nat) (nak : Bool) : State :=
  match linkOf s d with
  | none => s
  | some b =>
    if !linkCarries b || !nak then s
    else
      let tx := resendAll (ackFlits b.tx (ack % 128))
      bumpBl (bumpBl (setLink s d { b with acked := ack % 128, tx := tx }) d 0x044 32 1) d 0x04C 32 tx.resend.length

/-- RETRY_TIMEOUT: the oldest unacknowledged flit is of an age, and from 128 ns on every flit from it on is sent again. -/
def retryTimeout (s : State) (d ageNs : Nat) : State :=
  match linkOf s d with
  | none => s
  | some b =>
    if !linkCarries b || b.tx.retry.isEmpty || ageNs < 128 then s
    else retryRequest (bumpBl (bumpBl (setLink s d { b with tx := resendAll b.tx }) d 0x048 16 1) d 0x04C 32 b.tx.retry.length)

/-! ### Cycle markers (R129, R130) -/

/-- The marker is as expected: L ticks after step 0 of its cycle, so the device's own position is L mod (D + 16) of the cycle where it
comes; and TAG names step 0, by the tick that both ends count (R486). -/
def markerOk (s : State) (c : Nat) (dcn16 : BitVec 16) (tag : BitVec 10) : Bool :=
  let n := depthOf s + 16
  let l := classLatency c
  s.seq.tick != .idle && cyclePos s == l % n && l / n ≤ s.seq.dcn && dcn16.toNat == (s.seq.dcn - l / n) % 2 ^ 16
    && s.seq.recent.contains (tag.toNat, 0)

/-- CYCLE_MARKER_RECEIVE at a weir. -/
def cycleMarker (s : State) (d c : Nat) (dcn16 : BitVec 16) (tag : BitVec 10) : State :=
  if !stepping s || nDies s ≤ d || 8 ≤ c || !routeHere s d c || markerOk s c dcn16 tag then s else markerMismatch s d c

/-! ### Loops, lanes, LOS and LOL, idle, a reset of the far die (R499 to R501, R505 to R508) -/

/-- BOARD_LANE_FAIL in operation: block lock lost, or 8 invalid headers within 1 ms; the far receiver reports the lanes of the transmitter. -/
def boardLaneFail (s : State) (d l : Nat) (tx lockLoss : Bool) : State :=
  match linkOf s d with
  | none => s
  | some b =>
    if !linkCarries b || !(if tx then b.txUsed else b.rxUsed).contains l then s
    else laneFailure (if lockLoss then bumpBl s d 0x054 16 1 else bumpBl s d 0x050 32 8) d l tx

/-- BOARD_LOS_LOL: a retrain without lane test under the sluice, and what comes of it: without a training, or with one that fails, the link
is down (R196, R499). -/
def losLol (s : State) (d : Nat) (lol : Bool) (t : Option LinkTraining) : State :=
  match linkOf s d with
  | none => s
  | some b =>
    if !linkCarries b then s
    else
      let s := bumpBl s d (if lol then 0x06C else 0x068) 16 1
      let q := { b with quick := true }
      match t.filter (fun t => trainingCause s d (heardLink s d q t) t == 0) with
      | none => signNow (linkDown s d b (if lol then 3 else 2) 0)
      | some t =>
        let v := heardLink s d q t
        let s := unitFault (placeLink s d q { v with st := b.st } t) 9 (linkUnit d) (linkInfo d 3 0x0304)
        retrainWeir (signNow (buildRoutes (if v.width8 == b.width8 && v.rxUsed.length == b.rxUsed.length then s else remark s))) d

/-- Work waits for a link beside credits. -/
def linkWork (s : State) (d : Nat) (b : BoardLink) : Bool :=
  !(b.tx.records.isEmpty && b.tx.marks.isEmpty && b.tx.nets.isEmpty && b.tx.again.isEmpty && b.tx.resend.isEmpty && b.tx.timing == 0)
    || s.net.out.any (fun p => match outWay s p with | some (e, _, _) => e == d | none => false)

/-- IDLE goes out on every logical lane. -/
def sendIdle (s : State) (d : Nat) : State :=
  match linkOf s d with
  | none => s
  | some b =>
    let ls := (List.range b.txUsed.length).map (fun k => scramble (b.tx.scr.getD k 0) idleWord)
    let blocks : List LaneBlock := ls.map (fun x => { header := 2, payload := x.1 })
    { setLink s d { b with st := 4, tx := { b.tx with scr := ls.map (·.2) } } with
      net := { s.net with control := ((d, blocks) :: s.net.control).take 16 } }

/-- BOARD_IDLE_ENTRY: nothing but credits to send for IDLE_AFTER (log 14); a flit with the credits owed goes first, then IDLE (R505). -/
def idleEntry (s : State) (d : Nat) : State :=
  match linkOf s d with
  | none => s
  | some b =>
    if b.st == 3 && bitOf (blReg s d 0x100) 0 && (s.md.mode == .standby || s.md.mode == .loaded) && !linkWork s d b then
      sendIdle (if b.tx.owed.all (· == 0) then s else flitSlot s d) d
    else s

/-- BOARD_IDLE_EXIT for an item of either end, or the fall back to a retrain without lane test (R506). -/
def idleExit (s : State) (d : Nat) (w : IdleWake) : State :=
  match linkOf s d with
  | none => s
  | some b =>
    if b.st != 4 || !(w.peer || linkWork s d b) then s
    else
      let s := bumpBl s d 0x060 32 1
      if w.heads.all headerOk then setLink s d { b with st := 3 } else buildRoutes (setLink (bumpBl s d 0x064 16 1) d { b with st := 2, quick := true })

/-- BOARD_PEER_DIE_RESET: the gateway absorbs traffic until link and weir have trained again. -/
def peerDieReset (s : State) (d : Nat) : State :=
  match linkOf s d with
  | none => s
  | some b => if linkUp b then buildRoutes (setLink s d { b with st := 2, spill := true, quick := false, fresh := true }) else s

/-- BOARD_LINK_TRAINING. -/
def execBoardLinkTraining (die : Nat) (t : LinkTraining) (s : State) : Host.Outcome State Fault Refusal := .next (boardTraining s die t)
/-- BOARD_LINK_UNCONNECTED. -/
def execBoardLinkUnconnected (die : Nat) (s : State) : Host.Outcome State Fault Refusal := .next (boardUnconnected s die)
/-- WEIR_TRAINING. -/
def execWeirTraining (die code : Nat) (markers : List (Nat × Nat)) (s : State) : Host.Outcome State Fault Refusal :=
  .next (weirTrained s die code markers)
/-- NAK_RECEIVED. -/
def execNakReceived (die ack : Nat) (nak : Bool) (s : State) : Host.Outcome State Fault Refusal := .next (nakReceived s die ack nak)
/-- RETRY_TIMEOUT. -/
def execRetryTimeout (die ageNs : Nat) (s : State) : Host.Outcome State Fault Refusal := .next (retryTimeout s die ageNs)
/-- CYCLE_MARKER_RECEIVE. -/
def execCycleMarkerReceive (die code : Nat) (dcn16 : BitVec 16) (tag : BitVec 10) (s : State) : Host.Outcome State Fault Refusal :=
  .next (cycleMarker s die code dcn16 tag)
/-- LINK_MESSAGE. -/
def execLinkMessage (die : Nat) (loopOn : Bool) (s : State) : Host.Outcome State Fault Refusal := .next (farLoop s die loopOn)
/-- BOARD_LANE_FAIL. -/
def execBoardLaneFail (die lane : Nat) (tx lockLoss : Bool) (s : State) : Host.Outcome State Fault Refusal :=
  .next (boardLaneFail s die lane tx lockLoss)
/-- BOARD_LOS_LOL. -/
def execBoardLosLol (die : Nat) (lol : Bool) (t : Option LinkTraining) (s : State) : Host.Outcome State Fault Refusal := .next (losLol s die lol t)
/-- BOARD_IDLE_ENTRY. -/
def execBoardIdleEntry (die : Nat) (s : State) : Host.Outcome State Fault Refusal := .next (idleEntry s die)
/-- BOARD_IDLE_EXIT. -/
def execBoardIdleExit (die : Nat) (w : IdleWake) (s : State) : Host.Outcome State Fault Refusal := .next (idleExit s die w)

end Sys2Proof.Machine
end

