-- ==== Sys2Proof/Machine/Packets.lean ====
section
/-! DEFINITION. Machine/Packets.lean: packets of the packet network, capture block parts, churn results, and the messages that host rings and
other sources bring (R226, R232, R243, R282, R323 to R327, R342, R454 to R458, R464 to R467, R472). -/
namespace Sys2Proof.Machine

/-! ### Endpoints (R455) -/

/-- The endpoint exists. -/
def endpointHere (s : State) (a : Nat) : Bool :=
  let x := naX a
  let y := naY a
  let e := naEnd a
  if naSite a < nDies s then
    e == 0 || (e == 1 && [(3, 0), (4, 0), (7, 4), (0, 4), (7, 7), (0, 0)].contains (x, y)) || (e == 2 && [(3, 0), (4, 0)].contains (x, y))
  else if naSite a == 15 then
    x < 4 && ((((y == 0 && x < nDies s) || (y == 3 && x + 4 < nDies s)) && (e == 1 || e == 2))
      || (e == 1 && (y == 1 || y == 2)) || (e == 2 && (y == 1 || y == 2)) || (e == 3 && x == 2 && y == 1))
  else naSite a == 8 && s.acc.st == 4

/-- The transactor subsystem. -/
def trxAddress : Nat := 15 * 2 ^ 12 + 0 * 2 ^ 9 + 1 * 2 ^ 6 + 2

/-! ### What may become of a packet before its endpoint takes it -/

/-- A board link takes VN0 and VN1 packets to a position: version 3, neither looped nor absorbing (R495, R507). -/
def linkTo (s : State) (pos : Nat) : Bool := (directLink s pos).isSome
/-- A request of this device waits at the link to its destination: the flit of its address, then its data (R458, R495). -/
def crossLink (s : State) (vn : Nat) (ans : Option Nat) (p : Packet) : State :=
  if vn != 0 || p.srcPos != posOf s then s
  else
    let head := [lo32 p.addr.toNat, hi32 p.addr.toNat, if ans == some 0x21 then lo32 p.bytes else 0, 0]
    queueOutPacket s {
      die := naSite p.src, pos := p.dstPos, vn := 0, cmd := if ans == some 0x21 then 1 else if ans == some 0x22 then 3 else 2, status := 0, src := p.src
      dst := p.dst, tag := p.tag, words := head ++ (if ans == some 0x21 then [] else p.words), poison := p.poison }

/-- Outcome of the way of a packet: it stops here, or its endpoint takes it. -/
inductive PacketFate where
  | stopped (s : State)
  | arrives

/-- The collector's endpoint, on the I/O die (R455). -/
def collectorAddress : Nat := 15 * 2 ^ 12 + 2 * 2 ^ 9 + 2 ^ 6 + 3

/-- The I/O die absorbs a packet of the accessory die, but for the responses of a deep-capture die, and one that is no read or write of the
collector's to a deep-capture die (R472). -/
def accessoryBars (s : State) (vn : Nat) (p : Packet) : Bool :=
  (naSite p.src == 8 && p.srcPos == posOf s && !(vn == 1 && deepCapture s))
    || (naSite p.dst == 8 && p.dstPos == posOf s && s.acc.st == 4 && s.acc.kind == 1 && p.src != collectorAddress)

/-- A packet on its way (R410, R458, R466, R467, R472, R495, R500): in BOOT no board link carries it, and it crosses one at most; `vn` is the virtual network
of its command; `ans` its response command. -/
def packetFate (s : State) (vn : Nat) (ans : Option Nat) (p : Packet) : PacketFate :=
  if accessoryBars s vn p then .stopped (answerWith (countNoc s 0x018) ans 3 p [])
  else if p.vn != vn then .stopped (answerWith (if p.dstPos == posOf s then countAt s (naSite p.dst) 0x018 else countNoc s 0x018) ans 3 p [])
  else if s.md.mode == .boot && (p.srcPos != posOf s || p.dstPos != posOf s) then .stopped s
  else if p.dstPos != posOf s then
    (if p.srcPos != posOf s then .stopped (answerWith (countNoc s 0x018) ans 3 p [])
    else if linkTo s p.dstPos then .stopped (crossLink s vn ans p)
    else match spillTo s p.dstPos with
    | some d => .stopped (answerWith (bumpBl s d 0x074 32 1) ans 2 p [])
    | none => .stopped (answerWith (countNoc s 0x018) ans 3 p []))
  else if s.net.spill.contains (naSite p.dst) then .stopped (answerWith (countNoc s (if ans.isSome then 0x00C else 0x010)) ans 2 p [])
  else if p.poison then .stopped (answerWith (countAt s (naSite p.dst) 0x014) ans 1 p [])
  else if !endpointHere s p.dst then .stopped (answerWith (countAt s (naSite p.dst) 0x018) ans 3 p [])
  else .arrives

/-- Words of free data (log 9). -/
def freeWords (s : State) (n : Nat) : List Word := (List.range n).map (fun k => Config.freeWord (s.freeCtr + k))

/-- The requester of a read or an acknowledged write holds buffer space for its response of n flits, or it does not issue it (R463); a
requester elsewhere answers for its own. -/
def holdsRoom (s : State) (p : Packet) (n : Nat) : Bool := p.srcPos != posOf s || mayAsk s p.src n
def asking (s : State) (p : Packet) (n : Nat) : State := if p.srcPos != posOf s then s else ask s p.src p.tag n

/-- Flits of a response with its data. -/
def responseFlits (bytes : Nat) : Nat := 1 + cdiv bytes 16

/-- Site and router column where a packet starts or ends on this device: its own, or the gateway of the board link that brings or takes it,
which is a source on its own die (R455, R459). -/
def wayEnd (s : State) (pos a : Nat) : Nat × Nat :=
  if pos == posOf s then (naSite a, naX a) else match directLink s pos with | some d => (d, 7) | none => (15, 0)
/-- The spoke module of a compute die for a router column, or module 24 (R459). -/
def spokeOf (s : State) (e : Nat × Nat) : Option Nat :=
  if e.1 < nDies s then some (2 * e.1 + (if e.2 < 4 then 0 else 1)) else if e.1 == 8 then some 24 else none

/-- Modules that a VN0 or VN1 packet crosses inside this device with its virtual channel there: VC0 until it first leaves the compute die
where it originates, VC1 on every other hop (R459). -/
def vn01Way (s : State) (p : Packet) : List (Nat × Nat) :=
  let a := wayEnd s p.srcPos p.src
  let b := wayEnd s p.dstPos p.dst
  if a.1 == b.1 then []
  else
    ((spokeOf s a).toList.map (fun m => (m, vcIndex p.vn (if p.srcPos == posOf s && a.1 < nDies s then 0 else 1))))
      ++ (spokeOf s b).toList.map (fun m => (m, vcIndex p.vn 1))

/-- Credits on a way for n flits, and their spending (R464). -/
def wayOpen (s : State) (w : List (Nat × Nat)) (n : Nat) : Bool := w.all (fun e => outstanding s e.1 e.2 + n ≤ gatewayDepth e.2)
def spendWay (s : State) (w : List (Nat × Nat)) (n : Nat) : State := w.foldl (fun s e => setOutstanding s e.1 e.2 (outstanding s e.1 e.2 + n)) s

/-- A request of n flits can go: its way has the credits, and its requester the space for a response of k flits (R463, R464). -/
def mayGo (s : State) (p : Packet) (n k : Nat) : Bool := wayOpen s (vn01Way s p) n && (k == 0 || holdsRoom s p k)

/-- The endpoint of the service banks of this device (R455). -/
def banksHere (p : Packet) : Bool := p.dst == bankAddress

/-- READ: answered with a read response, from a service bank when its port has read the words. Which bytes stand at another endpoint's
addresses the spec does not say (log 37). -/
def readPacket (s : State) (p : Packet) : State :=
  if !mayGo s p 2 (responseFlits p.bytes) then s
  else
    let s := asking s p (responseFlits p.bytes)
    match packetFate s 0 (some 0x21) p with
    | .stopped s => s
    | .arrives =>
      let n := cdiv p.bytes 4
      if banksHere p then bankRequest (spendWay s (vn01Way s p) 2) p (some 0x21) p.bytes false
      else respond (spendWay { s with freeCtr := s.freeCtr + n } (vn01Way s p) 2) 0x21 0 p (freeWords s n)

/-- POSTED_WRITE. -/
def postedPacket (s : State) (p : Packet) : State :=
  let n := 2 + cdiv p.words.length 4
  if !mayGo s p n 0 then s
  else match packetFate s 0 none p with
    | .stopped s => s
    | .arrives =>
      let s := spendWay s (vn01Way s p) n
      if banksHere p then bankRequest s p none (4 * p.words.length) true else s

/-- ACKNOWLEDGED_WRITE: answered with a write acknowledgement. -/
def ackedPacket (s : State) (p : Packet) : State :=
  let n := 2 + cdiv p.words.length 4
  if !mayGo s p n 1 then s
  else
    let s := asking s p 1
    match packetFate s 0 (some 0x22) p with
    | .stopped s => s
    | .arrives =>
      let s := spendWay s (vn01Way s p) n
      if banksHere p then bankRequest s p (some 0x22) (4 * p.words.length) true else respond s 0x22 0 p []

/-- READ_RESPONSE: a poisoned one counts as an uncorrectable response to the cluster port that asked (R182, R467), which TAG [1:0] names
(DESIGN CHOICE, log 76). -/
def responsePacket (s : State) (p : Packet) : State :=
  let s := if p.dstPos == posOf s then answered s p.dst p.tag else s
  if p.poison && p.vn == 1 && p.dstPos == posOf s then
    let s := countAt s (naSite p.dst) 0x014
    if naSite p.dst < nDies s && naEnd p.dst == 0 then
      let gc := 64 * naSite p.dst + 16 * (naX p.dst / 4 + 2 * (naY p.dst / 4)) + naX p.dst % 4 + 4 * (naY p.dst % 4)
      match s.ds.ddr.find? (fun r => r.gc == gc && !r.arrived && r.port == p.tag % 4) with
      | some r => badRead s r .poisoned 0xFFFF
      | none => s
    else s
  else match packetFate s 1 none p with
    | .stopped s => s
    | .arrives => s

/-- WRITE_ACKNOWLEDGEMENT. -/
def ackPacket (s : State) (p : Packet) : State :=
  match packetFate (if p.dstPos == posOf s then answered s p.dst p.tag else s) 1 none p with
  | .stopped s => s
  | .arrives => s

/-! ### Messages into the design (R323 to R327, R342) -/

/-- A channel takes messages of its source now: OPEN, not in REPLAY or SAFE HOLD, a free slot (R307, R323, R327). -/
def takesIn (s : State) (ch : Chan) : Bool := ch.isOpen && hasIn ch.cfg && inRoom ch && s.md.mode != .replay && !inSafeHold s

/-- INBOUND_RING_ENTRY: the words read at the place of the entry at the consumer index, accepted or counted in IN_ERR with event 0x0007. -/
def ringEntry (s : State) (c : Nat) (r : RingRead) : State :=
  match chanOf s c with
  | none => s
  | some ch =>
    if !takesIn s ch || ch.cfg.source != 0 || ch.ring.cons == ch.ring.prod || r.addr != entryAddr ch then s
    else
      let i := ch.ring.cons
      let e := parseEntry ch.fmt r.words
      let ch := { ch with ring := { ch.ring with cons := (i + 1) % 2 ^ 32 } }
      let s := { s with io := { s.io with dma := put s.io.dma ch.ring.wb [lo32 (i + 1)] } }
      if entryOk ch e then accept s c ch e
      else queueShort (setChan s c (countIn ch 1)) 7 6 [packW [(0, 16, c), (16, 16, i)], lo32 (i / 2 ^ 16)]

/-- The source that a transactor packet comes from: 1 the partner die, 2 a board-link peer; none where it may not send (R326, R472, R473,
R500). -/
def packetSource (s : State) (p : Packet) (ch : Chan) : Option Nat :=
  if p.srcPos == posOf s then (if naSite p.src == 8 && s.acc.st == 4 && s.acc.kind == 2 then some 1 else none)
  else match linkOf s ch.cfg.link with
    | some b => if linkCarries b && !b.spill && b.peerPos == p.srcPos then some 2 else none
    | none => none

/-- The partner die may send: what it has sent is not further ahead of its rate than the gateway buffer holds; more waits for credits (R456,
R470, R472). -/
def partnerRoom (s : State) : Bool := 0 < s.acc.gbps && s.acc.busyTo ≤ nowNs s + 96 * 128 / s.acc.gbps
/-- A message of the partner die takes its time at the rate, ns. -/
def partnerSent (s : State) (src bits : Nat) : State :=
  if src == 1 then { s with acc := { s.acc with busyTo := max s.acc.busyTo (nowNs s) + cdiv bits s.acc.gbps } } else s

/-- TRANSACTOR_MESSAGE on VN0, the words of the entry being its data: a sender uses one of the credits that it holds for the channel (R326). -/
def messagePacket (s : State) (p : Packet) (c : Nat) (ws : List Word) : State :=
  if p.vn != 0 || p.dst != trxAddress || p.dstPos != posOf s then countNoc s 0x018
  else if p.poison then countNoc s 0x014
  else match chanOf s c with
    | none => s
    | some ch =>
      let e := parseEntry ch.fmt ws
      if !takesIn s ch || ch.credits == 0 || packetSource s p ch != some ch.cfg.source.toNat || (ch.cfg.source == 1 && !partnerRoom s) then s
      else
        let s := partnerSent s ch.cfg.source.toNat (128 * (1 + cdiv ws.length 4))
        if entryOk ch e then accept s c ch e else setChan s c (countIn ch 1)

/-! ### Capture blocks (R226, R228, R232, R243, R467) -/

/-- Dies of the board that capture: (position, die). -/
def boardDies (s : State) : List (Nat × Nat) :=
  (diesOf s).map (fun d => (posOf s, d)) ++ s.peers.flatMap (fun p => (List.range (if p.part == 0x40 then 4 else 8)).map (fun d => (p.pos, d)))

/-- The collector enters FROZEN when every die's end marker block has reached the ring. -/
def checkFrozen (s : State) : State :=
  if capturing s && (boardDies s).all (fun d => s.cap.endsIn.contains d) then
    let s := setCapMode s .frozen
    sendFw { s with cap := { s.cap with hdr := s.cap.hdr.map (fun h => { h with mode := .frozen }) } } .captureFrozen
  else s

/-- The oldest block that a die of this device has not sent, and the die without it. -/
def takeUnsent (s : State) (d : Nat) : Option (Block × State) :=
  match capDie s d with
  | none => none
  | some c => match c.unsent with
    | [] => none
    | b :: bs => some (b, setCapDie s d { c with unsent := bs })

/-- The collector has a place for a block: free, or one it may retire. -/
def ringRoomFor (s : State) : Bool :=
  s.cap.ring.length < ringBlocks s || (match s.cap.ring with | b :: _ => retirable s b | [] => false)

/-- A whole block at the collector: written unless it was poisoned or the deep-capture die is gone. -/
def wholeBlock (s : State) (b : Block) (poison : Bool) : State :=
  if poison || (capTarget s && !deepCapture s) then s else checkFrozen (ringFull (ringPut s b))

/-- The modules that a part from a die of this device crosses: (module, VC) (R461). -/
def partWay (s : State) (d : Nat) : Option (List (Nat × Nat)) :=
  (routeTo s d (nodeAt 0 15)).map (fun ls => (legModules s 0 d ls).map (fun e => (e.1, vcIndex 2 e.2)))
/-- The end of a part's way on this device: the I/O die, or a die over whose board link it goes on; none where it meets a reserved EXIT. A
leg BOARD that it brings is the entry of this device's table (R460). -/
def partEnd (s : State) (p : Packet) (pos d : Nat) : Option (Nat × Bool) :=
  if pos == posOf s then (match routeTo s d (nodeAt 0 15) with | some ls => followLegs s 15 d ls | none => some (15, false))
  else followLegs s 15 p.die (match p.legs with | l :: ls => if l / 256 % 16 == 4 then ((lookup s.net.routes (64 * p.die + l % 64)).getD []) else l :: ls | [] => [])
/-- Its way ends somewhere: at this device's collector, or at a link that takes it on. -/
def partArrives (s : State) (p : Packet) (pos d : Nat) : Bool := (partEnd s p pos d).isSome
/-- The die from which a part leaves over a board link. -/
def partDie (p : Packet) (e : Option (Nat × Bool)) (d : Nat) : Nat := match e with | some (x, true) => x | _ => if p.legs.isEmpty then d else p.die

/-- A part takes its way: of a die of this device along its table, with credits; of another device along the legs that it brings, a leg
BOARD replaced by the entry that it names. None: it does not move. -/
def partTravels (s : State) (p : Packet) (pos d : Nat) : Option State :=
  if pos != posOf s then some s
  else match partWay s d with
    | some w => if wayOpen s w (1 + cdiv p.words.length 4) then some (spendWay s w (1 + cdiv p.words.length 4)) else none
    | none => none

/-- A part that is not for this device's collector leaves over the board link of its route, poisoned as it came. -/
def partLeaves (s : State) (p : Packet) (pos d : Nat) : State :=
  if isLead s then s
  else queueOutPacket s {
    die := if pos == posOf s then d else partDie p (partEnd s p pos d) d, pos := 0, vn := 2, cmd := 0x30, status := 0, src := p.src
    dst := collectorAddress, tag := p.tag, words := p.words, poison := p.poison }

/-- CAPTURE_BLOCK_PART of a die; a block is eight parts in order. The parts of this device's dies are the words of the block that the die
holds; on a device that is not the collector the last part takes the block off the die. A collector in SAFE HOLD takes none (R259, R544). -/
def blockPart (s : State) (p : Packet) (pos d part : Nat) : State :=
  let key := 16 * pos + d
  let old := (lookup s.cap.parts key).getD (0, [], false)
  if p.vn != 2 || (naSite p.src == 8 && pos == posOf s) || !partArrives s p pos d then countNoc s 0x018
  else if part != old.1 || (isLead s && (inSafeHold s || (part == 7 && !ringRoomFor s))) then s
  else match partTravels s p pos d with
  | none => s
  | some s1 =>
    let s := partLeaves (if p.poison && isLead s then countNoc s1 0x014 else s1) p pos d
    let ws := old.2.1 ++ p.words
    let bad := old.2.2 || p.poison
    if part < 7 then { s with cap := { s.cap with parts := put s.cap.parts key (part + 1, ws, bad) } }
    else
      let s := { s with cap := { s.cap with parts := del s.cap.parts key } }
      if pos == posOf s then
        match takeUnsent s d with
        | some (b, s) => if isLead s then wholeBlock s b bad else if bad then s else reachRing s b
        | none => s
      else if isLead s && capturing s then wholeBlock s (blockOf ws) bad
      else s

/-! ### Churn results (R282 to R284) -/

/-- Records of a ring of a size in bytes, newest first: those that the newest ones have not overwritten. -/
def ringHolds : Nat → List (List Word) → List (List Word)
  | _, [] => []
  | n, r :: rs => if 4 * r.length ≤ n then r :: ringHolds (n - 4 * r.length) rs else []

/-- A churn result ring whose base has bit 63 set stands in the service banks, at the bank address that the other bits give (R282; DESIGN CHOICE,
log 25). -/
def ringBank (base : Nat) : Option Nat := if bitOf base 63 then some (base % 2 ^ 63) else none

/-- Words at a byte offset of a ring of a size in the service banks, from its start on where its end comes in between. -/
def bankRingPut (s : State) (base bytes off : Nat) (ws : List Word) : State :=
  let n := (bytes - off % bytes) / 4
  let put (s : State) (a : Nat) (ws : List Word) : State := if ws.isEmpty then s else bankStore s (a / bankBytes) a ws
  put (put s (base + off % bytes) (ws.take n)) base (ws.drop n)

/-- The bank that holds a ring takes records of the churn engines: owner 4, and it is on (R522, R523, R526). -/
def bankTakes (b : Bank) : Bool := b.owner == 4 && b.power == 0

/-- CHURN_RESULT: the oldest record of a die's result buffer goes to its ring; the producer offset is written back and the vector
signalled. A service bank of another owner, which counts the refusal, and one that is not on leave the record in the buffer (log 25). -/
def churnResult (s : State) (d : Nat) : State :=
  match chnOf s d with
  | none => s
  | some c =>
    match c.ring, c.buf with
    | some (base, bytes, wb, vec), r :: rs =>
      let bank := (ringBank base).bind (fun a => (s.banks[a / bankBytes]?).map (fun b => (a, b)))
      let taken := match bank with | some (_, b) => bankTakes b | none => (ringBank base).isNone
      if inSafeHold s then s
      else if !taken then (match bank with | some (a, b) => if b.owner == 4 then s else bumpIo s 0x13 (0x40C + 16 * (a / bankBytes)) 16 1 | none => s)
      else
        let s := match bank with | some (a, _) => bankRingPut s a bytes c.ringProd r | none => s
        let n := (c.ringProd + 4 * r.length) % 2 ^ 32
        let s := setChn s d { c with buf := rs, ringProd := n, ringData := ringHolds bytes (r :: c.ringData), lastLeft := some (par64 r 2) }
        signal { s with io := { s.io with dma := put s.io.dma wb [lo32 n] } } vec
    | _, _ => s

/-! ### Packets that board links bring (R457, R458, R466, R486) -/

/-- A packet that a board link has brought, by its CMD; a transactor message is for the channel that TAG names, and a VN3 packet's contents
come as its own row (DESIGN CHOICE, log 76). Any other CMD is absorbed and counted. -/
def arrive (s : State) (e : Nat × Nat × Packet) : State :=
  let p := e.2.2
  match e.2.1 with
  | 0x01 => readPacket s p
  | 0x02 => postedPacket s p
  | 0x03 => ackedPacket s p
  | 0x04 => messagePacket s p p.tag p.words
  | 0x21 => responsePacket s p
  | 0x22 => ackPacket s p
  | 0x30 => blockPart s p p.srcPos (naSite p.src) ((lookup s.cap.parts (16 * p.srcPos + naSite p.src)).getD (0, [], false)).1
  | 0x31 => traceRecord s p (naSite p.src)
  | c => if 0x38 ≤ c && c ≤ 0x3C && p.vn == 3 then s else answerWith (countNoc s 0x018) (if p.vn == 0 then some 0x22 else none) 3 p []

/-- No packet has come in this row. -/
def noneArrived (s : State) : State := { s with net := { s.net with arrived := [] } }
/-- The packets that have come are taken in order. -/
def takeArrived (s : State) : State := s.net.arrived.foldl arrive (noneArrived s)

/-- A packet whose head has come and whose rest will not is completed poisoned (R466). -/
def cutPackets (s : State) (d : Nat) : State :=
  match linkOf s d with
  | none => s
  | some b =>
    { setLink s d { b with parts := [] } with
      net := { s.net with arrived := s.net.arrived ++ b.parts.map (fun e => (d, packetOf d (e.2 ++ [2 ^ 130]))) } }

/-- BOARD_FLIT_RECEIVE. -/
def execBoardFlitReceive (die : Nat) (f : LinkFlit) (s : State) : Host.Outcome State Fault Refusal := .next (takeArrived (boardFlit (noneArrived s) die f))
/-- BOARD_PEER_DIE_RESET. -/
def execBoardPeerDieReset (die : Nat) (s : State) : Host.Outcome State Fault Refusal :=
  .next (takeArrived (peerDieReset (if (linkOf s die).any linkUp then cutPackets (noneArrived s) die else noneArrived s) die))
/-- READ. -/
def execRead (p : Packet) (s : State) : Host.Outcome State Fault Refusal := .next (readPacket s p)
/-- POSTED_WRITE. -/
def execPostedWrite (p : Packet) (s : State) : Host.Outcome State Fault Refusal := .next (postedPacket s p)
/-- ACKNOWLEDGED_WRITE. -/
def execAcknowledgedWrite (p : Packet) (s : State) : Host.Outcome State Fault Refusal := .next (ackedPacket s p)
/-- READ_RESPONSE. -/
def execReadResponse (p : Packet) (s : State) : Host.Outcome State Fault Refusal := .next (responsePacket s p)
/-- WRITE_ACKNOWLEDGEMENT. -/
def execWriteAcknowledgement (p : Packet) (s : State) : Host.Outcome State Fault Refusal := .next (ackPacket s p)
/-- TRANSACTOR_MESSAGE. -/
def execTransactorMessage (p : Packet) (ch : Nat) (ws : List Word) (s : State) : Host.Outcome State Fault Refusal :=
  .next (messagePacket s p ch ws)
/-- INBOUND_RING_ENTRY. -/
def execInboundRingEntry (ch : Nat) (e : RingRead) (s : State) : Host.Outcome State Fault Refusal := .next (ringEntry s ch e)
/-- CAPTURE_BLOCK_PART. -/
def execCaptureBlockPart (p : Packet) (pos die part : Nat) (s : State) : Host.Outcome State Fault Refusal := .next (blockPart s p pos die part)
/-- CHURN_RESULT. -/
def execChurnResult (die : Nat) (s : State) : Host.Outcome State Fault Refusal := .next (churnResult s die)

end Sys2Proof.Machine
end

