-- ==== Sys2Proof/Machine/Relay.lean ====
section
/-! DEFINITION. Machine/Relay.lean: commands that come by their opcode, relayed or in a management datagram; relayed replies and events;
posting an event (R356, R358, R360, R362, R376 to R379). -/
namespace Sys2Proof.Machine

/-! ### Commands by opcode -/

/-- What an opcode checks of its parameters and what it does. -/
def opAction : Nat → (State → Cmd → Nat) × (State → Cmd → State × Res)
  | 0x0000 => (noCheck, actNegotiate)
  | 0x0001 => (noCheck, actIdentify)
  | 0x0002 => (chkRegRead, actRegRead)
  | 0x0003 => (chkRegWrite, actRegWrite)
  | 0x0004 => (chkRegModify, actRegModify)
  | 0x0005 => (chkSignature, actSignature)
  | 0x0006 => (chkReset, actReset)
  | 0x0007 => (chkPowerCap, actPowerCap)
  | 0x0008 => (noCheck, actEventMask)
  | 0x0100 => (noCheck, actImageStatus)
  | 0x0101 => (noCheck, actImageStage)
  | 0x0102 => (chkImageLoad, actImageLoad)
  | 0x0103 => (noCheck, actImageUnload)
  | 0x0104 => (noCheck, actImageReset)
  | 0x0105 => (noCheck, actImageDigest)
  | 0x0200 => (chkRunStart, actRunStart)
  | 0x0201 => (noCheck, actRunHalt)
  | 0x0202 => (chkRunResume, actRunResume)
  | 0x0203 => (noCheck, actRunStop)
  | 0x0204 => (noCheck, actRunStatus)
  | 0x0300 => (chkRows 480, actRead 0x0300)
  | 0x0301 => (chkRows 476, actRowWrite)
  | 0x0302 => (chkTiles 480, actRead 0x0302)
  | 0x0303 => (chkTiles 474, actTileWrite)
  | 0x0304 => (chkRegion 480, actRead 0x0304)
  | 0x0305 => (chkRegion 474, actRegionWrite)
  | 0x0306 => (noCheck, actDdrInfo)
  | 0x0307 => (chkRegionDma, actDmaRead)
  | 0x0308 => (chkRegionDma, actDmaWrite)
  | 0x0400 => (noCheck, actCapInfo)
  | 0x0401 => (noCheck, actCapArm)
  | 0x0402 => (noCheck, actCapTrigger)
  | 0x0403 => (noCheck, actCapStop)
  | 0x0404 => (chkCapRead, actCapRead)
  | 0x0500 => (noCheck, actChnInfo)
  | 0x0501 => (chkChnRing, actChnRing)
  | 0x0502 => (chkChnMem 240, actChnMemRead)
  | 0x0503 => (chkChnMem 237, actChnMemWrite)
  | 0x0600 => (noCheck, actCkpInfo)
  | 0x0601 => (noCheck, actCkpTake)
  | 0x0602 => (chkReplayStart, actReplayStart)
  | 0x0603 => (noCheck, actReplayStop)
  | 0x0604 => (noCheck, actCkpExport)
  | 0x0605 => (noCheck, actCkpImport)
  | 0x0700 => (chkChan, actChStatus)
  | 0x0701 => (chkChOpen, actChOpen)
  | 0x0702 => (chkChan, actChClose)
  | 0x0703 => (chkChan, actChFlush)
  | 0x0704 => (chkOutRing, actOutRing)
  | 0x0800 => (chkLink false, actLinkStatus)
  | 0x0801 => (chkLink true, actCounters)
  | 0x0802 => (chkLink false, actLinkTrain)
  | 0x0803 => (chkLoop, actLoop)
  | 0x0900 => (noCheck, actTimeGet)
  | 0x0901 => (chkTimeSet, actTimeSet)
  | 0x0902 => (chkPtp, actPtp)
  | 0x0903 => (chkPps, actPps)
  | 0x0A00 => (chkCert, actCert)
  | 0x0A01 => (noCheck, actAttest)
  | 0x0A02 => (chkSession, actSession)
  | 0x0A03 => (chkKeySlot, actKeySlot)
  | 0x0A04 => (chkAuthorise, actAuthorise)
  | 0x0B00 => (noCheck, actSvcStatus)
  | 0x0B01 => (noCheck, actServiceEnter)
  | 0x0B02 => (noCheck, actServiceExit)
  | 0x0B03 => (chkFwUpdate, actFwUpdate)
  | 0x0B04 => (chkTraceCtrl, actTraceCtrl)
  | 0x0B05 => (chkBankPower, actBankPower)
  | 0x0B06 => (chkMgmt, actMgmt)
  | 0x0B07 => (noCheck, actDiag)
  | 0x0C00 => (noCheck, actBaseLoad)
  | 0x0C01 => (chkPrLoad, actPrLoad)
  | 0x0C02 => (chkFabRegion, actFabStatus)
  | _ => (noCheck, fun s _ => (s, .refuse 0x0101))

/-- A command of an opcode that the packet gives. -/
def runOpcode (op : Nat) (c : Cmd) (s : State) : State :=
  let r := opAction op
  dropClosing (hostCmd op r.1 r.2 c s)

/-! ### Relay (R358) -/

/-- RELAYED_COMMAND: for this device, or one that crosses it, in BOOT too (R358, R426). -/
def relayedCommand (s : State) (op : Nat) (c : Cmd) : State :=
  match c.path with
  | .relay _ _ =>
    if cPos c == posOf s then runOpcode op c s
    else if inSafeHold s || !reaches s (cPos c) then s
    else { s with net := { s.net with
      relayOut := ((cPos c, op, c) :: s.net.relayOut).take 16, out := s.net.out ++ [vn3Packet s (cPos c) 0x38 (bytesWords (commandPacket op c))] } }
  | _ => s

/-- A relayed command by position and TAG. -/
def isRelayed (pos : Nat) (tag : BitVec 16) (acc : Bool) (r : Relayed) : Bool := r.pos == pos && r.tag == tag && r.accepted == acc

/-- Remove it. -/
def dropRelayed (s : State) (p : Relayed → Bool) : State := { s with io := { s.io with relayed := dropFirst p s.io.relayed } }

/-- RELAYED_REPLY: the device's reply, unchanged but for TAKEOVER where this device had a takeover meanwhile (R358, R365, log 68); after 0x0001 the
completion is still to come. -/
def relayedReply (s : State) (pos : Nat) (tag : BitVec 16) (status flags : Nat) (dcnLo : Word) (ws : List Word) : State :=
  let p := isRelayed pos tag false
  match if inSafeHold s || !(status == 1 || finalStatus status) then none else s.io.relayed.find? p with
  | none => s
  | some r =>
    let s := dropRelayed s p
    let s := if status == 1 then { s with io := { s.io with relayed := s.io.relayed ++ [{ r with accepted := true }] } } else s
    if r.quiet then s
    else sendReply s r.path { opcode := r.opcode, status := status, flags := flags ||| b2n r.tko, tag := tag, dcnLo := dcnLo, seq := r.seq, results := ws }

/-- Queue an event as it came. -/
def forwardEvent (s : State) (e : Event) : State := copyEvent { s with io := { s.io with queue := s.io.queue ++ [e] } } e

/-- EVENT of another device: the completion of a relayed command, or another event of it. A completion that nobody awaits has been
answered with 0x0504. -/
def peerEvent (s : State) (pos code status : Nat) (tag : BitVec 16) (dcnLo : Word) (x : EventData) : State :=
  let e : Event := { code := code, status := status, tag := tag, dcnLo := dcnLo, seq := x.seq, payload := x.words, len := x.len, foreign := true }
  let p := isRelayed pos tag true
  if !finalStatus status then s
  else if code != 1 then forwardEvent s e
  else match s.io.relayed.find? p with
    | some r => if r.quiet then dropRelayed s p else forwardEvent (dropRelayed s p) e
    | none => s

/-- RELAY_TIMEOUT: no reply within the bound, or the route is down (log 14). -/
def relayTimeout (s : State) (tag : BitVec 16) : State :=
  let p (r : Relayed) : Bool := r.tag == tag && (!r.accepted || !reaches s r.pos)
  match if inSafeHold s then none else s.io.relayed.find? p with
  | none => s
  | some r =>
    let s := dropRelayed s p
    if r.quiet then s
    else if r.accepted then queueEvent s 1 0x0504 tag []
    else sendReply s r.path { opcode := r.opcode, status := 0x0504, flags := 2 + b2n r.tko, tag := tag, dcnLo := dcnLo s, seq := r.seq, results := [] }

/-! ### Management datagrams (R376 to R378) -/

/-- The first exchange of a session: SESSION OP 0 outside any session, accepted without a MAC and before any agreement on a command set. -/
def firstExchange (s : State) (d : Datagram) : State :=
  let c := { d.cmd with path := .session d.session }
  let reply (s : State) (st : Nat) : State :=
    let n := Config.freeNat s.freeCtr
    let s := tickFree s
    { s with net := { s.net with mgmtOut := ((d.session, n, .inl (mkReply s 0x0A02 c st 0 []), Config.freeDigest n) :: s.net.mgmtOut).take 16 } }
  let st := firstBad [headerStatus 0x0A02 c, if cPos c == posOf s then statusOf s 0x0A02 chkSession c else 0x0105]
  if st != 0 then reply s st
  else match actSession s c with
    | (s', .ok ws) =>
      let id := nth 0 ws 0
      let s' := mapSession s' id (fun x => { x with ctrIn := d.counter, nextSeq := some (c.seq + 1) })
      sendReply s' (.session id) (mkReply s' 0x0A02 c 0 0 ws)
    | (s', .fail st) => reply s' st
    | (_, .refuse st) => reply s st
    | _ => s

/-- A command whose MAC and COUNTER are right: SEQ decides (R378). A new one that cannot be taken yet waits outside. -/
def sessionCommand (s : State) (x : Session) (d : Datagram) : State :=
  let c := { d.cmd with path := .session d.session }
  if seqBack x c == 0 && !canTake s c then s
  else runOpcode d.opcode c (mapSession s x.id (fun y => { y with ctrIn := d.counter }))

/-- MGMT_DATAGRAM. -/
def mgmtDatagram (s : State) (d : Datagram) : State :=
  if inSafeHold s then s
  else match s.sec.sessions.find? (fun x => x.id == d.session) with
    | none => if d.opcode == 0x0A02 && d.cmd.params.head? == some 0 then firstExchange s d else dropDatagram s 0x00C
    | some x =>
      if d.mac != datagramMac x.key d.session d.counter (commandPacket d.opcode d.cmd) then dropDatagram s 0x00C
      else if d.counter ≤ x.ctrIn then dropDatagram s 0x010
      else sessionCommand s x d

/-! ### Posting events (R360) -/

/-- The ring takes an entry now: rings enabled, room, no SAFE HOLD. -/
def ringTakes (s : State) : Bool := ringsOn s && eventRoom s && !inSafeHold s
/-- The ring takes an event of a code now: it takes an entry and the mask lets the code through. -/
def canPost (s : State) (code : Nat) : Bool := ringTakes s && !bitOf s.io.mask.toNat code

/-- EVENT_POST from a queue. A masked record of the error or hazard queue stays there (R219, R538); another masked event leaves its queue
and is not written (R370). -/
def eventPost (s : State) (q : EventQueue) : State :=
  match q with
  | .error => postError s
  | .hazard =>
    match s.haz.queue with
    | r :: rs => if canPost s 2 then writeEvent { s with haz := { s.haz with queue := rs } } (hazEvent r) else s
    | [] => s
  | .other =>
    match s.io.queue with
    | [] => s
    | e :: es =>
      if !ringTakes s then s
      else
        let s1 := { s with io := { s.io with queue := es } }
        if bitOf s.io.mask.toNat e.code then s1 else writeEvent s1 e

/-- RELAYED_COMMAND. -/
def execRelayedCommand (opcode : Nat) (c : Cmd) (s : State) : Host.Outcome State Fault Refusal := .next (relayedCommand s opcode c)
/-- RELAYED_REPLY. -/
def execRelayedReply (pos : Nat) (tag : BitVec 16) (status flags : Nat) (dcnLo : Word) (results : List Word) (s : State) :
    Host.Outcome State Fault Refusal := .next (relayedReply s pos tag status flags dcnLo results)
/-- EVENT. -/
def execEvent (pos code status : Nat) (tag : BitVec 16) (dcnLo : Word) (payload : EventData) (s : State) :
    Host.Outcome State Fault Refusal := .next (peerEvent s pos code status tag dcnLo payload)
/-- RELAY_TIMEOUT. -/
def execRelayTimeout (tag : BitVec 16) (s : State) : Host.Outcome State Fault Refusal := .next (relayTimeout s tag)
/-- MGMT_DATAGRAM. -/
def execMgmtDatagram (d : Datagram) (s : State) : Host.Outcome State Fault Refusal := .next (mgmtDatagram s d)
/-- EVENT_POST. -/
def execEventPost (q : EventQueue) (s : State) : Host.Outcome State Fault Refusal := .next (eventPost s q)

end Sys2Proof.Machine
end

