-- ==== Sys2Proof/Machine/FwControl.lean ====
section
/-! DEFINITION. Machine/FwControl.lean: firmware control packets between the devices of a board: the lead's orders and what the controllers tell
one another (R41, R142, R196, R210, R220, R243, R253, R292, R294, R306, R310, R420, R458, R563; log 10). -/
namespace Sys2Proof.Machine

/-! ### What the controllers tell one another -/

/-- A device of the board of which nothing is known yet. -/
def newPeer (pos : Nat) : Peer := {
  pos := pos, part := 0, mode := 0, dcn := 0, setId := 0, depth := 0, discipline := false, sigDigest := 0, ckpDcn := none, imported := false
  share := [], logEnd := 0, busy := false, stale := false, wrote := 0, named := [], topology := [], shorts := [], marked := [] }

/-- Change what is known of a position other than the device's own. -/
def mapPeer (s : State) (pos : Nat) (f : Peer → Peer) : State :=
  if pos == posOf s || 16 ≤ pos then s
  else if s.peers.any (fun p => p.pos == pos) then { s with peers := s.peers.map (fun p => if p.pos == pos then f p else p) }
  else { s with peers := s.peers ++ [f (newPeer pos)] }

/-- Marked steps of the board from this device's units and what the others told (R126). -/
def joinMarked (s : State) : State :=
  match s.img.resident with
  | none => s
  | some i => { s with seq := { s.seq with marked := List.foldl ins [] (ownMarked s i ++ s.peers.flatMap (·.marked)) } }

/-- A position that is gone holds CFG_DONE no more and is no part of the board that is known. -/
def dropPeer (s : State) (pos : Nat) : State :=
  joinMarked <| buildRoutes { s with peers := s.peers.filter (fun p => p.pos != pos), boot := { s.boot with wait := s.boot.wait.filter (fun p => p != pos) } }

/-- CFG_DONE of a position, as BOOT_WAIT of the lead shows it (R414). -/
def cfgHeld (s : State) (pos : Nat) (low : Bool) : State :=
  if isLead s then { s with boot := { s.boot with wait := if low then ins s.boot.wait pos else s.boot.wait.filter (fun p => p != pos) } } else s

/-- Board time for a follower with SRC 2. -/
def takeBoardTime (s : State) (tick sec ns frac : Nat) (incr : Word) : State :=
  if timeSrc s == 2 && !isLead s then { s with time := { s.time with board := some (tick, sec, ns, frac, incr) } } else s

/-! ### The lead's orders -/

/-- RUN_START, RUN_RESUME: the change on a device that is not the lead. -/
def orderedStart (s : State) (sub : Nat) (debug : Bool) (n : Nat) (ckp : Bool) : State :=
  if s.md.mode == .loaded && s.img.resident.isSome && s.ckp.recovery.isNone then startRun s (subOf sub) debug n ckp else s
def orderedResume (s : State) (sub n : Nat) (ckp : Bool) : State :=
  if isHalted s && s.ckp.recovery.isNone then resumeRun s (subOf sub) n ckp else s

/-- A halt or a run stop at an effective DCN. -/
def orderedHalt (s : State) (dcn : Nat) : State :=
  if inReplay s then fixStop s dcn .replayTarget else if s.md.mode == .run && !isHalted s then fixStop s dcn .halt else s
def orderedStop (s : State) (dcn : Nat) : State :=
  if isHalted s then stopHalted s else if s.md.mode == .run then fixStop s dcn .runStop else s

/-- A checkpoint at a DCN: with the boundary that this DCN ends, or at once where the board does not step (R290, R294). -/
def orderedCheckpoint (s : State) (dcn : Nat) (forced : Bool) : State :=
  let s := if forced then dropReq { s with ckp := { s.ckp with wantForced := false } } 7 0 else s
  if stepping s || s.ckp.recovery.isSome then
    { s with
      ckp := { s.ckp with forcedAt := if forced then some dcn else s.ckp.forcedAt }
      slu := { s.slu with agreed := s.slu.agreed ++ [(dcn, some .checkpoint)] } }
  else if s.img.resident.isSome then startCheckpoint s forced
  else s

/-- An arm: the lead's CAP_ registers, and the DCN (R240). -/
def orderedArm (s : State) (dcn : Option Nat) (ws : List Word) : State :=
  let s := ws.zipIdx.foldl (fun s w => setIo s 0x05 (4 * w.2) w.1.toNat) s
  match dcn with
  | some n => { s with cap := { s.cap with armAt := some (n - 1) } }
  | none => armNow s s.seq.dcn

/-- Orders that only a device other than the lead takes. -/
def follow (s : State) (f : State → State) : State := if isLead s then s else f s

/-! ### Requests to the lead -/

/-- The shortage that another device reports (R294). -/
def takeReport (s : State) : State :=
  if !isLead s || s.ckp.last.isNone || s.ckp.wantForced || s.ckp.busy.isSome || s.ckp.forcedAt.isSome then s
  else if stepping s then { s with ckp := { s.ckp with wantForced := true } }
  else startCheckpoint (sendFw s (.orderCheckpoint s.seq.dcn true)) true

/-- A halt that another device asks for (R220, R257); HALT_PENDING shows on the device that found the hazard alone (DESIGN CHOICE, log 64). -/
def takeHaltRequest (s : State) (dcn : Nat) : State :=
  if isLead s && stepping s then (stopAt s (max dcn (stopLow s)) (if inReplay s then .replayTarget else .halt)).1 else s

/-- A host trigger or stop that another device was given (R253). -/
def takeCascade (s : State) (stop : Bool) : State :=
  if isLead s && (if stop then capturing s else s.cap.mode == .armed) then hostCascade s stop else s

/-- Another device has completed a checkpoint (R292). -/
def peerDone (s : State) (pos dcn : Nat) : State :=
  match s.ckp.busy with
  | some c => if c.dcn == dcn then { s with ckp := { s.ckp with doneBy := ins s.ckp.doneBy pos } } else s
  | none => s

/-- Another device has built its part of the signature again: after the end of BOOT the board's live signature follows (R196). -/
def takePart (s : State) : State := if s.md.mode == .boot then s else { s with ctl := { s.ctl with sig := liveSig s } }

/-- FIRMWARE_CONTROL. A device in SAFE HOLD acts on none. -/
def firmwareControl (s : State) (m : FwMsg) : State :=
  if inSafeHold s then s
  else match m with
  | .boardTime tick sec ns frac incr => takeBoardTime s tick sec ns frac incr
  | .forcedReport _ => takeReport s
  | .peerStatus pos part mode dcn setId depth disc sig ckp imp share logEnd busy stale wrote named =>
    mapPeer s pos (fun p => { p with
      part := part, mode := mode, dcn := dcn, setId := setId, depth := depth, discipline := disc, sigDigest := sig, ckpDcn := ckp, imported := imp
      share := share, logEnd := logEnd, busy := busy, stale := stale, wrote := wrote, named := named })
  | .peerGone pos => dropPeer s pos
  | .holdRequest _ => if isLead s && stepping s then fixHold s none else s
  | .orderRunStart sub debug n ckp => follow s (fun s => orderedStart s sub debug n ckp)
  | .orderResume sub n ckp => follow s (fun s => orderedResume s sub n ckp)
  | .orderHalt dcn => follow s (fun s => orderedHalt s dcn)
  | .orderStop dcn => follow s (fun s => orderedStop s dcn)
  | .orderHold dcn => follow s (fun s => joinHold s dcn)
  | .orderCheckpoint dcn forced => follow s (fun s => orderedCheckpoint s dcn forced)
  | .orderArm dcn cap => follow s (fun s => orderedArm s dcn cap)
  | .orderReplay target debug _ => follow s (fun s => if s.md.mode == .loaded then startReplay s target debug else s)
  | .orderReplayStop dcn => follow s (fun s => if inReplay s then fixStop s dcn .replayStop else s)
  | .orderRecovery _ => if s.ckp.recovery.isSome then s else joinRecovery s
  | .ckpComplete pos dcn => peerDone s pos dcn
  | .haltRequest dcn => takeHaltRequest s dcn
  | .captureFrozen => follow s (fun s => if capturing s then setCapMode s .frozen else s)
  | .imageChanged _ => { s with slu := { s.slu with fresh := true } }
  | .cascadeRequest stop => takeCascade s stop
  | .cfgDoneHeld pos low => cfgHeld s pos low
  | .marked pos steps => joinMarked (mapPeer s pos (fun p => { p with marked := steps }))
  | .signaturePart pos part topology shorts => takePart <| buildRoutes (mapPeer s pos (fun p => { p with part := part, topology := topology, shorts := shorts }))

/-- FIRMWARE_CONTROL. -/
def execFirmwareControl (m : FwMsg) (s : State) : Host.Outcome State Fault Refusal := .next (firmwareControl s m)

end Sys2Proof.Machine
end

