-- ==== Sys2Proof/Machine/StepRows.lean ====
section
/-! DEFINITION. Machine/StepRows.lean: the meanings of the rows of stepping, the sluice, the cascade bus, capture ends,
checkpoints and recovery. Each is its operation of Machine/Steps.lean, Sluice.lean or Checkpoint.lean. -/
namespace Sys2Proof.Machine

/-- SCHEDULE_STEP (R50). -/
def execScheduleStep (e : StepEnv) (s : State) : Host.Outcome State Fault Refusal := .next (scheduleStep s e)
/-- CYCLE_BOUNDARY_STEP (R29). -/
def execCycleBoundaryStep (e : BoundEnv) (s : State) : Host.Outcome State Fault Refusal := .next (cycleBoundaryStep s e)
/-- CYCLE_END (R12). -/
def execCycleEnd (s : State) : Host.Outcome State Fault Refusal := .next (cycleEnd s)
/-- CHECKPOINT_COMPLETE (R292). -/
def execCheckpointComplete (s : State) : Host.Outcome State Fault Refusal := .next (unlessHeld s fun s => checkpointComplete s)
/-- PERIODIC_CHECKPOINT (R290). -/
def execPeriodicCheckpoint (s : State) : Host.Outcome State Fault Refusal := .next (periodicCheckpoint s)
/-- STEP_N_EXPIRY (R43). -/
def execStepNExpiry (s : State) : Host.Outcome State Fault Refusal := .next (stepNExpiry s)
/-- REPLAY_END (R308). -/
def execReplayEnd (s : State) : Host.Outcome State Fault Refusal := .next (replayEnd s)
/-- STALL_STEP (R131). -/
def execStallStep (s : State) : Host.Outcome State Fault Refusal := .next (stallStep s)
/-- SLUICE_SLOT_START (R135). -/
def execSluiceSlotStart (s : State) : Host.Outcome State Fault Refusal := .next (slotStart s)
/-- SLUICE_SAMPLE (R133). -/
def execSluiceSample (low : Bool) (s : State) : Host.Outcome State Fault Refusal := .next (sluiceSample s low)
/-- SLUICE_FREEZE (R134). -/
def execSluiceFreeze (s : State) : Host.Outcome State Fault Refusal := .next (sluiceFreeze s)
/-- SLUICE_REOPEN (R134). -/
def execSluiceReopen (s : State) : Host.Outcome State Fault Refusal := .next (sluiceReopen s)
/-- SLUICE_WATCHDOG (R140). -/
def execSluiceWatchdog (s : State) : Host.Outcome State Fault Refusal := .next (sluiceWatchdog s)
/-- CASCADE_SAMPLE (R249). -/
def execCascadeSample (low : BitVec 4) (s : State) : Host.Outcome State Fault Refusal := .next (cascadeSample s low)
/-- CASCADE_DELIVERY (R250). -/
def execCascadeDelivery (s : State) : Host.Outcome State Fault Refusal := .next (cascadeDelivery s)
/-- CAPTURE_END (R241). -/
def execCaptureEnd (s : State) : Host.Outcome State Fault Refusal := .next (unlessHeld s fun s => captureEnd s)
/-- CAP_AUTO_CYCLES (R246). -/
def execCapAutoCycles (s : State) : Host.Outcome State Fault Refusal := .next (capAutoCycles s)
/-- CAP_AUTO_TIME (R247). -/
def execCapAutoTime (s : State) : Host.Outcome State Fault Refusal := .next (capAutoTime s)
/-- RECOVERY_RESTORE (R310). -/
def execRecoveryRestore (s : State) : Host.Outcome State Fault Refusal := .next (recoveryRestore s)
/-- RECOVERY_END (R310). -/
def execRecoveryEnd (s : State) : Host.Outcome State Fault Refusal := .next (recoveryEnd s)
/-- PTP_SYNC of domain A (0) or B (R562). -/
def execPtpSync (dom : Nat) (offset : Int) (s : State) : Host.Outcome State Fault Refusal := .next (ptpSync s (dom != 0) offset)
/-- PTP_HOLDOVER of a domain (R562, R566). -/
def execPtpHoldover (dom : Nat) (s : State) : Host.Outcome State Fault Refusal := .next (ptpHoldover s (dom != 0))
/-- TIME_BOARD_SEND (R563). -/
def execTimeBoardSend (s : State) : Host.Outcome State Fault Refusal := .next (boardSend s)
/-- PPS_IN_EDGE (R567). -/
def execPpsInEdge (s : State) : Host.Outcome State Fault Refusal := .next (ppsIn s)
/-- PPS_OUT_PULSE (R567). -/
def execPpsOutPulse (s : State) : Host.Outcome State Fault Refusal := .next (ppsOut s)
/-- MESSAGE_STAGE (R328). -/
def execMessageStage (e : Nat) (s : State) : Host.Outcome State Fault Refusal := .next (stage s e)
/-- OUTBOUND_PACKET_WRITE (R338). -/
def execOutboundPacketWrite (ring : Nat) (s : State) : Host.Outcome State Fault Refusal := .next (unlessHeld s fun s => writePacket s ring)
/-- TIME_FOLLOWER_HOLDOVER (R563): no board time has come; a follower with SRC 2 is in holdover. -/
def execTimeFollowerHoldover (s : State) : Host.Outcome State Fault Refusal :=
  .next (if timeSrc s == 2 then { s with time := { s.time with holdover := true } } else s)

end Sys2Proof.Machine
end

