-- ==== Sys2Proof/Machine/Dispatch.lean ====
section
/-! DEFINITION. Machine/Dispatch.lean: one arm per command (R362, R370 and the table of operations). -/
namespace Sys2Proof.Machine

/-- The effect of a command. -/
def exec (i : Instr) (s : State) : Host.Outcome State Fault Refusal :=
  match i with
  | .negotiate c => Sys2Proof.Machine.execNegotiate c s
  | .identify c => Sys2Proof.Machine.execIdentify c s
  | .regRead c => Sys2Proof.Machine.execRegRead c s
  | .regWrite c => Sys2Proof.Machine.execRegWrite c s
  | .regModify c => Sys2Proof.Machine.execRegModify c s
  | .signatureGet c => Sys2Proof.Machine.execSignatureGet c s
  | .resetWarm c => Sys2Proof.Machine.execResetWarm c s
  | .resetDie c => Sys2Proof.Machine.execResetDie c s
  | .powerCap c => Sys2Proof.Machine.execPowerCap c s
  | .eventMask c => Sys2Proof.Machine.execEventMask c s
  | .imageStatus c => Sys2Proof.Machine.execImageStatus c s
  | .imageStage c => Sys2Proof.Machine.execImageStage c s
  | .imageLoad c => Sys2Proof.Machine.execImageLoad c s
  | .imageLoadComplete uncorrAt => Sys2Proof.Machine.execImageLoadComplete uncorrAt s
  | .imageUnload c => Sys2Proof.Machine.execImageUnload c s
  | .imageReset c => Sys2Proof.Machine.execImageReset c s
  | .imageResetComplete => Sys2Proof.Machine.execImageResetComplete s
  | .imageDigest c => Sys2Proof.Machine.execImageDigest c s
  | .runStart c => Sys2Proof.Machine.execRunStart c s
  | .runHalt c => Sys2Proof.Machine.execRunHalt c s
  | .runResume c => Sys2Proof.Machine.execRunResume c s
  | .runStop c => Sys2Proof.Machine.execRunStop c s
  | .runStatus c => Sys2Proof.Machine.execRunStatus c s
  | .rowRead c => Sys2Proof.Machine.execRowRead c s
  | .rowWrite c => Sys2Proof.Machine.execRowWrite c s
  | .tileRead c => Sys2Proof.Machine.execTileRead c s
  | .tileWrite c => Sys2Proof.Machine.execTileWrite c s
  | .regionRead c => Sys2Proof.Machine.execRegionRead c s
  | .regionWrite c => Sys2Proof.Machine.execRegionWrite c s
  | .ddrInfo c => Sys2Proof.Machine.execDdrInfo c s
  | .regionDmaRead c => Sys2Proof.Machine.execRegionDmaRead c s
  | .regionDmaWrite c => Sys2Proof.Machine.execRegionDmaWrite c s
  | .regionDmaComplete uncorr => Sys2Proof.Machine.execRegionDmaComplete uncorr s
  | .capInfo c => Sys2Proof.Machine.execCapInfo c s
  | .capArm c => Sys2Proof.Machine.execCapArm c s
  | .capTrigger c => Sys2Proof.Machine.execCapTrigger c s
  | .capStop c => Sys2Proof.Machine.execCapStop c s
  | .capRead c => Sys2Proof.Machine.execCapRead c s
  | .capReadComplete poisoned => Sys2Proof.Machine.execCapReadComplete poisoned s
  | .chnInfo c => Sys2Proof.Machine.execChnInfo c s
  | .chnRing c => Sys2Proof.Machine.execChnRing c s
  | .chnMemRead c => Sys2Proof.Machine.execChnMemRead c s
  | .chnMemWrite c => Sys2Proof.Machine.execChnMemWrite c s
  | .ckpInfo c => Sys2Proof.Machine.execCkpInfo c s
  | .ckpTake c => Sys2Proof.Machine.execCkpTake c s
  | .replayStart c => Sys2Proof.Machine.execReplayStart c s
  | .replayStop c => Sys2Proof.Machine.execReplayStop c s
  | .ckpExport c => Sys2Proof.Machine.execCkpExport c s
  | .ckpExportComplete => Sys2Proof.Machine.execCkpExportComplete s
  | .ckpImport c => Sys2Proof.Machine.execCkpImport c s
  | .ckpImportComplete => Sys2Proof.Machine.execCkpImportComplete s
  | .chStatus c => Sys2Proof.Machine.execChStatus c s
  | .chOpen c => Sys2Proof.Machine.execChOpen c s
  | .chClose c => Sys2Proof.Machine.execChClose c s
  | .chFlush c => Sys2Proof.Machine.execChFlush c s
  | .flushTakesEffect ch => Sys2Proof.Machine.execFlushTakesEffect ch s
  | .outRing c => Sys2Proof.Machine.execOutRing c s
  | .linkStatus c => Sys2Proof.Machine.execLinkStatus c s
  | .linkCounters c => Sys2Proof.Machine.execLinkCounters c s
  | .linkTrain c => Sys2Proof.Machine.execLinkTrain c s
  | .linkLoop c => Sys2Proof.Machine.execLinkLoop c s
  | .timeGet c => Sys2Proof.Machine.execTimeGet c s
  | .timeSet c => Sys2Proof.Machine.execTimeSet c s
  | .ptpConfig c => Sys2Proof.Machine.execPtpConfig c s
  | .ppsConfig c => Sys2Proof.Machine.execPpsConfig c s
  | .certGet c => Sys2Proof.Machine.execCertGet c s
  | .attest c => Sys2Proof.Machine.execAttest c s
  | .attestComplete => Sys2Proof.Machine.execAttestComplete s
  | .sessionOpen c => Sys2Proof.Machine.execSessionOpen c s
  | .sessionClose c => Sys2Proof.Machine.execSessionClose c s
  | .sessionSubscribe c => Sys2Proof.Machine.execSessionSubscribe c s
  | .keySlotInstall c => Sys2Proof.Machine.execKeySlotInstall c s
  | .keySlotLock c => Sys2Proof.Machine.execKeySlotLock c s
  | .keySlotRevoke c => Sys2Proof.Machine.execKeySlotRevoke c s
  | .keySlotReqSigned c => Sys2Proof.Machine.execKeySlotReqSigned c s
  | .authoriseChallenge c => Sys2Proof.Machine.execAuthoriseChallenge c s
  | .authorisePresent c => Sys2Proof.Machine.execAuthorisePresent c s
  | .svcStatus c => Sys2Proof.Machine.execSvcStatus c s
  | .serviceEnter c => Sys2Proof.Machine.execServiceEnter c s
  | .serviceExit c => Sys2Proof.Machine.execServiceExit c s
  | .fwUpdate c => Sys2Proof.Machine.execFwUpdate c s
  | .fwUpdateComplete ok => Sys2Proof.Machine.execFwUpdateComplete ok s
  | .traceCtrlHost c => Sys2Proof.Machine.execTraceCtrlHost c s
  | .traceCtrlRestart c => Sys2Proof.Machine.execTraceCtrlRestart c s
  | .bankPower c => Sys2Proof.Machine.execBankPower c s
  | .mgmtConfig c => Sys2Proof.Machine.execMgmtConfig c s
  | .diag c => Sys2Proof.Machine.execDiag c s
  | .baseLoad c => Sys2Proof.Machine.execBaseLoad c s
  | .baseLoadComplete => Sys2Proof.Machine.execBaseLoadComplete s
  | .prLoad c => Sys2Proof.Machine.execPrLoad c s
  | .prLoadComplete => Sys2Proof.Machine.execPrLoadComplete s
  | .fabStatus c => Sys2Proof.Machine.execFabStatus c s
  | .relayTimeout tag => Sys2Proof.Machine.execRelayTimeout tag s
  | .commandDoorbell prod => Sys2Proof.Machine.execCommandDoorbell prod s
  | .replyRingConsume cons => Sys2Proof.Machine.execReplyRingConsume cons s
  | .eventRingConsume cons => Sys2Proof.Machine.execEventRingConsume cons s
  | .eventPost q => Sys2Proof.Machine.execEventPost q s
  | .ringEnable w => Sys2Proof.Machine.execRingEnable w s
  | .ringDisable w => Sys2Proof.Machine.execRingDisable w s
  | .hsbDcnLoRead => Sys2Proof.Machine.execHsbDcnLoRead s
  | .bulkSelWrite w => Sys2Proof.Machine.execBulkSelWrite w s
  | .bulkWindowRead off uncorr => Sys2Proof.Machine.execBulkWindowRead off uncorr s
  | .bulkWindowWrite off w => Sys2Proof.Machine.execBulkWindowWrite off w s
  | .trxDoorbell ch prod => Sys2Proof.Machine.execTrxDoorbell ch prod s
  | .chnEnable die w => Sys2Proof.Machine.execChnEnable die w s
  | .chnDisable die w => Sys2Proof.Machine.execChnDisable die w s
  | .bootDeadlineWrite w => Sys2Proof.Machine.execBootDeadlineWrite w s
  | .utilMapWrite off w => Sys2Proof.Machine.execUtilMapWrite off w s
  | .utilIoWrite off w => Sys2Proof.Machine.execUtilIoWrite off w s
  | .fabIocfgWrite pin w => Sys2Proof.Machine.execFabIocfgWrite pin w s
  | .trcEnable w => Sys2Proof.Machine.execTrcEnable w s
  | .timePreferWrite w => Sys2Proof.Machine.execTimePreferWrite w s
  | .registerWrite a w => Sys2Proof.Machine.execRegisterWrite a w s
  | .coldReset st => Sys2Proof.Machine.execColdReset st s
  | .warmReset cause => Sys2Proof.Machine.execWarmReset cause s
  | .endpointReset => Sys2Proof.Machine.execEndpointReset s
  | .configurationReady => Sys2Proof.Machine.execConfigurationReady s
  | .bootDeadlineExpire => Sys2Proof.Machine.execBootDeadlineExpire s
  | .cfgDoneRelease => Sys2Proof.Machine.execCfgDoneRelease s
  | .cfgDoneReleasedByAll => Sys2Proof.Machine.execCfgDoneReleasedByAll s
  | .cfgDoneLow => Sys2Proof.Machine.execCfgDoneLow s
  | .epochPulse => Sys2Proof.Machine.execEpochPulse s
  | .tickEpoch => Sys2Proof.Machine.execTickEpoch s
  | .startupEnd => Sys2Proof.Machine.execStartupEnd s
  | .scheduleStep e => Sys2Proof.Machine.execScheduleStep e s
  | .cycleBoundaryStep e => Sys2Proof.Machine.execCycleBoundaryStep e s
  | .cycleEnd => Sys2Proof.Machine.execCycleEnd s
  | .plannedHoldWorkEnd w => Sys2Proof.Machine.execPlannedHoldWorkEnd w s
  | .checkpointComplete => Sys2Proof.Machine.execCheckpointComplete s
  | .periodicCheckpoint => Sys2Proof.Machine.execPeriodicCheckpoint s
  | .stepNExpiry => Sys2Proof.Machine.execStepNExpiry s
  | .replayEnd => Sys2Proof.Machine.execReplayEnd s
  | .stallStep => Sys2Proof.Machine.execStallStep s
  | .sluiceSlotStart => Sys2Proof.Machine.execSluiceSlotStart s
  | .sluiceSample low => Sys2Proof.Machine.execSluiceSample low s
  | .sluiceFreeze => Sys2Proof.Machine.execSluiceFreeze s
  | .sluiceReopen => Sys2Proof.Machine.execSluiceReopen s
  | .sluiceWatchdog => Sys2Proof.Machine.execSluiceWatchdog s
  | .cascadeSample low => Sys2Proof.Machine.execCascadeSample low s
  | .cascadeDelivery => Sys2Proof.Machine.execCascadeDelivery s
  | .captureEnd => Sys2Proof.Machine.execCaptureEnd s
  | .capAutoCycles => Sys2Proof.Machine.execCapAutoCycles s
  | .capAutoTime => Sys2Proof.Machine.execCapAutoTime s
  | .churnWindowClose die => Sys2Proof.Machine.execChurnWindowClose die s
  | .nop die => Sys2Proof.Machine.execNop die s
  | .halt die => Sys2Proof.Machine.execHalt die s
  | .ldi die ka imm => Sys2Proof.Machine.execLdi die ka imm s
  | .sethi die ka imm => Sys2Proof.Machine.execSethi die ka imm s
  | .add die ka kb kc => Sys2Proof.Machine.execAdd die ka kb kc s
  | .addi die ka kb imm => Sys2Proof.Machine.execAddi die ka kb imm s
  | .setp die kb p => Sys2Proof.Machine.execSetp die kb p s
  | .getp die ka p => Sys2Proof.Machine.execGetp die ka p s
  | .setsh die xsh zsh => Sys2Proof.Machine.execSetsh die xsh zsh s
  | .clra die => Sys2Proof.Machine.execClra die s
  | .mac die ystep => Sys2Proof.Machine.execMac die ystep s
  | .macs die ystep => Sys2Proof.Machine.execMacs die ystep s
  | .suma die => Sys2Proof.Machine.execSuma die s
  | .sta die mode => Sys2Proof.Machine.execSta die mode s
  | .ldz die => Sys2Proof.Machine.execLdz die s
  | .ldk die ka addr => Sys2Proof.Machine.execLdk die ka addr s
  | .stk die ka addr => Sys2Proof.Machine.execStk die ka addr s
  | .max die nm1 => Sys2Proof.Machine.execMax die nm1 s
  | .min die nm1 => Sys2Proof.Machine.execMin die nm1 s
  | .getm die ka sel => Sys2Proof.Machine.execGetm die ka sel s
  | .repeatN die nm1 => Sys2Proof.Machine.execRepeatN die nm1 s
  | .br die ka kb cond target => Sys2Proof.Machine.execBr die ka kb cond target s
  | .jmp die target => Sys2Proof.Machine.execJmp die target s
  | .out die nm1 => Sys2Proof.Machine.execOut die nm1 s
  | .getw die ka sel => Sys2Proof.Machine.execGetw die ka sel s
  | .ddrResponseArrival gc port w => Sys2Proof.Machine.execDdrResponseArrival gc port w s
  | .ddrResponseTimeout gc port => Sys2Proof.Machine.execDdrResponseTimeout gc port s
  | .instructionRepair => Sys2Proof.Machine.execInstructionRepair s
  | .groupFailure gc group => Sys2Proof.Machine.execGroupFailure gc group s
  | .recoveryRestore => Sys2Proof.Machine.execRecoveryRestore s
  | .recoveryEnd => Sys2Proof.Machine.execRecoveryEnd s
  | .dieSupplyLoss die => Sys2Proof.Machine.execDieSupplyLoss die s
  | .railLoss rail => Sys2Proof.Machine.execRailLoss rail s
  | .clockPathSwitch die => Sys2Proof.Machine.execClockPathSwitch die s
  | .takeover => Sys2Proof.Machine.execTakeover s
  | .standbyRestart => Sys2Proof.Machine.execStandbyRestart s
  | .safeHoldEntry => Sys2Proof.Machine.execSafeHoldEntry s
  | .dieControllerRestart die ok => Sys2Proof.Machine.execDieControllerRestart die ok s
  | .protocolEngineRestart e => Sys2Proof.Machine.execProtocolEngineRestart e s
  | .heartbeat b => Sys2Proof.Machine.execHeartbeat b s
  | .scrubWord f => Sys2Proof.Machine.execScrubWord f s
  | .bankTestRegion bank pass => Sys2Proof.Machine.execBankTestRegion bank pass s
  | .thermalSample t => Sys2Proof.Machine.execThermalSample t s
  | .packagePowerSample deciwatts => Sys2Proof.Machine.execPackagePowerSample deciwatts s
  | .boardLinkTraining die t => Sys2Proof.Machine.execBoardLinkTraining die t s
  | .boardLinkUnconnected die => Sys2Proof.Machine.execBoardLinkUnconnected die s
  | .weirTraining die code markers => Sys2Proof.Machine.execWeirTraining die code markers s
  | .boardFlitReceive die f => Sys2Proof.Machine.execBoardFlitReceive die f s
  | .nakReceived die ack nak => Sys2Proof.Machine.execNakReceived die ack nak s
  | .retryTimeout die ageNs => Sys2Proof.Machine.execRetryTimeout die ageNs s
  | .cycleMarkerReceive die code dcn16 tag => Sys2Proof.Machine.execCycleMarkerReceive die code dcn16 tag s
  | .linkMessage die loopOn => Sys2Proof.Machine.execLinkMessage die loopOn s
  | .boardLaneFail die lane tx lockLoss => Sys2Proof.Machine.execBoardLaneFail die lane tx lockLoss s
  | .boardLosLol die lol ok => Sys2Proof.Machine.execBoardLosLol die lol ok s
  | .boardIdleEntry die => Sys2Proof.Machine.execBoardIdleEntry die s
  | .boardIdleExit die ok => Sys2Proof.Machine.execBoardIdleExit die ok s
  | .boardPeerDieReset die => Sys2Proof.Machine.execBoardPeerDieReset die s
  | .ucieStartup m t => Sys2Proof.Machine.execUcieStartup m t s
  | .ucieParameterRecord m r => Sys2Proof.Machine.execUcieParameterRecord m r s
  | .ucieFlitCrcFail m r => Sys2Proof.Machine.execUcieFlitCrcFail m r s
  | .ucieLaneFail m lane tx => Sys2Proof.Machine.execUcieLaneFail m lane tx s
  | .spillwayRelease die => Sys2Proof.Machine.execSpillwayRelease die s
  | .accessoryAdmission => Sys2Proof.Machine.execAccessoryAdmission s
  | .admissionDescriptor d => Sys2Proof.Machine.execAdmissionDescriptor d s
  | .accessoryModuleLost => Sys2Proof.Machine.execAccessoryModuleLost s
  | .read p => Sys2Proof.Machine.execRead p s
  | .postedWrite p => Sys2Proof.Machine.execPostedWrite p s
  | .acknowledgedWrite p => Sys2Proof.Machine.execAcknowledgedWrite p s
  | .transactorMessage p ch ws => Sys2Proof.Machine.execTransactorMessage p ch ws s
  | .readResponse p => Sys2Proof.Machine.execReadResponse p s
  | .writeAcknowledgement p => Sys2Proof.Machine.execWriteAcknowledgement p s
  | .captureBlockPart p pos die part => Sys2Proof.Machine.execCaptureBlockPart p pos die part s
  | .traceRecord p source => Sys2Proof.Machine.execTraceRecord p source s
  | .relayedCommand opcode c => Sys2Proof.Machine.execRelayedCommand opcode c s
  | .relayedReply pos tag status flags dcnLo results => Sys2Proof.Machine.execRelayedReply pos tag status flags dcnLo results s
  | .event pos code status tag dcnLo payload => Sys2Proof.Machine.execEvent pos code status tag dcnLo payload s
  | .churnResult die => Sys2Proof.Machine.execChurnResult die s
  | .firmwareControl m => Sys2Proof.Machine.execFirmwareControl m s
  | .creditReturn unit vc n => Sys2Proof.Machine.execCreditReturn unit vc n s
  | .inboundRingEntry ch e => Sys2Proof.Machine.execInboundRingEntry ch e s
  | .messageStage eng => Sys2Proof.Machine.execMessageStage eng s
  | .outboundPacketWrite ring => Sys2Proof.Machine.execOutboundPacketWrite ring s
  | .mgmtDatagram d => Sys2Proof.Machine.execMgmtDatagram d s
  | .ptpSync dom offset => Sys2Proof.Machine.execPtpSync dom offset s
  | .ptpHoldover dom => Sys2Proof.Machine.execPtpHoldover dom s
  | .timeBoardSend => Sys2Proof.Machine.execTimeBoardSend s
  | .timeFollowerHoldover => Sys2Proof.Machine.execTimeFollowerHoldover s
  | .ppsInEdge => Sys2Proof.Machine.execPpsInEdge s
  | .ppsOutPulse => Sys2Proof.Machine.execPpsOutPulse s
  | .traceRuleFire x => Sys2Proof.Machine.execTraceRuleFire x s
  | .sourceClockGate source => Sys2Proof.Machine.execSourceClockGate source s
  | .sourceWake source => Sys2Proof.Machine.execSourceWake source s
  | .dieSupplyReturn die => Sys2Proof.Machine.execDieSupplyReturn die s
  | .ddr5Training channels twoDpc identical gb => Sys2Proof.Machine.execDdr5Training channels twoDpc identical gb s
  | .groupSelfTest failed => Sys2Proof.Machine.execGroupSelfTest failed s
  | .controllerRestartTimeout => Sys2Proof.Machine.execControllerRestartTimeout s
  | .antiRollbackFloorBurn => Sys2Proof.Machine.execAntiRollbackFloorBurn s
  | .logStagingBufferDrain bytes => Sys2Proof.Machine.execLogStagingBufferDrain bytes s
  | .ucieFlitReceive m die step drift => Sys2Proof.Machine.execUcieFlitReceive m die step drift s
  | .tmrToggle k => Sys2Proof.Machine.execTmrToggle k s
  | .diagComplete status results => Sys2Proof.Machine.execDiagComplete status results s

end Sys2Proof.Machine
end

