-- ==== Sys2Proof/Machine/Step.lean ====
section
/-! DEFINITION. Machine/Step.lean: one step of the block: the command at the front of the queue, or, with nothing waiting, what the
device's clock does (log 3). -/
namespace Sys2Proof.Machine

/-- With an empty queue a device that does not step passes one CTRL edge; one that steps stands still until its tick rows come. -/
def idleStep (s : State) : State := if stepping s then s else idleEdge s

/-- One step. -/
def step (s : State) : Host.Outcome State Fault Refusal :=
  match s.pending with
  | [] => .next (idleStep s)
  | c :: cs => exec c { s with pending := cs }

/-- The state with the command that a word spells at the front of the queue. The table gives no row any bits, so no word spells
one. -/
def State.withFetchWord (s : State) (nbits w : Nat) : State :=
  match decodeTableWord nbits w with
  | some c => { s with pending := c :: s.pending }
  | none => s

end Sys2Proof.Machine
end

