-- ==== Sys2Proof/Safety.lean ====
section
/-! DEFINITION. Safety.lean: what counts as a safe state and a safe run, and the conditions under which a command takes its effect, in
the terms that claims use. -/
namespace Sys2Proof.Machine

/-- The device can be reached by commands and its sluice can open: it is not in SAFE HOLD (R45). -/
def State.live (s : State) : Prop := s.md.safeHold = none

/-- A step from s neither stops with a fault nor is refused. -/
def State.advances (s : State) : Prop := ∃ t, step s = .next t

/-- The mode and sub-state are legal: sub-state and debug flag belong to RUN (R38). -/
def State.legalMode (s : State) : Prop := s.md.mode ≠ .run → s.md.sub = .free ∧ s.md.debug = false

/-- A command packet that the device takes from the command ring for itself, and that passes checks 1 to 6 of R362: its own opcode's
parameters (`chk`) and the modes of its line included; and that reaches no unit behind a spillway (R466). -/
def accepts (s : State) (op : Nat) (chk : State → Cmd → Nat) (c : Cmd) : Bool :=
  c.path == .pcie && canTake s c && headerStatus op c == 0 && negotiateStatus (takeEntry s c) op c == 0 && cPos c == posOf s
    && statusOf (takeEntry s c) op chk c == 0 && !behindSpillway (takeEntry s c) op c

/-- The same for a command of a management session. -/
def acceptsOn (s : State) (id : Word) (op : Nat) (chk : State → Cmd → Nat) (c : Cmd) : Bool :=
  c.path == .session id && canTake s c && headerStatus op c == 0 && negotiateStatus (takeEntry s c) op c == 0 && cPos c == posOf s
    && statusOf (takeEntry s c) op chk c == 0 && !behindSpillway (takeEntry s c) op c

/-- A command packet of the ring that passes checks 1 to 6 of R362, but reaches a unit behind a spillway (R466). -/
def isolates (s : State) (op : Nat) (chk : State → Cmd → Nat) (c : Cmd) : Bool :=
  c.path == .pcie && canTake s c && headerStatus op c == 0 && negotiateStatus (takeEntry s c) op c == 0 && cPos c == posOf s
    && statusOf (takeEntry s c) op chk c == 0 && behindSpillway (takeEntry s c) op c

/-- State t is e with the reply of a PCIe command written: it stands at the index of RPLR_PROD in the reply ring, RPLR_PROD counts it,
the write-back block and MSI-X may have changed with it (R356), and nothing else differs. -/
def replied (e : State) (op : Nat) (c : Cmd) (st : Nat) (ws : List Word) (t : State) : Prop :=
  lookup t.io.replies ((reg e (bkey 0x103C)).toNat % 2 ^ (reg e (bkey 0x1038)).toNat)
    = some { opcode := op, status := st, flags := 0, tag := c.tag, dcnLo := dcnLo e, seq := c.seq, results := ws }
  ∧ reg t (bkey 0x103C) = reg e (bkey 0x103C) + 1 ∧ (∀ k, k ≠ bkey 0x103C → reg t k = reg e k)
  ∧ t = { e with regs := t.regs, io := { e.io with replies := t.io.replies, wb := t.io.wb, sent := t.io.sent, pba := t.io.pba } }

/-- A command waits for its completion. -/
def nowWaiting (e : State) (op : Nat) (c : Cmd) : State := { e with io := { e.io with waiting := e.io.waiting ++ [waitingOf op c] } }

/-- The engine of die d is about to execute an instruction that takes `cost` engine cycles besides its fetch: it runs, the word at PC is
the instruction, the engine cycles have come (R266), the budget of R268 is not used up by it, and no word of its memories is poisoned (R513). -/
def engineReady (s : State) (d : Nat) (i : Instr) (cost : Nat) (c : ChurnDie) : Prop :=
  engineAt s d i cost = some c ∧ c.m.used + fetchCost c.m c.m.pc + cost < budget s c.m.wexp ∧ c.poison = []

/-- From s to t a single fault has gone into handling under a source code (R531, R532), where slots run and the device is not in SAFE HOLD:
a repair of the code stands in the line and requests the stall, for at most 20 µs from the request once it is first in line, or until
a row ends it; a code that is to be requested is counted. -/
def asksRepair (s t : State) (code : Nat) : Prop :=
  slotsRun s = true → s.md.safeHold = none →
    srcHeld t code = true ∧ s.err.repairs.length ≤ t.err.repairs.length
    ∧ ∃ r ∈ t.err.repairs, r.code = code ∧ ∀ n, r.left = some n → 1 ≤ n ∧ usTicks s (32 * (n + 8)) ≤ 20

/-- A register write reaches a site: the device is not in SAFE HOLD (R364), and no spillway stands before the site (R466). -/
def siteOpen (s : State) (d : Nat) : Prop := s.md.safeHold = none ∧ d ∉ s.net.spill

/-- An engine's machine after the fetch of an instruction of a cost: cycles, cache and PC (R277 to R279). -/
def afterFetch (m : ChurnMach) (cost : Nat) : ChurnMach :=
  { m with used := m.used + fetchCost m m.pc + cost, cache := cacheAfter m m.pc, pc := (m.pc + 1) % 4096 }

/-- A STEP tick executes schedule step t of an image: the sequencers stand at it, nothing stalls them, and no read or repair that the
sluice covers is outstanding for it (R85, R98, R180). -/
def stepReady (s : State) (i : Image) (t : Nat) : Prop :=
  s.img.resident = some i ∧ s.seq.tick = .step t ∧ canTick s (.step t) = true ∧ stepBlocked s t = false

end Sys2Proof.Machine
end

