-- ==== Sys2Proof/Certificates/Slice0/Obligations.lean ====
section
/-! DEFINITION. Certificates/Slice0/Obligations.lean: the statements for the provers. Each says which rules of spec/ it rests on in
OBLIGATIONS.json; a statement that rests on a choice of the model says so. -/
open Sys2Proof Sys2Proof.Machine

/-- For every command c and every state whose queue is c followed by cs, step answers what exec answers for c on the same state with
cs as its queue. With no command waiting, step answers a next state: the same state while the board steps, and otherwise the state
after one CTRL edge, in which the mode, the design data and the queue are unchanged. That an empty queue lets time pass is the
model's own choice (log 3). -/
def Obligations.StepTakesTheFrontOrIdles : Prop :=
  (∀ (c : Instr) (cs : List Instr) (s : State), s.pending = c :: cs → step s = exec c { s with pending := cs })
  ∧ (∀ s : State, s.pending = [] →
      (stepping s = true → step s = .next s)
      ∧ (stepping s = false → ∃ t, step s = .next t ∧ t.pending = [] ∧ t.md = s.md ∧ t.ds = s.ds ∧ t.ckp = s.ckp ∧ t.cap = s.cap))

/-- For every die and every churn instruction of that die, well-formed or not, Decode.encode gives a word and Decode.churn of that
word on that die gives the same instruction: no operand bit of any of the 25 encodings is dropped or moved. For a row that is no
churn instruction there is no word. -/
def Obligations.ChurnWordsDecodeToWhatTheyEncode : Prop :=
  ∀ i : Instr, match Decode.churnDie i with
    | some d => ∃ w, Decode.encode i = some w ∧ Decode.churn d w = some i
    | none => Decode.encode i = none

/-- For every die and word: when bits [31:26] are 0x19 or above, Decode.churn gives none; and whenever Decode.churn gives an
instruction, encoding that instruction gives the word back, so no two words decode to one instruction and no reserved bit is
ignored. -/
def Obligations.ReservedChurnWordsDecodeToNothing : Prop :=
  ∀ (d : Nat) (w : Word), (0x19 ≤ w.toNat >>> 26 → Decode.churn d w = none)
    ∧ ∀ i, Decode.churn d w = some i → Decode.encode i = some w ∧ Decode.churnDie i = some d

/-- For every state: CONFIGURATION_READY of a device that is not relay-booted and is not ready yet marks it ready, and sets PHASE 1 from
PHASE 0 (a base personality may have begun to come on another path before it); until then no access reaches the device over PCI
Express: no command ring packet is taken and BAR0 and BAR2 writes change nothing. CFG_DONE_RELEASED_BY_ALL of a device that has
released the line in PHASE 4 shows the line high, sets PHASE 5 and stops holding SLUICE_N; EPOCH_PULSE in PHASE 5 without an epoch is
noted; TICK_EPOCH after the pulse starts the tick count at 0, from where the weirs of the links that are up train anew: 1,024 timing
markers wait on each version 3 link. For every state in PHASE 3 with an accepted base personality, remap tables built, DDR5 READY,
every UCIe module trained, every board link settled and the accessory site's admission ended, CFG_DONE_RELEASE builds the live
signature, releases the line and sets PHASE 4; nothing else changes but what the device tells the others of its part. When any of
these does not hold the state is unchanged. That the signature is built as the line is released is the model's reading (log 14). -/
def Obligations.StartUpLinesAndCfgDone : Prop :=
  (∀ s : State,
      (s.straps.boot = false → s.boot.ready = false →
        exec .configurationReady s
          = .next { s with boot := { s.boot with ready := true, phase := if s.boot.phase = 0 then 1 else s.boot.phase } })
      ∧ (s.straps.boot = true ∨ s.boot.ready = false →
        (∀ c : Cmd, c.path = .pcie → canTake s c = false)
        ∧ (∀ (off : Nat) (w : Word), exec (.bulkWindowWrite off w) s = .next s ∧ exec (.ringEnable w) s = .next s)
        ∧ (∀ n, exec (.commandDoorbell n) s = .next s))
      ∧ (s.boot.released = true → s.boot.phase = 4 →
        exec .cfgDoneReleasedByAll s
          = .next { s with boot := { s.boot with line := true, phase := 5 }, slu := { s.slu with bootLow := false } })
      ∧ (s.boot.phase = 5 → s.seq.epoch = false → exec .epochPulse s = .next { s with boot := { s.boot with pulsed := true } })
      ∧ (s.boot.phase = 5 → s.boot.pulsed = true → s.seq.epoch = false →
        ∃ t, exec .tickEpoch s = .next t ∧ t.seq = { s.seq with epoch := true, ticks := 0, frac := 0, ctl := 0 }
          ∧ t = { s with seq := t.seq, bl := t.bl, phys := t.phys } ∧ t.bl.map (·.1) = s.bl.map (·.1)
          ∧ (∀ d b, linkOf s d = some b → ∃ u, linkOf t d = some u ∧ u = { b with timing := u.timing, tx := { b.tx with timing := u.tx.timing } }
            ∧ (d ∈ diesOf s → linkUp b = true → b.version = 3 → u.timing = [] ∧ u.tx.timing = 1024)
            ∧ (linkUp b = false → u = b)) ∧ (∀ e ∈ t.phys, e ∈ s.phys)))
  ∧ (∀ s : State,
      (s.boot.phase = 3 → s.boot.accepted = true → s.boot.remap = true → s.boot.ddr = true → modulesTrained s = true →
        linksSettled s = true → admissionEnded s = true →
        ∃ t, exec .cfgDoneRelease s = .next t ∧ t.boot = { s.boot with released := true, phase := 4 } ∧ t.ctl = { s.ctl with sig := liveSig s }
          ∧ t = { s with boot := t.boot, ctl := t.ctl, net := t.net })
      ∧ (s.boot.phase ≠ 3 ∨ s.boot.accepted = false ∨ s.boot.remap = false ∨ s.boot.ddr = false ∨ modulesTrained s = false
          ∨ linksSettled s = false ∨ admissionEnded s = false →
        exec .cfgDoneRelease s = .next s))

/-- For every state in PHASE 5 with an epoch, STARTUP_END answers a next state in STANDBY with PHASE 6 and no debug flag, at tick
65,536 or later, with the global set/reset released, the service and user pins enabled, and an event of code 4 with payload mode 1
and the DCN queued. Design data, image, checkpoint store, capture, transactors, security, DDR population and the queue of commands
are unchanged. For every state and word with MS in bits [15:0]: in PHASE 0 or 1, with MS from 100 to 60,000 and above
BOOT_ELAPSED, BOOT_DEADLINE_WRITE sets the register and nothing else; in any other phase or range it changes nothing. While the
deadline runs, BOOT_DEADLINE_EXPIRE, and a write of a value in range at or below BOOT_ELAPSED, give a next state in PHASE 7 with
CAUSE 0x01 and CFG_ERR_N asserted, and leave design data, mode, DDR5 and checkpoint state as they are. -/
def Obligations.StartUpEndsOrFails : Prop :=
  (∀ s : State, s.boot.phase = 5 → s.seq.epoch = true →
      ∃ t, exec .startupEnd s = .next t ∧ t.md.mode = .standby ∧ t.md.sub = .free ∧ t.md.debug = false ∧ t.boot.phase = 6
        ∧ 65536 ≤ t.seq.ticks ∧ t.fab.gsr = false ∧ t.util.serviceEn = true ∧ t.util.userEn = true
        ∧ (∃ e ∈ t.io.queue, e.code = 4 ∧ e.payload = 1 :: dwords s.seq.dcn)
        ∧ t.ds = s.ds ∧ t.img = s.img ∧ t.ckp = s.ckp ∧ t.cap = s.cap ∧ t.trx = s.trx ∧ t.ident = s.ident ∧ t.pending = s.pending
        ∧ t.md.safeHold = s.md.safeHold ∧ t.seq.dcn = s.seq.dcn ∧ t.slu = s.slu)
  ∧ (∀ (s : State) (w : Word),
      (s.boot.phase ≤ 1 → 100 ≤ w.toNat % 2 ^ 16 → w.toNat % 2 ^ 16 ≤ 60000 → bootElapsed s < w.toNat % 2 ^ 16 →
        exec (.bootDeadlineWrite w) s = .next (setIo s 0x10 0x040 (w.toNat % 2 ^ 16)))
      ∧ (1 < s.boot.phase ∨ w.toNat % 2 ^ 16 < 100 ∨ 60000 < w.toNat % 2 ^ 16 → exec (.bootDeadlineWrite w) s = .next s)
      ∧ (deadlineRuns s = true →
        ∃ t, exec .bootDeadlineExpire s = .next t ∧ t.boot.phase = 7 ∧ t.boot.cause = 1 ∧ t.boot.cfgErr = true ∧ t.boot.late = true
          ∧ t.ds = s.ds ∧ t.md = s.md ∧ t.img = s.img ∧ t.ckp = s.ckp ∧ t.regs = s.regs)
      ∧ (deadlineRuns s = true → s.boot.phase ≤ 1 → 100 ≤ w.toNat % 2 ^ 16 → w.toNat % 2 ^ 16 ≤ 60000 → w.toNat % 2 ^ 16 ≤ bootElapsed s →
        ∃ t, exec (.bootDeadlineWrite w) s = .next t ∧ t.boot.phase = 7 ∧ t.boot.cause = 1 ∧ t.boot.cfgErr = true
          ∧ t.ds = s.ds ∧ t.md = s.md ∧ t.img = s.img ∧ t.ckp = s.ckp))

/-- For every state: COLD_RESET gives the reset state of the part with the straps sampled: mode BOOT, PHASE 0, registers at reset
values, no image, no checkpoint, empty error queue, CFG_DONE and SLUICE_N held low. A warm reset, by CFG_DONE sampled low after it
was released and high (CAUSE 0x10), by RESET when due (0x11) or by PERST_N in BOOT or SAFE HOLD (0x12), goes to BOOT with that
CAUSE and no resident image, and keeps the regions, their poison, the last checkpoint, the log entries, the capture ring, a trace
that DDR5 or host memory holds, the straps, the error record queue, HSB_FAULT's classes and the power cap; faults that were still in
handling become records first, behind the others. SAFE HOLD ends. Identity, fuses and the waiting commands
are unchanged in every case. For every state of a device attached to PCIe that is neither in BOOT nor in SAFE HOLD, ENDPOINT_RESET
answers a next state in which RING_CTRL.EN is clear, no version is agreed, no MSI-X pending bit is set, every register outside the
rings, the bulk window and the MSI-X table keeps its value, the replies of commands that were relayed from the rings and are still
to come are no longer written, and everything but the registers and the host side of the state is unchanged: mode, design state,
stepping, sessions, error records. -/
def Obligations.ResetsKeepAndClear : Prop :=
  (∀ (s : State) (st : Straps),
      (∃ t, exec (.coldReset st) s = .next t ∧ t.md = State.reset.md ∧ t.seq = State.reset.seq ∧ t.slu = State.reset.slu
        ∧ t.boot = State.resetBoot ∧ t.straps = st ∧ t.regs = [] ∧ t.ds = State.resetDs ∧ t.img = State.resetImg ∧ t.ckp = State.resetCkp
        ∧ t.cap = State.resetCap ∧ t.err = State.reset.err ∧ t.time = State.resetTime ∧ t.ident = s.ident ∧ t.pending = s.pending)
      ∧ (∀ (i : Instr) (cause : Nat),
          (i = .warmReset 0x10 ∨ i = .cfgDoneLow) ∧ cause = 0x10 ∧ s.boot.released = true ∧ s.boot.line = true
            ∨ i = .warmReset 0x11 ∧ cause = 0x11 ∧ s.boot.resetDue = true
            ∨ i = .warmReset 0x12 ∧ cause = 0x12 ∧ s.straps.boot = false ∧ (s.md.mode = .boot ∨ s.md.safeHold.isSome = true) →
        ∃ t, exec i s = .next t ∧ t.md = State.reset.md ∧ t.seq = State.reset.seq ∧ t.slu = State.reset.slu
          ∧ t.boot = { State.resetBoot with cause := cause } ∧ t.straps = s.straps ∧ t.img.resident = none ∧ t.ds.regions = s.ds.regions
          ∧ t.ds.poison = s.ds.poison ∧ t.ckp.last = s.ckp.last ∧ t.ckp.log.entries = s.ckp.log.entries ∧ t.cap.ring = s.cap.ring
          ∧ (∃ rs, t.err.queue = s.err.queue ++ rs ∧ (s.err.pending = [] → s.err.repairs = [] → rs = [] ∧ t.err.seen = s.err.seen))
          ∧ (∀ x ∈ s.err.seen, x ∈ t.err.seen) ∧ t.err.pending = [] ∧ t.err.repairs = [] ∧ t.img.poison = s.img.poison
          ∧ t.trc.data = (if trcDest s = 0 then [] else s.trc.data) ∧ t.pwr.cap = s.pwr.cap ∧ t.time.sec = s.time.sec ∧ t.time.ns = s.time.ns
          ∧ t.ident = s.ident ∧ t.pending = s.pending))
  ∧ (∀ s : State, s.straps.boot = false → s.md.mode ≠ .boot → s.md.safeHold = none →
      ∃ t, exec .endpointReset s = .next t ∧ ringsOn t = false ∧ t.io.version = none ∧ t.io.pba = []
        ∧ (∀ k, endpointKey k = false → reg t k = reg s k) ∧ t = { s with regs := t.regs, io := t.io }
        ∧ t.io.relayed = s.io.relayed.map (fun r => if r.path == .pcie then { r with quiet := true } else r) ∧ t.io.mask = s.io.mask ∧ t.io.waiting.length = s.io.waiting.length)

/-- For every state in BOOT: while the remap tables are not built, GROUP_SELF_TEST with no die beyond repair holds the failed groups
of fuses, operation and test, keeps those of the test as failures of the part and marks the tables built, changing nothing else; with
a die beyond repair it is start-up failure 0x09, the failures kept too. While DDR5 is not READY, DDR5_TRAINING with all eight
channels trained on identical DIMMs marks it READY with the installed size, of which the design area is what the other areas leave
(R169; 4 GB less where none is set aside besides the firmware's); otherwise it is start-up failure 0x08. A start-up failure is PHASE 7
with CFG_ERR_N asserted. For every state and command: an accepted BASE_LOAD, before any other and with room among the 64 waiting
commands, keeps the personality that it brings, or one that no check passes where the data are of another kind, sets PHASE 2, waits
for completion and replies 0x0001; a second one, or one after a failure, is refused with 0x0202 and changes nothing of the start-up.
When the last byte has come in PHASE 2 of a device that is not in SAFE HOLD and the checks of R418 pass, BASE_LOAD_COMPLETE gives
PHASE 3, the personality accepted, HSB_FW its version, the regions that its frames name VALID, and no BASE_LOAD waiting. When a check
fails, as check 1 does for other data, the device is in PHASE 7 with CFG_ERR_N asserted and no frame written. -/
def Obligations.StartUpChecksAndBaseLoad : Prop :=
  (∀ (s : State) (found : List (Nat × Nat)) (ch gb : Nat) (two same : Bool), s.md.mode = .boot → s.boot.phase ≠ 7 →
      (s.boot.remap = false → (diesOf s).any (dieBeyond (failedMap (s.ident.badGroups ++ s.ident.worn ++ found))) = false →
        ∃ t, exec (.groupSelfTest found) s = .next t ∧ t.ds = { s.ds with failed := failedMap (s.ident.badGroups ++ s.ident.worn ++ found) }
          ∧ t.boot = { s.boot with remap := true } ∧ t = { s with ds := t.ds, boot := t.boot, ident := { s.ident with worn := t.ident.worn } }
          ∧ ∀ e, e ∈ t.ident.worn ↔ e ∈ s.ident.worn ∨ e ∈ found ∧ e.2 < 33)
      ∧ (s.boot.remap = false → (diesOf s).any (dieBeyond (failedMap (s.ident.badGroups ++ s.ident.worn ++ found))) = true →
        ∃ t, exec (.groupSelfTest found) s = .next t ∧ t.boot.phase = 7 ∧ t.boot.cause = 9 ∧ t.boot.cfgErr = true ∧ t.ds = s.ds
          ∧ ∀ e, e ∈ t.ident.worn ↔ e ∈ s.ident.worn ∨ e ∈ found ∧ e.2 < 33)
      ∧ (s.boot.ddr = false → ch % 256 = 255 → same = true →
        ∃ t, exec (.ddr5Training ch two same gb) s = .next t ∧ t.boot.ddr = true ∧ t.img.ddrGb = gb ∧ t.img.area = gb * 2 ^ 18 - cdiv (areaBase s 5) 4096
          ∧ (s.img.golden = 0 → s.img.cowGb = 0 → s.img.spillGb = 0 → s.img.logMb = 0 → t.img.area = (gb - 4) * 2 ^ 18) ∧ t.img.free = t.img.area ∧ bitOf (ioReg t 0x03 0x000) 9 = true
          ∧ t = { s with regs := t.regs, img := t.img, boot := t.boot } ∧ t.boot.phase = s.boot.phase)
      ∧ (s.boot.ddr = false → (ch % 256 ≠ 255 ∨ same = false) →
        ∃ t, exec (.ddr5Training ch two same gb) s = .next t ∧ t.boot.phase = 7 ∧ t.boot.cause = 8 ∧ t.boot.cfgErr = true
          ∧ t.boot.ddr = false))
  ∧ (∀ (s : State) (c : Cmd) (b : BasePersonality),
      (accepts s 0x0C00 noCheck c = true → s.boot.phase ≠ 7 → s.boot.base = none → s.io.waiting.length < 64 →
        ∃ t, exec (.baseLoad c) s = .next t ∧ (∃ p, t.boot = { s.boot with base := some p, phase := 2 } ∧ (c.data = .base b → p = b))
          ∧ t.io.waiting = s.io.waiting ++ [waitingOf 0x0C00 c] ∧ t = { s with boot := t.boot, io := t.io, regs := t.regs })
      ∧ (accepts s 0x0C00 noCheck c = true → (s.boot.phase = 7 ∨ s.boot.base.isSome = true) →
        ∃ t, exec (.baseLoad c) s = .next t ∧ replied (takeEntry s c) 0x0C00 c 0x0202 [] t)
      ∧ (s.boot.base = some noPersonality → s.boot.phase = 2 → s.md.safeHold = none →
        (firstWaiting s (fun w => w.opcode == 0x0C00)).isSome = true →
        ∃ t, exec .baseLoadComplete s = .next t ∧ t.boot.phase = 7 ∧ t.boot.cause = 2 ∧ t.boot.cfgErr = true)
      ∧ (∀ w, s.md.safeHold = none → s.boot.phase = 2 → s.boot.base = some b → firstWaiting s (fun w => w.opcode == 0x0C00) = some w →
        (packageCheck (privGap { s with boot := { s.boot with received := true, phase := 3 } }) b (cPar64 w.cmd 3) = 0 → framesOk b = true →
          ∃ t, exec .baseLoadComplete s = .next t ∧ t.boot = { s.boot with received := true, phase := 3, accepted := true }
            ∧ t.ctl.fw = b.fwVersion ∧ t.fab.regions = (namedRegions b.frames).foldl (fun m r => put m r .valid) s.fab.regions
            ∧ t.io.waiting.all (fun w => w.opcode != 0x0C00) = true ∧ t.ds = s.ds ∧ t.md = s.md)
        ∧ (packageCheck (privGap { s with boot := { s.boot with received := true, phase := 3 } }) b (cPar64 w.cmd 3) ≠ 0 ∨ framesOk b = false →
          ∃ t, exec .baseLoadComplete s = .next t ∧ t.boot.phase = 7 ∧ t.boot.cfgErr = true ∧ t.boot.accepted = s.boot.accepted
            ∧ t.fab = s.fab ∧ t.io.waiting.all (fun w => w.opcode != 0x0C00) = true)))

/-- For every state and accepted PCIe command: NEGOTIATE with a range that holds 1.0 agrees on 0x00010000 and returns it; with a range
that does not hold it the reply is 0x0601 and no version is agreed; IDENTIFY returns its words and the serial number;
SIGNATURE_GET returns the length of the live signature as it was built last, in bytes, its SM3 digest and up to 231 of its words
from P0 on; EVENT_MASK stores P0 and returns the old mask. Each ends in a next state that is the given state with the ring entry
consumed and the reply 0x0000 written, and nothing else changed but what is named. For every state and accepted PCIe command:
IMAGE_STATUS without a load returns 2 with a resident image, else 0, then 0, the SET_ID and the depth; while a load runs it
returns 1 and the number of a check that is at most the one the load comes to and never falls (log 31), then the SET_ID and the
depth; IMAGE_DIGEST of a device with a resident image and no load running returns SET_ID, BODY_DIGEST and SIG_DIGEST; IMAGE_STAGE
with no load running and room reserves the area of P0 bytes, frees an earlier one and returns the number of 256 MB windows.
Nothing else changes, but for the number of the check that a load has shown and the counter of free values. -/
def Obligations.DeviceAndImageQueries : Prop :=
  (∀ (s : State) (c : Cmd),
      (accepts s 0x0000 noCheck c = true → cPar c 0 ≤ 0x10000 → 0x10000 ≤ cPar c 1 →
        ∃ t, exec (.negotiate c) s = .next t ∧
          replied { takeEntry s c with io := { (takeEntry s c).io with version := some 0x10000 } } 0x0000 c 0 [0x10000] t)
      ∧ (accepts s 0x0000 noCheck c = true → (0x10000 < cPar c 0 ∨ cPar c 1 < 0x10000) →
        ∃ t, exec (.negotiate c) s = .next t ∧ t.io.version = s.io.version ∧ t = { s with regs := t.regs, io := t.io }
          ∧ ∃ r, lookup t.io.replies ((reg s (bkey 0x103C)).toNat % 2 ^ (reg s (bkey 0x1038)).toNat) = some r ∧ r.status = 0x0601
            ∧ r.tag = c.tag ∧ r.results = [])
      ∧ (accepts s 0x0001 noCheck c = true →
        ∃ t, exec (.identify c) s = .next t ∧ replied (takeEntry s c) 0x0001 c 0 (identWords s ++ dwords s.ident.serial.toNat ++ [0, 0]) t)
      ∧ (accepts s 0x0005 chkSignature c = true →
        ∃ t, exec (.signatureGet c) s = .next t ∧ replied (takeEntry s c) 0x0005 c 0
          (BitVec.ofNat 32 s.ctl.sig.length :: digestWords (sm3 s.ctl.sig) ++ ((bytesWords s.ctl.sig).drop (cPar c 0)).take 231) t)
      ∧ (accepts s 0x0008 noCheck c = true →
        ∃ t, exec (.eventMask c) s = .next t ∧ replied
          { takeEntry s c with io := { (takeEntry s c).io with mask := BitVec.ofNat 32 (cPar c 0) } } 0x0008 c 0 [s.io.mask] t))
  ∧ (∀ (s : State) (c : Cmd), let u := takeEntry s c
      (accepts s 0x0100 noCheck c = true → s.img.loading = none →
        ∃ t, exec (.imageStatus c) s = .next t ∧ replied u 0x0100 c 0
          ([BitVec.ofNat 32 (if s.img.resident.isSome then 2 else 0), 0]
            ++ dwords (match s.img.resident with | some i => i.hdr.setId.toNat | none => 0) ++ [BitVec.ofNat 32 (depthOf s)]) t)
      ∧ (∀ j, accepts s 0x0100 noCheck c = true → s.img.loading = some j →
        ∃ t n, exec (.imageStatus c) s = .next t ∧ n ≤ checkReached u j 14 1 ∧ (j.check ≤ checkReached u j 14 1 → j.check ≤ n)
          ∧ replied { u with freeCtr := u.freeCtr + 1, img := { u.img with loading := some { j with check := n } } } 0x0100 c 0
            ([1, BitVec.ofNat 32 n] ++ dwords (match s.img.resident with | some i => i.hdr.setId.toNat | none => 0)
              ++ [BitVec.ofNat 32 (depthOf s)]) t)
      ∧ (∀ i, accepts s 0x0105 noCheck c = true → s.img.resident = some i → s.img.loading = none →
        ∃ t, exec (.imageDigest c) s = .next t ∧ replied u 0x0105 c 0
          (dwords i.hdr.setId.toNat ++ digestWords i.hdr.bodyDigest ++ digestWords i.hdr.sigDigest) t)
      ∧ (accepts s 0x0101 noCheck c = true → s.img.loading = none → (s.md.mode = .loaded → cPar64 c 0 ≤ 4096 * s.img.free) →
        ∃ t, exec (.imageStage c) s = .next t ∧ replied
          { u with img := { u.img with stageBytes := some (cPar64 c 0), staged := [] } } 0x0101 c 0 [lo32 (cdiv (cPar64 c 0) (2 ^ 28))] t))

/-- For every state and accepted PCIe command with the register address (SITE, BLOCK, offset) in P0, u being the state with the entry
consumed: REG_READ returns the P1 values that reading them one after another gives, with the side effects of those reads;
REG_WRITE writes the P1 values from P2 on one after another; REG_MODIFY reads the register, writes it with the bits of mask P1
taken from P2, and returns the value read. A write to a CAP_ or TRG_ register while capture is neither IDLE nor FROZEN is answered
0x0206 and changes nothing beside the ring. A REG_READ, ROW_READ, TILE_READ, CHN_RING or LINK_STATUS that passes every check and
reaches a unit behind a spillway is answered 0x0501 and counted at the gateway, with no other effect. -/
def Obligations.RegisterCommandsReadAndWrite : Prop :=
  (∀ (s : State) (c : Cmd) (i : Instr) (op : Nat) (chk : State → Cmd → Nat),
      (i, op) = (.regRead c, 0x0002) ∧ chk = chkRegRead ∨ (i, op) = (.rowRead c, 0x0300) ∧ chk = chkRows 480
        ∨ (i, op) = (.tileRead c, 0x0302) ∧ chk = chkTiles 480 ∨ (i, op) = (.chnRing c, 0x0501) ∧ chk = chkChnRing
        ∨ (i, op) = (.linkStatus c, 0x0800) ∧ chk = chkLink false →
      isolates s op chk c = true → ∃ t, exec i s = .next t ∧ replied (countNoc (takeEntry s c) 0x00C) op c 0x0501 [] t)
  ∧ ∀ (s : State) (c : Cmd), let u := takeEntry s c; let site := (regAt c).1; let b := (regAt c).2.1; let off := (regAt c).2.2
    (accepts s 0x0002 chkRegRead c = true →
      ∃ t, exec (.regRead c) s = .next t ∧ replied (readRegs (cPar c 1) u site b off).1 0x0002 c 0 (readRegs (cPar c 1) u site b off).2 t)
    ∧ (accepts s 0x0003 chkRegWrite c = true → capBarred u b = false →
      ∃ t, exec (.regWrite c) s = .next t ∧ replied (writeRegs u site b off (cWords c 2 (cPar c 1))) 0x0003 c 0 [] t)
    ∧ (accepts s 0x0004 chkRegModify c = true → capBarred u b = false →
      ∃ t, exec (.regModify c) s = .next t ∧
        replied (writeReg (readReg u site b off).1 site b off
          (((readReg u site b off).2 &&& ~~~(BitVec.ofNat 32 (cPar c 1))) ||| (BitVec.ofNat 32 (cPar c 2) &&& BitVec.ofNat 32 (cPar c 1))))
          0x0004 c 0 [(readReg u site b off).2] t)
    ∧ (accepts s 0x0003 chkRegWrite c = true → (b = 5 ∨ b = 6) → s.cap.mode ≠ .idle → s.cap.mode ≠ .frozen →
      ∃ t, exec (.regWrite c) s = .next t ∧ t = { s with regs := t.regs, io := t.io } ∧ (∀ k, k < 2 ^ 32 → reg t k = reg s k)
        ∧ ∃ r, lookup t.io.replies ((reg s (bkey 0x103C)).toNat % 2 ^ (reg s (bkey 0x1038)).toNat) = some r ∧ r.status = 0x0206)

/-- For every state and accepted PCIe command: RESET with P0 = 0 replies 0x0000 and marks the warm reset as due; with P0 = 1 and room
among the waiting commands it replies 0x0001, waits, isolates the die SITE in the spillway, puts its UCIe modules and its board link
back to training, its registers but the trigger registers to their reset values, its fabric regions to UNCONFIGURED, and, outside a
recovery, raises the held request of code 13 of the recovery, which begins at once when the board does not step, with F the DCN
(what a die's reset leaves of its registers is the model's reading, log 51). POWER_CAP with P0 = 0 returns the cap and changes nothing; with 300 to 700 and no resident image that bars
it, it sets the cap and returns it, and changes nothing else. For every state and accepted PCIe command with no load or reset
running: IMAGE_UNLOAD gives STANDBY with no resident image, capture IDLE, no channel and DCN 0. IMAGE_RESET of a resident image
gives DCN 0, the image's initial rows and tiles and no checkpoint; without regions it replies 0x0000 and no reset runs; with
regions and room it replies 0x0001, the regions stand until IMAGE_RESET_COMPLETE, which gives them their initial contents, ends
the reset, and completes the command; mode and resident image stay. -/
def Obligations.ResetAndUnloadCommands : Prop :=
  (∀ (s : State) (c : Cmd), let u := takeEntry s c
      (accepts s 0x0006 chkReset c = true → cPar c 0 = 0 →
        ∃ t, exec (.resetWarm c) s = .next t ∧ replied { u with boot := { u.boot with resetDue := true } } 0x0006 c 0 [] t)
      ∧ (accepts s 0x0006 chkReset c = true → cPar c 0 = 1 → s.io.waiting.length < 64 → s.ckp.recovery = none →
        ∃ t, exec (.resetDie c) s = .next t ∧ cSite c ∈ t.net.spill ∧ (13, 0) ∈ t.slu.held
          ∧ (stepping s = false → ∃ r, t.ckp.recovery = some r ∧ r.f = s.seq.dcn ∧ r.stepping = false)
          ∧ (∀ e ∈ t.ucie, e.1 ∈ dieModules s (cSite c) → e.2.st = 2)
          ∧ (∀ b, linkOf s (cSite c) = some b → linkOf t (cSite c) = some { State.resetLink with st := 2 })
          ∧ (∀ k, dieRegister (cSite c) k = true → reg t k = regReset k)
          ∧ (∀ r, r < 32 → r / 4 = cSite c → lookup t.fab.regions r = none) ∧ (∃ w ∈ t.io.waiting, w.opcode = 0x0006 ∧ w.tag = c.tag) ∧ t.ds = s.ds ∧ t.md = s.md ∧ t.img = s.img ∧ t.seq = s.seq)
      ∧ (accepts s 0x0007 chkPowerCap c = true → cPar c 0 = 0 →
        ∃ t, exec (.powerCap c) s = .next t ∧ replied u 0x0007 c 0 [BitVec.ofNat 32 s.pwr.cap] t)
      ∧ (accepts s 0x0007 chkPowerCap c = true → cPar c 0 ≠ 0 →
          (∀ i, s.img.resident = some i → bitOf i.hdr.flags.toNat 0 = true ∨ powerFits s i.hdr.actQuota (cPar c 0) = true) →
        ∃ t, exec (.powerCap c) s = .next t ∧
          replied { u with pwr := { u.pwr with cap := cPar c 0 } } 0x0007 c 0 [BitVec.ofNat 32 (cPar c 0)] t))
  ∧ (∀ (s : State) (c : Cmd),
      (accepts s 0x0103 noCheck c = true → s.img.loading = none → s.img.resetting = false →
        ∃ t, exec (.imageUnload c) s = .next t ∧ t.md.mode = .standby ∧ t.img.resident = none ∧ t.cap.mode = .idle ∧ t.trx.chans = []
          ∧ t.seq.dcn = 0 ∧ t.ckp.last = s.ckp.last ∧ t.ident = s.ident)
      ∧ (∀ i, accepts s 0x0104 noCheck c = true → s.img.loading = none → s.img.resetting = false → s.img.resident = some i →
          s.io.waiting.length < 64 →
        ∃ t, exec (.imageReset c) s = .next t ∧ t.seq.dcn = 0 ∧ t.ds.rows = wrAll [] i.rows ∧ t.ds.tiles = wrAll [] i.tiles
          ∧ t.ckp.last = none ∧ t.md.mode = s.md.mode ∧ t.img = { s.img with resetting := !i.regions.isEmpty }
          ∧ (i.regions.isEmpty = false → t.ds.regions = s.ds.regions ∧ waitingOf 0x0104 c ∈ t.io.waiting))
      ∧ (∀ i, s.md.safeHold = none → s.img.resident = some i → s.img.resetting = true →
        ∃ t, exec .imageResetComplete s = .next t ∧ t.ds.regions = (initialData s i false).regions ∧ t.ds.poison = []
          ∧ t.img = { s.img with resetting := false } ∧ t.io.waiting.all (fun w => w.opcode != 0x0104) = true
          ∧ t.md = s.md ∧ t.seq = s.seq ∧ t.ds.rows = s.ds.rows))

/-- For every state and accepted IMAGE_LOAD with no load or reset running, in LOADED with room in the design area beside what staging
has reserved, and the staging area where it names one: the reply is 0x0001, the load runs with the image that the host gives and
the log and copy-on-write settings of that moment, and nothing else changes. When a load runs outside SAFE HOLD, IMAGE_LOAD_COMPLETE
answers a next state with no load running: with every check of R209 passed the image, decrypted where it is encrypted, is resident, the DCN is 0,
every channel of its map is listed, the rows and tiles hold its initial contents and a device in STANDBY is in LOADED; with a
check failed, resident image, mode, design data and capture are unchanged and no 0x0102 command waits. In SAFE HOLD the load does not
end: nothing changes, and so for an image reset. -/
def Obligations.ImageLoadTakesEffectAtItsEnd : Prop :=
  ∀ (s : State) (c : Cmd),
    (∀ i, accepts s 0x0102 chkImageLoad c = true → s.img.loading = none → s.img.resetting = false → s.io.waiting.length < 64 →
        c.data = .image i → (cPar c 0 = 1 → s.img.stageBytes.isSome = true) →
        (s.md.mode = .loaded → (if cPar c 0 = 0 then besideStaging s (cPar64 c 4) else cPar64 c 4) ≤ 4096 * s.img.free) →
      ∃ t, exec (.imageLoad c) s = .next t ∧ t.img = { s.img with
          loading := some {
            image := i, bytes := cPar64 c 4, slots := secSlots s, staged := cPar c 0 == 1
            logMb := logSetting s, cowGb := ioReg s 0x08 0x014, check := 0 } }
        ∧ t.io.waiting = s.io.waiting ++ [waitingOf 0x0102 c] ∧ t = { s with regs := t.regs, img := t.img, io := t.io })
    ∧ (∀ un, s.md.safeHold.isSome = true → exec (.imageLoadComplete un) s = .next s ∧ exec .imageResetComplete s = .next s)
    ∧ (∀ (j : LoadJob) (un : Option Nat), s.md.safeHold = none → s.img.loading = some j →
        runChecks s j (if j.spoiled then some (max 1 j.check) else un) 14 1 = none →
      ∃ t, exec (.imageLoadComplete un) s = .next t ∧ t.img.resident = some (decryptImage j.image) ∧ t.img.loading = none ∧ t.seq.dcn = 0
        ∧ t.ds.rows = wrAll [] j.image.rows ∧ t.ds.tiles = wrAll [] j.image.tiles
        ∧ (s.md.mode = .standby → t.md.mode = .loaded) ∧ (s.md.mode ≠ .standby → t.md.mode = s.md.mode)
        ∧ t.io.waiting.all (fun w => w.opcode != 0x0102) = true)
    ∧ (∀ (j : LoadJob) (un : Option Nat) (r : Nat × List Word), s.md.safeHold = none → s.img.loading = some j →
        runChecks s j (if j.spoiled then some (max 1 j.check) else un) 14 1 = some r →
      ∃ t, exec (.imageLoadComplete un) s = .next t ∧ t.img.resident = s.img.resident ∧ t.img.loading = none ∧ t.md = s.md
        ∧ t.ds = s.ds ∧ t.cap = s.cap ∧ t.ckp = s.ckp ∧ t.trx = s.trx ∧ t.seq = s.seq
        ∧ t.io.waiting.all (fun w => w.opcode != 0x0102) = true)

/-- For every state of a configuration-ready device outside SAFE HOLD and every word: COMMAND_DOORBELL, REPLY_RING_CONSUME and
EVENT_RING_CONSUME store CMDR_PROD, RPLR_CONS and EVTR_CONS; reading HSB_DCN_LO, which answers in SAFE HOLD too, answers DCN [31:0] and
latches DCN [63:32]; a BAR0 read of another size than one aligned dword aborts;
BULK_SEL_WRITE stores its fields; TRX_DOORBELL of a listed channel stores the producer index of its ring and of another one does
nothing. With EN clear, RING_ENABLE with legal settings sets EN and makes the six indices 0, and with illegal ones leaves EN clear
and sets ERR; with EN set, RING_DISABLE clears EN and the agreed version when no command of the rings is in progress, and
otherwise marks the rings as stopping, EN and the agreement staying until that command has its reply. Every other register, and
every other part of the state, is unchanged. In SAFE HOLD, and before the device is configuration-ready, none of these writes changes
anything, and before it no read either. -/
def Obligations.RingRegistersOfTheEndpoint : Prop :=
  (∀ (s : State) (w : Word), hostOpen s = false →
    (∀ i ∈ [Instr.commandDoorbell w, .replyRingConsume w, .eventRingConsume w, .bulkSelWrite w, .ringEnable w, .ringDisable w],
      exec i s = .next s)
    ∧ (∀ n, exec (.trxDoorbell n w) s = .next s) ∧ (pcieOpen s = false → exec .hsbDcnLoRead s = .next s))
  ∧ (∀ s : State, pcieOpen s = true →
    exec .hsbDcnLoRead s = .next (setReg { s with io := { s.io with bar0 := some (dcnLo s) } } (bkey 0x014) (hi32 s.seq.dcn)))
  ∧ ∀ (s : State) (w : Word), hostOpen s = true →
    exec (.commandDoorbell w) s = .next (setReg s (bkey 0x101C) w)
    ∧ exec (.replyRingConsume w) s = .next (setReg s (bkey 0x1040) w)
    ∧ exec (.eventRingConsume w) s = .next (setReg s (bkey 0x1060) w)
    ∧ (∀ off n, bar0Read s off n = (if n = 4 ∧ off % 4 = 0 then some (bar0Value s off) else none))
    ∧ exec (.bulkSelWrite w) s = .next (setReg s (bkey 0x1080) (w &&& 0x3FFF01))
    ∧ (∀ n ch, chanOf s n = some ch →
      exec (.trxDoorbell n w) s = .next (setChan s n { ch with ring := { ch.ring with prod := w.toNat } }))
    ∧ (∀ n, chanOf s n = none → exec (.trxDoorbell n w) s = .next s)
    ∧ (ringsOn s = false → ringsOk s = true →
      ∃ t, exec (.ringEnable w) s = .next t ∧ ringsOn t = true ∧ (∀ o ∈ [0x101C, 0x1020, 0x103C, 0x1040, 0x105C, 0x1060], reg t (bkey o) = 0)
        ∧ (∀ k, k ∉ [0x1000, 0x101C, 0x1020, 0x103C, 0x1040, 0x105C, 0x1060].map bkey → reg t k = reg s k) ∧ t = { s with regs := t.regs })
    ∧ (ringsOn s = false → ringsOk s = false →
      ∃ t, exec (.ringEnable w) s = .next t ∧ ringsOn t = false ∧ bitOf (reg t (bkey 0x1000)).toNat 1 = true
        ∧ (∀ k, k ≠ bkey 0x1000 → reg t k = reg s k) ∧ t = { s with regs := t.regs })
    ∧ (ringsOn s = true → ringBusy s = false →
      ∃ t, exec (.ringDisable w) s = .next t ∧ ringsOn t = false ∧ (∀ k, k ≠ bkey 0x1000 → reg t k = reg s k)
        ∧ t = { s with regs := t.regs, io := { s.io with version := none, stopping := false } })
    ∧ (ringsOn s = true → ringBusy s = true →
      ∃ t, exec (.ringDisable w) s = .next t ∧ ringsOn t = true ∧ (∀ k, k ≠ bkey 0x1000 → reg t k = reg s k)
        ∧ t = { s with regs := t.regs, io := { s.io with stopping := true } })

/-- For every state of a configuration-ready device outside SAFE HOLD and every offset, a being the byte address that BULK_SEL's window
and the offset name: below BULK_LIMIT, a write to the staging area stores that word and nothing else, and a read of it whose DDR5 word
comes intact answers that word; a read of a selected design region that is not barred by stepping or an image reset answers its two
halves where the DDR5 word behind them holds no poison and its syndrome is none or a single bit, and Completer Abort else (R511,
R514), the mode unchanged, and an intact word changing nothing; a write to such a region within its 32-bit word addresses stores the
two halves at region words a/2 and a/2 + 1 and leaves every other region word; a read at or beyond BULK_LIMIT, or of a barred region,
answers Completer Abort, and such a write changes no memory and counts in MEM_BULK_REFUSED. In SAFE HOLD a read answers Completer
Abort and a write changes nothing; before the device is configuration-ready neither changes anything. -/
def Obligations.BulkWindowReadsAndWrites : Prop :=
  (∀ (s : State) (off : Nat) (w : Word) (v : DdrWordFound),
    (hostOpen s = false → exec (.bulkWindowWrite off w) s = .next s)
    ∧ (pcieOpen s = false → exec (.bulkWindowRead off v) s = .next s)
    ∧ (pcieOpen s = true → s.md.safeHold.isSome = true → exec (.bulkWindowRead off v) s = .next { s with io := { s.io with bar2 := none } }))
  ∧ ∀ (s : State) (off : Nat) (w : Word), hostOpen s = true → let a := 2 ^ 28 * fld (bulkSel s) 21 16 + off / 4 * 4
    (off + 4 ≤ bulkLimit s → bitOf (bulkSel s) 0 = false →
      exec (.bulkWindowRead off ⟨0, 0⟩) s
        = .next { s with freeCtr := s.freeCtr + 1, io := { s.io with bar2 := some (rd s.img.staged (a / 4)) } }
      ∧ ∃ t, exec (.bulkWindowWrite off w) s = .next t ∧ (∀ x, rd t.img.staged x = if x = a / 4 then w else rd s.img.staged x)
        ∧ t = { s with img := { s.img with staged := t.img.staged } })
    ∧ (∀ v : DdrWordFound, off + 4 ≤ bulkLimit s → bitOf (bulkSel s) 0 = true → modeSteps s = false → s.img.resetting = false →
      let key := 2 ^ 32 * fld (bulkSel s) 15 8 + a / 2
      let found := ddrOutcome (ddrSyndrome (ddrWordAddr s key) v.synd v.wrong)
      ∃ t, exec (.bulkWindowRead off v) s = .next t ∧ t.md = s.md
        ∧ t.io.bar2 = (if key / 4 ∉ s.ds.poison ∧ (found = .good ∨ found = .corrected) then
            some (BitVec.ofNat 32 ((rd s.ds.regions key).toNat + 65536 * (rd s.ds.regions (key + 1)).toNat)) else none)
        ∧ (key / 4 ∉ s.ds.poison → found = .good → t = { s with io := t.io })
        ∧ (found ≠ .uncorrectable → found ≠ .poisoned → t.ds = s.ds))
    ∧ (off + 4 ≤ bulkLimit s → bitOf (bulkSel s) 0 = true → stepping s = false → s.img.resetting = false →
        a / 2 + 1 < 2 ^ 32 →
      ∃ t, exec (.bulkWindowWrite off w) s = .next t
        ∧ (∀ x, rd t.ds.regions x =
            if x = 2 ^ 32 * fld (bulkSel s) 15 8 + a / 2 then BitVec.ofNat 16 w.toNat
            else if x = 2 ^ 32 * fld (bulkSel s) 15 8 + a / 2 + 1 then BitVec.ofNat 16 (w.toNat >>> 16) else rd s.ds.regions x)
        ∧ t.ds.rows = s.ds.rows ∧ t.ds.tiles = s.ds.tiles ∧ t.img = s.img ∧ t.md = s.md ∧ t.regs = s.regs ∧ t.io = s.io)
    ∧ (bulkLimit s < off + 4 ∨ bulkBarred s = true →
      (∀ b, exec (.bulkWindowRead off b) s = .next { s with io := { s.io with bar2 := none } })
      ∧ exec (.bulkWindowWrite off w) s = .next (bumpIo s 0x03 0x020 16 1))

/-- For every state and word, each of these register writes answers a next state: an address that names no register, a BAR0 access
that is no naturally aligned dword, a CAP_ or TRG_ register outside IDLE and FROZEN, a read-only BAR0 register of the status block
and a ring setting while EN is set change nothing; FLT_CTRL keeps bit 0, TRX_TRACE_CTRL bits [11:0]; a scrubber's rate register
takes the word limited to the range of its class, the scan's backlog being noted; MSI-X vector control keeps bit 0 when the vector
is not pending. In SAFE HOLD no write of a register changes anything, and a write toward a site behind a spillway is absorbed and
counted, its register unchanged. -/
def Obligations.RegisterWritesKeepTheirRules : Prop :=
  (∀ (s : State) (w : Word) (a : RegAddr), s.md.safeHold.isSome = true → exec (.registerWrite a w) s = .next s)
  ∧ (∀ (s : State) (w a : Word), s.md.safeHold = none → wfld a 31 28 ∈ s.net.spill → regCheck s a 1 = 0 →
      capBarred s (wfld a 27 20) = false → exec (.registerWrite (.block a) w) s = .next (countNoc s 0x010))
  ∧ ∀ (s : State) (w : Word),
    (∀ a, regCheck s a 1 ≠ 0 ∨ capBarred s (wfld a 27 20) = true → exec (.registerWrite (.block a) w) s = .next s)
    ∧ (∀ off n, n ≠ 4 ∨ off % 4 ≠ 0 → exec (.registerWrite (.bar0 off n) w) s = .next s)
    ∧ (∀ off, off < 0x1000 → exec (.registerWrite (.bar0 off 4) w) s = .next s)
    ∧ (∀ off ∈ [0x1004, 0x1008, 0x1010, 0x1014, 0x1018, 0x1030, 0x1034, 0x1038, 0x1050, 0x1054, 0x1058], ringsOn s = true →
        exec (.registerWrite (.bar0 off 4) w) s = .next s)
    ∧ (siteOpen s 15 → exec (.registerWrite (.block 0xF140000C) w) s = .next (setReg s (rkey 15 0x14 0x00C) (BitVec.ofNat 32 (w.toNat % 2))))
    ∧ (siteOpen s 15 → exec (.registerWrite (.block 0xF0900010) w) s = .next (setReg s (rkey 15 0x09 0x010) (BitVec.ofNat 32 (w.toNat % 2 ^ 12))))
    ∧ (∀ c, siteOpen s 15 → 5 ≤ c → c ≤ 8 →
        exec (.registerWrite (.block (BitVec.ofNat 32 (0xF1300100 + 32 * c))) w) s
          = .next (setReg { s with err := { s.err with scrub := put s.err.scrub (240 + c) (s.seq.ticks, scrubOwed s 15 c) } }
            (rkey 15 0x13 (0x100 + 32 * c))
            (BitVec.ofNat 32 (max (scrubRate c).2.1 (min (scrubRate c).2.2 w.toNat)))))
    ∧ (∀ v, hostOpen s = true → v < 64 → v ∉ s.io.pba →
        exec (.registerWrite (.bar0 (0x8000 + 16 * v + 12) 4) w) s = .next (setReg s (bkey (0x8000 + 16 * v + 12)) (w &&& 1)))

/-- For every state outside SAFE HOLD, present die without a spillway before it and word, EXP being WIN_EXP as written where it is at most 24 and else as it was: CHN_ENABLE of a
disabled engine whose window gives at least 4,096 cycles enables the engine at the DCN when the board does not step, and else
leaves the write pending for the end of B15; with fewer cycles it enables nothing and sets CHN_STATUS bit 5. CHN_ENABLE of an
enabled engine changes nothing. CHN_DISABLE of an enabled engine disables it at once when not stepping, and else is pending. Every
other die's engine, design data, mode and memory are unchanged. For every state and word: UTIL_IO_WRITE of group b changes the
stored bits that the mask names and no other; UTIL_MAP_WRITE of a signal stores the map word and puts the pin that the signal
leaves and the pin it takes, when they differ, into HOLD; FAB_IOCFG_WRITE of a pin stores delays, pull and CLKSEL, and MODE and
DDR only without a resident image, and only of a pin that is then MODE 3 may its pad be held; TRC_ENABLE while EN is clear sets EN, state
0, ON 0 and empties the loss and sequence counts, and while EN is set changes nothing; TIME_PREFER_WRITE stores TIME_CTRL [3:0]
and, where PREFER changes, selects that domain. In SAFE HOLD none of them changes anything; the write of an engine behind a spillway is
absorbed and counted. -/
def Obligations.ControlRegisterWrites : Prop :=
  (∀ (s : State) (w : Word), s.md.safeHold.isSome = true →
      (∀ d, exec (.chnEnable d w) s = .next s ∧ exec (.chnDisable d w) s = .next s)
      ∧ (∀ x, exec (.utilIoWrite x w) s = .next s ∧ exec (.utilMapWrite x w) s = .next s ∧ exec (.fabIocfgWrite x w) s = .next s)
      ∧ exec (.trcEnable w) s = .next s ∧ exec (.timePreferWrite w) s = .next s)
  ∧ (∀ (s : State) (d : Nat) (w : Word), d < nDies s → s.md.safeHold = none → d ∈ s.net.spill →
      exec (.chnEnable d w) s = .next (countNoc s 0x010) ∧ exec (.chnDisable d w) s = .next (countNoc s 0x010))
  ∧ (∀ (s : State) (d : Nat) (w : Word), d < nDies s → siteOpen s d →
      let c := engineOf s d; let x := if wfld w 5 1 ≤ 24 then wfld w 5 1 else chnWexp c
      (chnEn c = false → 4096 ≤ availCycles s x → stepping s = false →
        exec (.chnEnable d w) s = .next (setChn s d (enableEngine c x s.seq.dcn)))
      ∧ (chnEn c = false → 4096 ≤ availCycles s x → stepping s = true →
        exec (.chnEnable d w) s = .next (setChn s d { c with pend := some (true, x) }))
      ∧ (chnEn c = false → availCycles s x < 4096 →
        ∃ t, exec (.chnEnable d w) s = .next t ∧ chnEn (engineOf t d) = false ∧ bitOf (reg t (rkey d 0x07 0x004)).toNat 5 = true
          ∧ (∀ o, o ≠ d → chnOf t o = chnOf s o) ∧ t.ds = s.ds ∧ t.md = s.md)
      ∧ (chnEn c = true → exec (.chnEnable d w) s = .next s)
      ∧ (chnEn c = true → stepping s = false → exec (.chnDisable d w) s = .next (setChn s d (disableEngine c c.m.wexp)))
      ∧ (chnEn c = true → stepping s = true → exec (.chnDisable d w) s = .next (setChn s d { c with pend := some (false, chnWexp c) })))
  ∧ (∀ (s : State) (w : Word), siteOpen s 15 →
      (∀ b, b < 3 → ∃ t, exec (.utilIoWrite (0x010 + 4 * b) w) s = .next t ∧ t = { s with regs := t.regs }
        ∧ (∀ i, i < 16 → bitOf (utReg t (0x020 + 4 * b)) i = if bitOf w.toNat (16 + i) then bitOf w.toNat i else bitOf (utReg s (0x020 + 4 * b)) i)
        ∧ ∀ k, k ≠ rkey 15 0x18 (0x020 + 4 * b) → reg t k = reg s k)
      ∧ (∀ n, n < 256 → sigKind n ≠ 0 → ∃ t, exec (.utilMapWrite (0x400 + 4 * n) w) s = .next t
        ∧ utReg t (0x400 + 4 * n) = w.toNat % 128 ∧ (∀ k, k ≠ rkey 15 0x18 (0x400 + 4 * n) → reg t k = reg s k)
        ∧ (sigPin s n ≠ sigPin t n → ∀ p, sigPin s n = some p ∨ sigPin t n = some p → (pinHold t p).isSome = true)
        ∧ t = { s with regs := t.regs, util := { s.util with holds := t.util.holds } })
      ∧ (∀ p, p < 192 → ∃ t, exec (.fabIocfgWrite p w) s = .next t
        ∧ t = { s with regs := t.regs, fab := { s.fab with logic := { s.fab.logic with holds := t.fab.logic.holds } } }
        ∧ (pinMode t p ≠ 3 → t.fab = s.fab)
        ∧ ioReg t 0x10 (0x100 + 4 * p) / 8 = w.toNat % 2 ^ 23 / 8
        ∧ ioReg t 0x10 (0x100 + 4 * p) % 8 = (if s.img.resident.isSome then ioReg s 0x10 (0x100 + 4 * p) % 8 else w.toNat % 8)
        ∧ ∀ k, k ≠ rkey 15 0x10 (0x100 + 4 * p) → reg t k = reg s k)
      ∧ (bitOf (trcCtrl s) 0 = false → ∃ t, exec (.trcEnable w) s = .next t ∧ bitOf (trcCtrl t) 0 = true ∧ t.trc.st = 0 ∧ t.trc.on = false
        ∧ t.trc.seqs = [] ∧ t.trc.lost = [] ∧ t.trc.data = s.trc.data ∧ t = { s with regs := t.regs, trc := t.trc })
      ∧ (bitOf (trcCtrl s) 0 = true → exec (.trcEnable w) s = .next s)
      ∧ (∃ t, exec (.timePreferWrite w) s = .next t ∧ ioReg t 0x15 0x000 = w.toNat % 16
        ∧ (bitOf (ioReg s 0x15 0x000) 3 = bitOf w.toNat 3 → t = setIo s 0x15 0x000 (w.toNat % 16))
        ∧ (bitOf (ioReg s 0x15 0x000) 3 ≠ bitOf w.toNat 3 → t.time.domB = bitOf w.toNat 3)
        ∧ t.time.sec = s.time.sec ∧ t.time.ns = s.time.ns ∧ t.ds = s.ds ∧ t.md = s.md))

/-- For every state and accepted PCIe command on the lead: RUN_START with matching images and equal DCNs on the board, no load or
reset, no recovery, no fabric region in the way and no stale store replies the DCN and enters RUN: sub-state and debug flag as P0
says, the next tick step 0, or none for HALTED, a stop of kind STEP-N at DCN + N − 1 for STEP-N and no other stop, and a
checkpoint in progress at this DCN where R295 asks for one. RUN_RESUME without a recovery does the same and keeps the debug flag.
The DCN, the design data and the resident image are unchanged. -/
def Obligations.RunStartAndResumeEnterRun : Prop :=
  ∀ (s : State) (c : Cmd),
    (accepts s 0x0200 chkRunStart c = true → startBars s = 0 → s.ckp.stale = false → s.peers.any (·.stale) = false →
        imagesMatch s = true → s.peers.any (fun p => p.dcn != s.seq.dcn) = false →
      ∃ t, exec (.runStart c) s = .next t ∧ t.md.mode = .run ∧ t.md.sub = subOf (fld (cPar c 0) 1 0) ∧ t.md.debug = bitOf (cPar c 0) 2
        ∧ t.seq.dcn = s.seq.dcn ∧ t.seq.tick = (if fld (cPar c 0) 1 0 = 2 then .idle else .step 0)
        ∧ t.md.stops = (if fld (cPar c 0) 1 0 = 1 then [⟨s.seq.dcn + cPar64 c 1 - 1, .stepN⟩] else [])
        ∧ (needsStartCkp s = true → ∃ k, t.ckp.busy = some k ∧ k.dcn = s.seq.dcn ∧ k.rows = s.ds.rows ∧ k.tiles = s.ds.tiles)
        ∧ (needsStartCkp s = false → t.ckp.busy = s.ckp.busy) ∧ t.haz.first = none
        ∧ t.ds = s.ds ∧ t.img = s.img ∧ ∃ r, lookup t.io.replies ((reg s (bkey 0x103C)).toNat % 2 ^ (reg s (bkey 0x1038)).toNat) = some r
          ∧ r.status = 0 ∧ r.tag = c.tag ∧ r.results = dwords s.seq.dcn)
    ∧ (accepts s 0x0202 chkRunResume c = true → s.ckp.recovery = none →
      ∃ t, exec (.runResume c) s = .next t ∧ t.md.mode = .run ∧ t.md.sub = subOf (fld (cPar c 0) 1 0)
        ∧ t.seq.dcn = s.seq.dcn ∧ t.seq.tick = .step 0 ∧ t.md.debug = s.md.debug
        ∧ t.md.stops = (if fld (cPar c 0) 1 0 = 1 then [⟨s.seq.dcn + cPar64 c 1 - 1, .stepN⟩] else []) ∧ t.ds = s.ds ∧ t.img = s.img)

/-- For every state and accepted PCIe command on the lead: while the board steps, RUN_HALT, RUN_STOP and REPLAY_STOP reply an
effective DCN from the DCN that reads to the end of the window, or, while a recovery repeats cycles, from its F on (the model's choice,
log 75), fix a stop of their kind there, and change neither mode, sub-state nor design data; which DCN of the window is a free value. In HALTED, RUN_HALT replies the last completed cycle and changes
nothing, and RUN_STOP goes to LOADED at once with no stop left. RUN_STATUS returns HSB_MODE, DCN, SLU_TOTAL and the number of
marked steps and changes nothing. -/
def Obligations.HaltAndStopFixAnEffectiveDcn : Prop :=
  ∀ (s : State) (c : Cmd),
    (accepts s 0x0201 noCheck c = true → isHalted s = false →
      ∃ t e d, exec (.runHalt c) s = .next t ∧ replied e 0x0201 c 0 (dwords d) t ∧ stopLow s ≤ d ∧ d ≤ max (stopLow s) (s.seq.dcn + dcnWindow s)
        ∧ ⟨d, .halt⟩ ∈ e.md.stops ∧ e.md.mode = s.md.mode ∧ e.md.sub = s.md.sub ∧ e.ds = s.ds ∧ e.seq = s.seq ∧ e.ckp = s.ckp)
    ∧ (accepts s 0x0203 noCheck c = true → isHalted s = false →
      ∃ t e d, exec (.runStop c) s = .next t ∧ replied e 0x0203 c 0 (dwords d) t ∧ stopLow s ≤ d ∧ d ≤ max (stopLow s) (s.seq.dcn + dcnWindow s)
        ∧ ⟨d, .runStop⟩ ∈ e.md.stops ∧ e.md.mode = s.md.mode ∧ e.md.sub = s.md.sub ∧ e.ds = s.ds ∧ e.seq = s.seq ∧ e.ckp = s.ckp)
    ∧ (accepts s 0x0603 noCheck c = true →
      ∃ t e d, exec (.replayStop c) s = .next t ∧ replied e 0x0603 c 0 (dwords d) t ∧ stopLow s ≤ d ∧ d ≤ max (stopLow s) (s.seq.dcn + dcnWindow s)
        ∧ ⟨d, .replayStop⟩ ∈ e.md.stops ∧ e.md.mode = .replay ∧ e.ds = s.ds ∧ e.seq = s.seq ∧ e.ckp = s.ckp)
    ∧ (accepts s 0x0201 noCheck c = true → isHalted s = true →
      ∃ t, exec (.runHalt c) s = .next t ∧ replied (takeEntry s c) 0x0201 c 0 (dwords (s.seq.dcn - 1)) t)
    ∧ (accepts s 0x0203 noCheck c = true → isHalted s = true →
      ∃ t, exec (.runStop c) s = .next t ∧ t.md.mode = .loaded ∧ t.md.stops = [] ∧ t.seq.tick = .idle ∧ t.seq.dcn = s.seq.dcn ∧ t.ds = s.ds)
    ∧ (accepts s 0x0204 noCheck c = true →
      ∃ t, exec (.runStatus c) s = .next t ∧ replied (takeEntry s c) 0x0204 c 0
        (hsbMode s :: dwords s.seq.dcn ++ dwords s.slu.total ++ [BitVec.ofNat 32 s.seq.marked.length]) t)

/-- For every state and accepted PCIe command, with no image reset running: outside FREE, STEP-N and REPLAY, ROW_READ, TILE_READ and
REGION_READ (of words without poison) return the values of the rows, tile units or region words named, two in a word, and change
nothing. In those modes the command is kept, unanswered, the lead agrees a hold for host access and another device has one agreed
or asks the lead for it, and no design state changes. PLANNED_HOLD_WORK_END of a hold with host access among its work answers
every kept read and ends that work, outside SAFE HOLD. DDR_INFO returns MEM_DDR, the area and the free granules. -/
def Obligations.ReadsOfDesignMemoryAnswerOrWait : Prop :=
  ∀ (s : State) (c : Cmd), let l := BitVec.ofNat 32 (cPar c 0)
    (accepts s 0x0300 (chkRows 480) c = true → modeSteps s = false →
      ∃ t, exec (.rowRead c) s = .next t ∧ replied (takeEntry s c) 0x0300 c 0
        (packHalves ((List.range (cPar c 1)).map (fun j => rd s.ds.rows (4096 * locGg l + locRow l + j)))) t)
    ∧ (accepts s 0x0302 (chkTiles 480) c = true → modeSteps s = false →
      ∃ t, exec (.tileRead c) s = .next t ∧ replied (takeEntry s c) 0x0302 c 0
        (packHalves ((List.range (cPar c 2)).map (fun j => rd s.ds.tiles (2 ^ 20 * locGc l + cPar c 1 + j)))) t)
    ∧ (accepts s 0x0304 (chkRegion 480) c = true → modeSteps s = false → s.img.resetting = false →
        regionPoisoned s (cPar c 0) (cPar c 1) (cPar c 2) = false →
      ∃ t, exec (.regionRead c) s = .next t ∧ replied (takeEntry s c) 0x0304 c 0
        (packHalves (regionWords s (cPar c 0) (cPar c 1) (cPar c 2))) t)
    ∧ (∀ i op chk, i = .rowRead c ∧ op = 0x0300 ∧ chk = chkRows 480 ∨ i = .tileRead c ∧ op = 0x0302 ∧ chk = chkTiles 480
          ∨ i = .regionRead c ∧ op = 0x0304 ∧ chk = chkRegion 480 ∧ s.img.resetting = false →
        accepts s op chk c = true → modeSteps s = true →
      ∃ t, exec i s = .next t ∧ t.io.deferred = s.io.deferred ++ [waitingOf op c] ∧ t.io.replies = s.io.replies
        ∧ (isLead s = true → t.slu.agreed.any (fun a => a.2 == some .hostAccess) = true)
        ∧ (isLead s = false → s.slu.agreed.any (fun a => a.2 == some .hostAccess) = true ∨ t.net.fwOut.head? = some (.holdRequest (posOf s)))
        ∧ t.ds = s.ds ∧ t.md = s.md ∧ t.seq = s.seq)
    ∧ (∀ h, s.md.safeHold = none → s.slu.hold = some h → .hostAccess ∈ h.work →
      ∃ t, exec (.plannedHoldWorkEnd .hostAccess) s = .next t ∧ t.io.deferred = []
        ∧ (∃ h', t.slu.hold = some h' ∧ .hostAccess ∉ h'.work ∧ ∀ w ∈ h.work, w ≠ .hostAccess → w ∈ h'.work) ∧ t.ds = s.ds ∧ t.md = s.md)
    ∧ (accepts s 0x0306 noCheck c = true →
      ∃ t, exec (.ddrInfo c) s = .next t ∧ replied (takeEntry s c) 0x0306 c 0
        [regValue s 15 0x03 0x000, regValue s 15 0x03 0x004, BitVec.ofNat 32 s.img.free] t)

/-- For every state and accepted PCIe command outside stepping, with no image reset running: ROW_WRITE, TILE_WRITE and REGION_WRITE
reply 0x0000; each row, tile unit or region word of the range named reads the value given, every other one of the same memory
reads as before, and the other two memories, the EP results and the DCN are unchanged; the bytes count towards the writes since
the last checkpoint. While a recovery steps the cycles of a device in LOADED or HALTED, ROW_WRITE replies 0x0000 and the write
waits in the log, no design state changing (the model's choice, log 60). In FREE, STEP-N and REPLAY a write that passes every
earlier check is answered 0x0205 and changes no design state. -/
def Obligations.WritesOfDesignMemoryStoreExactlyTheirWords : Prop :=
  ∀ (s : State) (c : Cmd), let l := BitVec.ofNat 32 (cPar c 0)
    (accepts s 0x0301 (chkRows 476) c = true → stepping s = false →
      ∃ t, exec (.rowWrite c) s = .next t ∧ (∀ k, rd t.ds.rows k =
          if 4096 * locGg l + locRow l ≤ k ∧ k < 4096 * locGg l + locRow l + cPar c 1 then
            (unpackHalves (cWords c 2 (c.nParams - 2)) (cPar c 1)).getD (k - (4096 * locGg l + locRow l)) 0 else rd s.ds.rows k)
        ∧ t.ds = { s.ds with rows := t.ds.rows } ∧ t.seq = s.seq ∧ t.md = s.md ∧ t.ckp.hostBytes = s.ckp.hostBytes + 2 * cPar c 1)
    ∧ (accepts s 0x0303 (chkTiles 474) c = true → stepping s = false →
      ∃ t, exec (.tileWrite c) s = .next t ∧ (∀ k, rd t.ds.tiles k =
          if 2 ^ 20 * locGc l + cPar c 1 ≤ k ∧ k < 2 ^ 20 * locGc l + cPar c 1 + cPar c 2 then
            (unpackHalves (cWords c 3 (c.nParams - 3)) (cPar c 2)).getD (k - (2 ^ 20 * locGc l + cPar c 1)) 0 else rd s.ds.tiles k)
        ∧ t.ds = { s.ds with tiles := t.ds.tiles } ∧ t.seq = s.seq ∧ t.md = s.md ∧ t.ckp.hostBytes = s.ckp.hostBytes + 2 * cPar c 2)
    ∧ (accepts s 0x0305 (chkRegion 474) c = true → stepping s = false → s.img.resetting = false → cPar c 0 < 2 ^ 32 → cPar c 1 < 2 ^ 32 →
      ∃ t, exec (.regionWrite c) s = .next t ∧ (∀ k, rd t.ds.regions k =
          if 2 ^ 32 * cPar c 0 + cPar c 1 ≤ k ∧ k < 2 ^ 32 * cPar c 0 + cPar c 1 + cPar c 2 then
            (unpackHalves (cWords c 3 (c.nParams - 3)) (cPar c 2)).getD (k - (2 ^ 32 * cPar c 0 + cPar c 1)) 0 else rd s.ds.regions k)
        ∧ t.ds = { s.ds with regions := t.ds.regions, poison := t.ds.poison } ∧ t.seq = s.seq ∧ t.md = s.md
        ∧ t.ckp.hostBytes = s.ckp.hostBytes + 2 * cPar c 2)
    ∧ (accepts s 0x0301 (chkRows 476) c = true → recoverySteps s = true →
      ∃ t, exec (.rowWrite c) s = .next t ∧ t.ds = s.ds ∧ t.seq = s.seq ∧ t.md = s.md ∧ t.ckp.hostBytes = s.ckp.hostBytes + 2 * cPar c 1
        ∧ ∃ r, lookup t.io.replies ((reg s (bkey 0x103C)).toNat % 2 ^ (reg s (bkey 0x1038)).toNat) = some r ∧ r.status = 0)
    ∧ (∀ i op chk, i = .rowWrite c ∧ op = 0x0301 ∧ chk = chkRows 476 ∨ i = .tileWrite c ∧ op = 0x0303 ∧ chk = chkTiles 474
          ∨ i = .regionWrite c ∧ op = 0x0305 ∧ chk = chkRegion 474 →
        c.path = .pcie → canTake s c = true → headerStatus op c = 0 → negotiateStatus (takeEntry s c) op c = 0 → cPos c = posOf s →
        (cSite c < 9 ∨ cSite c = 15) → chk (takeEntry s c) c = 0 → modeSteps s = true →
      ∃ t, exec i s = .next t ∧ t.ds = s.ds ∧ t.ckp = s.ckp ∧ t.seq = s.seq
        ∧ ∃ r, lookup t.io.replies ((reg s (bkey 0x103C)).toNat % 2 ^ (reg s (bkey 0x1038)).toNat) = some r ∧ r.status = 0x0205)

/-- For every state and accepted PCIe command outside stepping and image reset, with room among the waiting commands: REGION_DMA_READ
replies 0x0001, waits, and changes no design state; REGION_DMA_WRITE replies 0x0001, waits, and stores the host's words at the
region words named, within 32-bit addresses, and nowhere else (the model's choice of the moment, log 32), leaving rows, tiles, DCN
and mode. REGION_DMA_COMPLETE of the oldest transfer outside SAFE HOLD, when a read whose words come good, corrected ones and words
without poison among them, writes the region words to host memory at the address named and leaves every other host block; a word
that comes uncorrectable or from another address, or holds poison, writes none; in each case the transfer waits no longer and rows,
tiles, mode and DCN are unchanged, and regions too unless a word came uncorrectable. In SAFE HOLD nothing changes. -/
def Obligations.RegionTransfersBetweenHostAndRegions : Prop :=
  ∀ (s : State) (c : Cmd),
    (accepts s 0x0307 chkRegionDma c = true → stepping s = false → s.img.resetting = false → s.io.waiting.length < 64 →
      ∃ t, exec (.regionDmaRead c) s = .next t ∧ replied (nowWaiting (takeEntry s c) 0x0307 c) 0x0307 c 1 [] t)
    ∧ (∀ ws, accepts s 0x0308 chkRegionDma c = true → stepping s = false → s.img.resetting = false → s.io.waiting.length < 64 →
        c.data = .words ws → cPar64 c 1 + cPar c 5 / 2 ≤ 2 ^ 32 →
      ∃ t, exec (.regionDmaWrite c) s = .next t ∧ t.io.waiting = s.io.waiting ++ [waitingOf 0x0308 c]
        ∧ t.ds = { s.ds with regions := t.ds.regions, poison := t.ds.poison } ∧ t.md = s.md ∧ t.seq = s.seq
        ∧ ∀ k, rd t.ds.regions k =
          if 2 ^ 32 * cPar c 0 + cPar64 c 1 ≤ k ∧ k < 2 ^ 32 * cPar c 0 + cPar64 c 1 + cPar c 5 / 2 then
            (unpackHalves ws (cPar c 5 / 2)).getD (k - (2 ^ 32 * cPar c 0 + cPar64 c 1)) 0 else rd s.ds.regions k)
    ∧ (∀ found, s.md.safeHold.isSome = true → exec (.regionDmaComplete found) s = .next s)
    ∧ (∀ w, s.md.safeHold = none → firstWaiting s isDma = some w → w.opcode = 0x0307 →
      let key (n : Nat) : Nat := 2 ^ 32 * cPar w.cmd 0 + (cPar64 w.cmd 1 / 4 + n) * 4
      let outcome (f : Nat × DdrWordFound) : DdrOutcome := ddrOutcome (ddrSyndrome (ddrWordAddr s (key f.1)) f.2.synd f.2.wrong)
      let within (f : Nat × DdrWordFound) : Prop := 4 * f.1 < cPar w.cmd 5 / 2 ∧ s.ds.poison.contains (key f.1 / 4) = false
      (∀ found : List (Nat × DdrWordFound), regionPoisoned s (cPar w.cmd 0) (cPar64 w.cmd 1) (cPar w.cmd 5 / 2) = false →
          (∀ f ∈ found, outcome f = .good ∨ outcome f = .corrected) →
        ∃ t, exec (.regionDmaComplete found) s = .next t ∧ t.io.waiting.length + 1 = s.io.waiting.length ∧ t.ds = s.ds ∧ t.md = s.md ∧ t.seq = s.seq
          ∧ lookup t.io.dma (cPar64 w.cmd 3) = some (packHalves (regionWords s (cPar w.cmd 0) (cPar64 w.cmd 1) (cPar w.cmd 5 / 2)))
          ∧ ∀ a, a ≠ cPar64 w.cmd 3 → lookup t.io.dma a = lookup s.io.dma a)
      ∧ (∀ found : List (Nat × DdrWordFound), regionPoisoned s (cPar w.cmd 0) (cPar64 w.cmd 1) (cPar w.cmd 5 / 2) = true
            ∨ (∃ f ∈ found, within f ∧ outcome f ≠ .good ∧ outcome f ≠ .corrected) →
        ∃ t, exec (.regionDmaComplete found) s = .next t ∧ t.io.waiting.length + 1 = s.io.waiting.length ∧ t.io.dma = s.io.dma
          ∧ t.ds.rows = s.ds.rows ∧ t.ds.tiles = s.ds.tiles ∧ t.md = s.md ∧ t.seq = s.seq
          ∧ ((∀ f ∈ found, within f → outcome f ≠ .uncorrectable ∧ outcome f ≠ .poisoned) → t.ds = s.ds)))

/-- For every state at whose next tick step t of the resident image executes, and every environment of errors and pads: SCHEDULE_STEP
answers a next state at step t + 1, or at boundary step B0 after step D − 1, one tick later, at the same DCN, mode and image. EP
result registers and toggle counters are those that the processors listed at step t leave; every row other than row t of a group
is unchanged, and when no read lands at t the rows are exactly those after the processors' writes; without a tile write or DDR
write at step t, tiles and regions are unchanged. -/
def Obligations.AScheduleStepRunsEveryProcessorOnce : Prop :=
  ∀ (s : State) (i : Image) (t : Nat) (e : StepEnv), stepReady s i t →
    ∃ u, exec (.scheduleStep e) s = .next u ∧ u.seq.tick = (if t + 1 < i.hdr.depth then .step (t + 1) else .bound 0)
      ∧ u.seq.ticks = s.seq.ticks + 1 ∧ u.seq.dcn = s.seq.dcn ∧ u.md.mode = s.md.mode ∧ u.img = s.img
      ∧ u.ds.epRes = (epWorks s i t).foldl loadRes s.ds.epRes
      ∧ u.ds.toggles = (epWorks s i t).foldl (countToggle s.ds.rows t) s.ds.toggles
      ∧ (∀ k, k % 4096 ≠ t % 4096 → rd u.ds.rows k = rd s.ds.rows k)
      ∧ (s.ds.tileReads.any (fun r => r.due == t) = false → s.ds.ddr.any (fun r => r.issue + r.lead == t) = false →
          (portOps i t).all (fun o => dKind o.d == 0 || dLead o.d != 0) = true →
          u.ds.rows = (epWorks s i t).foldl (fun m x => writeEp m t x) s.ds.rows)
      ∧ ((portOps i t).all (fun o => o.op != 2) = true → u.ds.tiles = s.ds.tiles ∧ u.ds.regions = s.ds.regions)

/-- For every state that stands at boundary step b below 16 with nothing in the way: CYCLE_BOUNDARY_STEP answers a next state at
boundary step b + 1, one tick later, at the same DCN, mode and resident image. At B0 EP results, port outputs, broadcast lines,
in-ports and what was in flight are cleared and rows, tiles and regions stay; at B2, outside a recovery, either the FABRIC edge of
the tick has given the output cells the bits of the rows that the map names, or the output edge is still due; at B4 of a live
cycle the pads have the levels given, and either the edge of the tick has sampled them, at the pins that the device does not
drive, or the input edge is still due. Rows are unchanged at B2 and, in a live cycle, at B4. B7 writes the sample of each input
entry into its row and changes no other row. -/
def Obligations.CycleBoundaryStepsClearAndSample : Prop :=
  ∀ (s : State) (i : Image) (b : Nat) (e : BoundEnv), s.img.resident = some i → s.seq.tick = .bound b → b < 16 → canTick s (.bound b) = true →
    ∃ u, exec (.cycleBoundaryStep e) s = .next u ∧ u.seq.tick = .bound (b + 1) ∧ u.seq.ticks = s.seq.ticks + 1 ∧ u.seq.dcn = s.seq.dcn
      ∧ u.md.mode = s.md.mode ∧ u.img.resident = some i
      ∧ (b = 0 → u.ds.epRes = [] ∧ u.ds.rpOut = [] ∧ u.ds.bcast = [] ∧ u.ds.inPort = [] ∧ u.ds.ddr = [] ∧ u.ds.tileReads = []
          ∧ u.ds.weirs = [] ∧ u.ds.rows = s.ds.rows ∧ u.ds.tiles = s.ds.tiles ∧ u.ds.regions = s.ds.regions)
      ∧ (b = 2 → u.ds.rows = s.ds.rows ∧ (inRecovery s = false →
          u.fab.logic.outDue = true ∨ ∀ x, x ∈ u.fab.outCells ↔ ∃ p ∈ cellsOf i 1, cellBit s p = true ∧ cellNum p = x))
      ∧ (b = 4 → fromLog s = false → u.ds.rows = s.ds.rows ∧ (e.floats = 0 → u.fab.pads = e.pads)
          ∧ (u.fab.logic.inDue = true ∨ ∀ p, p < 192 → pinDriven s p = false → bitOf u.fab.first.toNat p = bitOf u.fab.pads.toNat p))
      ∧ (b = 7 → u.ds.rows = (cellsOf i 0 ++ cellsOf i 2).foldl (fun m p => putBit m p.loc (inputBit s p)) s.ds.rows
          ∧ ∀ k, (∀ p ∈ cellsOf i 0 ++ cellsOf i 2, portRow p.loc ≠ k) → rd u.ds.rows k = rd s.ds.rows k)

/-- For every stepping state at the end of B15 for which no row of B12 to B15 is outstanding: CYCLE_END answers a next state with the
DCN one higher, the cycle's stall count at 0, no hazard marks of the cycle, and rows unchanged when the cycle is live. With no
stop fixed the mode and sub-state are unchanged and the next tick is step 0. With a RUN_STOP fixed at or before the cycle that has
ended the device is in LOADED and stands; with a halt, trigger or hazard stop fixed there, in RUN and with none of RUN_STOP or
REPLAY_STOP, it is HALTED with its debug flag kept; no stop is left. In SAFE HOLD the mode and the sub-state stay. For every
state: outside SAFE HOLD, STEP_N_EXPIRY of RUN STEP-N at step 0 whose last cycle has ended gives HALTED with no stop left, DCN and
design data unchanged; REPLAY_END in REPLAY at step 0 with its target or its log's end reached gives RUN HALTED with no replay;
PERIODIC_CHECKPOINT at a DCN at which one is due puts a checkpoint of this DCN in progress and a planned hold; CHECKPOINT_COMPLETE
of a checkpoint that every device has completed, outside SAFE HOLD, makes it the last one, counting from then on only the host writes served after its
copy was taken. Where its condition fails each of the four leaves the state unchanged (log 4). -/
def Obligations.CycleEndAdvancesOrEnds : Prop :=
  (∀ s : State, s.seq.epoch = true → stepping s = true → s.seq.tick = .bound 16 → endWaits s = false →
      ∃ u, exec .cycleEnd s = .next u ∧ u.seq.dcn = s.seq.dcn + 1 ∧ u.slu.cyc = 0 ∧ u.haz.made = [] ∧ u.haz.takes = []
        ∧ (fromLog s = false → u.ds.rows = s.ds.rows ∧ u.ds.tiles = s.ds.tiles)
        ∧ (s.md.stops = [] → u.md.mode = s.md.mode ∧ u.md.sub = s.md.sub ∧ u.seq.tick = .step 0)
        ∧ (s.md.safeHold = none → (∃ x ∈ s.md.stops, x.kind = .runStop ∧ x.dcn ≤ s.seq.dcn) → u.md.mode = .loaded ∧ u.md.stops = [] ∧ u.seq.tick = .idle)
        ∧ (s.md.safeHold.isSome = true → u.md.mode = s.md.mode ∧ u.md.sub = s.md.sub)
        ∧ (s.md.safeHold = none → s.md.mode = .run → (∃ x ∈ s.md.stops, x.kind = .halt ∧ x.dcn ≤ s.seq.dcn) →
            (∀ x ∈ s.md.stops, x.kind ≠ .runStop ∧ x.kind ≠ .replayStop) →
            u.md.mode = .run ∧ u.md.sub = .halted ∧ u.md.debug = s.md.debug ∧ u.md.stops = [] ∧ u.seq.tick = .idle))
  ∧ (∀ s : State,
      (s.md.safeHold = none → s.md.mode = .run → s.md.sub = .stepN → s.seq.tick = .step 0 → stopDue s [.stepN] = true →
        ∃ u, exec .stepNExpiry s = .next u ∧ u.md.mode = .run ∧ u.md.sub = .halted ∧ u.md.stops = [] ∧ u.seq.tick = .idle
          ∧ u.seq.dcn = s.seq.dcn ∧ u.ds = s.ds ∧ u.md.debug = s.md.debug)
      ∧ (s.md.safeHold = none → s.md.mode = .replay → s.seq.tick = .step 0 → stopDue s [.replayTarget, .replayLog] = true →
        ∃ u, exec .replayEnd s = .next u ∧ u.md.mode = .run ∧ u.md.sub = .halted ∧ u.md.stops = [] ∧ u.seq.tick = .idle
          ∧ u.ckp.replay = none ∧ u.seq.dcn = s.seq.dcn ∧ u.ds = s.ds)
      ∧ (s.seq.dcn ∈ s.ckp.due → s.seq.tick = .step 0 ∨ s.seq.tick = .idle →
        ∃ u k, exec .periodicCheckpoint s = .next u ∧ u.ckp.busy = some k ∧ k.dcn = s.seq.dcn ∧ k.rows = s.ds.rows ∧ k.tiles = s.ds.tiles
          ∧ k.cow = [] ∧ s.seq.dcn ∉ u.ckp.due ∧ (∃ h, u.slu.hold = some h ∧ .checkpoint ∈ h.work) ∧ u.ds = s.ds ∧ u.md = s.md)
      ∧ (∀ k, s.md.safeHold = none → s.ckp.busy = some k → allDone s k = true →
        ∃ u, exec .checkpointComplete s = .next u ∧ u.ckp.last = some k ∧ u.ckp.busy = none ∧ u.ckp.hostBytes = s.ckp.hostBytes - s.ckp.hostAt ∧ u.ds = s.ds ∧ u.md = s.md
          ∧ (s.slu.agreed.any (fun a => a.2 == some .checkpoint) = false → u.io.waiting.all (fun w => w.opcode != 0x0601) = true))
      ∧ (stopDue s [.stepN] = false → exec .stepNExpiry s = .next s)
      ∧ (s.md.mode ≠ .replay → exec .replayEnd s = .next s)
      ∧ (s.seq.dcn ∉ s.ckp.due → exec .periodicCheckpoint s = .next s)
      ∧ (s.ckp.busy = none ∨ s.md.safeHold.isSome = true → exec .checkpointComplete s = .next s))

/-- For every stepping state with an epoch that does not stand at the end of B15: when the sequencers are frozen, STALL_STEP passes
one tick, adds one to SLU_TOTAL (modulo 2^64), to the cycle's and to the stall's count, and leaves the next step, the DCN, the
design data, the capture and the mode as they are; when they are not frozen and a degrade step is due, it passes one tick and
clears the degrade mark, with SLU_TOTAL unchanged; otherwise, and at the end of B15, nothing changes. For every state:
SLUICE_SLOT_START of a new slot drives the line exactly when a local source asks for it, counts every pulse down by one and every
repair's driven slots up by one; where the board stands and the device is not in SAFE HOLD the repair that is first in line, and no
other, comes one slot nearer to its end, and its last slot ends it: its word is right again, each of its failures has its record
and, when DEGRADED, asserts REPLACE_REQ_N; SLUICE_SAMPLE from tick 24 of the slot on
keeps the level as the newest of at most nine, and a device that drives low and samples high takes SAFE HOLD; SLUICE_FREEZE eight
slots after a low one marks the stall and sets its length to 0. At a freeze, and at a slot start of a stall that goes on, a
recovery to the DCN held begins when the slot that froze the board was driven here under code 13, and the lead fixes a forced
checkpoint at that DCN. SLUICE_REOPEN eight slots after a high one ends a stall without a planned hold, and one with a hold whose
work is done, when no periodic checkpoint is due at the boundary; SLUICE_WATCHDOG with the line low, for the first time since it
was high, and the watchdog set sets its flag and queues event 0x0005. Design data and mode are unchanged. -/
def Obligations.StallStepsAndSluiceSlots : Prop :=
  (∀ s : State, stepping s = true → s.seq.epoch = true →
      (frozen s = true → s.seq.tick ≠ .bound 16 → ∃ u, exec .stallStep s = .next u ∧ u.seq.ticks = s.seq.ticks + 1 ∧ u.slu.total = (s.slu.total + 1) % 2 ^ 64
        ∧ u.slu.cyc = s.slu.cyc + 1 ∧ u.slu.len = s.slu.len + 1 ∧ u.seq.tick = s.seq.tick ∧ u.seq.dcn = s.seq.dcn ∧ u.seq.degrade = s.seq.degrade
        ∧ u.ds = s.ds ∧ u.cap = s.cap ∧ u.chn = s.chn ∧ u.md = s.md ∧ u.ckp = s.ckp ∧ u.trx = s.trx)
      ∧ (frozen s = false → s.seq.degrade = true → s.seq.tick ≠ .bound 16 → ∃ u, exec .stallStep s = .next u ∧ u.seq.ticks = s.seq.ticks + 1 ∧ u.seq.degrade = false
        ∧ u.seq.tick = s.seq.tick ∧ u.seq.dcn = s.seq.dcn ∧ u.slu = s.slu ∧ u.ds = s.ds ∧ u.md = s.md)
      ∧ (frozen s = false → s.seq.degrade = false → exec .stallStep s = .next s)
      ∧ (s.seq.tick = .bound 16 → exec .stallStep s = .next s))
  ∧ (∀ s : State,
      (slotNew s = true → slotDiscipline s = false →
          (s.slu.stalled = true → s.ckp.wantForced = false ∧ ∀ r, slotBack s = some r → r.low = true → 13 ∉ r.srcs) →
        ∃ u, exec .sluiceSlotStart s = .next u ∧ u.slu.slot = some (slotOf s) ∧ u.slu.own = !(driveSrcs s (slotOf s)).isEmpty
          ∧ u.slu.pulses = s.slu.pulses.filterMap (fun p => if 1 < p.2 then some (p.1, p.2 - 1) else none)
          ∧ u.slu.held = s.slu.held ∧ u.slu.hold = s.slu.hold ∧ u.md = s.md
          ∧ u.ds = { s.ds with slotAct := [], faulty := u.ds.faulty } ∧ ∀ x ∈ u.ds.faulty, x ∈ s.ds.faulty)
      ∧ (∀ r, slotNew s = true → slotDiscipline s = false → slotBack s = some r → r.low = true → s.slu.stalled = true → stepping s = true →
        ∃ u, exec .sluiceSlotStart s = .next u ∧ u.md = s.md ∧ u.slu.hold = s.slu.hold
          ∧ (13 ∈ r.srcs → s.ckp.recovery = none → ∃ q, u.ckp.recovery = some q ∧ q.f = s.seq.dcn ∧ q.stepping = false)
          ∧ (s.ckp.wantForced = true → isLead s = true → u.ckp.forcedAt = some s.seq.dcn ∧ (s.seq.dcn, some .checkpoint) ∈ u.slu.agreed
            ∧ (7, 0) ∉ u.slu.held))
      ∧ (∀ r rs, slotNew s = true → slotDiscipline s = false → s.err.repairs = r :: rs →
        let drove (x : Repair) : Repair := { x with driven := x.driven + 1 }
        ∃ u, exec .sluiceSlotStart s = .next u
          ∧ (frozen u = false ∨ s.md.safeHold.isSome = true ∨ r.left = none → u.err = { s.err with repairs := (r :: rs).map drove })
          ∧ (∀ n, frozen u = true → s.md.safeHold = none → r.left = some n →
            (r.code = 10 → u.err = { s.err with repairs := { drove r with left := none } :: rs.map drove })
            ∧ (r.code ≠ 10 → 1 < n → u.err = { s.err with repairs := { drove r with left := some (n - 1) } :: rs.map drove })
            ∧ (r.code ≠ 10 → n ≤ 1 → u.err.repairs = rs.map drove ∧ u.err.seq = s.err.seq + r.recs.length ∧ (∀ w, r.word = some w → w ∉ u.ds.faulty)
              ∧ ((∃ e ∈ r.recs, e.cls = 4) → bitOf (ioReg u 0x14 0x008) 0 = true))))
      ∧ (∀ low, canSample s = true →
        ∃ u, exec (.sluiceSample low) s = .next u ∧ u.slu.line = !low ∧ (∃ r rs, u.slu.hist = r :: rs ∧ r.k = slotOf s ∧ r.low = low)
          ∧ u.slu.hist.length ≤ 9 ∧ ((s.slu.own = false ∨ low = true) → u.md = s.md ∧ u.err = s.err)
          ∧ (s.slu.own = true → low = false → u.md.safeHold.isSome = true) ∧ u.ds = s.ds ∧ u.md.mode = s.md.mode)
      ∧ (∀ r, slotBack s = some r → r.low = true → s.slu.stalled = false →
        ∃ u, exec .sluiceFreeze s = .next u ∧ u.slu.stalled = true ∧ u.slu.len = 0 ∧ u.ds = s.ds ∧ u.md = s.md ∧ u.seq = s.seq
          ∧ (13 ∈ r.srcs → stepping s = true → s.ckp.recovery = none →
            ∃ q, u.ckp.recovery = some q ∧ q.f = s.seq.dcn ∧ q.stepping = false)
          ∧ (s.ckp.wantForced = true → stepping s = true → isLead s = true → u.ckp.forcedAt = some s.seq.dcn
            ∧ (s.seq.dcn, some .checkpoint) ∈ u.slu.agreed ∧ (7, 0) ∉ u.slu.held))
      ∧ (∀ r, slotBack s = some r → r.low = false → s.slu.stalled = true →
          (∀ h, s.slu.hold = some h → h.s0 < r.k ∧ h.work = [] ∧ s.seq.dcn ∉ s.ckp.due) →
        ∃ u, exec .sluiceReopen s = .next u ∧ u.slu.stalled = false ∧ u.slu.hold = none ∧ u.ds = s.ds ∧ u.md = s.md ∧ u.seq = s.seq
          ∧ ioReg u 0x02 0x014 = min s.slu.len (2 ^ 32 - 1))
      ∧ (s.slu.line = false → ioReg s 0x02 0x010 ≠ 0 → s.slu.wdog = false →
        ∃ u, exec .sluiceWatchdog s = .next u ∧ bitOf (ioReg u 0x02 0) 6 = true ∧ (∃ e ∈ u.io.queue, e.code = 5) ∧ u.ds = s.ds ∧ u.md = s.md
          ∧ u.slu = { s.slu with wdog := true }))

/-- For every state: CASCADE_SAMPLE of a started slot from tick 24 on keeps the lines as the newest of at most nine; CASCADE_DELIVERY
of a slot whose line 0 was low, in ARMED without a trigger, gives TRIGGERED with T the DCN held two slots before and END_DCN no
later than T + the post-trigger cycles taken at the arm; with no slot due nothing changes. CAPTURE_END when due in B13 to B15 or
at their end, outside SAFE HOLD, gives every present die's unit its end marker; CAP_AUTO_CYCLES and CAP_AUTO_TIME, when due, drive CASCADE0 with cause
3 or 4 once. Design data and mode are unchanged. -/
def Obligations.CascadeEventsAndTheEndOfCapture : Prop :=
  ∀ s : State,
    (∀ low, s.seq.epoch = true → s.slu.slot = some (slotOf s) → 24 ≤ s.seq.ticks % 32 → s.casc.samples.any (fun e => e.1 == slotOf s) = false →
      exec (.cascadeSample low) s
        = .next { s with casc := { s.casc with samples := ((slotOf s, low, s.casc.driving) :: s.casc.samples).take 9 } })
    ∧ (s.casc.samples.find? (fun e => e.1 + 8 == slotOf s) = none → exec .cascadeDelivery s = .next s)
    ∧ (∀ k low mine, s.casc.samples.find? (fun e => e.1 + 8 == slotOf s) = some (k, low, mine) → bitOf low.toNat 0 = true →
        s.cap.mode = .armed → s.cap.trigDcn = none →
      ∃ u e, exec .cascadeDelivery s = .next u ∧ u.cap.mode = .triggered ∧ u.cap.trigDcn = some ((lookup s.casc.slotDcn (k - 2)).getD s.seq.dcn)
        ∧ u.cap.endDcn = some e ∧ e ≤ (lookup s.casc.slotDcn (k - 2)).getD s.seq.dcn + s.cap.post
        ∧ u.util.trigLeft = 400 ∧ u.ds = s.ds ∧ u.md = s.md ∧ u.seq = s.seq)
    ∧ (∀ b, s.md.safeHold = none → captureEndDue s = true → s.seq.tick = .bound b → 13 ≤ b → b = 16 ∨ frozen s = false →
      ∃ u, exec .captureEnd s = .next u ∧ (∀ d, d < nDies s → ∀ x, capDie u d = some x → x.ended = true) ∧ u.cap.endDcn = s.cap.endDcn
        ∧ u.ds = s.ds ∧ u.md = s.md)
    ∧ (∀ b, autoCyclesDue s = true → s.seq.tick = .bound b → 13 ≤ b → b = 16 ∨ frozen s = false → inRecovery s = false →
        droveBefore s 0 s.seq.dcn = false →
      exec .capAutoCycles s = .next { s with
        cap := { s.cap with autoDone := true }, casc := { s.casc with drive := s.casc.drive ++ [(0, 3, 15)] } })
    ∧ (isLead s = true → autoEn s = true → autoTime s = true → s.cap.mode = .armed → s.cap.trigDcn = none → s.cap.autoDone = false →
        (capAuto s : Int) ≤ sinceArm s → inRecovery s = false → droveBefore s 0 s.seq.dcn = false →
      exec .capAutoTime s = .next { s with
        cap := { s.cap with autoDone := true }, casc := { s.casc with drive := s.casc.drive ++ [(0, 4, 15)] } })

/-- For every state with a recovery to F that has not begun to step, every die back, no SAFE HOLD and a resident image:
RECOVERY_RESTORE gives, where the last checkpoint holds no uncorrectable word, lies at or before F and the log reaches F, its DCN, rows
and tiles before the host writes of that DCN are applied again, step 0 next, the request of code 13 dropped and the recovery
stepping; where it holds one, lies beyond F or the log does not reach F, SAFE HOLD, and CKP_STATUS.LOG_ERR where an error in the log
is what ends it before F. RECOVERY_END of a stepping recovery whose DCN is F leaves no recovery, no waiting
RESET command, the DCN at F, and step 0 next or none as the mode steps. The mode is unchanged. -/
def Obligations.RecoveryRestoresAndEndsAtF : Prop :=
  ∀ (s : State) (r : Recovery), s.ckp.recovery = some r →
    (∀ c, r.stepping = false → s.pwr.lost = [] → s.net.spill.any (· < 8) = false → s.md.safeHold = none → s.img.resident.isSome = true →
        s.ckp.last = some c → c.spoiled = false → c.dcn ≤ r.f → r.f ≤ (logReach s).1 →
      ∃ u, exec .recoveryRestore s = .next u ∧ u.seq.dcn = c.dcn ∧ u.seq.tick = .step 0 ∧ u.ckp.recovery = some { r with stepping := true }
        ∧ (13, 0) ∉ u.slu.held ∧ u.md = s.md
        ∧ u.ds.rows = (applyHostWrites (restoreFrom (closeHostWrites s) c)).ds.rows
        ∧ (s.ckp.log.entries.all (fun e => e.typ != 0x44) = true → s.ckp.log.host = [] → u.ds.rows = c.rows ∧ u.ds.tiles = c.tiles))
    ∧ (∀ c, r.stepping = false → s.pwr.lost = [] → s.net.spill.any (· < 8) = false → s.md.safeHold = none → s.img.resident.isSome = true →
        s.ckp.last = some c → (c.spoiled = true ∨ r.f < c.dcn ∨ (logReach s).1 < r.f) →
      ∃ u, exec .recoveryRestore s = .next u ∧ u.md.safeHold.isSome = true ∧ u.md.mode = s.md.mode
        ∧ ((logReach s).2 = true → (logReach s).1 < r.f → bitOf (ioReg u 0x08 0x004) 5 = true))
    ∧ (r.stepping = true → s.seq.dcn = r.f →
      ∃ u, exec .recoveryEnd s = .next u ∧ u.ckp.recovery = none ∧ u.seq.dcn = r.f ∧ u.io.waiting.all (fun w => w.opcode != 0x0006) = true
        ∧ u.md.mode = s.md.mode ∧ u.md.sub = s.md.sub ∧ u.img = s.img)

/-- For every state and accepted PCIe command: CAP_INFO returns CAP_STATUS, the arm, trigger and end DCNs, a word that the spec leaves
open (any value, log 9) and the number of blocks, and changes only the model's free counter. CAP_ARM with nothing in its way arms
at once on a board that stands: state ARMED at the DCN, no trigger, no END_DCN, an empty ring; on a board that steps it replies a
DCN after the one that reads, at whose start the arm is due, and leaves the capture state. CAP_TRIGGER in ARMED and CAP_STOP in
ARMED or TRIGGERED put their event on the lead's CASCADE queue, and outside those states they reply 0x0000 and change nothing. For
every state and accepted CAP_READ: in FROZEN, and in IDLE while the ring that a warm reset kept can be read (the model's choice,
log 62), it replies 0x0001 with room and waits, changing nothing else; in another state it replies 0x0206. When a CAP_READ waits outside
SAFE HOLD, in which nothing changes,
CAP_READ_COMPLETE writes the n-th block read at its address plus 4,096 n as its 1,024 words, header and all, a block found bad
with zeros for its body, marks that block in the ring as poisoned, leaves every block that was not read, and ends the command's
wait; design data, mode and capture state are unchanged. -/
def Obligations.CaptureCommands : Prop :=
  (∀ (s : State) (c : Cmd), let u := takeEntry s c
      (accepts s 0x0400 noCheck c = true → ∃ t w, exec (.capInfo c) s = .next t ∧ replied { u with freeCtr := s.freeCtr + 1 } 0x0400 c 0
          (capStatus s :: dwords s.cap.armDcn ++ dwords (s.cap.trigDcn.getD 0) ++ dwords (s.cap.endDcn.getD 0) ++ [w, BitVec.ofNat 32 s.cap.ring.length]) t)
      ∧ (accepts s 0x0401 noCheck c = true → armStatus s = 0 → stepping s = false →
        ∃ t, exec (.capArm c) s = .next t ∧ t.cap.mode = .armed ∧ t.cap.armDcn = s.seq.dcn ∧ t.cap.trigDcn = none ∧ t.cap.endDcn = none
          ∧ t.cap.ring = [] ∧ t.ds = s.ds ∧ t.md = s.md ∧ t.seq = s.seq ∧ t.ckp = s.ckp)
      ∧ (accepts s 0x0401 noCheck c = true → armStatus s = 0 → stepping s = true →
        ∃ t e d, exec (.capArm c) s = .next t ∧ replied e 0x0401 c 0 (dwords (d + 1)) t ∧ s.seq.dcn ≤ d ∧ d ≤ s.seq.dcn + dcnWindow s
          ∧ e.cap = { s.cap with armAt := some d } ∧ e.ds = s.ds ∧ e.md = s.md ∧ e.seq = s.seq)
      ∧ (accepts s 0x0402 noCheck c = true → isLead s = true → s.cap.mode = .armed →
        ∃ t, exec (.capTrigger c) s = .next t ∧ replied { u with casc := { u.casc with drive := s.casc.drive ++ [(0, 2, 15)] } } 0x0402 c 0 [] t)
      ∧ (accepts s 0x0403 noCheck c = true → isLead s = true → s.cap.mode = .armed ∨ s.cap.mode = .triggered →
        ∃ t, exec (.capStop c) s = .next t ∧ replied { u with casc := { u.casc with drive := s.casc.drive ++ [(1, 7, 15)] } } 0x0403 c 0 [] t)
      ∧ (accepts s 0x0402 noCheck c = true → s.cap.mode ≠ .armed → ∃ t, exec (.capTrigger c) s = .next t ∧ replied u 0x0402 c 0 [] t)
      ∧ (accepts s 0x0403 noCheck c = true → s.cap.mode ≠ .armed → s.cap.mode ≠ .triggered →
        ∃ t, exec (.capStop c) s = .next t ∧ replied u 0x0403 c 0 [] t))
  ∧ (∀ (s : State) (c : Cmd),
      (accepts s 0x0404 chkCapRead c = true → ringReadable s = true → s.io.waiting.length < 64 →
        ∃ t, exec (.capRead c) s = .next t ∧ replied (nowWaiting (takeEntry s c) 0x0404 c) 0x0404 c 1 [] t)
      ∧ (accepts s 0x0404 chkCapRead c = true → ringReadable s = false →
        ∃ t, exec (.capRead c) s = .next t ∧ t = { s with regs := t.regs, io := t.io }
          ∧ ∃ r, lookup t.io.replies ((reg s (bkey 0x103C)).toNat % 2 ^ (reg s (bkey 0x1038)).toNat) = some r ∧ r.status = 0x0206)
      ∧ (∀ bad, s.md.safeHold.isSome = true → exec (.capReadComplete bad) s = .next s)
      ∧ (∀ (w : Waiting) (bad : List Nat), s.md.safeHold = none → firstWaiting s (fun w => w.opcode == 0x0404) = some w →
        ∃ t, exec (.capReadComplete bad) s = .next t ∧ t.io.waiting.length + 1 = s.io.waiting.length ∧ t.cap.ring.length = s.cap.ring.length
          ∧ (∀ n b, n < cPar w.cmd 1 → s.cap.ring[cPar w.cmd 0 + n]? = some b →
              lookup t.io.dma (cPar64 w.cmd 2 + 4096 * n)
                = some (blockOut { b with poison := b.poison || bad.contains (cPar w.cmd 0 + n) })
              ∧ t.cap.ring[cPar w.cmd 0 + n]? = some { b with poison := b.poison || bad.contains (cPar w.cmd 0 + n) })
          ∧ (∀ n, n < cPar w.cmd 0 ∨ cPar w.cmd 0 + cPar w.cmd 1 ≤ n → t.cap.ring[n]? = s.cap.ring[n]?)
          ∧ t.cap.mode = s.cap.mode ∧ t.ds = s.ds ∧ t.md = s.md ∧ t.seq = s.seq))

/-- For every state and accepted PCIe command, d being the die of SITE: CHN_INFO returns CHN_STATUS of the eight dies, 0 for an absent
one, and a word the spec leaves open, and changes only the model's free counter; CHN_RING sets the host ring of d's engine with no
record written; CHN_MEM_READ without poison in range returns the words and changes nothing; CHN_MEM_WRITE of a disabled engine
makes each word of the range read as given and leaves every other word of that memory, every other memory and every other die's
engine, and of an enabled engine replies 0x0207. -/
def Obligations.ChurnCommandsReadAndWriteTheEngine : Prop :=
  ∀ (s : State) (c : Cmd), let u := takeEntry s c; let d := cSite c; let e := engineOf s d
    (accepts s 0x0500 noCheck c = true → ∃ t w, exec (.chnInfo c) s = .next t ∧ replied { u with freeCtr := s.freeCtr + 1 } 0x0500 c 0
        ((List.range 8).map (fun d => if d < nDies s then BitVec.ofNat 32 (readChn s d 4) else 0) ++ [w]) t)
    ∧ (accepts s 0x0501 chkChnRing c = true → ∃ t, exec (.chnRing c) s = .next t ∧
        replied (setChn u d { e with ring := some (cPar64 c 0, cPar c 2, cPar64 c 3, cPar c 5), ringProd := 0, ringData := [] }) 0x0501 c 0 [] t)
    ∧ (accepts s 0x0502 (chkChnMem 240) c = true → (∀ p ∈ e.poison, p < chnWord (cPar c 0) (cPar c 1) ∨ chnWord (cPar c 0) (cPar c 1) + cPar c 2 ≤ p) →
      ∃ t, exec (.chnMemRead c) s = .next t ∧ replied u 0x0502 c 0
        ((List.range (cPar c 2)).map (fun j => rd (if cPar c 0 = 0 then e.prog else if cPar c 0 = 1 then e.m.y else e.m.z) (cPar c 1 + j))) t)
    ∧ (accepts s 0x0503 (chkChnMem 237) c = true → chnEn e = false → e.m.en = false →
      ∃ t x, exec (.chnMemWrite c) s = .next t ∧ chnOf t d = some x ∧ (∀ o, o ≠ d → chnOf t o = chnOf s o)
        ∧ (∀ a, rd (if cPar c 0 = 0 then x.prog else if cPar c 0 = 1 then x.m.y else x.m.z) a =
            if cPar c 1 ≤ a ∧ a < cPar c 1 + cPar c 2 then BitVec.ofNat 32 (cPar c (3 + (a - cPar c 1)))
            else rd (if cPar c 0 = 0 then e.prog else if cPar c 0 = 1 then e.m.y else e.m.z) a)
        ∧ (cPar c 0 ≠ 0 → x.prog = e.prog ∧ x.progLen = e.progLen) ∧ (cPar c 0 ≠ 1 → x.m.y = e.m.y) ∧ (cPar c 0 ≠ 2 → x.m.z = e.m.z)
        ∧ t = { s with regs := t.regs, io := t.io, chn := t.chn })
    ∧ (accepts s 0x0503 (chkChnMem 237) c = true → (chnEn e = true ∨ e.m.en = true) →
      ∃ t, exec (.chnMemWrite c) s = .next t ∧ t = { s with regs := t.regs, io := t.io }
        ∧ ∃ r, lookup t.io.replies ((reg s (bkey 0x103C)).toNat % 2 ^ (reg s (bkey 0x1038)).toNat) = some r ∧ r.status = 0x0207)

/-- For every state and accepted PCIe command on the lead: CKP_INFO returns its words. CKP_TAKE with room replies 0x0001 and waits; on
a standing board without a recovery a checkpoint of the present DCN, rows and tiles is in progress at once, and otherwise a
planned hold for it is agreed at a DCN not before the one that reads. REPLAY_START of a checkpoint in which an uncorrectable word was
found is answered 0x0502 and changes nothing; with a matching checkpoint and nothing in its way it replies the checkpoint's DCN, restores its DCN, and where there is something to replay enters REPLAY at step 0 with the
target's stop fixed; where the target is the checkpoint's DCN it ends at once in RUN HALTED. The resident image and the last
checkpoint's DCN stay. -/
def Obligations.CheckpointAndReplayCommands : Prop :=
  ∀ (s : State) (c : Cmd),
    (accepts s 0x0600 noCheck c = true → ∃ t, exec (.ckpInfo c) s = .next t ∧ replied (takeEntry s c) 0x0600 c 0
        (BitVec.ofNat 32 (ckpStatus (takeEntry s c)) :: dwords ((lastCkpDcn s).getD 0) ++ dwords (logOldest s) ++ [BitVec.ofNat 32 (logUsedMb s)]) t)
    ∧ (accepts s 0x0601 noCheck c = true → s.io.waiting.length < 64 → stepping s = false → s.ckp.recovery = none →
      ∃ t k, exec (.ckpTake c) s = .next t ∧ t.ckp.busy = some k ∧ k.dcn = s.seq.dcn ∧ k.rows = s.ds.rows ∧ k.tiles = s.ds.tiles
        ∧ (∃ h, t.slu.hold = some h ∧ .checkpoint ∈ h.work) ∧ waitingOf 0x0601 c ∈ t.io.waiting ∧ t.ckp.last = s.ckp.last ∧ t.ds = s.ds ∧ t.md = s.md)
    ∧ (accepts s 0x0601 noCheck c = true → s.io.waiting.length < 64 → stepping s = true → s.ckp.recovery = none →
      ∃ t n, exec (.ckpTake c) s = .next t ∧ (n, some .checkpoint) ∈ t.slu.agreed ∧ s.seq.dcn ≤ n ∧ n ≤ s.seq.dcn + dcnWindow s
        ∧ waitingOf 0x0601 c ∈ t.io.waiting ∧ t.ckp = s.ckp ∧ t.ds = s.ds ∧ t.md = s.md)
    ∧ (∀ k, accepts s 0x0602 chkReplayStart c = true → startBars s = 0 → replayBoard s (bitOf (cPar c 0) 0) = true → ckpMatches s = true →
        s.ckp.last = some k → k.spoiled = true →
      ∃ t, exec (.replayStart c) s = .next t ∧ replied (takeEntry s c) 0x0602 c 0x0502 [] t)
    ∧ (∀ k, accepts s 0x0602 chkReplayStart c = true → startBars s = 0 → replayBoard s (bitOf (cPar c 0) 0) = true → ckpMatches s = true →
        s.ckp.last = some k → k.spoiled = false →
      ∃ t, exec (.replayStart c) s = .next t ∧ t.seq.dcn = k.dcn ∧ t.img = s.img ∧ lastCkpDcn t = some k.dcn
        ∧ (cPar64 c 1 = k.dcn → cPar64 c 1 ≠ 0 → t.md.mode = .run ∧ t.md.sub = .halted ∧ t.seq.tick = .idle)
        ∧ (cPar64 c 1 ≠ k.dcn → cPar64 c 1 ≠ 0 → (∀ p ∈ s.peers, k.dcn < p.logEnd) → s.ckp.log.host = [] → k.dcn < (logReach s).1 →
            t.md.mode = .replay ∧ t.md.sub = .free ∧ t.seq.tick = .step 0 ∧ ⟨cPar64 c 1 - 1, .replayTarget⟩ ∈ t.md.stops))

/-- For every state and accepted PCIe command with room: CKP_EXPORT with a checkpoint, and CKP_IMPORT, reply 0x0001, wait and change
nothing else; CKP_EXPORT without a checkpoint replies 0x0202. Outside SAFE HOLD, in which neither completes: CKP_EXPORT_COMPLETE writes
the export of the last checkpoint to the address named, its 256-byte header to host memory as its bytes, when its TOTAL_BYTES fits and
no uncorrectable word was found in the checkpoint, and otherwise nothing, completes with TOTAL_BYTES, or 0x0502 for such a word, and
ends the wait. CKP_IMPORT_COMPLETE in LOADED with an export that passes every check of R316, its section table and the SM3 digest of its body among them, makes it
the last checkpoint, imported, with its regions and its log; a failed check changes no checkpoint, region or log. Mode, rows and
DCN are unchanged. -/
def Obligations.ExportAndImportOfACheckpoint : Prop :=
  ∀ (s : State) (c : Cmd),
    (accepts s 0x0604 noCheck c = true → s.ckp.last.isSome = true → s.io.waiting.length < 64 →
      ∃ t, exec (.ckpExport c) s = .next t ∧ replied (nowWaiting (takeEntry s c) 0x0604 c) 0x0604 c 1 [] t)
    ∧ (accepts s 0x0605 noCheck c = true → s.io.waiting.length < 64 →
      ∃ t, exec (.ckpImport c) s = .next t ∧ replied (nowWaiting (takeEntry s c) 0x0605 c) 0x0605 c 1 [] t)
    ∧ (s.md.safeHold.isSome = true → exec .ckpExportComplete s = .next s ∧ exec .ckpImportComplete s = .next s)
    ∧ (∀ w k, s.md.safeHold = none → firstWaiting s (fun w => w.opcode == 0x0604) = some w → s.ckp.last = some k →
      let n := (exportOf s k).totalBytes
      ∃ t, exec .ckpExportComplete s = .next t ∧ t.io.waiting.length + 1 = s.io.waiting.length
        ∧ (n ≤ cPar64 w.cmd 2 → k.spoiled = false → lookup t.io.exports (cPar64 w.cmd 0) = some (exportOf s k)
            ∧ lookup t.io.dma (cPar64 w.cmd 0) = some (bytesWords (exportHeader (exportOf s k))) ∧ (exportHeader (exportOf s k)).length = 256)
        ∧ (∀ a, a ≠ cPar64 w.cmd 0 → lookup t.io.exports a = lookup s.io.exports a ∧ lookup t.io.dma a = lookup s.io.dma a)
        ∧ (cPar64 w.cmd 2 < n ∨ k.spoiled = true → t.io.exports = s.io.exports ∧ t.io.dma = s.io.dma)
        ∧ (w.quiet = false → w.path = .pcie → ∃ e ∈ t.io.queue, e.code = 1 ∧ e.tag = w.tag
            ∧ (cPar64 w.cmd 2 < n → e.status = 0x0301 ∧ e.payload = dwords n)
            ∧ (n ≤ cPar64 w.cmd 2 → k.spoiled = true → e.status = 0x0502)
            ∧ (n ≤ cPar64 w.cmd 2 → k.spoiled = false → e.status = 0 ∧ e.payload = dwords n))
        ∧ t.ckp = s.ckp ∧ t.ds = s.ds ∧ t.md = s.md)
    ∧ (∀ w e, s.md.safeHold = none → firstWaiting s (fun w => w.opcode == 0x0605) = some w → w.cmd.data = .ckp e →
      (s.md.mode = .loaded → importStatus s e (cPar64 w.cmd 2) = 0 →
        ∃ t, exec .ckpImportComplete s = .next t ∧ t.ckp.last = some { e.state with cow := [], imported := true } ∧ t.ckp.log.entries = e.log
          ∧ t.ckp.stale = true ∧ t.ckp.hostBytes = 0 ∧ t.ds = { s.ds with regions := wrAll [] e.regions, poison := [] }
          ∧ t.md = s.md ∧ t.seq = s.seq ∧ t.io.waiting.length + 1 = s.io.waiting.length)
      ∧ (s.md.mode ≠ .loaded ∨ importStatus s e (cPar64 w.cmd 2) ≠ 0 →
        ∃ t, exec .ckpImportComplete s = .next t ∧ t.ckp = s.ckp ∧ t.ds = s.ds ∧ t.md = s.md ∧ t.seq = s.seq
          ∧ t.io.waiting.length + 1 = s.io.waiting.length))

/-- For every state and accepted PCIe command that names channel n, listed as ch: CH_STATUS returns its words and sequence numbers.
CH_OPEN of a closed channel with a format it has opens it at once on a standing board, with numbers and error counts 0, and at the
end of the boundary on a stepping one. CH_CLOSE of an open channel closes it at once on a standing board, its inbound queue empty
and, where a flush waits, its complete packets discarded (log 67), and at the end of the boundary on a stepping one. CH_FLUSH with
none pending waits: with a packet in progress it leaves the queue and replies 0x0001; with none the queue is empty at once, and
the DCN and the number discarded are kept for its completion. OUT_RING of a ring that no open outbound channel uses sets the ring,
empty. Every other channel is unchanged. -/
def Obligations.ChannelCommandsOpenCloseAndFlush : Prop :=
  ∀ (s : State) (c : Cmd), let u := takeEntry s c
    (∀ ch, accepts s 0x0700 chkChan c = true → chanOf s (cPar c 0) = some ch → ∃ t, exec (.chStatus c) s = .next t ∧
        replied u 0x0700 c 0 ((List.range 4).map (fun k => BitVec.ofNat 32 (chanWord ch k)) ++ [ch.inSeq, ch.outSeq]) t)
    ∧ (∀ ch, accepts s 0x0701 chkChOpen c = true → chanOf s (openChan c) = some ch → ch.isOpen = false → ch.opening = none →
        ch.cfg.format ≤ openFormat c →
      ∃ t x, exec (.chOpen c) s = .next t ∧ chanOf t (openChan c) = some x ∧ (∀ o, o ≠ openChan c → chanOf t o = chanOf s o)
        ∧ (stepping s = false → x.isOpen = true ∧ x.inSeq = 0 ∧ x.outSeq = 0 ∧ x.inErr = 0 ∧ x.outErr = 0 ∧ x.ring.base = cPar64 c 1)
        ∧ (stepping s = true → x = { ch with opening := x.opening, changeAt := s.seq.dcn } ∧ x.opening.isSome = true) ∧ t.ds = s.ds ∧ t.md = s.md)
    ∧ (∀ ch, accepts s 0x0702 chkChan c = true → chanOf s (cPar c 0) = some ch → ch.isOpen = true →
      ∃ t x, exec (.chClose c) s = .next t ∧ chanOf t (cPar c 0) = some x ∧ (∀ o, o ≠ cPar c 0 → chanOf t o = chanOf s o)
        ∧ (stepping s = false → x.isOpen = false ∧ x.inq = []
          ∧ x.outq.length = (if ch.flush = true then (openMsgs ch).length else ch.outq.length))
        ∧ (stepping s = true → x = { ch with closing := true, changeAt := s.seq.dcn }) ∧ t.ds = s.ds ∧ t.md = s.md)
    ∧ (∀ ch, accepts s 0x0703 chkChan c = true → chanOf s (cPar c 0) = some ch → ch.flush = false → s.io.waiting.length < 64 → pktOpen ch = true →
      ∃ t, exec (.chFlush c) s = .next t ∧
        replied (nowWaiting (setChan u (cPar c 0) { ch with flush := true }) 0x0703 c) 0x0703 c 1 [] t)
    ∧ (∀ ch, accepts s 0x0703 chkChan c = true → chanOf s (cPar c 0) = some ch → ch.flush = false → s.io.waiting.length < 64 → pktOpen ch = false →
      ∃ t, exec (.chFlush c) s = .next t ∧ waitingOf 0x0703 c ∈ t.io.waiting
        ∧ chanOf t (cPar c 0) = some { countOut { ch with outq := [], flushed := ch.flushed ++ [(s.seq.dcn, ch.outq.length)] } ch.outq.length with flush := false }
        ∧ (∀ o, o ≠ cPar c 0 → chanOf t o = chanOf s o) ∧ t.ds = s.ds ∧ t.md = s.md ∧ t.seq = s.seq)
    ∧ (accepts s 0x0704 chkOutRing c = true → s.trx.chans.any (fun e => e.2.isOpen && hasOut e.2.cfg && e.2.cfg.outRing == cPar c 0) = false →
      ∃ t x, exec (.outRing c) s = .next t ∧ lookup t.trx.rings (cPar c 0) = some x ∧ x.base = cPar64 c 1 ∧ x.entries = cPar c 3
        ∧ x.wb = cPar64 c 4 ∧ x.vec = cPar c 6 ∧ x.prod = 0 ∧ x.data = [] ∧ (∀ o, o ≠ cPar c 0 → lookup t.trx.rings o = lookup s.trx.rings o)
        ∧ t = { s with regs := t.regs, io := t.io, trx := { s.trx with rings := t.trx.rings } })

/-- For every state outside SAFE HOLD: outside REPLAY a good ring entry for an open channel of the host ring with a free queue slot at the
place of its consumer index appends one message under the channel's next inbound number, which counts on, or one fence token,
which takes no number, moves the index on, and leaves the outbound queue and every other channel; MESSAGE_STAGE of an engine with
a channel that it can stage stages one more channel of that engine and takes no message from any queue; OUTBOUND_PACKET_WRITE of
the best packet writes each message's 144-byte entry at its place, advances the ring's producer by its messages and leaves no
message of that packet in its channel; FLUSH_TAKES_EFFECT of a waiting flush with no packet in progress empties the outbound queue
and completes the channel's oldest flush that took effect; with a flush that has taken effect it changes nothing of the channel
but that. Rows, DCN and mode are unchanged. In SAFE HOLD the last two change nothing. -/
def Obligations.MessagesEnterStageAndLeave : Prop :=
  ∀ s : State,
    (∀ i : Instr, (∃ r, i = .outboundPacketWrite r) ∨ (∃ n, i = .flushTakesEffect n) → s.md.safeHold.isSome = true → exec i s = .next s)
    ∧ (∀ n ch (ws : List Word), let e := parseEntry ch.fmt ws
        chanOf s n = some ch → ch.isOpen = true → hasIn ch.cfg = true → ch.cfg.source = 0 → inSafeHold s = false → s.md.mode ≠ .replay →
        entryOk ch e = true → inRoom ch = true → ch.ring.cons ≠ ch.ring.prod →
      ∃ t x m, exec (.inboundRingEntry n ⟨entryAddr ch, ws⟩) s = .next t ∧ chanOf t n = some x ∧ x.inq = ch.inq ++ [m] ∧ m.seq = ch.inSeq
        ∧ x.ring.cons = (ch.ring.cons + 1) % 2 ^ 32
        ∧ x.inSeq = (if e.typ = 2 then ch.inSeq else ch.inSeq + 1)
        ∧ (e.typ = 2 → m.fence = some e.fenceId) ∧ (e.typ = 1 → m.fence = none ∧ m.words = (List.range e.len).map (fun j => nth 0 e.words j))
        ∧ x.outq = ch.outq ∧ (∀ o, o ≠ n → chanOf t o = chanOf s o) ∧ t.ds = s.ds ∧ t.md = s.md ∧ t.seq = s.seq)
    ∧ (∀ g n, g < 4 → fromLog s = false → (s.trx.staged.filter (fun c => c % 4 == g)).length < 16 →
        (engineOrder g (nth 0 s.trx.engLast g)).find? (canStage s) = some n →
      ∃ t, exec (.messageStage g) s = .next t ∧ t.trx.staged = ins s.trx.staged n ∧ t.trx.chans = s.trx.chans ∧ t.ds = s.ds ∧ t.md = s.md ∧ t.seq = s.seq)
    ∧ (∀ r x n k p ms, s.md.safeHold = none → lookup s.trx.rings r = some x → bestPacket (packetsOf s r) = some (n, k, p, ms) → ms.length ≤ x.entries →
      ∃ t y, exec (.outboundPacketWrite r) s = .next t ∧ lookup t.trx.rings r = some y ∧ y.prod = (x.prod + ms.length) % 2 ^ 32
        ∧ (∀ j m, ms[j]? = some m → lookup y.data (outAddr x (x.prod + j)) = some (outEntry n m))
        ∧ (∀ ch, chanOf t n = some ch → ∀ m ∈ ch.outq, m.done ≠ some k) ∧ (∀ o, o ≠ r → lookup t.trx.rings o = lookup s.trx.rings o)
        ∧ (∀ o, o ≠ n → chanOf t o = chanOf s o) ∧ t.ds = s.ds ∧ t.md = s.md ∧ t.seq = s.seq)
    ∧ (∀ n ch, s.md.safeHold = none → chanOf s n = some ch → ch.flush = true → pktOpen ch = false →
      ∃ t x, exec (.flushTakesEffect n) s = .next t ∧ chanOf t n = some x ∧ x.flush = false ∧ x.outq = []
        ∧ x.flushed = (ch.flushed ++ [(s.seq.dcn, ch.outq.length)]).drop 1
        ∧ (∀ o, o ≠ n → chanOf t o = chanOf s o) ∧ t.ds = s.ds ∧ t.md = s.md ∧ t.seq = s.seq)
    ∧ (∀ n ch f rest, s.md.safeHold = none → chanOf s n = some ch → ch.flush = false → ch.flushed = f :: rest →
      ∃ t, exec (.flushTakesEffect n) s = .next t ∧ chanOf t n = some { ch with flushed := rest }
        ∧ (∀ o, o ≠ n → chanOf t o = chanOf s o) ∧ t.ds = s.ds ∧ t.md = s.md ∧ t.seq = s.seq)

/-- For every state and accepted PCIe command: LINK_STATUS returns the eight status words of the module or board link named and a word
the spec leaves open, and changes only the model's free counter. LINK_COUNTERS returns the 16 counters and a word left open; with
P0 [8] clear it changes no counter; with P0 [8] set the 16 counters read 0 afterwards and every other register of a block as
before. For every state and accepted PCIe command with room: LINK_TRAIN of a module (other than the accessory's) without a
resident image, or of a board link that no resident image books in LOADED, replies 0x0001, waits, and puts that link alone into
training; LINK_LOOP of a module in SERVICE sets its loop mode, and taking the loop off puts it into training; LINK_LOOP of a board
link not booked in LOADED with mode 1 or 2 puts it into LOOP with that mode, its PRBS31 checkers starting
anew, and with mode 0 takes a link in LOOP, other than one
in mode 3, back into training. A module's loop outside SERVICE is answered 0x0202 and changes no link. Every other link, and the
mode and design data, are unchanged. -/
def Obligations.LinkCommands : Prop :=
  (∀ (s : State) (c : Cmd), let u := takeEntry s c; let n := lnkIndex c
      (accepts s 0x0800 (chkLink false) c = true → ∃ t w, exec (.linkStatus c) s = .next t ∧ replied { u with freeCtr := s.freeCtr + 1 } 0x0800 c 0
          ((List.range 8).map (fun k => BitVec.ofNat 32 (if lnkModule c then readModule s (moduleSite n) n k else readBl s n (4 * k))) ++ [w]) t)
      ∧ (accepts s 0x0801 (chkLink true) c = true → bitOf (cPar c 0) 8 = false → ∃ t w, exec (.linkCounters c) s = .next t ∧
          replied { u with freeCtr := s.freeCtr + 1 } 0x0801 c 0 ((counterKeys c).map (reg s) ++ [w]) t)
      ∧ (accepts s 0x0801 (chkLink true) c = true → bitOf (cPar c 0) 8 = true → ∃ t r w, exec (.linkCounters c) s = .next t
          ∧ lookup t.io.replies ((reg s (bkey 0x103C)).toNat % 2 ^ (reg s (bkey 0x1038)).toNat) = some r ∧ r.status = 0
          ∧ r.results = (counterKeys c).map (reg s) ++ [w] ∧ (∀ k ∈ counterKeys c, reg t k = 0)
          ∧ (∀ k, k < 2 ^ 32 → k ∉ counterKeys c → reg t k = reg s k) ∧ t = { s with regs := t.regs, io := t.io, freeCtr := s.freeCtr + 1 }))
  ∧ (∀ (s : State) (c : Cmd), let n := lnkIndex c
      (accepts s 0x0802 (chkLink false) c = true → s.io.waiting.length < 64 → lnkModule c = true → n ≠ 24 → s.img.resident = none →
        ∃ t, exec (.linkTrain c) s = .next t ∧ waitingOf 0x0802 c ∈ t.io.waiting ∧ (∀ e ∈ t.ucie, e.1 = n → e.2.st = 2 ∧ e.2.proto = 0)
          ∧ (∀ m, m ≠ n → lookup t.ucie m = lookup s.ucie m) ∧ t.bl = s.bl ∧ t.ds = s.ds ∧ t.md = s.md)
      ∧ (accepts s 0x0802 (chkLink false) c = true → s.io.waiting.length < 64 → lnkModule c = false → (s.md.mode = .loaded → linkBooked s n = false) →
        ∃ t, exec (.linkTrain c) s = .next t ∧ waitingOf 0x0802 c ∈ t.io.waiting ∧ (∀ e ∈ t.bl, e.1 = n → e.2.st = 2)
          ∧ (∀ d, d ≠ n → lookup t.bl d = lookup s.bl d) ∧ t.ucie = s.ucie ∧ t.ds = s.ds ∧ t.md = s.md)
      ∧ (accepts s 0x0803 chkLoop c = true → lnkModule c = true → s.md.mode = .service →
        ∃ t, exec (.linkLoop c) s = .next t ∧ (∀ e ∈ t.ucie, e.1 = n → e.2.loopMode = cPar c 1)
          ∧ (∀ x, lookup s.ucie n = some x → x.loopMode ≠ 0 → cPar c 1 = 0 → ∃ y, lookup t.ucie n = some y ∧ y.st = 2 ∧ y.proto = 0)
          ∧ (∀ m, m ≠ n → lookup t.ucie m = lookup s.ucie m) ∧ t.bl = s.bl ∧ t.ds = s.ds ∧ t.md = s.md)
      ∧ (∀ b, accepts s 0x0803 chkLoop c = true → lnkModule c = false → linkOf s n = some b → (s.md.mode = .loaded → linkBooked s n = false) →
          cPar c 1 = 1 ∨ cPar c 1 = 2 →
        ∃ t, exec (.linkLoop c) s = .next t ∧ linkOf t n = some { b with st := 5, loopMode := cPar c 1, rx := b.rx.map (fun l => { l with scr := 0 }) } ∧ (∀ d, d ≠ n → linkOf t d = linkOf s d)
          ∧ t.ucie = s.ucie ∧ t.ds = s.ds ∧ t.md = s.md)
      ∧ (∀ b, accepts s 0x0803 chkLoop c = true → lnkModule c = false → linkOf s n = some b → (s.md.mode = .loaded → linkBooked s n = false) →
          cPar c 1 = 0 → b.st = 5 → b.loopMode ≠ 3 →
        ∃ t, exec (.linkLoop c) s = .next t ∧ linkOf t n = some { b with st := 2, loopMode := 0, quick := false } ∧ (∀ d, d ≠ n → linkOf t d = linkOf s d)
          ∧ t.ucie = s.ucie ∧ t.ds = s.ds ∧ t.md = s.md)
      ∧ (accepts s 0x0803 chkLoop c = true → lnkModule c = true → s.md.mode ≠ .service →
        ∃ t, exec (.linkLoop c) s = .next t ∧ t = { s with regs := t.regs, io := t.io }
          ∧ ∃ r, lookup t.io.replies ((reg s (bkey 0x103C)).toNat % 2 ^ (reg s (bkey 0x1038)).toNat) = some r ∧ r.status = 0x0202))

/-- For every state and accepted PCIe command: TIME_GET returns the 12-byte time and the DCN and changes nothing. TIME_SET on a device
that does not follow the lead's time sets seconds, nanoseconds and fraction to those of P0 to P2, ends UNSET, ends the lock of
both domains and sets TIME_STATUS bit 8; on a follower with SRC 2 it replies 0x0202 and leaves the time. PTP_CONFIG stores P0 and
P1 in the domain of P0 [0] and leaves the other. PPS_CONFIG stores PPS_CFG and PPS_OFFS. Holdover and the selected domain stay at
a TIME_SET; mode and design data are unchanged. -/
def Obligations.TimeCommandsSetAndReadTheTime : Prop :=
  ∀ (s : State) (c : Cmd), let u := takeEntry s c
    (accepts s 0x0900 noCheck c = true → ∃ t, exec (.timeGet c) s = .next t ∧ replied u 0x0900 c 0 (words96 (stamp s) ++ dwords s.seq.dcn) t)
    ∧ (accepts s 0x0901 chkTimeSet c = true → ¬(fld (ioReg s 0x15 0x000) 1 0 = 2 ∧ isLead s = false) →
      ∃ t, exec (.timeSet c) s = .next t ∧ t.time.sec = timePar c / 2 ^ 48 ∧ t.time.ns = fld (timePar c) 47 16 ∧ t.time.frac = timePar c % 2 ^ 16
        ∧ t.time.unset = false ∧ t.time.locked = false ∧ t.time.a.locked = false ∧ t.time.b.locked = false ∧ bitOf (ioReg t 0x15 0x004) 8 = true
        ∧ t.time.holdover = s.time.holdover ∧ t.time.domB = s.time.domB ∧ t.ds = s.ds ∧ t.md = s.md)
    ∧ (accepts s 0x0901 chkTimeSet c = true → fld (ioReg s 0x15 0x000) 1 0 = 2 → isLead s = false →
      ∃ t, exec (.timeSet c) s = .next t ∧ t = { s with regs := t.regs, io := t.io }
        ∧ ∃ r, lookup t.io.replies ((reg s (bkey 0x103C)).toNat % 2 ^ (reg s (bkey 0x1038)).toNat) = some r ∧ r.status = 0x0202)
    ∧ (accepts s 0x0902 chkPtp c = true → ∃ t, exec (.ptpConfig c) s = .next t ∧ replied (setDom u (bitOf (cPar c 0) 0)
        { domOf s (bitOf (cPar c 0) 0) with cfg0 := BitVec.ofNat 32 (cPar c 0), cfg1 := BitVec.ofNat 32 (cPar c 1) }) 0x0902 c 0 [] t)
    ∧ (accepts s 0x0903 chkPps c = true → ∃ t, exec (.ppsConfig c) s = .next t
        ∧ replied (setIo (setIo u 0x15 0x02C (cPar c 0)) 0x15 0x030 (cPar c 1)) 0x0903 c 0 [] t)

/-- For every state: outside SAFE HOLD a PTP_SYNC of an enabled domain counts, keeps its offset and ends that domain's holdover;
beyond 1 ms, in the selected domain with SRC 1 and a step allowed, it steps the time by the offset instead, and no other offset
moves seconds or nanoseconds; in SAFE HOLD it changes nothing. PTP_HOLDOVER of a domain ends its lock and sets its holdover.
TIME_BOARD_SEND on a lead with SRC 2 and an epoch sends the board time, and changes no time. TIME_FOLLOWER_HOLDOVER with SRC 2
sets holdover. PPS_IN_EDGE keeps the time stamp of the edge, and with SRC 3 outside SAFE HOLD ends holdover; PPS_OUT_PULSE with
OUT_EN set raises the pin for WIDTH µs. Mode and design data are unchanged. -/
def Obligations.TimeEventsMoveTheServo : Prop :=
  ∀ (s : State) (d : Nat),
    (∀ off : Int, s.md.safeHold.isSome = true → exec (.ptpSync d off) s = .next s)
    ∧ (∀ off : Int, s.md.safeHold = none → bitOf (domOf s (d != 0)).cfg0.toNat 1 = true →
      ∃ t, exec (.ptpSync d off) s = .next t ∧ (domOf t (d != 0)).holdover = false ∧ domOf t (d == 0) = domOf s (d == 0)
        ∧ ioReg t 0x15 (if d != 0 then 0x038 else 0x034) = satAdd 32 (ioReg s 0x15 (if d != 0 then 0x038 else 0x034)) 1
        ∧ (timeSrc s = 1 → s.time.domB = (d != 0) → 1000000 < off.natAbs → (domOf s (d != 0)).mayStep = true →
            t.time.sec = (stepNs s.time off).sec ∧ t.time.ns = (stepNs s.time off).ns ∧ (domOf t (d != 0)).mayStep = false ∧ t.time.unset = false)
        ∧ ((timeSrc s ≠ 1 ∨ s.time.domB ≠ (d != 0) ∨ off.natAbs ≤ 1000000 ∨ (domOf s (d != 0)).mayStep = false) →
            t.time.sec = s.time.sec ∧ t.time.ns = s.time.ns ∧ (domOf t (d != 0)).offset = off)
        ∧ t.time.frac = s.time.frac ∧ t.ds = s.ds ∧ t.md = s.md)
    ∧ (∃ t, exec (.ptpHoldover d) s = .next t ∧ (domOf t (d != 0)).locked = false ∧ (domOf t (d != 0)).holdover = true ∧ t.time.sec = s.time.sec
        ∧ t.time.ns = s.time.ns ∧ t.ds = s.ds ∧ t.md = s.md)
    ∧ (isLead s = true → fld (ioReg s 0x15 0x000) 1 0 = 2 → s.seq.epoch = true →
      ∃ t a b e f, exec .timeBoardSend s = .next t ∧ t.net.fwOut.head? = some (.boardTime a b e f (lo32 (timeIncr s))) ∧ s.seq.ticks ≤ a
        ∧ t.time = s.time ∧ t.ds = s.ds ∧ t.md = s.md ∧ t.regs = s.regs)
    ∧ (timeSrc s = 2 → exec .timeFollowerHoldover s = .next { s with time := { s.time with holdover := true } })
    ∧ (∃ t, exec .ppsInEdge s = .next t ∧ (List.range 3).map (fun k => reg t (rkey 15 0x15 (0x80020 + 4 * k))) = words96 (stamp s)
        ∧ t.time = (if timeSrc s = 3 ∧ s.md.safeHold = none then { s.time with holdover := false } else s.time) ∧ t.ds = s.ds ∧ t.md = s.md)
    ∧ (bitOf (ioReg s 0x15 0x02C) 0 = true →
        exec .ppsOutPulse s = .next { s with time := { s.time with ppsLeft := 400 * fld (ioReg s 0x15 0x02C) 15 8 } })

/-- For every state: an accepted PCIe SESSION with OP 0 whose customer slot is usable and whose signature verifies under its key, with
fewer than 8 sessions and none closing, adds one session of that slot, with mask 0, no version, no SEQ yet and no reply kept, its
key derived from P2 to P17, and an identifier that is not 0 and that no open session has. Of a command on session id: OP 2 sets
the mask of that session to P1; OP 1 leaves no session of that identifier. Every session of another identifier that is not closing
stays as it is, key slots and authorisations stay, and so do mode and design data. -/
def Obligations.SessionsOpenSubscribeAndClose : Prop :=
  ∀ (s : State) (c : Cmd),
    (accepts s 0x0A02 chkSession c = true → cPar c 0 = 0 → s.sec.sessions.length < 8 → slotUsable (slotOf? s (cPar c 1)).1 = true →
        sigKey c = some (slotOf? s (cPar c 1)).2 → (∀ x ∈ s.sec.sessions, x.closing = false) →
      ∃ t x, exec (.sessionOpen c) s = .next t ∧ t.sec.sessions = s.sec.sessions ++ [x] ∧ x.slot = cPar c 1 ∧ x.mask = 0 ∧ x.version = none ∧ x.nextSeq = none ∧ x.replies = []
        ∧ (∃ n ed, x.key = sessionKey n (cWords c 2 16) ed)
        ∧ x.ctrIn = 0 ∧ x.id ≠ 0 ∧ (∀ y ∈ s.sec.sessions, y.id ≠ x.id) ∧ t.sec.slots = s.sec.slots ∧ t.ds = s.ds ∧ t.md = s.md)
    ∧ (∀ id, acceptsOn s id 0x0A02 chkSession c = true → cPar c 0 = 2 →
      ∃ t, exec (.sessionSubscribe c) s = .next t ∧ (∀ x ∈ t.sec.sessions, x.id = id → x.mask = BitVec.ofNat 32 (cPar c 1))
        ∧ (∀ x ∈ s.sec.sessions, x.id ≠ id → x.closing = false → x ∈ t.sec.sessions)
        ∧ t.sec.slots = s.sec.slots ∧ t.sec.authService = s.sec.authService ∧ t.ds = s.ds ∧ t.md = s.md)
    ∧ (∀ id, acceptsOn s id 0x0A02 chkSession c = true → cPar c 0 = 1 →
      ∃ t, exec (.sessionClose c) s = .next t ∧ (∀ x ∈ t.sec.sessions, x.id ≠ id)
        ∧ (∀ x ∈ s.sec.sessions, x.id ≠ id → x.closing = false → x ∈ t.sec.sessions)
        ∧ t.sec.slots = s.sec.slots ∧ t.sec.authService = s.sec.authService ∧ t.ds = s.ds ∧ t.md = s.md)

/-- For every state and accepted PCIe KEY_SLOT of a slot that no load uses: OP 0 on an EMPTY or INSTALLED slot installs the SM3 of the
16 words given; OP 1 on an INSTALLED one locks it and OP 2 on an INSTALLED or LOCKED one revokes it, both with the key kept; every
other slot stays. OP 3 sets the requirement of signed images and changes no slot. OP 0 on a LOCKED or REVOKED slot, and OP 2 on a
REVOKED one, reply 0x0403 and change no slot. A slot once REVOKED is not brought back by any of these. -/
def Obligations.KeySlotsFollowTheirStates : Prop :=
  ∀ (s : State) (c : Cmd), let k := ksSlot c
    (accepts s 0x0A03 chkKeySlot c = true → ksOp c = 0 → slotInUse s k = false → (slotOf? s k).1 = .empty ∨ (slotOf? s k).1 = .installed →
      ∃ t, exec (.keySlotInstall c) s = .next t ∧ slotOf? t k = (.installed, sm3 (wordBytes (cWords c 1 16)))
        ∧ (∀ o, o ≠ k → slotOf? t o = slotOf? s o) ∧ t.sec.reqSigned = s.sec.reqSigned ∧ t.ds = s.ds ∧ t.md = s.md)
    ∧ (accepts s 0x0A03 chkKeySlot c = true → ksOp c = 1 → slotInUse s k = false → (slotOf? s k).1 = .installed →
      ∃ t, exec (.keySlotLock c) s = .next t ∧ slotOf? t k = (.locked, (slotOf? s k).2)
        ∧ (∀ o, o ≠ k → slotOf? t o = slotOf? s o) ∧ t.sec.reqSigned = s.sec.reqSigned ∧ t.ds = s.ds ∧ t.md = s.md)
    ∧ (accepts s 0x0A03 chkKeySlot c = true → ksOp c = 2 → slotInUse s k = false → (slotOf? s k).1 = .installed ∨ (slotOf? s k).1 = .locked →
      ∃ t, exec (.keySlotRevoke c) s = .next t ∧ slotOf? t k = (.revoked, (slotOf? s k).2)
        ∧ (∀ o, o ≠ k → slotOf? t o = slotOf? s o) ∧ t.sec.reqSigned = s.sec.reqSigned ∧ t.ds = s.ds ∧ t.md = s.md)
    ∧ (accepts s 0x0A03 chkKeySlot c = true → ksOp c = 3 →
      ∃ t, exec (.keySlotReqSigned c) s = .next t ∧ t.sec.reqSigned = true ∧ t.sec.slots = s.sec.slots ∧ t.ds = s.ds ∧ t.md = s.md)
    ∧ (∀ i, accepts s 0x0A03 chkKeySlot c = true → slotInUse s k = false →
        (i = .keySlotInstall c ∧ ksOp c = 0 ∧ ((slotOf? s k).1 = .locked ∨ (slotOf? s k).1 = .revoked)
          ∨ i = .keySlotLock c ∧ ksOp c = 1 ∧ (slotOf? s k).1 = .revoked ∨ i = .keySlotRevoke c ∧ ksOp c = 2 ∧ (slotOf? s k).1 = .revoked) →
      ∃ t, exec i s = .next t ∧ t.sec.slots = s.sec.slots
        ∧ ∃ r, lookup t.io.replies ((reg s (bkey 0x103C)).toNat % 2 ^ (reg s (bkey 0x1038)).toNat) = some r ∧ r.status = 0x0403)

/-- For every state and accepted PCIe command: CERT_GET returns the certificate's length and up to 239 words from the offset. ATTEST
with room replies 0x0001 and waits; ATTEST_COMPLETE outside SAFE HOLD writes 88 words to the address named, of which the first 72 are
the report, and ends the wait. AUTHORISE 0 keeps a fresh challenge. AUTHORISE 1 with a record that names the device's serial number and the
challenge and verifies under Lenaux's key spends the challenge and sets the authorisation asked for; with a record that fails it
spends the challenge too, replies 0x0401 and sets none. Mode and design data are unchanged. -/
def Obligations.CertificatesAttestationAndAuthorisation : Prop :=
  ∀ (s : State) (c : Cmd), let i := cPar c 0
    (accepts s 0x0A00 chkCert c = true → ∃ t, exec (.certGet c) s = .next t ∧ replied (takeEntry s c) 0x0A00 c 0
        (BitVec.ofNat 32 (Config.certBytes i) :: (List.range (min 239 (certLen i - cPar c 1))).map (fun j => Config.certWord i (cPar c 1 + j))) t)
    ∧ (accepts s 0x0A01 noCheck c = true → s.io.waiting.length < 64 → ∃ t, exec (.attest c) s = .next t
        ∧ replied (nowWaiting (takeEntry s c) 0x0A01 c) 0x0A01 c 1 [] t)
    ∧ (∀ w, s.md.safeHold = none → firstWaiting s (fun w => w.opcode == 0x0A01) = some w →
      ∃ t ws, exec .attestComplete s = .next t ∧ lookup t.io.dma (cPar64 w.cmd 8) = some ws ∧ ws.length = 88
        ∧ ws.take 72 = attestWords s (cWords w.cmd 0 8) ∧ t.io.waiting.length + 1 = s.io.waiting.length ∧ t.ds = s.ds ∧ t.md = s.md)
    ∧ (accepts s 0x0A04 chkAuthorise c = true → i = 0 → ∃ t d r, exec (.authoriseChallenge c) s = .next t ∧ t.sec.challenge = some d
        ∧ lookup t.io.replies ((reg s (bkey 0x103C)).toNat % 2 ^ (reg s (bkey 0x1038)).toNat) = some r ∧ r.results.take 8 = digestWords d
        ∧ t.sec.authService = s.sec.authService ∧ t.sec.authTrace = s.sec.authTrace ∧ t.ds = s.ds ∧ t.md = s.md)
    ∧ (accepts s 0x0A04 chkAuthorise c = true → i = 1 → authRecordOk s c = true → sigKey c = some Config.lenauxKey →
      ∃ t, exec (.authorisePresent c) s = .next t ∧ t.sec.challenge = none
        ∧ (cPar c 2 = 1 → t.sec.authService = true ∧ t.sec.authTrace = s.sec.authTrace)
        ∧ (cPar c 2 ≠ 1 → t.sec.authTrace = true ∧ t.trc.priv = true ∧ t.sec.authService = s.sec.authService) ∧ t.ds = s.ds ∧ t.md = s.md)
    ∧ (accepts s 0x0A04 chkAuthorise c = true → i = 1 → (authRecordOk s c = false ∨ sigKey c ≠ some Config.lenauxKey) →
      ∃ t r, exec (.authorisePresent c) s = .next t ∧ t.sec.challenge = none ∧ t.sec.authService = s.sec.authService ∧ t.sec.authTrace = s.sec.authTrace
        ∧ lookup t.io.replies ((reg s (bkey 0x103C)).toNat % 2 ^ (reg s (bkey 0x1038)).toNat) = some r ∧ r.status = 0x0401 ∧ t.ds = s.ds ∧ t.md = s.md)

/-- For every state and accepted PCIe command: SVC_STATUS returns its words. SERVICE_ENTER with a service authorisation and no load
running enters SERVICE; without an authorisation it replies 0x0402 and stays. SERVICE_EXIT enters STANDBY with the production
firmware running. FW_UPDATE of a package that passes its checks, for a production image outside SERVICE or a service image in it,
with none in progress and no recovery, replies 0x0001 and is in order 1 with the running firmware unchanged. Outside SAFE HOLD, in which
it does not end, its good end with both controllers up swaps the active controller and runs the package's version; a bad end leaves the running firmware; both end
the wait. Design data stay. -/
def Obligations.ServiceModeAndFirmwareCommands : Prop :=
  ∀ (s : State) (c : Cmd),
    (accepts s 0x0B00 noCheck c = true → ∃ t, exec (.svcStatus c) s = .next t ∧ replied (takeEntry s c) 0x0B00 c 0 [hsbCtrl s, s.ctl.fw, standbyFw s] t)
    ∧ (accepts s 0x0B01 noCheck c = true → s.img.loading = none → s.sec.authService = true →
      ∃ t, exec (.serviceEnter c) s = .next t ∧ t.md.mode = .service ∧ t.ds = s.ds ∧ t.img = s.img ∧ t.ctl = s.ctl ∧ t.seq = s.seq)
    ∧ (accepts s 0x0B01 noCheck c = true → s.img.loading = none → s.sec.authService = false →
      ∃ t r, exec (.serviceEnter c) s = .next t ∧ t = { s with regs := t.regs, io := t.io }
        ∧ lookup t.io.replies ((reg s (bkey 0x103C)).toNat % 2 ^ (reg s (bkey 0x1038)).toNat) = some r ∧ r.status = 0x0402)
    ∧ (accepts s 0x0B02 noCheck c = true →
      ∃ t, exec (.serviceExit c) s = .next t ∧ t.md.mode = .standby ∧ t.ctl.fw = s.ctl.prod ∧ t.ctl.prod = s.ctl.prod ∧ t.ds = s.ds ∧ t.img = s.img)
    ∧ (∀ b, accepts s 0x0B03 chkFwUpdate c = true → packageOf c = some b → s.ctl.update = none → s.ckp.recovery = none →
        packageCheck s b (cPar64 c 3) = 0 → (bitOf b.fwVersion.toNat 31 = true ↔ s.md.mode = .service) → s.io.waiting.length < 64 →
      ∃ t, exec (.fwUpdate c) s = .next t ∧ t.ctl = { s.ctl with update := some b, order := 1 } ∧ waitingOf 0x0B03 c ∈ t.io.waiting
        ∧ t.ds = s.ds ∧ t.md = s.md)
    ∧ (∀ ok, s.md.safeHold.isSome = true → exec (.fwUpdateComplete ok) s = .next s)
    ∧ (∀ b, s.md.safeHold = none → s.ctl.update = some b → s.ctl.aFailed = false → s.ctl.bFailed = false →
      ∃ t, exec (.fwUpdateComplete true) s = .next t ∧ t.ctl.fw = b.fwVersion ∧ t.ctl.fwA = b.fwVersion ∧ t.ctl.fwB = b.fwVersion
        ∧ t.ctl.activeB = !s.ctl.activeB ∧ t.ctl.update = none ∧ t.ctl.order = 0
        ∧ t.ctl.prod = (if bitOf b.fwVersion.toNat 31 then s.ctl.prod else b.fwVersion)
        ∧ t.io.waiting.all (fun w => w.opcode != 0x0B03) = true ∧ t.ds = s.ds ∧ t.md = s.md)
    ∧ (∀ b, s.md.safeHold = none → s.ctl.update = some b →
      ∃ t, exec (.fwUpdateComplete false) s = .next t ∧ t.ctl = { s.ctl with update := none, order := 0 }
        ∧ t.io.waiting.all (fun w => w.opcode != 0x0B03) = true ∧ t.ds = s.ds ∧ t.md = s.md)

/-- For every state and accepted PCIe command: TRACE_CTRL with P0 = 1 raises the HOST input alone; with P0 = 2 it puts the event
machine into state 0 with ON 0 and clears the write pointer and the loss count; BANK_POWER sets the power state of the bank named,
once what waits at its ports has ended, clears a bank that it switches off, unless a controller in use owns a bank that is to be
switched off, which replies 0x0202 and changes no bank, and leaves every other bank; MGMT_CONFIG keeps P1 to P6 for its port; DIAG
with room replies 0x0001 and waits; DIAG_COMPLETE outside SAFE HOLD with a status code of R366 ends the oldest DIAG with it, and with no
such code changes nothing. Mode and design data are unchanged. -/
def Obligations.TraceBankManagementAndDiagnostics : Prop :=
  ∀ (s : State) (c : Cmd), let u := takeEntry s c
    (accepts s 0x0B04 chkTraceCtrl c = true → cPar c 0 = 1 →
      ∃ t, exec (.traceCtrlHost c) s = .next t ∧ replied { u with trc := { u.trc with hostIn := true } } 0x0B04 c 0 [] t)
    ∧ (accepts s 0x0B04 chkTraceCtrl c = true → cPar c 0 = 2 →
      ∃ t, exec (.traceCtrlRestart c) s = .next t ∧ t.trc = { s.trc with st := 0, on := false, stored := 0 } ∧ ioReg t 0x16 0x014 = 0
        ∧ ioReg t 0x16 0x018 = 0 ∧ t = { s with regs := t.regs, io := t.io, trc := t.trc })
    ∧ (∀ b, accepts s 0x0B05 chkBankPower c = true → s.banks[cPar c 0]? = some b → (cPar c 1 ≠ 2 ∨ b.power = 2 ∨ bankInUse s b = false) →
      ∃ t x, exec (.bankPower c) s = .next t ∧ t.banks[cPar c 0]? = some x ∧ x.power = cPar c 1 ∧ x.owner = b.owner ∧ x.reads = [] ∧ x.writes = []
        ∧ (cPar c 1 = 2 → x.words = [] ∧ x.poison = []) ∧ (∀ k, k ≠ cPar c 0 → t.banks[k]? = s.banks[k]?)
        ∧ (b.reads = [] → b.writes = [] → traceBank s (cPar c 0) = false → b.power ≠ 2 → cPar c 1 ≠ 2 → x = { b with power := cPar c 1 })
        ∧ t.ds = s.ds ∧ t.md = s.md)
    ∧ (∀ b, accepts s 0x0B05 chkBankPower c = true → s.banks[cPar c 0]? = some b → cPar c 1 = 2 → b.power ≠ 2 → bankInUse s b = true →
      ∃ t r, exec (.bankPower c) s = .next t ∧ t = { s with regs := t.regs, io := t.io }
        ∧ lookup t.io.replies ((reg s (bkey 0x103C)).toNat % 2 ^ (reg s (bkey 0x1038)).toNat) = some r ∧ r.status = 0x0202)
    ∧ (accepts s 0x0B06 chkMgmt c = true →
      ∃ t, exec (.mgmtConfig c) s = .next t ∧ replied { u with ctl := { u.ctl with mgmt := put s.ctl.mgmt (cPar c 0) (cWords c 1 6) } } 0x0B06 c 0 [] t)
    ∧ (accepts s 0x0B07 noCheck c = true → s.io.waiting.length < 64 →
      ∃ t, exec (.diag c) s = .next t ∧ replied (nowWaiting u 0x0B07 c) 0x0B07 c 1 [] t)
    ∧ (∀ w st ws, s.md.safeHold = none → firstWaiting s (fun w => w.opcode == 0x0B07) = some w → w.quiet = false → w.path = .pcie → finalStatus st = true →
      ∃ t, exec (.diagComplete st ws) s = .next t ∧ t.io.waiting.length + 1 = s.io.waiting.length
        ∧ (∃ e ∈ t.io.queue, e.code = 1 ∧ e.status = st ∧ e.tag = w.tag ∧ e.payload = ws) ∧ t.ds = s.ds ∧ t.md = s.md)
    ∧ (∀ st ws, finalStatus st = false ∨ s.md.safeHold.isSome = true → exec (.diagComplete st ws) s = .next s)

/-- For every state and accepted PCIe command with room: PR_LOAD of a bitstream whose region is not barred, with the key it must use,
a right signature and a table of that region's rising frames, replies 0x0001 and makes the region LOADING, no other.
PR_LOAD_COMPLETE of the oldest load outside SAFE HOLD makes its region VALID and keeps its digest when the body is good, and INVALID otherwise,
writes the frames whose records are good up to the first that is not, leaves every other region, and ends the wait. FAB_STATUS
returns the code of the region's state and changes nothing. Design data, mode and DCN are unchanged. -/
def Obligations.PartialLoadsOfFabricRegions : Prop :=
  ∀ (s : State) (c : Cmd), let r := cPar c 0
    (∀ p, accepts s 0x0C01 chkPrLoad c = true → bitsOf c = some p → prBars s r = 0 → prKeyOk s p = true → prSigOk s p = true →
        p.table.length = p.nFrames → risingFrames p.table = true → p.table.all (entryHere r) = true → s.io.waiting.length < 64 →
      ∃ t, exec (.prLoad c) s = .next t ∧ regionSt t r = .loading ∧ (∀ o, o ≠ r → regionSt t o = regionSt s o) ∧ lookup t.fab.loads r = some p
        ∧ waitingOf 0x0C01 c ∈ t.io.waiting ∧ t.ds = s.ds ∧ t.md = s.md ∧ t.seq = s.seq)
    ∧ (∀ w p, s.md.safeHold = none → firstWaiting s (fun w => w.opcode == 0x0C01) = some w → lookup s.fab.loads (cPar w.cmd 0) = some p →
      ∃ t, exec .prLoadComplete s = .next t ∧ regionSt t (cPar w.cmd 0) = (if bodyStatus p = 0 then .valid else .invalid)
        ∧ (∀ o, o ≠ cPar w.cmd 0 → regionSt t o = regionSt s o)
        ∧ (bodyStatus p = 0 → lookup t.sec.prDigests (cPar w.cmd 0) = some p.bodyDigest)
        ∧ t.fab.logic.frames = (writtenRecords p).foldl (fun m f => put m f.addr.toNat f.items) s.fab.logic.frames ∧ t.io.waiting.length + 1 = s.io.waiting.length
        ∧ t.ds = s.ds ∧ t.md = s.md ∧ t.seq = s.seq)
    ∧ (accepts s 0x0C02 chkFabRegion c = true →
      ∃ t, exec (.fabStatus c) s = .next t ∧ replied (takeEntry s c) 0x0C02 c 0 [BitVec.ofNat 32 (regionCode (regionSt s r))] t)

/-- For every state, die and instruction named here that the die's engine is about to execute within its budget: exec answers the next
state in which only that die's engine differs, and of it only the cycles used, the cache, PC, and the register that the table
names: K[KA] for LDI, SETHI (bits [31:20]), ADD, ADDI, GETP, LDK, GETM and GETW, the pointer for SETP, both shifts for SETSH, the
accumulators for CLRA, one word of Z for STK, PC for JMP and a BR that is taken; nothing for NOP and a BR that is not. JMP takes 2
cycles, a taken BR 2, the others 1. SUMA (2 cycles), LDZ (1), MAX and MIN of N words (ceil(N ÷ 16) + 2) of an engine about to
execute them answer a next state as well, past the instruction with those cycles used (their results:
SumsLoadsAndExtremesOfTheEngine). -/
def Obligations.ChurnRegisterInstructions : Prop :=
  ∀ (s : State) (d : Nat) (c : ChurnDie),
    let after (m : ChurnMach) : Host.Outcome State Fault Refusal := .next (setChn s d { c with m := m })
    let m1 := afterFetch c.m 1
    (engineReady s d (.nop d) 1 c → exec (.nop d) s = after m1)
    ∧ (∀ a v, engineReady s d (.ldi d a v) 1 c → exec (.ldi d a v) s = after (kSet m1 a (v.signExtend 32)))
    ∧ (∀ a v, engineReady s d (.sethi d a v) 1 c → exec (.sethi d a v) s = after (kSet m1 a ((v.setWidth 32 <<< 20) ||| ((kGet c.m a).setWidth 20).setWidth 32)))
    ∧ (∀ a b k, engineReady s d (.add d a b k) 1 c → exec (.add d a b k) s = after (kSet m1 a (kGet c.m b + kGet c.m k)))
    ∧ (∀ a b v, engineReady s d (.addi d a b v) 1 c → exec (.addi d a b v) s = after (kSet m1 a (kGet c.m b + v.signExtend 32)))
    ∧ (∀ b, engineReady s d (.setp d b 0) 1 c → exec (.setp d b 0) s = after { m1 with px := (kGet c.m b).toNat % 2048 })
    ∧ (∀ b, engineReady s d (.setp d b 1) 1 c → exec (.setp d b 1) s = after { m1 with py := (kGet c.m b).toNat % 8192 })
    ∧ (∀ b, engineReady s d (.setp d b 2) 1 c → exec (.setp d b 2) s = after { m1 with pz := (kGet c.m b).toNat % 8192 })
    ∧ (∀ a p, p ≠ 3 → engineReady s d (.getp d a p) 1 c →
        exec (.getp d a p) s = after (kSet m1 a (lo32 (if p = 0 then c.m.px else if p = 1 then c.m.py else c.m.pz))))
    ∧ (∀ x z, engineReady s d (.setsh d x z) 1 c → exec (.setsh d x z) s = after { m1 with xsh := x.toNat, zsh := z.toNat })
    ∧ (engineReady s d (.clra d) 1 c → exec (.clra d) s = after { m1 with a := List.replicate 16 0 })
    ∧ (∀ a v, engineReady s d (.ldk d a v) 1 c → exec (.ldk d a v) s = after (kSet m1 a (rd c.m.z v.toNat)))
    ∧ (∀ a v, engineReady s d (.stk d a v) 1 c → exec (.stk d a v) s = after { m1 with z := wr c.m.z v.toNat (kGet c.m a) })
    ∧ (∀ a l, engineReady s d (.getm d a l) 1 c → exec (.getm d a l) s = after (kSet m1 a (if l = 0 then c.m.mval else lo32 c.m.midx)))
    ∧ (∀ a l, engineReady s d (.getw d a l) 1 c → exec (.getw d a l) s = after (kSet m1 a
        (if l = 0 then lo32 c.m.winDcn else if l = 1 then hi32 c.m.winDcn else if l = 2 then lo32 c.m.windows else lo32 (8 * posOf s + d))))
    ∧ (∀ v, engineReady s d (.jmp d v) 2 c → exec (.jmp d v) s = after { afterFetch c.m 2 with pc := v.toNat })
    ∧ (∀ a b k v, k.toNat < 4 → brTaken k (kGet c.m a) (kGet c.m b) = true → engineReady s d (.br d a b k v) 2 c →
        exec (.br d a b k v) s = after { afterFetch c.m 2 with pc := v.toNat })
    ∧ (∀ a b k v, k.toNat < 4 → brTaken k (kGet c.m a) (kGet c.m b) = false → engineReady s d (.br d a b k v) 1 c → exec (.br d a b k v) s = after m1)
    ∧ (engineReady s d (.suma d) 2 c → ∃ t n, exec (.suma d) s = .next t ∧ chnOf t d = some { c with m := n }
        ∧ n.pc = (c.m.pc + 1) % 4096 ∧ n.used = c.m.used + fetchCost c.m c.m.pc + 2)
    ∧ (engineReady s d (.ldz d) 1 c → ∃ t n, exec (.ldz d) s = .next t ∧ chnOf t d = some { c with m := n }
        ∧ n.pc = (c.m.pc + 1) % 4096 ∧ n.used = c.m.used + fetchCost c.m c.m.pc + 1)
    ∧ (∀ k : BitVec 13, engineReady s d (.max d k) ((k.toNat + 16) / 16 + 2) c → ∃ t n, exec (.max d k) s = .next t ∧ chnOf t d = some { c with m := n }
        ∧ n.pc = (c.m.pc + 1) % 4096 ∧ n.used = c.m.used + fetchCost c.m c.m.pc + ((k.toNat + 16) / 16 + 2))
    ∧ (∀ k : BitVec 13, engineReady s d (.min d k) ((k.toNat + 16) / 16 + 2) c → ∃ t n, exec (.min d k) s = .next t ∧ chnOf t d = some { c with m := n }
        ∧ n.pc = (c.m.pc + 1) % 4096 ∧ n.used = c.m.used + fetchCost c.m c.m.pc + ((k.toNat + 16) / 16 + 2))

/-- For every state and die whose engine is about to execute MAC or MACS within its budget, with YSTEP at most 16: the X operand of
lane l is min(2^23 − 1, (x + 2^(XSH − 1)) ÷ 2^XSH rounded down) of the count x at PX + l of the closed bank when XSH is at least
1, and min(2^23 − 1, x) when XSH is 0. The lane becomes its old value plus that operand times the coefficient at PY + l (MACS: at
PY), clamped to 56 bits. A lane whose operand clamps sets X_SAT of the window and of CHN_STATUS; it is not set otherwise, nor is
ACC_SAT without a clamped sum. PX grows by 16 and PY by YSTEP, modulo their memories; K, Y, Z, PZ and the other dies are
unchanged, and so is everything outside the engine but CHN_STATUS. -/
def Obligations.MacTakesTheClampedOperand : Prop :=
  ∀ (s : State) (d : Nat) (c : ChurnDie) (y : BitVec 5) (shared : Bool),
    let i : Instr := if shared then .macs d y else .mac d y
    let x (l : Nat) : Nat := (rd c.m.closedB ((c.m.px + l) % 2048)).toNat
    let xv (l : Nat) : Nat := if c.m.xsh = 0 then x l else (x l + 2 ^ (c.m.xsh - 1)) / 2 ^ c.m.xsh
    let yv (l : Nat) : Word := rd c.m.y ((c.m.py + (if shared then 0 else l)) % 8192)
    let sum (l : Nat) : Int := (nth (0 : BitVec 56) c.m.a l).toInt + ((min (2 ^ 23 - 1) (xv l) : Nat) : Int) * coeff (yv l)
    y.toNat ≤ 16 → engineReady s d i 1 c →
    ∃ t n, exec i s = .next t ∧ chnOf t d = some { c with m := n }
      ∧ (∀ l, l < 16 → (nth (0 : BitVec 56) n.a l).toInt = max (-(2 ^ 55)) (min (2 ^ 55 - 1) (sum l)))
      ∧ (n.xSat = true ↔ c.m.xSat = true ∨ ∃ l, l < 16 ∧ 2 ^ 23 - 1 < xv l)
      ∧ (n.accSat = true ↔ c.m.accSat = true ∨ ∃ l, l < 16 ∧ (sum l < -(2 ^ 55) ∨ 2 ^ 55 - 1 < sum l))
      ∧ ((∃ l, l < 16 ∧ 2 ^ 23 - 1 < xv l) → bitOf (reg t (rkey d 0x07 0x004)).toNat 2 = true)
      ∧ n = { afterFetch c.m 1 with a := n.a, px := (c.m.px + 16) % 2048, py := (c.m.py + y.toNat) % 8192, xSat := n.xSat, accSat := n.accSat }
      ∧ (∀ o, o ≠ d → chnOf t o = chnOf s o) ∧ (∀ k, k ≠ rkey d 0x07 0x004 → reg t k = reg s k) ∧ t = { s with chn := t.chn, regs := t.regs }

/-- For every state and die whose engine is about to execute STA within its budget: the value stored for accumulator a is (a + 2^(ZSH
− 1)) ÷ 2^ZSH rounded towards minus infinity when ZSH is at least 1, and a when ZSH is 0, clamped to −2^31 to 2^31 − 1. Mode 0
stores lane l at PZ + l for the 16 lanes and adds 16 to PZ; mode 1 stores lane 0 at PZ and adds 1; pointers wrap modulo 8,192 and
every other word of Z stays. A clamp of a stored value sets Z_SAT of the window and of CHN_STATUS, and Z_SAT is not set otherwise.
The accumulators, K, Y, the other pointers, the other dies and everything outside the engine but CHN_STATUS are unchanged. -/
def Obligations.StoresRoundHalfUpAndClamp : Prop :=
  ∀ (s : State) (d : Nat) (c : ChurnDie) (md : BitVec 1),
    let v (l : Nat) : Int := let a := (nth (0 : BitVec 56) c.m.a l).toInt; if c.m.zsh = 0 then a else (a + 2 ^ (c.m.zsh - 1)) / 2 ^ c.m.zsh
    let lanes : Nat := if md = 0 then 16 else 1
    engineReady s d (.sta d md) 1 c →
    ∃ t n, exec (.sta d md) s = .next t ∧ chnOf t d = some { c with m := n }
      ∧ (∀ l, l < lanes → (rd n.z ((c.m.pz + l) % 8192)).toInt = max (-(2 ^ 31)) (min (2 ^ 31 - 1) (v l)))
      ∧ (∀ k, (∀ l, l < lanes → k ≠ (c.m.pz + l) % 8192) → rd n.z k = rd c.m.z k)
      ∧ (n.zSat = true ↔ c.m.zSat = true ∨ ∃ l, l < lanes ∧ (v l < -(2 ^ 31) ∨ 2 ^ 31 - 1 < v l))
      ∧ ((∃ l, l < lanes ∧ (v l < -(2 ^ 31) ∨ 2 ^ 31 - 1 < v l)) → bitOf (reg t (rkey d 0x07 0x004)).toNat 4 = true)
      ∧ n = { afterFetch c.m 1 with z := n.z, pz := (c.m.pz + lanes) % 8192, zSat := n.zSat }
      ∧ (∀ o, o ≠ d → chnOf t o = chnOf s o) ∧ (∀ k, k ≠ rkey d 0x07 0x004 → reg t k = reg s k) ∧ t = { s with chn := t.chn, regs := t.regs }

/-- For every state and die whose engine is about to execute the instruction within its budget: SUMA makes A0 the sum of the lanes in
ascending order, each partial sum clamped to 56 bits, clears the other 15, and takes 2 cycles; LDZ makes lane l the Z word at PZ +
l times 2^ZSH clamped to 56 bits and adds 16 to PZ; MAX (MIN) of N words, at ceil(N ÷ 16) + 2 cycles, leaves in MVAL the largest
(smallest) signed word of Z[PZ] to Z[PZ + N − 1] and in MIDX its lowest offset. ACC_SAT of the window is set by a sum or load that
clamps, and by nothing else; a clamp sets it in CHN_STATUS too. Nothing else of the engine changes but its cycles, cache and PC,
and nothing outside it but CHN_STATUS. -/
def Obligations.SumsLoadsAndExtremesOfTheEngine : Prop :=
  ∀ (s : State) (d : Nat) (c : ChurnDie),
    let lane (m : ChurnMach) (l : Nat) : Int := (nth (0 : BitVec 56) m.a l).toInt
    let zw (i : Nat) : Int := (rd c.m.z ((c.m.pz + i) % 8192)).toInt
    let partSum (j : Nat) : Int := ((c.m.a.drop 1).take j).foldl (fun v l => max (-(2 ^ 55)) (min (2 ^ 55 - 1) (v + l.toInt))) (lane c.m 0)
    let sumClamps : Prop := ∃ j, j + 1 < c.m.a.length ∧ (partSum j + lane c.m (j + 1) < -(2 ^ 55) ∨ 2 ^ 55 - 1 < partSum j + lane c.m (j + 1))
    (engineReady s d (.suma d) 2 c →
      ∃ t n, exec (.suma d) s = .next t ∧ chnOf t d = some { c with m := n }
        ∧ lane n 0 = (c.m.a.drop 1).foldl (fun v l => max (-(2 ^ 55)) (min (2 ^ 55 - 1) (v + l.toInt))) (lane c.m 0)
        ∧ (∀ l, 1 ≤ l → l < 16 → lane n l = 0) ∧ (n.accSat = true ↔ c.m.accSat = true ∨ sumClamps)
        ∧ (sumClamps → bitOf (reg t (rkey d 0x07 0x004)).toNat 3 = true) ∧ (∀ k, k ≠ rkey d 0x07 0x004 → reg t k = reg s k)
        ∧ n = { afterFetch c.m 2 with a := n.a, accSat := n.accSat } ∧ (∀ o, o ≠ d → chnOf t o = chnOf s o) ∧ t = { s with chn := t.chn, regs := t.regs })
    ∧ (engineReady s d (.ldz d) 1 c →
      ∃ t n, exec (.ldz d) s = .next t ∧ chnOf t d = some { c with m := n }
        ∧ (∀ l, l < 16 → lane n l = max (-(2 ^ 55)) (min (2 ^ 55 - 1) (zw l * 2 ^ c.m.zsh)))
        ∧ (n.accSat = true ↔ c.m.accSat = true ∨ ∃ l, l < 16 ∧ (zw l * 2 ^ c.m.zsh < -(2 ^ 55) ∨ 2 ^ 55 - 1 < zw l * 2 ^ c.m.zsh))
        ∧ n = { afterFetch c.m 1 with a := n.a, pz := (c.m.pz + 16) % 8192, accSat := n.accSat }
        ∧ (∀ k, k ≠ rkey d 0x07 0x004 → reg t k = reg s k) ∧ (∀ o, o ≠ d → chnOf t o = chnOf s o) ∧ t = { s with chn := t.chn, regs := t.regs })
    ∧ (∀ k : BitVec 13, engineReady s d (.max d k) ((k.toNat + 1 + 15) / 16 + 2) c →
      ∃ n, exec (.max d k) s = .next (setChn s d { c with m := n }) ∧ n.midx ≤ k.toNat ∧ n.mval.toInt = zw n.midx
        ∧ (∀ i, i ≤ k.toNat → zw i ≤ zw n.midx) ∧ (∀ i, i < n.midx → zw i < zw n.midx)
        ∧ n = { afterFetch c.m ((k.toNat + 1 + 15) / 16 + 2) with mval := n.mval, midx := n.midx })
    ∧ (∀ k : BitVec 13, engineReady s d (.min d k) ((k.toNat + 1 + 15) / 16 + 2) c →
      ∃ n, exec (.min d k) s = .next (setChn s d { c with m := n }) ∧ n.midx ≤ k.toNat ∧ n.mval.toInt = zw n.midx
        ∧ (∀ i, i ≤ k.toNat → zw n.midx ≤ zw i) ∧ (∀ i, i < n.midx → zw n.midx < zw i)
        ∧ n = { afterFetch c.m ((k.toNat + 1 + 15) / 16 + 2) with mval := n.mval, midx := n.midx })

/-- For every state: at the end of B15 of a window's last cycle CHURN_WINDOW_CLOSE swaps the banks, clears the new open one and starts
the program as R270 says, with K, MVAL, MIDX, Y and Z kept. REPEAT of N with a following instruction that R281 admits answers a
next state past that instruction; N times ADDI of a register to itself adds N times the immediate. OUT posts one record of its Z
words when the result buffer has room, and otherwise counts it lost; for a window of which a record had left before a recovery it
posts none. HALT ends the program and keeps its cycles in CHN_LAST and the largest in CHN_MAXCYC. An instruction that uses up the
budget ends the program with a 0-word record marked ABORTED, counted in CHN_ABORTS. An engine that fetches a poisoned word stops:
a 0-word record with FAULT, EN clear, design data and mode unchanged. CHURN_RESULT sends the oldest record to the ring that the
host named, in host memory or, for a base with bit 63 set, in a service bank of owner 4 that is on, and writes the producer offset
back (the bank base is the model's reading, log 25); a bank of another owner counts the refusal, and one that is not on does not: the
record stays in the buffer. -/
def Obligations.ProgramsRepeatPostAndEnd : Prop :=
  ∀ (s : State) (d : Nat) (c : ChurnDie),
    (chnOf s d = some c → s.seq.tick = .bound 16 → closeDue s c = true →
      ∃ n, exec (.churnWindowClose d) s = .next (setChn s d { c with m := n }) ∧ n.closeTime = stamp s ∧ n.closedB = c.m.openB ∧ n.openB = []
        ∧ n.running = true ∧ n.pc = 0 ∧ n.px = 0 ∧ n.py = 0 ∧ n.pz = 0 ∧ n.xsh = 0 ∧ n.zsh = 0 ∧ n.a = List.replicate 16 0 ∧ n.cache = []
        ∧ n.used = 0 ∧ n.outno = 0 ∧ n.winDcn = winStart c.m.wexp s.seq.dcn ∧ n.k = c.m.k ∧ n.mval = c.m.mval ∧ n.midx = c.m.midx ∧ n.y = c.m.y
        ∧ n.z = c.m.z)
    ∧ (∀ (k : BitVec 10) (i : Instr), let a := (c.m.pc + 1) % 4096
        let cost := 1 + fetchCost { c.m with cache := cacheAfter c.m c.m.pc } a + (k.toNat + 1)
        engineReady s d (.repeatN d k) cost c → instrAt c d a = some i → Instr.repeatable i = true → Instr.wellFormed i = true →
        ∃ t n, exec (.repeatN d k) s = .next t ∧ chnOf t d = some { c with m := n } ∧ n.pc = (a + 1) % 4096 ∧ n.running = true
          ∧ n.used = c.m.used + fetchCost c.m c.m.pc + cost ∧ n.closedB = c.m.closedB ∧ n.openB = c.m.openB ∧ n.y = c.m.y
          ∧ (∀ r v, i = .addi d r r v → c.m.k.length = 8 → n.k = (kSet c.m r (kGet c.m r + BitVec.ofNat 32 (k.toNat + 1) * v.signExtend 32)).k)
          ∧ (∀ o, o ≠ d → chnOf t o = chnOf s o) ∧ t = { s with chn := t.chn, regs := t.regs })
    ∧ (∀ k : BitVec 10, let cost := (k.toNat + 1 + 15) / 16 + 1
        let m := afterFetch c.m cost
        let r := resultWords s d c (recFlags c false false) (zWords c.m (k.toNat + 1))
        engineReady s d (.out d k) cost c →
        (muted c = true → exec (.out d k) s = .next (setChn s d { c with m := { m with seq := (m.seq + 1) % 2 ^ 32, outno := m.outno + 1 } }))
        ∧ (muted c = false → bufBytes c + 4 * (k.toNat + 9) ≤ 65536 → exec (.out d k) s = .next (setChn s d
            { c with m := { m with seq := (m.seq + 1) % 2 ^ 32, outno := m.outno + 1 }, buf := c.buf ++ [r], lostNext := false }))
        ∧ (muted c = false → 65536 < bufBytes c + 4 * (k.toNat + 9) → ∃ t, exec (.out d k) s = .next t
            ∧ chnOf t d = some { c with m := { m with seq := (m.seq + 1) % 2 ^ 32, outno := m.outno + 1 }, lostNext := true }
            ∧ (reg t (rkey d 0x07 0x020)).toNat = satAdd 32 (reg s (rkey d 0x07 0x020)).toNat 1 ∧ t = { s with chn := t.chn, regs := t.regs }))
    ∧ (engineAt s d (.halt d) 1 = some c → let u := c.m.used + fetchCost c.m c.m.pc + 1
        ∃ t n, exec (.halt d) s = .next t ∧ chnOf t d = some { c with m := n } ∧ n.running = false ∧ n.used = u ∧ n.k = c.m.k ∧ n.z = c.m.z
          ∧ reg t (rkey d 0x07 0x00C) = lo32 u
          ∧ reg t (rkey d 0x07 0x010) = (if (reg s (rkey d 0x07 0x010)).toNat < u then lo32 u else reg s (rkey d 0x07 0x010))
          ∧ (∀ o, o ≠ d → chnOf t o = chnOf s o) ∧ t = { s with chn := t.chn, regs := t.regs })
    ∧ (engineAt s d (.nop d) 1 = some c → budget s c.m.wexp ≤ c.m.used + fetchCost c.m c.m.pc + 1 → muted c = false → bufBytes c + 32 ≤ 65536 →
        ∃ t e, exec (.nop d) s = .next t ∧ chnOf t d = some e ∧ e.m.running = false
          ∧ e.buf = c.buf ++ [resultWords s d c (recFlags c true false) []]
          ∧ (reg t (rkey d 0x07 0x01C)).toNat = satAdd 16 (reg s (rkey d 0x07 0x01C)).toNat 1 ∧ t = { s with chn := t.chn, regs := t.regs })
    ∧ (engineDue s d (.nop d) 1 = some c → c.m.pc ∈ c.poison → c.m.pc ∉ c.m.cache → c.m.pc < c.progLen → c.m.pc < 4096 → c.m.en = true →
        muted c = false → bufBytes c + 32 ≤ 65536 →
        ∃ t e, exec (.nop d) s = .next t ∧ chnOf t d = some e ∧ e.m.en = false ∧ e.m.running = false ∧ e.fault = true
          ∧ e.buf = c.buf ++ [resultWords s d c (recFlags c false true) []] ∧ t.ds = s.ds ∧ t.md = s.md)
    ∧ (∀ base bytes wb vec r rs, chnOf s d = some c → c.ring = some (base, bytes, wb, vec) → c.buf = r :: rs → s.md.safeHold = none →
        let bank := s.banks[base % 2 ^ 63 / bankBytes]?
        (∀ b, bitOf base 63 = true → bank = some b → b.owner = 4 → b.power ≠ 0 → exec (.churnResult d) s = .next s)
        ∧ (∀ b, bitOf base 63 = true → bank = some b → b.owner ≠ 4 →
          exec (.churnResult d) s = .next (bumpIo s 0x13 (0x40C + 16 * (base % 2 ^ 63 / bankBytes)) 16 1))
        ∧ (bitOf base 63 = false ∨ (∃ b, bank = some b ∧ b.owner = 4 ∧ b.power = 0) →
        ∃ t e, exec (.churnResult d) s = .next t ∧ (bitOf base 63 = false → t.banks = s.banks)
          ∧ (∀ k, k ≠ base % 2 ^ 63 / bankBytes → base % 2 ^ 24 + bytes ≤ 2 ^ 24 → c.ringProd % bytes + 4 * r.length ≤ bytes → t.banks[k]? = s.banks[k]?) ∧ chnOf t d = some e ∧ e.buf = rs ∧ e.ringProd = (c.ringProd + 4 * r.length) % 2 ^ 32
          ∧ lookup t.io.dma wb = some [lo32 e.ringProd] ∧ e.m = c.m ∧ e.lastLeft = some (par64 r 2) ∧ t.ds = s.ds ∧ t.md = s.md ∧ t.regs = s.regs))

/-- R277 calls P 3, YSTEP above 16 and COND 4 to 7 reserved and R281 admits seven instructions after a REPEAT; neither gives another
an effect. For every state: SETP, GETP, MAC, MACS or BR with a reserved operand, and REPEAT before another instruction, end in the
fault reservedChurnEncoding exactly when the engine of the die is about to execute them; when it is not, and no word of its
memories is poisoned, the state is unchanged. With no reserved operand none of these rows faults. -/
def Obligations.ReservedChurnEncodingsStopTheEngine : Prop :=
  ∀ (s : State) (d : Nat),
    let noPoison : Prop := ∀ e, chnOf s d = some e → e.poison = []
    (∀ b, noPoison → exec (.setp d b 3) s = if (engineAt s d (.setp d b 3) 1).isSome then .fault .reservedChurnEncoding else .next s)
    ∧ (∀ a, noPoison → exec (.getp d a 3) s = if (engineAt s d (.getp d a 3) 1).isSome then .fault .reservedChurnEncoding else .next s)
    ∧ (∀ y, 16 < y.toNat → noPoison → exec (.mac d y) s = if (engineAt s d (.mac d y) 1).isSome then .fault .reservedChurnEncoding else .next s)
    ∧ (∀ y, 16 < y.toNat → noPoison → exec (.macs d y) s = if (engineAt s d (.macs d y) 1).isSome then .fault .reservedChurnEncoding else .next s)
    ∧ (∀ c a b k v, 4 ≤ k.toNat → noPoison → chnOf s d = some c → exec (.br d a b k v) s =
        if (engineAt s d (.br d a b k v) (if brTaken k (kGet c.m a) (kGet c.m b) then 2 else 1)).isSome then .fault .reservedChurnEncoding else .next s)
    ∧ (∀ c (n : BitVec 10), let a := (c.m.pc + 1) % 4096
        engineAt s d (.repeatN d n) (1 + fetchCost { c.m with cache := cacheAfter c.m c.m.pc } a + (n.toNat + 1)) = some c →
        (match instrAt c d a with | some i => Instr.repeatable i = false ∨ Instr.wellFormed i = false | none => True) →
        exec (.repeatN d n) s = .fault .reservedChurnEncoding)
    ∧ (∀ i f, Instr.wellFormed i = true → (∀ e n, i ≠ .repeatN e n) → Decode.churnDie i ≠ none → exec i s ≠ .fault f)

/-- For every state: a relayed command of any opcode that passes its checks, reaches no unit behind a spillway and answers at once is
run, and its reply, under its TAG, goes back to the position that relayed it, in a VN3 packet of its 32-bit words, and nowhere else;
one for another position, to which a route leads, is sent on as it came. Outside SAFE HOLD a relayed reply of a status that R366
lists to a PCIe command that waits unaccepted is written to the reply ring as it came, with TAKEOVER where a takeover came
meanwhile; after status 0x0001 the command stays relayed as accepted, and otherwise it is gone. An event of a final status other than
a completion is queued as it came, its SEQ and LENGTH with it, so is the completion of an accepted relayed command, which is then
gone; a completion that nobody awaits, and a status that R366 does not list, changes nothing. Outside SAFE HOLD RELAY_TIMEOUT answers an unaccepted PCIe command with 0x0504 and
the flag RELAYED, and completes an accepted one with 0x0504 once no route leads to it. -/
def Obligations.RelayedCommandsRepliesAndEvents : Prop :=
  ∀ (s : State) (pos code st flags len : Nat) (tag : BitVec 16) (dl seq : Word) (ws : List Word),
    let slot := (reg s (bkey 0x103C)).toNat % 2 ^ (reg s (bkey 0x1038)).toNat
    let e : Event := { code := code, status := st, tag := tag, dcnLo := dl, seq := seq, payload := ws, len := len, foreign := true }
    (∀ op c p m e ws, c.path = .relay p m → cPos c = posOf s → canTake s c = true → statusOf (takeEntry s c) op (opAction op).1 c = 0 →
        behindSpillway (takeEntry s c) op c = false → (opAction op).2 (takeEntry s c) c = (e, .ok ws) → e.md.safeHold = none →
      let r : Reply := { opcode := op, status := 0, flags := 0, tag := c.tag, dcnLo := dcnLo e, seq := c.seq, results := ws }
      ∃ t, exec (.relayedCommand op c) s = .next t ∧ t = dropClosing { e with net := t.net }
        ∧ t.net = { e.net with relayBack := t.net.relayBack, out := t.net.out } ∧ t.net.relayBack.head? = some (p, .inl r)
        ∧ t.net.relayBack.tail = e.net.relayBack.take 15 ∧ t.net.out = e.net.out ++ [vn3Packet e p 0x39 (bytesWords (replyPacket r))])
    ∧ (∀ op c p m, c.path = .relay p m → cPos c ≠ posOf s → reaches s (cPos c) = true → s.md.safeHold = none →
      exec (.relayedCommand op c) s = .next { s with net := { s.net with
        relayOut := ((cPos c, op, c) :: s.net.relayOut).take 16, out := s.net.out ++ [vn3Packet s (cPos c) 0x38 (bytesWords (commandPacket op c))] } })
    ∧ (st ≠ 1 → finalStatus st = false →
      exec (.relayedReply pos tag st flags dl ws) s = .next s ∧ exec (.event pos code st tag dl ⟨seq, len, ws⟩) s = .next s)
    ∧ (∀ r, s.io.relayed.find? (isRelayed pos tag false) = some r → r.path = .pcie → s.md.safeHold = none → r.quiet = false →
        st = 1 ∨ finalStatus st = true →
      ∃ t, exec (.relayedReply pos tag st flags dl ws) s = .next t
        ∧ lookup t.io.replies slot = some { opcode := r.opcode, status := st, flags := flags ||| b2n r.tko, tag := tag, dcnLo := dl, seq := r.seq, results := ws }
        ∧ t.io.relayed = dropFirst (isRelayed pos tag false) s.io.relayed ++ (if st = 1 then [{ r with accepted := true }] else [])
        ∧ t = { s with regs := t.regs, io := t.io })
    ∧ (code ≠ 1 → finalStatus st = true → ∃ t, exec (.event pos code st tag dl ⟨seq, len, ws⟩) s = .next t ∧ t.io = { s.io with queue := s.io.queue ++ [e] } ∧ t.ds = s.ds ∧ t.md = s.md)
    ∧ (∀ r, code = 1 → finalStatus st = true → s.io.relayed.find? (isRelayed pos tag true) = some r → r.quiet = false → ∃ t, exec (.event pos code st tag dl ⟨seq, len, ws⟩) s = .next t
        ∧ t.io = { s.io with queue := s.io.queue ++ [e], relayed := dropFirst (isRelayed pos tag true) s.io.relayed } ∧ t.ds = s.ds ∧ t.md = s.md)
    ∧ (code = 1 → s.io.relayed.any (isRelayed pos tag true) = false → exec (.event pos code st tag dl ⟨seq, len, ws⟩) s = .next s)
    ∧ (∀ r rs, s.io.relayed = r :: rs → r.tag = tag → r.accepted = false → r.path = .pcie → s.md.safeHold = none → r.quiet = false →
      ∃ t, exec (.relayTimeout tag) s = .next t ∧ t.io.relayed = rs
        ∧ lookup t.io.replies slot = some { opcode := r.opcode, status := 0x0504, flags := 2 + b2n r.tko, tag := tag, dcnLo := dcnLo s, seq := r.seq, results := [] }
        ∧ t = { s with regs := t.regs, io := t.io })
    ∧ (∀ r rs, s.io.relayed = r :: rs → r.tag = tag → r.accepted = true → reaches s r.pos = false → s.md.safeHold = none → r.quiet = false →
      ∃ t, exec (.relayTimeout tag) s = .next t ∧ t.io.relayed = rs
        ∧ t.io.queue = s.io.queue ++ [{ code := 1, status := 0x0504, tag := tag, dcnLo := dcnLo s, seq := s.io.evSeq, payload := [] }] ∧ t.io.evSeq = s.io.evSeq + 1 ∧ t.ds = s.ds ∧ t.md = s.md)

/-- For every state outside SAFE HOLD and an open session: a datagram whose MAC is not that of its session, counter and packet under
the session's key (HMAC by log 7), and one whose counter is not above the last, changes nothing but its drop count. One that
verifies, is new and carries the next SEQ runs its command (TIME_GET here): the reply leaves under the session's next counter with
its own MAC, and the session keeps the new counter and expects the next SEQ. EVENT_POST writes the oldest record of the queue
named at the index of EVTR_PROD with the SEQ that it was given when it was raised (the model's reading, log 24; another device's event
with its own), takes it off the queue and counts EVTR_PROD, when the rings are on, the ring has room and the mask lets it through; with no room it changes nothing; with the code
masked an error or hazard record stays in its queue and another event leaves its queue unwritten (the last is the model's reading,
log 24). -/
def Obligations.DatagramsAndPostedEvents : Prop :=
  ∀ (s : State) (d : Datagram) (x : Session),
    let idx := (reg s (bkey 0x105C)).toNat % 2 ^ (reg s (bkey 0x1058)).toNat
    let c : Cmd := { d.cmd with path := .session d.session }
    let mac := datagramMac x.key d.session d.counter (commandPacket d.opcode d.cmd)
    let rep : Reply := { opcode := 0x0900, status := 0, flags := 0, tag := c.tag, dcnLo := dcnLo s, seq := c.seq, results := words96 (stamp s) ++ dwords s.seq.dcn }
    let found := s.md.safeHold = none ∧ s.sec.sessions.find? (fun y => y.id == d.session) = some x
    (found → d.mac ≠ mac → exec (.mgmtDatagram d) s = .next (bumpIo s 0x17 0x00C 32 1))
    ∧ (found → d.mac = mac → d.counter ≤ x.ctrIn → exec (.mgmtDatagram d) s = .next (bumpIo s 0x17 0x010 32 1))
    ∧ (found → d.mac = mac → x.ctrIn < d.counter → x.nextSeq = some c.seq → d.opcode = 0x0900 → acceptsOn s d.session 0x0900 noCheck c = true →
      ∃ t, exec (.mgmtDatagram d) s = .next t ∧ t.net.mgmtOut.head? = some (d.session, x.ctrOut + 1, .inl rep, answerMac x.key d.session (x.ctrOut + 1) (.inl rep))
        ∧ (∀ y ∈ t.sec.sessions, y.id = d.session → y.ctrIn = d.counter ∧ y.nextSeq = some (c.seq + 1))
        ∧ t = { s with sec := { s.sec with sessions := t.sec.sessions }, net := t.net, io := { s.io with served := t.io.served } })
    ∧ (∀ e es, s.io.queue = e :: es → canPost s e.code = true →
      ∃ t, exec (.eventPost .other) s = .next t ∧ t.io.queue = es ∧ lookup t.io.events idx = some e ∧ t.io.evSeq = s.io.evSeq ∧ reg t (bkey 0x105C) = reg s (bkey 0x105C) + 1 ∧ t = { s with regs := t.regs, io := t.io })
    ∧ (∀ r rs, s.err.queue = r :: rs → canPost s 3 = true →
      ∃ t, exec (.eventPost .error) s = .next t ∧ t.err = { s.err with queue := rs } ∧ lookup t.io.events idx = some { errEvent r with seq := r.ev }
        ∧ t.io.queue = s.io.queue ∧ reg t (bkey 0x105C) = reg s (bkey 0x105C) + 1 ∧ t = { s with regs := t.regs, io := t.io, err := t.err })
    ∧ (∀ r rs, s.haz.queue = r :: rs → canPost s 2 = true →
      ∃ t, exec (.eventPost .hazard) s = .next t ∧ t.haz = { s.haz with queue := rs } ∧ lookup t.io.events idx = some { hazEvent r with seq := r.ev }
        ∧ t.io.queue = s.io.queue ∧ reg t (bkey 0x105C) = reg s (bkey 0x105C) + 1 ∧ t = { s with regs := t.regs, io := t.io, haz := t.haz })
    ∧ (canPost s 3 = false → exec (.eventPost .error) s = .next s) ∧ (canPost s 2 = false → exec (.eventPost .hazard) s = .next s)
    ∧ (ringTakes s = false → exec (.eventPost .other) s = .next s)
    ∧ (∀ e es, s.io.queue = e :: es → ringTakes s = true → canPost s e.code = false →
      exec (.eventPost .other) s = .next { s with io := { s.io with queue := es } })

/-- For every state: a device in SAFE HOLD acts on no firmware control packet, and the lead on no order of the lead. Outside SAFE
HOLD: a follower in RUN that steps keeps an ordered halt or run stop for the DCN named; one in LOADED with an image and no
recovery enters RUN with the sub-state ordered; one with capture armed or triggered enters FROZEN when told. A follower with SRC 2
keeps a board time until its tick. An ordered recovery begins at the present DCN. What another position reports of itself is what
the device knows of it, a position that is gone is forgotten, and the completion of the checkpoint being written is kept. None
changes design data. -/
def Obligations.OrdersAndReportsOfOtherControllers : Prop :=
  ∀ (s : State) (n : Nat),
    (∀ m, s.md.safeHold ≠ none → exec (.firmwareControl m) s = .next s)
    ∧ (isLead s = true → exec (.firmwareControl (.orderHalt n)) s = .next s ∧ exec (.firmwareControl (.orderStop n)) s = .next s
        ∧ exec (.firmwareControl (.orderHold n)) s = .next s ∧ (∀ a b, exec (.firmwareControl (.orderRunStart n a n b)) s = .next s)
        ∧ exec (.firmwareControl (.orderReplayStop n)) s = .next s ∧ exec (.firmwareControl .captureFrozen) s = .next s)
    ∧ (s.md.safeHold = none → isLead s = false → s.md.mode = .run → s.md.sub ≠ .halted →
        (∃ t, exec (.firmwareControl (.orderHalt n)) s = .next t ∧ ⟨n, .halt⟩ ∈ t.md.stops ∧ t = { s with md := { s.md with stops := t.md.stops } })
        ∧ ∃ t, exec (.firmwareControl (.orderStop n)) s = .next t ∧ ⟨n, .runStop⟩ ∈ t.md.stops ∧ t = { s with md := { s.md with stops := t.md.stops } })
    ∧ (∀ i, s.md.safeHold = none → isLead s = false → s.md.mode = .loaded → s.img.resident = some i → s.ckp.recovery = none →
        ∃ t, exec (.firmwareControl (.orderRunStart 0 false n false)) s = .next t ∧ t.md.mode = .run ∧ t.md.sub = .free ∧ t.md.debug = false
          ∧ t.md.stops = [] ∧ t.seq.tick = .step 0 ∧ t.seq.dcn = s.seq.dcn ∧ t.ds = s.ds)
    ∧ (s.md.safeHold = none → isLead s = false → capturing s = true →
        ∃ t, exec (.firmwareControl .captureFrozen) s = .next t ∧ t.cap = { s.cap with mode := .frozen } ∧ t.ds = s.ds ∧ t.md = s.md)
    ∧ (∀ sec ns fr incr, s.md.safeHold = none → isLead s = false → timeSrc s = 2 → exec (.firmwareControl (.boardTime n sec ns fr incr)) s
        = .next { s with time := { s.time with board := some (n, sec, ns, fr, incr) } })
    ∧ (s.md.safeHold = none → s.ckp.recovery = none → ∃ t r, exec (.firmwareControl (.orderRecovery n)) s = .next t
        ∧ t.ckp.recovery = some r ∧ r.f = s.seq.dcn ∧ r.stepping = false ∧ t = { s with ckp := t.ckp })
    ∧ (∀ part mode dcn sid dep disc sig ckp imp sh le busy stale wrote named, s.md.safeHold = none → n ≠ posOf s → n < 16 →
        ∃ t, exec (.firmwareControl (.peerStatus n part mode dcn sid dep disc sig ckp imp sh le busy stale wrote named)) s = .next t
          ∧ (∃ p ∈ t.peers, p.pos = n) ∧ (∀ p ∈ t.peers, p.pos = n → p.part = part ∧ p.mode = mode ∧ p.dcn = dcn ∧ p.setId = sid ∧ p.depth = dep
            ∧ p.discipline = disc ∧ p.sigDigest = sig ∧ p.ckpDcn = ckp ∧ p.logEnd = le ∧ p.busy = busy ∧ p.stale = stale ∧ p.wrote = wrote ∧ p.named = named)
          ∧ (∀ p ∈ s.peers, p.pos ≠ n → p ∈ t.peers) ∧ t = { s with peers := t.peers })
    ∧ (s.md.safeHold = none → ∃ t, exec (.firmwareControl (.peerGone n)) s = .next t ∧ (∀ p ∈ t.peers, p.pos ≠ n) ∧ (∀ p ∈ s.peers, p.pos ≠ n → p ∈ t.peers)
        ∧ t.ds = s.ds ∧ t.md = s.md)
    ∧ (∀ c pos, s.md.safeHold = none → s.ckp.busy = some c → c.dcn = n → exec (.firmwareControl (.ckpComplete pos n)) s
        = .next { s with ckp := { s.ckp with doneBy := ins s.ckp.doneBy pos } })

/-- For every state with no recovery in progress: the response of the oldest read of a port whose syndrome, with the tag of the
address it came from, is good, or that of one correctable bit, arrives, drops the read's stall request and, corrected, is counted;
an uncorrectable one ends its read without a row, makes its 64-bit word poison with data 0 and leaves every other word, and asks
for a recovery when the granule is saved and the DCN is not the one to which such a recovery has just replayed, and is FATAL
otherwise; a response missing 100 µs is counted and asks for a recovery, or is FATAL at that DCN. INSTRUCTION_REPAIR in a stall, outside
SAFE HOLD, rewrites the words that wait first in line, ends their repairs and makes their records, and changes nothing where a
repair of another kind is first. A physical group that has failed stays failed: the first mapped one of a cluster while running is
replaced by the spare with a recovery, a second is FATAL; a failed unmapped spare is kept (the model's choice, log 60). A scrubber
reads no word of a bank that is not on or of a region that loads, moves on past a word that it reads, counts what it corrects, and asks
for a recovery of classes 1 and 2; an uncorrectable instruction word goes into repair under code 8, and is FATAL when it is in repair
already. The bank test moves on, repairs up to four regions of a bank with its spares, holds a fifth in the save buffer and then
stops for it, asking for replacement; the words of a further one are poisoned. -/
def Obligations.ErrorsOfDesignMemoryAreMendedOrFatal : Prop :=
  ∀ (s : State) (gc port n : Nat), s.ckp.recovery = none →
    (∀ r y w, let o := ddrOutcome (ddrSyndrome (ddrWordAddr s r.key) y w)
        waitingRead s gc port = some r → s.ds.poison.contains (r.key / 4) = false → o = .good ∨ o = .corrected →
      ∃ t, exec (.ddrResponseArrival gc port ⟨y, w⟩) s = .next t
        ∧ t.ds = { s.ds with ddr := s.ds.ddr.map (fun x => if x == r then { x with arrived := true } else x) }
        ∧ t.slu.held.contains (0, ddrUnit r) = false ∧ t.md = s.md
        ∧ (reg t (rkey 15 0x13 0x1EC)).toNat = (if o = .good then (reg s (rkey 15 0x13 0x1EC)).toNat else satAdd 32 (reg s (rkey 15 0x13 0x1EC)).toNat 1))
    ∧ (∀ r y w, waitingRead s gc port = some r → s.ds.poison.contains (r.key / 4) = false →
        ddrOutcome (ddrSyndrome (ddrWordAddr s r.key) y w) = .uncorrectable →
      ∃ t, exec (.ddrResponseArrival gc port ⟨y, w⟩) s = .next t ∧ t.ds = { s.ds with
          ddr := s.ds.ddr.filter (fun x => x != r), regions := t.ds.regions, poison := ins s.ds.poison (r.key / 4) }
        ∧ (∀ k, rd t.ds.regions k = if k / 4 = r.key / 4 then 0 else rd s.ds.regions k)
        ∧ (granuleSaved s r.key = true → s.ckp.badDcn ≠ some s.seq.dcn → t.slu.held.contains (13, 0) = true ∧ t.md = s.md)
        ∧ (granuleSaved s r.key = false ∨ s.ckp.badDcn = some s.seq.dcn → t.md.safeHold ≠ none))
    ∧ (∀ r, waitingRead s gc port = some r → ∃ t, exec (.ddrResponseTimeout gc port) s = .next t ∧ ioReg t 0x03 0x01C = satAdd 16 (ioReg s 0x03 0x01C) 1
        ∧ t.ds = { s.ds with ddr := s.ds.ddr.filter (fun x => x != r) }
        ∧ (s.ckp.badDcn ≠ some s.seq.dcn → t.slu.held.contains (13, 0) = true ∧ t.md = s.md) ∧ (s.ckp.badDcn = some s.seq.dcn → t.md.safeHold ≠ none))
    ∧ (∀ r rs w, s.err.repairs = r :: rs → r.word = some w → frozen s = true → s.md.safeHold = none → ∃ t, exec .instructionRepair s = .next t
        ∧ t.err.repairs = rs.dropWhile (fun x => x.word.isSome) ∧ s.err.seq + r.recs.length ≤ t.err.seq
        ∧ w ∉ t.ds.faulty ∧ (∀ x ∈ t.ds.faulty, x ∈ s.ds.faulty) ∧ t.ds = { s.ds with faulty := t.ds.faulty } ∧ t.md = s.md)
    ∧ ((∀ r, s.err.repairs.head? = some r → r.word = none) ∨ frozen s = false ∨ s.md.safeHold.isSome = true → exec .instructionRepair s = .next s)
    ∧ (s.md.mode = .run ∨ s.md.mode = .replay → gc / 64 < nDies s → n < 32 → failedGroups s gc = [] → s.ident.worn.contains (gc, n) = false →
        ∃ t, exec (.groupFailure gc n) s = .next t ∧ t.ident = { s.ident with worn := s.ident.worn ++ [(gc, n)] } ∧ t.ds = { s.ds with failed := put s.ds.failed gc [n] } ∧ t.slu.held.contains (13, 0) = true ∧ t.md = s.md)
    ∧ (s.md.mode = .run ∨ s.md.mode = .replay → gc / 64 < nDies s → n < 32 → failedGroups s gc ≠ [] → (failedGroups s gc).contains n = false →
        s.ident.worn.contains (gc, n) = false →
        ∃ t, exec (.groupFailure gc n) s = .next t ∧ t.ds = s.ds ∧ t.md.safeHold ≠ none)
    ∧ (gc / 64 < nDies s → failedGroups s gc = [] → s.ident.worn.contains (gc, 32) = false → exec (.groupFailure gc 32) s = .next { s with
        ident := { s.ident with worn := s.ident.worn ++ [(gc, 32)] }, ds := { s.ds with failed := put s.ds.failed gc [32] } })
    ∧ (∀ f : ScrubFinding, f.vote = false → f.micro = none → scrubSkips s f = true → exec (.scrubWord f) s = .next s)
    ∧ (∀ f : ScrubFinding, f.vote = false → f.micro = none → scrubbersRun s = true → scrubHere f.site f.cls = true → (f.site < 8 → f.site < nDies s) → placeOk s f = true →
        scrubSkips s f = false →
        (foundHit s f = none → ∃ t, exec (.scrubWord f) s = .next t ∧ t = { s with regs := t.regs, err := { s.err with scrub := t.err.scrub } }
          ∧ (scrubWords s f.site f.cls ≤ f.addr + 1 → f.cls ≠ 5 → f.cls ≠ 6 → reg t (rkey f.site 0x13 (0x104 + 32 * f.cls)) = 0)
          ∧ (f.addr + 1 < scrubWords s f.site f.cls → f.cls ≠ 5 → f.cls ≠ 6 → f.cls ≠ 7 → reg t (rkey f.site 0x13 (0x104 + 32 * f.cls)) = lo32 (f.addr + 1))
          ∧ (∀ a n, f.cls = 5 ∨ f.cls = 6 → nextWord s f.site f.cls (f.addr + 1) = some a → scrubUnit f.site f.cls = some n →
            reg t (rkey f.site 0x13 (0x104 + 32 * f.cls)) = lo32 a ∧ f.addr < a ∧ unitSkipped s f.site f.cls (a / n) = false))
        ∧ (f.cls ≤ 4 → foundHit s f = some .corrected → ∃ t, exec (.scrubWord f) s = .next t ∧ t.ds = s.ds ∧ t.md = s.md ∧ t.chn = s.chn
          ∧ (reg t (rkey f.site 0x13 (0x10C + 32 * f.cls))).toNat = satAdd 32 (reg s (rkey f.site 0x13 (0x10C + 32 * f.cls))).toNat 1)
        ∧ (f.cls = 1 ∨ f.cls = 2 → foundHit s f = some .uncorrectable → ∃ t, exec (.scrubWord f) s = .next t ∧ t.slu.held.contains (13, 0) = true
          ∧ t.ds = s.ds ∧ t.md = s.md)
        ∧ (∀ st key, f.cls = 0 → f.place = .instr st key → foundHit s f = some .uncorrectable → ∃ t, exec (.scrubWord f) s = .next t
          ∧ (s.ds.faulty.contains (st, key) = true → t.md.safeHold ≠ none ∧ t.ds = s.ds)
          ∧ (s.ds.faulty.contains (st, key) = false → asksRepair s t 8 ∧ t.md = s.md
            ∧ (slotsRun s = true → s.md.safeHold = none → t.ds = { s.ds with faulty := s.ds.faulty ++ [(st, key)] }))))
    ∧ (∀ b, s.banks[n]? = some b → bitOf (ioReg s 0x13 (0x400 + 16 * n)) 2 = true → b.stopped = false → b.power = 0 →
        let b' := { b with region := (b.region + 1) % 4096 }
        exec (.bankTestRegion n true) s = .next { s with banks := s.banks.set n b' }
        ∧ ∃ t, exec (.bankTestRegion n false) s = .next t ∧ t.ds = s.ds ∧ t.md = s.md
          ∧ t.banks = s.banks.set n (if b.used < 4 then { b' with used := b.used + 1, spares := b.spares ++ [b.region] }
            else { b' with pinned := true, saved := some b.region, stopped := true })
          ∧ (4 ≤ b.used → bitOf (ioReg t 0x14 0x008) 0 = true))
    ∧ (∀ b, s.banks[n]? = some b → bitOf (ioReg s 0x13 (0x400 + 16 * n)) 2 = true → b.stopped = true → b.power = 0 → n < 16 → b.region < 4096 →
        exec (.bankTestRegion n true) s = .next s
        ∧ ∃ t, exec (.bankTestRegion n false) s = .next t ∧ t.ds = s.ds ∧ t.md = s.md
          ∧ ∀ k, k < 512 → bankPoisoned t (2 ^ 21 * n + 512 * b.region + k) = true)

/-- For every state with no recovery in progress: the supply loss of a present, powered die marks it lost, isolates it, sends its
modules back to training, resets its registers but those of its trigger sequencer (the model's reading, log 51) and asks for a recovery; its return unmarks it; a rail's loss disables every output. A
clock switch with a live ring module and the die on its first path raises code 11 and records the switch; on the second path it is
FATAL. A thermal sample of a site with sensors shows the temperature, closes the sluice under code 5 from 76.0 degrees on, reopens
it at 73.6 without a trip, and trips from 88.0 on. Package power above 700 W closes it, below 680 W reopens it. None changes
design data, and none but the FATAL case the mode. -/
def Obligations.SuppliesClocksAndSensors : Prop :=
  ∀ (s : State) (d : Nat), s.ckp.recovery = none →
    (d < nDies s → s.pwr.lost.contains d = false → ∃ t, exec (.dieSupplyLoss d) s = .next t ∧ t.pwr = { s.pwr with lost := ins s.pwr.lost d, seen := s.pwr.seen.filter (fun x => x != d), railUs := del s.pwr.railUs d }
        ∧ t.net.spill = ins s.net.spill d ∧ (∀ e ∈ t.ucie, (dieModules s d).contains e.1 = true → e.2.st = 2)
        ∧ (∀ k, dieRegister d k = true → reg t k = regReset k)
        ∧ t.slu.held.contains (13, 0) = true ∧ t.ds = s.ds ∧ t.md = s.md)
    ∧ exec (.dieSupplyReturn d) s = .next { s with pwr := { s.pwr with lost := s.pwr.lost.filter (fun x => x != d) } }
    ∧ exec (.railLoss d) s = .next { s with pwr := { s.pwr with disabled := true } }
    ∧ (∀ u, d < nDies s → s.pwr.clk.contains d = false → (clockModule s d, u) ∈ s.ucie → u.st = 3 ∨ u.st = 4 → ∃ t, exec (.clockPathSwitch d) s = .next t
        ∧ t.pwr = { s.pwr with clk := ins s.pwr.clk d } ∧ asksRepair s t 11 ∧ t.ds = s.ds ∧ t.md = s.md)
    ∧ (d < nDies s → s.pwr.clk.contains d = true → ∃ t, exec (.clockPathSwitch d) s = .next t ∧ t.md.safeHold ≠ none ∧ t.pwr = s.pwr ∧ t.ds = s.ds)
    ∧ (∀ r : ThermalReading, hasSensors s r.site = true → s.pwr.lost.contains r.site = false → ∃ t, exec (.thermalSample r) s = .next t
        ∧ reg t (rkey r.site 0x10 0x804) = BitVec.ofNat 32 (unsgn 12 (clampS 12 r.temp))
        ∧ (760 ≤ r.temp → t.slu.held.contains (5, 8 * r.site) = true)
        ∧ (r.temp ≤ 736 → bitOf (reg s (rkey r.site 0x10 0x800)).toNat 6 = false → t.slu.held.contains (5, 8 * r.site) = false)
        ∧ (880 ≤ r.temp → bitOf (reg t (rkey r.site 0x10 0x800)).toNat 6 = true)
        ∧ t = { s with regs := t.regs, slu := { s.slu with held := t.slu.held, unseen := t.slu.unseen, pulses := t.slu.pulses }, pwr := t.pwr })
    ∧ (∀ p : Nat, ∃ t, exec (.packagePowerSample p) s = .next t ∧ wfld (reg t (rkey 15 0x10 0x80C)) 31 16 = p % 2 ^ 16
        ∧ wfld (reg t (rkey 15 0x10 0x80C)) 15 0 = wfld (reg s (rkey 15 0x10 0x80C)) 15 0
        ∧ (7000 < p → t.slu.held.contains (5, 124) = true) ∧ (p < 6800 → t.slu.held.contains (5, 124) = false)
        ∧ t = { s with regs := t.regs, slu := { s.slu with held := t.slu.held, unseen := t.slu.unseen, pulses := t.slu.pulses } })

/-- For every state: with both controllers up and no restart under way TAKEOVER swaps the active one, raises code 12, counts, marks
the replies still to come here and of relayed commands, and a restart is under way; STANDBY_RESTART starts one with no stall. A
heartbeat of the active controller toggles the signal; of the other it ends its restart; a restart that times out leaves that
controller failed. SAFE_HOLD_ENTRY enters SAFE HOLD with cause 0x0703, both failed. A restarted die controller is counted; its
first failure is remembered. A protocol engine restart raises code 12 and keeps every channel. The floor moves up to the
production firmware's epoch, never down. Outside SAFE HOLD draining the log below 8 MB drops code 6, and a timer with a period
toggles. None changes design data. -/
def Obligations.ControllersTakeOverRestartAndFail : Prop :=
  ∀ (s : State) (d : Nat),
    (s.ctl.aFailed = false → s.ctl.bFailed = false → restarting s = false → ∃ t, exec .takeover s = .next t ∧ t.ctl = { s.ctl with activeB := !s.ctl.activeB }
        ∧ asksRepair s t 12 ∧ restarting t = true ∧ ioReg t 0x14 0x028 = satAdd 16 (ioReg s 0x14 0x028) 1
        ∧ t.io = { s.io with
            deferred := s.io.deferred.map (fun w => { w with tko := true })
            relayed := s.io.relayed.map (fun r => if r.accepted = true then r else { r with tko := true }) } ∧ t.ds = s.ds ∧ t.md = s.md)
    ∧ (ctlFailed s (!s.ctl.activeB) = false → restarting s = false → ∃ t, exec .standbyRestart s = .next t ∧ restarting t = true ∧ t = { s with err := t.err })
    ∧ (ctlFailed s s.ctl.activeB = false → ∃ t, exec (.heartbeat s.ctl.activeB) s = .next t ∧ t.util = { s.util with beat := !s.util.beat }
        ∧ t.ctl = (if s.ctl.activeB then { s.ctl with beatB := s.ctl.beatB + 1 } else { s.ctl with beatA := s.ctl.beatA + 1 })
        ∧ t = { s with ctl := t.ctl, util := t.util })
    ∧ (ctlFailed s (!s.ctl.activeB) = false → restarting s = true → ∃ t, exec (.heartbeat (!s.ctl.activeB)) s = .next t ∧ restarting t = false
        ∧ t.ctl.activeB = s.ctl.activeB ∧ (if s.ctl.activeB then t.ctl.fwA else t.ctl.fwB) = s.ctl.fw ∧ t.ds = s.ds)
    ∧ (restarting s = true → ∃ t, exec .controllerRestartTimeout s = .next t ∧ restarting t = false ∧ ctlFailed t (!s.ctl.activeB) = true
        ∧ t.ctl.activeB = s.ctl.activeB ∧ t.ds = s.ds)
    ∧ (s.md.safeHold = none → ∃ t, exec .safeHoldEntry s = .next t ∧ t.md = { s.md with safeHold := some 0x0703 } ∧ t.ctl = { s.ctl with aFailed := true, bFailed := true }
        ∧ t.slu.held.contains (14, 0) = true ∧ t.ds = s.ds)
    ∧ (d < nDies s → ∃ t, exec (.dieControllerRestart d true) s = .next t ∧ ioReg t 0x14 0x02C = satAdd 16 (ioReg s 0x14 0x02C) 1 ∧ t.ctl = s.ctl
        ∧ t.ds = s.ds ∧ t.md = s.md)
    ∧ (d < nDies s → lookup s.ctl.dieRestarts d = none → ∃ t, exec (.dieControllerRestart d false) s = .next t
        ∧ t.ctl = { s.ctl with dieRestarts := put s.ctl.dieRestarts d [nowNs s] } ∧ t.err = s.err ∧ t.ds = s.ds ∧ t.md = s.md)
    ∧ (d < 4 → ∃ t, exec (.protocolEngineRestart d) s = .next t ∧ asksRepair s t 12 ∧ t.trx = { s.trx with restarts := t.trx.restarts }
        ∧ (slotsRun s = true → s.md.safeHold = none → t.trx.restarts = s.trx.restarts ++ [d]) ∧ t.ds = s.ds ∧ t.md = s.md)
    ∧ (∃ t, exec .antiRollbackFloorBurn s = .next t ∧ s.sec.floor ≤ t.sec.floor ∧ (s.ctl.fw = s.ctl.prod → t.sec.floor = max s.sec.floor (fwEpoch s.ctl.fw))
        ∧ (s.ctl.fw ≠ s.ctl.prod → t = s) ∧ t = { s with sec := { s.sec with floor := t.sec.floor } })
    ∧ (s.md.safeHold = none → ∃ t, exec (.logStagingBufferDrain d) s = .next t ∧ t.ckp.log = { s.ckp.log with stagedBytes := s.ckp.log.stagedBytes - d }
        ∧ (t.ckp.log.stagedBytes < 8 * 2 ^ 20 → t.slu.held.contains (6, 0) = false) ∧ (8 * 2 ^ 20 ≤ t.ckp.log.stagedBytes → t.slu = s.slu)
        ∧ t = { s with ckp := { s.ckp with log := t.ckp.log }, slu := { s.slu with held := t.slu.held, unseen := t.slu.unseen, pulses := t.slu.pulses } })
    ∧ (d < 4 → s.md.safeHold = none → ioReg s 0x18 (0x060 + 4 * d) ≠ 0 → exec (.tmrToggle d) s = .next { s with util := { s.util with tmr := s.util.tmr ^^^ BitVec.ofNat 4 (2 ^ d) } })

/-- For every state and board link of a die: a training without a cause to fail brings the link up at the highest common version, with
the identity heard, the lanes chosen and flits from 0, sends its training blocks, forgets the weir's P, queues 1,024 timing markers at
version 3, and sets the credits anew after a reset of an end. One that fails takes the link down with its cause: an unbooked link's
gateway absorbs traffic, that which waits at it too (its flits and credits start anew: the model's choice, log 76), and a booked one is FATAL; no clock takes it down with cause 1 and no fault. Weir
training keeps the largest delay of its markers in steps, DRIFT 0, ends the absorption of a trained link, and ends a re-centring that
is first in line. A lane that fails gives way to a good spare under code 9, or the link narrows, or it goes down. A retrain after LOS
or LOL that succeeds keeps the flits not acknowledged, to be sent again; without one, or with one that fails, an unbooked link goes
down, and a booked one is FATAL. Idle is entered in STANDBY and LOADED with IDLE_EN and nothing to send, IDLE going out on every
lane, and left with a count for work of either end; a loop message sends the link where R507 says. Other links, mode and design data
are unchanged. -/
def Obligations.BoardLinksTrainRemapAndFall : Prop :=
  ∀ (s : State) (d : Nat) (b : BoardLink), linkOf s d = some b →
    let others (t : State) : Prop := (∀ o, o ≠ d → linkOf t o = linkOf s o) ∧ t.ds = s.ds ∧ t.md = s.md
    let down (c : Nat) : BoardLink := { b with
      st := 1, cause := c, spill := true, quick := false, fresh := true, parts := [], timing := [], tx := { State.resetTx with prbs := b.tx.prbs } }
    let absorbs (t : State) : Prop := (reg t (rkey d 0x11 0x074)).toNat = satAdd 32 (reg s (rkey d 0x11 0x074)).toNat (headsWaiting b)
    let q : BoardLink := { b with quick := true }
    let counted (t : State) (off width : Nat) : Prop := (reg t (rkey d 0x11 off)).toNat = satAdd width (reg s (rkey d 0x11 off)).toNat 1
    (∀ r : LinkTraining, inTraining b.st = true → trainingCause s d (heardLink s d b r) r = 0 → b.fresh = true ∨ r.creditsOk = true →
      ∃ t u, exec (.boardLinkTraining d r) s = .next t ∧ linkOf t d = some u
        ∧ u = { equalised s d (heardLink s d b r) r with st := 3, cause := 0, quick := false, fresh := false, timing := u.timing, tx := u.tx }
        ∧ u.tx = { (heardLink s d b r).tx with
            owed := if b.fresh then State.resetTx.owed else b.tx.owed
            timing := if u.version == 3 && s.seq.epoch then 1024 else b.tx.timing }
        ∧ u.timing = (if u.version == 3 && s.seq.epoch then [] else b.timing)
        ∧ u.version = agreedVersion s d (wfld (ts1Of r) 15 8) ∧ u.peerPos = wfld (ts1Of r) 19 16 ∧ u.peerDie = wfld (ts1Of r) 22 20
        ∧ u.txUsed = chooseLanes u.txFail ∧ u.rxUsed = ts2Lanes r ∧ u.expect = 0 ∧ u.acked = 0 ∧ (b.quick = false → u.tx.seq = 0 ∧ u.tx.retry = [])
        ∧ u.peak = (if u.version = 2 ∧ bitOf (blReg s d 0x104) 4 = false then blReg s d 0x104 % 16 else r.peak) ∧ u.eye = r.eye
        ∧ lookup t.net.training d = some (sentTraining s d u) ∧ t.phys = del s.phys (8 * d)
        ∧ (∀ vc, vc < 10 → outstanding t (32 + d) vc = (if b.fresh then 0 else outstanding s (32 + d) vc))
        ∧ counted t 0x05C 16 ∧ others t)
    ∧ (∀ r : LinkTraining, inTraining b.st = true → trainingCause s d (heardLink s d b r) r = 7 → linkBooked s d = false →
      ∃ t, exec (.boardLinkTraining d r) s = .next t ∧ linkOf t d = some (down 7) ∧ absorbs t ∧ others t)
    ∧ (∀ (r : LinkTraining) (c : Nat), inTraining b.st = true → trainingCause s d (heardLink s d b r) r = c → c ≠ 0 → c ≠ 7 → linkBooked s d = false →
      ∃ t, exec (.boardLinkTraining d r) s = .next t
        ∧ linkOf t d = some { heardLink s d b r with
            st := 1, cause := c, spill := true, quick := false, fresh := true, parts := [], timing := [], tx := { State.resetTx with prbs := b.tx.prbs } }
        ∧ absorbs t ∧ others t)
    ∧ (∀ r : LinkTraining, inTraining b.st = true → trainingCause s d (heardLink s d b r) r ≠ 0 → linkBooked s d = true →
      ∃ t, exec (.boardLinkTraining d r) s = .next t ∧ t.md.safeHold ≠ none ∧ t.ds = s.ds)
    ∧ (inTraining b.st = true → ∃ t, exec (.boardLinkUnconnected d) s = .next t
        ∧ linkOf t d = some { State.resetLink with st := 1, cause := 1, spill := b.spill, txFail := b.txFail, rxFail := b.rxFail } ∧ t.err = s.err ∧ others t)
    ∧ (∀ c ms, canTrainWeir s d c ms = true → inRepair s 10 (8 * d + c) = false → ∃ t, exec (.weirTraining d c ms) s = .next t
        ∧ t.phys = put s.phys (8 * d + c) (trainedPhys ms)
        ∧ wfld (reg t (weirKey d c)) 19 16 = 0 ∧ (c = 0 → linkOf t d = some { b with spill := false }) ∧ (c ≠ 0 → t.bl = s.bl)
        ∧ t = { s with regs := t.regs, phys := t.phys, bl := t.bl } ∧ others t)
    ∧ (∀ c ms, canTrainWeir s d c ms = true → recentring s d c = true → ∃ t, exec (.weirTraining d c ms) s = .next t
        ∧ t.phys = put s.phys (8 * d + c) (trainedPhys ms) ∧ wfld (reg t (weirKey d c)) 21 21 = 1
        ∧ wfld (reg t (weirKey d c)) 19 16 = 0 ∧ t.err.repairs = s.err.repairs.tail
        ∧ (∀ o, o ≠ d → linkOf t o = linkOf s o) ∧ t.ds = { s.ds with faulty := t.ds.faulty } ∧ t.md = s.md)
    ∧ (∀ ms c, canTrainWeir s d c ms = false → exec (.weirTraining d c ms) s = .next s)
    ∧ (∀ l (tx lock : Bool), let used := if tx then b.txUsed else b.rxUsed
        let failed := ins (if tx then b.txFail else b.rxFail) l
        let next := lanesAfter used failed l
        linkCarries b = true → used.contains l = true → next ≠ [] → next.length = used.length → ∃ t u, exec (.boardLaneFail d l tx lock) s = .next t
          ∧ linkOf t d = some u
          ∧ u = { (if tx then { b with txFail := failed, txUsed := next, width8 := next.length == 8 } else { b with rxFail := failed, rxUsed := next }) with
              timing := u.timing, tx := { b.tx with timing := u.tx.timing } }
          ∧ (inRepair t 9 (linkUnit d) = false → b.version = 3 → s.seq.epoch = true → u.tx.timing = 1024)
          ∧ (inRepair t 9 (linkUnit d) = true → u.tx.timing = b.tx.timing ∧ t.phys = s.phys)
          ∧ next.contains l = false ∧ asksRepair s t 9 ∧ counted t 0x058 16 ∧ others t)
    ∧ (∀ l (tx lock : Bool), let used := if tx then b.txUsed else b.rxUsed
        let next := lanesAfter used (ins (if tx then b.txFail else b.rxFail) l) l
        linkCarries b = true → used.contains l = true → next ≠ [] → next.length ≠ used.length → ∃ t u, exec (.boardLaneFail d l tx lock) s = .next t
          ∧ linkOf t d = some u ∧ (if tx then u.txUsed else u.rxUsed) = next ∧ next.length ≤ 8 ∧ u.st = b.st ∧ asksRepair s t 9 ∧ others t)
    ∧ (∀ l (tx lock : Bool), let used := if tx then b.txUsed else b.rxUsed
        linkCarries b = true → used.contains l = true → lanesAfter used (ins (if tx then b.txFail else b.rxFail) l) l = [] → linkBooked s d = false →
        ∃ t u, exec (.boardLaneFail d l tx lock) s = .next t ∧ linkOf t d = some u ∧ u.st = 1 ∧ u.cause = 5 ∧ u.spill = true ∧ absorbs t ∧ others t)
    ∧ (∀ (lol : Bool) (r : LinkTraining), linkCarries b = true → trainingCause s d (heardLink s d q r) r = 0 → b.fresh = true ∨ r.creditsOk = true →
        ∃ t u, exec (.boardLosLol d lol (some r)) s = .next t ∧ linkOf t d = some u
        ∧ u = { equalised s d (heardLink s d q r) r with st := b.st, cause := 0, quick := false, fresh := false, timing := u.timing, tx := u.tx }
        ∧ u.expect = 0 ∧ u.acked = 0 ∧ u.nakSent = false ∧ u.tx.records = b.tx.records
        ∧ u.tx.retry.map (·.body) = b.tx.retry.map (·.body) ∧ u.tx.retry.map (·.seq) = List.range b.tx.retry.length
        ∧ u.tx.resend = u.tx.retry ∧ u.tx.seq = b.tx.retry.length ∧ asksRepair s t 9 ∧ others t)
    ∧ (∀ (lol : Bool) (x : Option LinkTraining), linkCarries b = true → (∀ r, x = some r → trainingCause s d (heardLink s d q r) r ≠ 0) →
        ∃ t, exec (.boardLosLol d lol x) s = .next t
        ∧ (linkBooked s d = false → linkOf t d = some (down (if lol then 3 else 2)) ∧ absorbs t ∧ others t)
        ∧ (linkBooked s d = true → t.md.safeHold ≠ none ∧ t.ds = s.ds))
    ∧ (b.st = 3 → bitOf (reg s (rkey d 0x11 0x100)).toNat 0 = true → s.md.mode = .standby ∨ s.md.mode = .loaded → linkWork s d b = false →
        ∃ t u, exec (.boardIdleEntry d) s = .next t ∧ linkOf t d = some u ∧ u = { b with st := 4, tx := u.tx }
        ∧ (b.tx.owed.all (· == 0) = true → u.tx = { b.tx with scr := u.tx.scr })
        ∧ (∃ bs, t.net.control.head? = some (d, bs) ∧ bs.length = b.txUsed.length ∧ ∀ x ∈ bs, x.header = 2) ∧ others t)
    ∧ (linkWork s d b = true → exec (.boardIdleEntry d) s = .next s)
    ∧ (s.md.mode = .run ∨ s.md.mode = .replay ∨ s.md.mode = .boot ∨ s.md.mode = .service → exec (.boardIdleEntry d) s = .next s)
    ∧ (∀ w : IdleWake, b.st = 4 → w.peer = true ∨ linkWork s d b = true → ∃ t, exec (.boardIdleExit d w) s = .next t
        ∧ linkOf t d = some (if w.heads.all headerOk then { b with st := 3 } else { b with st := 2, quick := true }) ∧ counted t 0x060 32
        ∧ (w.heads.all headerOk = true → reg t (rkey d 0x11 0x064) = reg s (rkey d 0x11 0x064))
        ∧ (w.heads.all headerOk = false → counted t 0x064 16) ∧ others t)
    ∧ (∀ w : IdleWake, b.st ≠ 4 ∨ (w.peer = false ∧ linkWork s d b = false) → exec (.boardIdleExit d w) s = .next s)
    ∧ (b.version = 3 → b.st = 3 ∨ b.st = 4 → s.md.mode = .standby ∨ s.md.mode = .loaded ∨ s.md.mode = .service →
        exec (.linkMessage d true) s = .next (buildRoutes (setLink s d { b with st := 5, loopMode := 4, rx := b.rx.map (fun l => { l with scr := 0 }) })))
    ∧ (b.loopMode = 4 → exec (.linkMessage d false) s = .next (setLink s d { b with st := 2, loopMode := 0 }))

/-- For every state and a board link that carries flits: the blocks of the logical lanes make a flit. A good one, with no lane failed,
counts on the sequence number, ends a discard, keeps its ACK, which frees the flits it covers, and puts each of its step records
into the weir of link code 0 due 160 steps after its send step; with no other item than credits it changes no other link, no other
design data and no mode. A cycle marker that it brings waits in its weir, and a network flit that ends no packet waits for the rest
and is owed a credit. The first bad flit is counted and starts a discard, and asks for a NAK when 128 ns have passed since the last; a
further one asks again only once they have passed, and else changes the receivers alone. A NAK, and a flit unacknowledged for 128 ns,
send every unacknowledged flit again and are counted with the flits resent; a younger one sends nothing again. While the board steps
each retry requests code 2 for two slots, and none does while it does not; a NAK that comes in requests nothing, its retry having
been requested where the CRC failed. A cycle marker that is as expected changes nothing; a wrong one while stepping is counted and
asks for a recovery, and in a recovery is FATAL. A reset of the far die takes a link that is up into training with its gateway
absorbing, and one that is not up is unchanged. -/
def Obligations.BoardFlitsRetriesAndMarkers : Prop :=
  ∀ (s : State) (d : Nat),
    let retried (t : State) : Prop := t.slu.pulses = (if stepping s then s.slu.pulses ++ [(2, 2)] else s.slu.pulses)
    (∀ (b : BoardLink) (f : LinkFlit), linkOf s d = some b → linkCarries b = true → f.blocks.length = b.rxUsed.length →
      let got := takeBlocks (nowNs s) b f.blocks
      let v := ofLanes (got.map (fun g => g.2.2))
      let wide := b.rxUsed.length == 16
      let body := parseBody wide (rxS s d b) (fld v (bodyBits wide + 7) 8)
      let nak (t : LinkTx) : LinkTx := { t with nakDue := true, nakWait := if b.version == 2 then 32 else 64 }
      got.all (fun g => !laneFails (nowNs s) g.1) = true →
      (flitGood wide b.expect v = true → body.items.all (fun x => fld x 143 140 == 2) = true → ∃ t u, exec (.boardFlitReceive d f) s = .next t ∧ linkOf t d = some u
        ∧ u = { adapt b f with
            rx := u.rx, tx := u.tx, timing := u.timing, expect := (b.expect + 1) % 2 ^ 16, nakSent := false, acked := v % 256 % 128
            st := if f.held && b.st == 3 then 6 else if !f.held && b.st == 6 && !inSafeHold s then 3 else b.st }
        ∧ u.tx.retry = (ackFlits b.tx (v % 256 % 128)).retry ∧ u.tx.resend = (ackFlits b.tx (v % 256 % 128)).resend
        ∧ (∀ w ∈ s.ds.weirs, w ∈ t.ds.weirs)
        ∧ (∀ r ∈ body.records, ∀ n, lookup s.seq.recent r.1 = some n → n + 160 < depthOf s → weirShort s d 0 = false →
            ({ die := d, code := 0, sent := n, due := n + 160, channels := numsWhere 192 (bitOf r.2), wait := [] } : WeirRec) ∈ t.ds.weirs)
        ∧ t.ds = { s.ds with weirs := t.ds.weirs } ∧ (∀ o, o ≠ d → linkOf t o = linkOf s o) ∧ t.md = s.md)
      ∧ (∀ x, flitGood wide b.expect v = true → body.items = [x] → fld x 143 140 = 3 →
          (s.seq.recent.find? (fun r => r.1 == fld x 25 16)).map (·.2) = some 0 → ∃ t n, exec (.boardFlitReceive d f) s = .next t
            ∧ t.net.marksIn = s.net.marksIn ++ [(d, n, fld x 15 0)] ∧ n ≤ s.seq.dcn ∧ t.ds = { s.ds with weirs := t.ds.weirs } ∧ t.md = s.md)
      ∧ (∀ x, flitGood wide b.expect v = true → body.items = [x] → fld x 143 140 = 1 → isTail x = false →
          let vc := vcIndex (fld x 132 131) (fld x 134 133)
          ∃ t u, exec (.boardFlitReceive d f) s = .next t ∧ linkOf t d = some u
            ∧ lookup u.parts vc = some ((if isHead x then [] else (lookup b.parts vc).getD []) ++ [x % 2 ^ 135])
            ∧ u.tx.owed = b.tx.owed.set vc (b.tx.owed.getD vc 0 + 1) ∧ t.ds = { s.ds with weirs := t.ds.weirs } ∧ t.md = s.md)
      ∧ (flitGood wide b.expect v = false → b.nakSent = false → ∃ t u, exec (.boardFlitReceive d f) s = .next t ∧ linkOf t d = some u
        ∧ u = { adapt b f with rx := u.rx, nakSent := true, tx := if b.tx.nakWait == 0 then nak b.tx else b.tx }
        ∧ (reg t (rkey d 0x11 0x040)).toNat = satAdd 32 (reg s (rkey d 0x11 0x040)).toNat 1 ∧ retried t ∧ t.ds = s.ds ∧ t.md = s.md)
      ∧ (flitGood wide b.expect v = false → b.nakSent = true → b.tx.nakWait = 0 → ∃ t u, exec (.boardFlitReceive d f) s = .next t ∧ linkOf t d = some u
        ∧ u = { adapt b f with rx := u.rx, tx := nak b.tx } ∧ reg t (rkey d 0x11 0x040) = reg s (rkey d 0x11 0x040) ∧ retried t
        ∧ t.ds = s.ds ∧ t.md = s.md)
      ∧ (flitGood wide b.expect v = false → b.nakSent = true → b.tx.nakWait ≠ 0 → ∃ t u, exec (.boardFlitReceive d f) s = .next t
        ∧ linkOf t d = some u ∧ u = { adapt b f with rx := u.rx } ∧ t = { s with bl := t.bl, regs := t.regs, net := { s.net with arrived := [] } }
        ∧ reg t (rkey d 0x11 0x040) = reg s (rkey d 0x11 0x040)))
    ∧ (∀ (b : BoardLink) (ack : Nat), linkOf s d = some b → linkCarries b = true → ∃ t u, exec (.nakReceived d ack true) s = .next t ∧ linkOf t d = some u
        ∧ u = { b with acked := ack % 128, tx := u.tx } ∧ u.tx.retry = (ackFlits b.tx (ack % 128)).retry ∧ u.tx.resend = u.tx.retry
        ∧ (reg t (rkey d 0x11 0x044)).toNat = satAdd 32 (reg s (rkey d 0x11 0x044)).toNat 1
        ∧ (reg t (rkey d 0x11 0x04C)).toNat = satAdd 32 (reg s (rkey d 0x11 0x04C)).toNat u.tx.retry.length
        ∧ t.slu = s.slu ∧ t.ds = s.ds ∧ t.md = s.md)
    ∧ (∀ (b : BoardLink) (age : Nat), linkOf s d = some b → linkCarries b = true → b.tx.retry ≠ [] → 128 ≤ age → ∃ t, exec (.retryTimeout d age) s = .next t
        ∧ linkOf t d = some { b with tx := { b.tx with resend := b.tx.retry } }
        ∧ (reg t (rkey d 0x11 0x048)).toNat = satAdd 16 (reg s (rkey d 0x11 0x048)).toNat 1
        ∧ (reg t (rkey d 0x11 0x04C)).toNat = satAdd 32 (reg s (rkey d 0x11 0x04C)).toNat b.tx.retry.length
        ∧ retried t ∧ t.ds = s.ds ∧ t.md = s.md)
    ∧ (∀ (b : BoardLink) (age : Nat), linkOf s d = some b → b.tx.retry = [] ∨ age < 128 → exec (.retryTimeout d age) s = .next s)
    ∧ (∀ c dcn16 tag, markerOk s c dcn16 tag = true → exec (.cycleMarkerReceive d c dcn16 tag) s = .next s)
    ∧ (∀ c dcn16 tag, stepping s = true → d < nDies s → c < 8 → routeHere s d c = true → markerOk s c dcn16 tag = false → s.ckp.recovery = none →
      ∃ t, exec (.cycleMarkerReceive d c dcn16 tag) s = .next t ∧ t.slu.held.contains (13, 0) = true
        ∧ (reg t (rkey d 0x01 0x01C)).toNat = satAdd 16 (reg s (rkey d 0x01 0x01C)).toNat 1 ∧ t.ds = s.ds ∧ t.md = s.md)
    ∧ (∀ c dcn16 tag, stepping s = true → d < nDies s → c < 8 → routeHere s d c = true → markerOk s c dcn16 tag = false → s.ckp.recovery ≠ none →
      ∃ t, exec (.cycleMarkerReceive d c dcn16 tag) s = .next t ∧ t.md.safeHold ≠ none ∧ t.ds = s.ds)
    ∧ (∀ b, linkOf s d = some b → linkUp b = true → b.parts = [] →
        exec (.boardPeerDieReset d) s = .next (buildRoutes (setLink (noneArrived s) d { b with st := 2, spill := true, quick := false, fresh := true })))
    ∧ (∀ b, linkOf s d = some b → linkUp b = false → exec (.boardPeerDieReset d) s = .next (noneArrived s))

/-- For every state and module: a training that reaches a width leaves the module at it with its fused spare map, its ends' parameter
records sent, counted, and x32 asks for replacement; one of a spoke in BOOT without sideband fails the start-up with cause 0x0A. The
right identity of one end is kept; with the other end's the ends agree on the highest version that both offer and on the AND of their
CAPS. A CRC failure counts itself and the flits resent and requests code 3 for one slot; the eighth of a lane within 1 ms is that
lane's failure. A lane failure at x64 uses a spare under code 9 while its direction has one, and falls to x32 on the other half
otherwise, DEGRADED when the repair ends; at x32 the idle half's lanes change nothing, the active half's is FATAL, as is a module
lost at either width. A flit's step bits stop waiting for its module alone; a drift beyond 2 steps asks for code 10. The spillway of a
die is released only once trained, quiet and powered, and a credit return lowers what is outstanding. Every other module, the mode
and, but for the weirs, the design data are unchanged. For every state of a part with an accessory site: admission begins once the
firmware has started and goes as far as module 24 has come, and once it runs the row says that its time is over (log 14) and refuses
the die with cause 1. While a descriptor is awaited, one that meets no cause of R471 admits the die, keeps its kind, channels and rate, ends
its isolation, and leaves the cause of an earlier refusal as it stands; another refuses it with its cause and leaves the isolation.
When module 24 is lost in operation the site is isolated, the module is down with cause 6, and replacement is asked for. No other
site's isolation, no other module and no design data change. -/
def Obligations.UcieModulesAndAccessorySite : Prop :=
  (∀ (s : State) (m : Nat) (u : UcieMod), modOf s m = some u →
      let others (t : State) : Prop := (∀ o, o ≠ m → modOf t o = modOf s o) ∧ t.ds = s.ds ∧ t.md = s.md
      let key (k : Nat) : Nat := rkey (moduleSite m) 0x12 (0x800 + 64 * m + k)
      (∀ r : UcieTraining, inTraining u.st = true → m ≠ 24 → r.sideband = true → r.mainband = true → r.creditsOk = true ∨ afterReset s m = true →
        let v := trainWidth u (fusedMap s m) r
        v.st ≠ 1 → ∃ t, exec (.ucieStartup m r) s = .next t ∧ modOf t m = some { v with heard := [], sent := sentRecords s m }
          ∧ (reg t (key 0x10)).toNat = satAdd 16 (reg s (key 0x10)).toNat 1 ∧ (v.st = 4 → bitOf (ioReg t 0x14 0x008) 0 = true) ∧ others t)
      ∧ (∀ r : UcieTraining, inTraining u.st = true → m < 16 → s.md.mode = .boot → s.boot.phase ≠ 7 → r.sideband = false → ∃ t, exec (.ucieStartup m r) s = .next t
          ∧ modOf t m = some { u with st := 1, proto := 0, cause := 1 } ∧ t.boot.phase = 7 ∧ t.boot.cause = 0x0A ∧ t.boot.cfgErr = true ∧ others t)
      ∧ (∀ r : ParamRecord, modTrained u = true → m ≠ 24 → identOf (if r.second then (moduleEnds s m).2 else (moduleEnds s m).1) r = true →
          let h := put u.heard (b2n r.second) (r.proto, r.caps)
          let other := lookup u.heard (1 - b2n r.second)
          (other = none → ∃ t, exec (.ucieParameterRecord m r) s = .next t ∧ modOf t m = some { u with heard := h } ∧ others t)
          ∧ (∀ o : Nat × Nat, other = some o → agreedProto o.1 r.proto ≠ 0 → ∃ t, exec (.ucieParameterRecord m r) s = .next t
            ∧ modOf t m = some { u with heard := h, proto := agreedProto o.1 r.proto, caps := o.2 &&& r.caps } ∧ others t))
      ∧ (∀ n, modTrained u = true → ∃ t, exec (.ucieFlitCrcFail m ⟨none, n⟩) s = .next t ∧ (reg t (key 0)).toNat = satAdd 32 (reg s (key 0)).toNat 1
          ∧ (reg t (key 8)).toNat = satAdd 32 (reg s (key 8)).toNat n ∧ t.slu.pulses = s.slu.pulses ++ [(3, 1)] ∧ t.ucie = s.ucie ∧ others t)
      ∧ (∀ l (tx : Bool) n, modTrained u = true → let ts := laneCrc s u (l + 64 * b2n tx)
          ∃ a, modOf a m = some { u with crcAt := put u.crcAt (l + 64 * b2n tx) ts } ∧ (reg a (key 0)).toNat = satAdd 32 (reg s (key 0)).toNat 1
            ∧ a.slu.pulses = s.slu.pulses ++ [(3, 1)] ∧ others a
            ∧ exec (.ucieFlitCrcFail m ⟨some (l, tx), n⟩) s = (if laneCrcFails s ts then exec (.ucieLaneFail m (some l) tx) a else .next a))
      ∧ (∀ l (tx : Bool), u.st = 3 → l < 64 → (if tx then u.txFused + u.txTrained else u.rxFused + u.rxTrained) < 4 → ∃ t, exec (.ucieLaneFail m (some l) tx) s = .next t
          ∧ modOf t m = some (if tx then { u with failed := ins u.failed l, txTrained := u.txTrained + 1 } else { u with failed := ins u.failed l, rxTrained := u.rxTrained + 1 })
          ∧ asksRepair s t 9 ∧ others t)
      ∧ (∀ l (tx : Bool), u.st = 3 → l < 64 → 4 ≤ (if tx then u.txFused + u.txTrained else u.rxFused + u.rxTrained) → ∃ t, exec (.ucieLaneFail m (some l) tx) s = .next t
          ∧ modOf t m = some { u with failed := ins u.failed l, st := 4, half := if l < 32 then 1 else 0, cause := 4 } ∧ asksRepair s t 9
          ∧ (slotsRun s = true → s.md.safeHold = none → ∃ r ∈ t.err.repairs, r.code = 9 ∧ r.unit = m + 1 ∧ ∃ e ∈ r.recs, e.cause = 0x0203 ∧ e.cls = 4)
          ∧ (slotsRun s = false → inRepair s 9 (m + 1) = false → bitOf (ioReg t 0x14 0x008) 0 = true) ∧ others t)
      ∧ (∀ l tx, u.st = 4 → l < 64 → l / 32 ≠ u.half → exec (.ucieLaneFail m (some l) tx) s = .next s)
      ∧ (∀ l tx, u.st = 4 → l < 64 → l / 32 = u.half → m ≠ 24 → ∃ t, exec (.ucieLaneFail m (some l) tx) s = .next t ∧ t.md.safeHold ≠ none ∧ t.ds = s.ds)
      ∧ (∀ tx, modTrained u = true → m ≠ 24 → ∃ t, exec (.ucieLaneFail m none tx) s = .next t ∧ t.md.safeHold ≠ none ∧ t.ds = s.ds
          ∧ modOf t m = some { u with st := 1, proto := 0, cause := 6 })
      ∧ (∀ d n dr, modTrained u = true → d < nDies s → (moduleEnds s m).1 = d ∨ (moduleEnds s m).2 = d → Int.natAbs dr ≤ 2 → ∃ t, exec (.ucieFlitReceive m d n dr) s = .next t
          ∧ t.ds = { s.ds with weirs := s.ds.weirs.map (fun r => if r.die == d && r.sent ≤ n then { r with wait := r.wait.filter (fun x => x != m) } else r) }
          ∧ t = { s with regs := t.regs, ds := t.ds })
      ∧ (∀ d n dr, modTrained u = true → d < nDies s → (moduleEnds s m).1 = d ∨ (moduleEnds s m).2 = d → 2 < Int.natAbs dr → ∃ t, exec (.ucieFlitReceive m d n dr) s = .next t
          ∧ (s.md.safeHold = none → ∀ c ∈ routesOver s m d, inRepair t 10 (8 * d + c) = true) ∧ t.md = s.md)
      ∧ (∀ d, exec (.spillwayRelease d) s = .next (if d < 8 ∧ dieTrained s d = true ∧ quietToward s d = true ∧ s.pwr.lost.contains d = false ∧ s.net.spill.contains d = true
          then { s with net := { s.net with spill := s.net.spill.filter (fun x => x != d) } } else s))
      ∧ (∀ unit vc n, vc < 10 → ∃ t, exec (.creditReturn unit vc n) s = .next t ∧ outstanding t unit vc = outstanding s unit vc - n
          ∧ t = { s with net := { s.net with credits := t.net.credits } }))
  ∧ (∀ (s : State) (u : UcieMod), modOf s 24 = some u →
      (s.boot.accepted = true → s.acc.st = 0 → inTraining u.st = true → exec .accessoryAdmission s = .next { s with acc := { s.acc with st := 1 } })
      ∧ (s.boot.accepted = true → s.acc.st = 0 → u.st = 3 ∨ u.st = 4 → u.proto ≠ 0 → s.acc.identOk = true →
          exec .accessoryAdmission s = .next { s with acc := { s.acc with st := 3 } })
      ∧ (s.boot.accepted = true → 1 ≤ s.acc.st → s.acc.st ≤ 3 → ∃ t, exec .accessoryAdmission s = .next t
          ∧ t.acc = { s.acc with st := 5, kind := 0, cause := 1 } ∧ t.net.spill = s.net.spill ∧ t.ds = s.ds ∧ t.md = s.md ∧ t.ucie = s.ucie)
      ∧ (∀ d : AdmissionDesc, s.boot.accepted = true → s.acc.st = 3 → descriptorCause s d = 0 → ∃ t, exec (.admissionDescriptor d) s = .next t
          ∧ t.acc = { s.acc with st := 4, kind := d.kind, channels := d.channels, gbps := d.gbps }
          ∧ t.net.spill = s.net.spill.filter (fun x => x != 8) ∧ t.ds = s.ds ∧ t.md = s.md ∧ t.ucie = s.ucie)
      ∧ (∀ d : AdmissionDesc, s.boot.accepted = true → s.acc.st = 3 → descriptorCause s d ≠ 0 → ∃ t, exec (.admissionDescriptor d) s = .next t
          ∧ t.acc = { s.acc with st := 5, kind := 0, cause := descriptorCause s d } ∧ t.net.spill = s.net.spill ∧ t.ds = s.ds ∧ t.md = s.md ∧ t.ucie = s.ucie)
      ∧ (modTrained u = true → ∃ t, exec .accessoryModuleLost s = .next t ∧ t.acc.st = 6 ∧ t.net.spill = ins s.net.spill 8
          ∧ t.ucie = put s.ucie 24 { u with st := 1, proto := 0, cause := 6 } ∧ bitOf (ioReg t 0x14 0x008) 0 = true ∧ t.ds = s.ds ∧ t.md = s.md))

/-- For every state and packet of this device whose way has the credits, whose requester has room for the response, and whose endpoint
exists, is not isolated, and that is not poisoned and on its own virtual network: READ answers one read response with the words
asked for, ACKNOWLEDGED_WRITE one acknowledgement, each to the source under the request's tag; POSTED_WRITE is taken, and a
response frees what its requester held. Without credits or room nothing moves. A read or write of a service bank waits at its
port; one of another unit than the owner is answered ERROR and counted. A poisoned READ is counted at its destination's site (the model's choice, log 20) and answered ERROR, one to an
isolated site ISOLATED, one to no endpoint DECODE; an answer toward an isolated die is absorbed and counted. A poisoned response to a
read that waits, of a word that is saved, asks for a recovery. A good message for an open channel of its source is appended under the
next number, a poisoned one is discarded and counted. A part of a capture block in order is kept by a collector that is not in SAFE
HOLD; on the wrong network, or from the accessory die, it is absorbed and counted. Mode and design data are unchanged. -/
def Obligations.PacketsAreAnsweredCountedOrTaken : Prop :=
  ∀ (s : State) (p : Packet),
    let comes (vn : Nat) : Prop := p.vn = vn ∧ accessoryBars s vn p = false ∧ (s.md.mode = .boot → p.srcPos = posOf s) ∧ p.dstPos = posOf s
    let good (vn : Nat) : Prop := comes vn ∧ s.net.spill.contains (naSite p.dst) = false ∧ p.poison = false ∧ endpointHere s p.dst = true
    let answers (t : State) (cmd st n : Nat) : Prop := (∃ r, t.net.packets.head? = some (cmd, st, r) ∧ r.src = p.dst ∧ r.dst = p.src ∧ r.tag = p.tag
      ∧ r.vn = 1 ∧ r.status = st ∧ r.words.length = n)
      ∧ (p.srcPos ≠ posOf s → ∃ x, t.net.out = s.net.out ++ [x] ∧ x.pos = p.srcPos ∧ x.cmd = cmd ∧ x.tag = p.tag ∧ x.dst = p.src)
      ∧ t.ds = s.ds ∧ t.md = s.md
    let flits := 2 + cdiv p.words.length 4
    let same (t : State) : Prop := t.regs = (if p.srcPos = posOf s ∧ s.net.spill.contains (naSite p.src) = true then (countNoc s 0x010).regs else s.regs)
    let atDst (off : Nat) : Nat := rkey (if naSite p.dst < nDies s then naSite p.dst else 15) 0x12 off
    let oneMore (t : State) (off : Nat) : Prop := (reg t (atDst off)).toNat = satAdd 32 (reg s (atDst off)).toNat 1
    (good 0 → banksHere p = false → mayGo s p 2 (responseFlits p.bytes) = true → ∃ t, exec (.read p) s = .next t ∧ answers t 0x21 0 (cdiv p.bytes 4) ∧ same t)
    ∧ (mayGo s p 2 (responseFlits p.bytes) = false → exec (.read p) s = .next s)
    ∧ (good 0 → banksHere p = false → mayGo s p flits 1 = true → ∃ t, exec (.acknowledgedWrite p) s = .next t ∧ answers t 0x22 0 0 ∧ same t)
    ∧ (good 0 → banksHere p = false → mayGo s p flits 0 = true → exec (.postedWrite p) s = .next (spendWay s (vn01Way s p) flits))
    ∧ (good 1 → exec (.readResponse p) s = .next (answered s p.dst p.tag) ∧ exec (.writeAcknowledgement p) s = .next (answered s p.dst p.tag))
    ∧ (∀ b, good 0 → banksHere p = true → s.banks[p.addr.toNat / bankBytes]? = some b →
        (0 < p.bytes → p.addr.toNat % bankBytes + p.bytes ≤ bankBytes → mayGo s p 2 (responseFlits p.bytes) = true →
          (ownsBank s b p = true → b.power = 0 → ∃ t j, exec (.read p) s = .next t ∧ t.banks = s.banks.set (p.addr.toNat / bankBytes) { b with reads := b.reads ++ [j] }
            ∧ j.pkt.tag = p.tag ∧ j.next = p.addr.toNat % bankBytes / 8 ∧ t.regs = s.regs ∧ t.ds = s.ds ∧ t.md = s.md)
          ∧ (ownsBank s b p = false → ∃ t, exec (.read p) s = .next t ∧ answers t 0x21 1 0 ∧ t.banks = s.banks
            ∧ (ioReg t 0x13 (0x40C + 16 * (p.addr.toNat / bankBytes))) = satAdd 16 (ioReg s 0x13 (0x40C + 16 * (p.addr.toNat / bankBytes))) 1))
        ∧ (p.words ≠ [] → p.addr.toNat % bankBytes + 4 * p.words.length ≤ bankBytes → mayGo s p flits 1 = true → ownsBank s b p = true → b.power = 0 →
          ∃ t j, exec (.acknowledgedWrite p) s = .next t ∧ t.banks = s.banks.set (p.addr.toNat / bankBytes) { b with writes := b.writes ++ [j] }
            ∧ j.pkt.words = p.words ∧ j.next = p.addr.toNat % bankBytes / 8 ∧ t.regs = s.regs ∧ t.ds = s.ds ∧ t.md = s.md))
    ∧ (comes 0 → s.net.spill.contains (naSite p.dst) = false → p.poison = true → mayGo s p 2 (responseFlits p.bytes) = true →
        ∃ t, exec (.read p) s = .next t ∧ answers t 0x21 1 0 ∧ oneMore t 0x014)
    ∧ (comes 0 → s.net.spill.contains (naSite p.dst) = true → mayGo s p 2 (responseFlits p.bytes) = true →
        ∃ t, exec (.read p) s = .next t ∧ answers t 0x21 2 0 ∧ ioReg t 0x12 0x00C = satAdd 32 (ioReg s 0x12 0x00C) 1)
    ∧ (comes 0 → s.net.spill.contains (naSite p.dst) = false → p.poison = false → endpointHere s p.dst = false → mayGo s p 2 (responseFlits p.bytes) = true →
        ∃ t, exec (.read p) s = .next t ∧ answers t 0x21 3 0 ∧ oneMore t 0x018)
    ∧ (∀ r, p.poison = true → p.vn = 1 → p.dstPos = posOf s → naSite p.dst < nDies s → naEnd p.dst = 0 →
        s.ds.ddr.find? (fun r => r.gc == 64 * naSite p.dst + 16 * (naX p.dst / 4 + 2 * (naY p.dst / 4)) + naX p.dst % 4 + 4 * (naY p.dst % 4) && !r.arrived && r.port == p.tag % 4) = some r →
        granuleSaved s r.key = true → s.ckp.recovery = none → s.ckp.badDcn ≠ some s.seq.dcn → ∃ t, exec (.readResponse p) s = .next t ∧ t.slu.held.contains (13, 0) = true
          ∧ t.ds = { s.ds with ddr := s.ds.ddr.filter (fun x => x != r) } ∧ t.md = s.md)
    ∧ (∀ n ch (ws : List Word), p.vn = 0 → p.dst = trxAddress → p.dstPos = posOf s → p.poison = false → chanOf s n = some ch → takesIn s ch = true → ch.credits ≠ 0 →
        packetSource s p ch = some ch.cfg.source.toNat → (ch.cfg.source = 1 → partnerRoom s = true) → entryOk ch (parseEntry ch.fmt ws) = true →
        ∃ t x m, exec (.transactorMessage p n ws) s = .next t ∧ chanOf t n = some x ∧ x.inq = ch.inq ++ [m] ∧ m.seq = ch.inSeq
          ∧ m.words.length = (parseEntry ch.fmt ws).len ∧ x.inSeq = (if (parseEntry ch.fmt ws).typ = 2 then ch.inSeq else ch.inSeq + 1)
          ∧ x.outq = ch.outq ∧ (∀ o, o ≠ n → chanOf t o = chanOf s o) ∧ t.ds = s.ds ∧ t.md = s.md)
    ∧ (∀ n ch (ws : List Word), p.poison = false → p.vn = 0 → p.dst = trxAddress → p.dstPos = posOf s → chanOf s n = some ch → ch.credits = 0 → exec (.transactorMessage p n ws) s = .next s)
    ∧ (∀ n (ws : List Word), p.vn = 0 → p.dst = trxAddress → p.dstPos = posOf s → p.poison = true → exec (.transactorMessage p n ws) s = .next (bumpIo s 0x12 0x014 32 1))
    ∧ (∀ pos d part, let old := (lookup s.cap.parts (16 * pos + d)).getD (0, [], false)
        p.vn = 2 → (naSite p.src = 8 → pos ≠ posOf s) → partArrives s p pos d = true → (isLead s = true → s.md.safeHold = none) → p.poison = false → part < 7 → part = old.1 → partTravels s p pos d ≠ none →
        ∃ t, exec (.captureBlockPart p pos d part) s = .next t ∧ t = { s with net := t.net, cap := t.cap }
          ∧ t.cap = { s.cap with parts := put s.cap.parts (16 * pos + d) (part + 1, old.2.1 ++ p.words, old.2.2) })
    ∧ (∀ pos d part, p.vn = 2 → (naSite p.src = 8 → pos ≠ posOf s) → partArrives s p pos d = true → part ≠ ((lookup s.cap.parts (16 * pos + d)).getD (0, [], false)).1 →
        exec (.captureBlockPart p pos d part) s = .next s)
    ∧ (∀ pos d part, p.vn ≠ 2 ∨ (naSite p.src = 8 ∧ pos = posOf s) ∨ partArrives s p pos d = false → exec (.captureBlockPart p pos d part) s = .next (bumpIo s 0x12 0x018 32 1))

/-- For every state: a record that reaches the funnel with room and a destination that takes it stands at the write pointer, which
moves on by 32 bytes, and in host memory when that is the destination; without WRAP a full buffer drops it, counts it lost, sets
FULL and clears ON; a poisoned packet is discarded and counted, and one on another network or from the accessory die absorbed. A rule that does not hold changes nothing; one that holds moves
the machine to its next state with no records stored, and with STOP among its actions clears ON. Gating a source marks it gated
and waking it ends that; gating a gated source or waking another changes nothing. Mode and design data are unchanged. -/
def Obligations.TraceFunnelRulesAndGates : Prop :=
  ∀ (s : State) (u : Nat),
    let comes (p : Packet) : Prop := p.vn = 2 ∧ (naSite p.src = 8 → p.srcPos ≠ posOf s)
    (∀ p : Packet, comes p → p.poison = true → exec (.traceRecord p u) s = .next (bumpIo s 0x12 0x014 32 1))
    ∧ (∀ p : Packet, p.vn ≠ 2 ∨ (naSite p.src = 8 ∧ p.srcPos = posOf s) → exec (.traceRecord p u) s = .next (bumpIo s 0x12 0x018 32 1))
    ∧ (∀ p : Packet, comes p → p.poison = false → p.words.length = 8 → bankRefuses s = false → trcWptr s + 32 ≤ trcSize s → trcWptr s + 32 < 2 ^ 32 →
        ∃ t, exec (.traceRecord p u) s = .next t ∧ lookup t.trc.data (trcWptr s) = some p.words ∧ trcWptr t = trcWptr s + 32
          ∧ (∀ a, a ≠ trcWptr s → lookup t.trc.data a = lookup s.trc.data a)
          ∧ t.trc = { s.trc with data := t.trc.data, stored := s.trc.stored + 1 } ∧ t = { s with trc := t.trc, regs := t.regs, banks := t.banks, io := t.io }
          ∧ (trcDest s ≠ 0 → t.banks = s.banks) ∧ (trcDest s ≠ 2 → t.io = s.io)
          ∧ (trcDest s = 2 → t.io = { s.io with dma := put s.io.dma (ioReg s 0x16 0x008 + 2 ^ 32 * ioReg s 0x16 0x00C + trcWptr s) p.words }))
    ∧ (∀ p : Packet, comes p → p.poison = false → p.words.length = 8 → bankRefuses s = false → trcSize s < trcWptr s + 32 → bitOf (trcCtrl s) 13 = false →
        ∃ t, exec (.traceRecord p u) s = .next t ∧ t.trc = { s.trc with on := false } ∧ trcFull t = true
          ∧ ioReg t 0x16 0x018 = satAdd 32 (ioReg s 0x16 0x018) 1 ∧ t = { s with trc := t.trc, regs := t.regs })
    ∧ (∀ i, ruleFires s i = false → exec (.traceRuleFire i) s = .next s)
    ∧ (∀ i, ruleFires s i = true → ∃ t, exec (.traceRuleFire i) s = .next t ∧ t.trc.st = fld (trcRule s) 11 9 ∧ t.trc.stored = 0
        ∧ (bitOf (trcRule s) 13 = true → t.trc.on = false) ∧ t.ds = s.ds ∧ t.md = s.md)
    ∧ (u < 11 → s.trc.gated.contains u = false → ∃ t, exec (.sourceClockGate u) s = .next t ∧ t.trc.gated = ins s.trc.gated u ∧ t.ds = s.ds ∧ t.md = s.md)
    ∧ (s.trc.gated.contains u = true → exec (.sourceClockGate u) s = .next s)
    ∧ (s.trc.gated.contains u = true → ∃ t, exec (.sourceWake u) s = .next t ∧ t.trc.gated = s.trc.gated.filter (fun x => x != u) ∧ t.ds = s.ds ∧ t.md = s.md)
    ∧ (s.trc.gated.contains u = false → exec (.sourceWake u) s = .next s)

/-- For every state, reachable or not, and whatever command stands at the front of its queue or none: when the mode is legal (outside
RUN the sub-state is FREE, shown as 0, and the debug flag is clear) and step answers a next state, the mode of that state is legal
too. -/
def Obligations.StepKeepsTheModeLegal : Prop :=
  ∀ s t : State, s.legalMode → step s = .next t → t.legalMode

/-- State.reset is in BOOT with a legal mode, no SAFE HOLD and no stop fixed; DCN 0 and no tick to execute; the sluice line low until
start-up opens it; no resident image, no load and no staging area; rings disabled with 16-entry command and reply rings and a
64-entry event ring; no command pending or waiting; UTIL and user pins off; time zero and UNSET, TIME_INCR 163,840; CFG_DONE low;
every fabric region UNCONFIGURED; no session; 16 banks on. Its register file lists nothing, so every register reads its reset
value. The part at reset is the model's choice (log 1). -/
def Obligations.ColdResetLeavesTheseValues : Prop :=
  let s := State.reset
  s.md = { mode := .boot, sub := .free, debug := false, safeHold := none, stops := [] } ∧ s.legalMode
  ∧ s.seq.dcn = 0 ∧ s.seq.tick = .idle ∧ s.slu.bootLow = true ∧ frozen s = true ∧ s.img.resident = none ∧ s.img.loading = none ∧ s.img.stageBytes = none
  ∧ s.pending = [] ∧ s.io.waiting = [] ∧ ringsOn s = false ∧ reg s (bkey 0x1018) = 4 ∧ reg s (bkey 0x1038) = 4 ∧ reg s (bkey 0x1058) = 6
  ∧ s.util.serviceEn = false ∧ s.util.userEn = false ∧ s.time.unset = true ∧ stamp s = 0 ∧ timeIncr s = 163840 ∧ s.boot.line = false
  ∧ (∀ r, regionSt s r = .unconfigured) ∧ s.sec.sessions = [] ∧ s.banks.length = 16 ∧ (∀ b ∈ s.banks, b.power = 0 ∧ b.words = [] ∧ b.poison = []) ∧ s.net.out = [] ∧ (∀ k, reg s k = regReset k)
  ∧ Memory.wf regReset s.regs = true ∧ Memory.wf zeroW s.ds.rows = true
end

