-- ==== Sys2Proof/Laws/Cells.lean ====
section
/-! SUPPORT. Laws/Cells.lean: the laws of the sparse arrays: a read after a write, the canonical form, the keyed lists. -/
namespace Sys2Proof.Machine

/-- A tail of a rising array rises. -/
theorem cascend_tail {α : Type} {o : Option Nat} {k : Nat} {v : α} {m : Cells α} (h : cascend o ((k, v) :: m) = true) : cascend (some k) m = true := by
  cases o with
  | none => simpa [cascend] using h
  | some b => simp only [cascend, Bool.and_eq_true] at h; exact h.2

/-- A read after a write: the value written at its key, and every other key as before. -/
theorem cget_cset {α : Type} [DecidableEq α] (d : Nat → α) (m : Cells α) (k : Nat) (v : α) (x : Nat) :
    cget d (cset d m k v) x = if x = k then v else cget d m x := by
  induction m with
  | nil =>
    simp only [cset, cget]
    split
    · next hv => by_cases hx : x = k <;> simp [cget, hx, hv]
    · by_cases hx : x = k
      · simp [cget, hx]
      · have : k ≠ x := fun e => hx e.symm
        simp [cget, hx, this]
  | cons e m ih =>
    obtain ⟨k', v'⟩ := e
    simp only [cset]
    by_cases hx : x = k
    · subst hx
      split
      · next hlt => have : k' ≠ x := by omega
                    simp [cget, this, ih]
      · split
        · next h1 h2 => subst h2; split
                        · simp [ih]
                        · simp [cget]
        · next h1 h2 => split
                        · simp [cget, h2, ih]
                        · simp [cget]
    · have hk : k ≠ x := fun e => hx e.symm
      split
      · simp [cget, ih, hx]
      · split
        · next h1 h2 => subst h2; split
                        · simp [cget, ih, hx, hk]
                        · simp [cget, hk]
        · split
          · simp [cget, ih, hx]
          · simp [cget, hk]

/-- Writing the default to a rising array whose keys lie above the key changes nothing. -/
theorem cset_default_above {α : Type} [DecidableEq α] (d : Nat → α) (m : Cells α) (k b : Nat) (h : cascend (some b) m = true) (hk : k ≤ b) :
    cset d m k (d k) = m := by
  induction m generalizing b with
  | nil => simp [cset]
  | cons e m ih =>
    obtain ⟨k', v'⟩ := e
    simp only [cascend, Bool.and_eq_true, decide_eq_true_eq] at h
    have h1 : ¬ k' < k := by omega
    have h2 : k' ≠ k := by omega
    simp [cset, h1, h2, ih k' h.2 (by omega)]

/-- A write keeps the keys rising. -/
theorem cascend_cset {α : Type} [DecidableEq α] (d : Nat → α) (m : Cells α) (o : Option Nat) (h : cascend o m = true) (k : Nat) (v : α)
    (ho : ∀ b, o = some b → b < k) : cascend o (cset d m k v) = true := by
  induction m generalizing o with
  | nil =>
    simp only [cset]
    split
    · cases o <;> rfl
    · cases o with
      | none => rfl
      | some b => simp [cascend, ho b rfl]
  | cons e m ih =>
    obtain ⟨k', v'⟩ := e
    have ht := cascend_tail h
    have head : ∀ (n : Cells α), cascend (some k') n = true → cascend o ((k', v') :: n) = true := by
      intro n hn
      cases o with
      | none => simpa [cascend] using hn
      | some b => simp only [cascend, Bool.and_eq_true, decide_eq_true_eq] at h ⊢; exact ⟨h.1, hn⟩
    simp only [cset]
    split
    · next hlt => exact head _ (ih (some k') ht (by intro b hb; cases hb; exact hlt))
    · split
      · next hge heq =>
        subst heq
        split
        · next hv => rw [hv, cset_default_above d m k' k' ht (Nat.le_refl _)]
                     cases o with
          | none => cases m with
            | nil => rfl
            | cons e m => simp only [cascend, Bool.and_eq_true] at ht ⊢; exact ht.2
          | some b => cases m with
            | nil => rfl
            | cons e m =>
              simp only [cascend, Bool.and_eq_true, decide_eq_true_eq] at h ht ⊢
              exact ⟨by omega, ht.2⟩
        · cases o with
          | none => simpa [cascend] using ht
          | some b => simp only [cascend, Bool.and_eq_true, decide_eq_true_eq]; exact ⟨ho b rfl, ht⟩
      · next hge hne =>
        have hlt : k < k' := by omega
        split
        · next hv => rw [hv, cset_default_above d m k k' ht (Nat.le_of_lt hlt)]; exact h
        · have hk : cascend (some k) ((k', v') :: m) = true := by simp [cascend, hlt, ht]
          cases o with
          | none => simpa [cascend] using hk
          | some b => simp only [cascend, Bool.and_eq_true, decide_eq_true_eq]; exact ⟨ho b rfl, by simp [hlt, ht]⟩

/-- A write keeps the array free of default entries. -/
theorem cnondef_cset {α : Type} [DecidableEq α] (d : Nat → α) (m : Cells α) (h : cnondef d m = true) (k : Nat) (v : α) :
    cnondef d (cset d m k v) = true := by
  induction m with
  | nil => simp only [cset]; split <;> simp_all [cnondef]
  | cons e m ih =>
    obtain ⟨k', v'⟩ := e
    simp only [cnondef, Bool.and_eq_true, decide_eq_true_eq] at h
    simp only [cset]
    split
    · simp [cnondef, h.1, ih h.2]
    · split
      · split
        · exact ih h.2
        · next hv => simp [cnondef, hv, h.2]
      · split
        · simp [cnondef, h.1, ih h.2]
        · next hv => simp [cnondef, hv, h.1, h.2]

/-- A write keeps the canonical form. -/
theorem Memory.wf_cset {α : Type} [DecidableEq α] (d : Nat → α) (m : Cells α) (h : Memory.wf d m = true) (k : Nat) (v : α) :
    Memory.wf d (cset d m k v) = true := by
  simp only [Memory.wf, Bool.and_eq_true] at h ⊢
  exact ⟨cascend_cset d m none h.1 k v (by intro b hb; cases hb), cnondef_cset d m h.2 k v⟩

/-- The empty array is canonical. -/
theorem Memory.wf_nil {α : Type} [DecidableEq α] (d : Nat → α) : Memory.wf d ([] : Cells α) = true := rfl

/-- A filter keeps a bound on a rising array. -/
theorem cascend_ckeep {α : Type} (p : Nat → Bool) (m : Cells α) (o : Option Nat) (h : cascend o m = true) : cascend o (ckeep p m) = true := by
  induction m generalizing o with
  | nil => cases o <;> rfl
  | cons e m ih =>
    obtain ⟨k, v⟩ := e
    have ht := cascend_tail h
    simp only [ckeep, List.filter] at ih ⊢
    cases hp : p k with
    | true =>
      simp only
      cases o with
      | none => simpa [cascend] using ih _ ht
      | some b => simp only [cascend, Bool.and_eq_true, decide_eq_true_eq] at h ⊢; exact ⟨h.1, ih _ ht⟩
    | false =>
      simp only
      refine ih o ?_
      cases m with
      | nil => cases o <;> rfl
      | cons e' m =>
        cases o with
        | none => simp only [cascend, Bool.and_eq_true] at ht ⊢; exact ht.2
        | some b => simp only [cascend, Bool.and_eq_true, decide_eq_true_eq] at h ht ⊢; exact ⟨by omega, ht.2⟩

/-- Keeping the entries whose key satisfies a test keeps the canonical form. -/
theorem Memory.wf_ckeep {α : Type} [DecidableEq α] (d : Nat → α) (p : Nat → Bool) (m : Cells α) (h : Memory.wf d m = true) :
    Memory.wf d (ckeep p m) = true := by
  simp only [Memory.wf, Bool.and_eq_true] at h ⊢
  refine ⟨cascend_ckeep p m none h.1, ?_⟩
  have h2 := h.2
  clear h
  induction m with
  | nil => rfl
  | cons e m ih =>
    obtain ⟨k, v⟩ := e
    simp only [cnondef, Bool.and_eq_true, decide_eq_true_eq] at h2
    simp only [ckeep, List.filter] at ih ⊢
    cases hp : p k with
    | true => simp [cnondef, h2.1, ih h2.2]
    | false => simpa using ih h2.2

/-- Writing a list of entries keeps the canonical form. -/
theorem Memory.wf_wrAll {n : Nat} (es : List (Nat × BitVec n)) (m : Cells (BitVec n)) (h : Memory.wf zeroW m = true) :
    Memory.wf zeroW (wrAll m es) = true := by
  induction es generalizing m with
  | nil => exact h
  | cons e es ih => obtain ⟨k, v⟩ := e; exact ih _ (Memory.wf_cset zeroW m h k v)

/-- A read after a write of a memory of words. -/
theorem rd_wr {n : Nat} (m : Cells (BitVec n)) (k x : Nat) (v : BitVec n) : rd (wr m k v) x = if x = k then v else rd m x :=
  cget_cset zeroW m k v x

/-- The value just put is found. -/
@[simp] theorem lookup_put_same {α : Type} (m : List (Nat × α)) (k : Nat) (v : α) : lookup (put m k v) k = some v := by
  induction m with
  | nil => simp [put, lookup]
  | cons e m ih =>
    obtain ⟨k', v'⟩ := e
    simp only [put]
    split
    · next h => have : k' ≠ k := by omega
                simp [lookup, this, ih]
    · split <;> simp [lookup]

/-- Any other key is found as before. -/
theorem lookup_put_other {α : Type} (m : List (Nat × α)) (k x : Nat) (v : α) (h : x ≠ k) : lookup (put m k v) x = lookup m x := by
  induction m with
  | nil => have : k ≠ x := fun e => h e.symm
           simp [put, lookup, this]
  | cons e m ih =>
    obtain ⟨k', v'⟩ := e
    have hk : k ≠ x := fun e => h e.symm
    simp only [put]
    split
    · simp only [lookup, ih]
    · split
      · next h1 h2 => have : k' ≠ x := by omega
                      simp [lookup, hk, this]
      · simp [lookup, hk]

/-- A second put at a key replaces the first. -/
@[simp] theorem put_put {α : Type} (m : List (Nat × α)) (k : Nat) (v w : α) : put (put m k v) k w = put m k w := by
  induction m with
  | nil => simp [put]
  | cons e m ih =>
    obtain ⟨k', v'⟩ := e
    simp only [put]
    split
    · next h => simp [put, h, ih]
    · split
      · simp [put]
      · simp [put]

end Sys2Proof.Machine
end

