-- ==== Sys2Proof/Laws/State.lean ====
section
/-! SUPPORT. Laws/State.lean: what each shared operation of Machine/Ops.lean leaves unchanged, one lemma per operation, so that no later
proof unfolds a record update. -/
namespace Sys2Proof.Machine

/-- A fold of operations that keep a part of the state keeps it. -/
theorem foldl_keeps {α β : Type} (P : State → β) (f : State → α → State) (h : ∀ s x, P (f s x) = P s) (l : List α) (s : State) :
    P (l.foldl f s) = P s := by
  induction l generalizing s with
  | nil => rfl
  | cons x xs ih => simp [List.foldl, ih, h]

/-- setReg changes nothing but regs. -/
@[simp] theorem setReg_frame (s : State) (k : Nat) (w : Word) :
    (setReg s k w).pending = s.pending ∧ (setReg s k w).freeCtr = s.freeCtr ∧ (setReg s k w).ident = s.ident ∧ (setReg s k
    w).straps = s.straps ∧ (setReg s k w).md = s.md ∧ (setReg s k w).seq = s.seq ∧ (setReg s k w).slu = s.slu ∧ (setReg s k w).ds
    = s.ds ∧ (setReg s k w).img = s.img ∧ (setReg s k w).haz = s.haz ∧ (setReg s k w).cap = s.cap ∧ (setReg s k w).casc = s.casc
    ∧ (setReg s k w).chn = s.chn ∧ (setReg s k w).ckp = s.ckp ∧ (setReg s k w).trx = s.trx ∧ (setReg s k w).io = s.io ∧ (setReg s
    k w).err = s.err ∧ (setReg s k w).fab = s.fab ∧ (setReg s k w).time = s.time ∧ (setReg s k w).pwr = s.pwr ∧ (setReg s k
    w).net = s.net ∧ (setReg s k w).trc = s.trc ∧ (setReg s k w).util = s.util ∧ (setReg s k w).peers = s.peers ∧ (setReg s k
    w).boot = s.boot ∧ (setReg s k w).acc = s.acc ∧ (setReg s k w).ucie = s.ucie ∧ (setReg s k w).bl = s.bl ∧ (setReg s k w).ctl
    = s.ctl ∧ (setReg s k w).sec = s.sec ∧ (setReg s k w).banks = s.banks ∧ (setReg s k w).phys = s.phys := by
  simp [setReg]

/-- setIo changes nothing but regs. -/
@[simp] theorem setIo_frame (s : State) (b o v : Nat) :
    (setIo s b o v).pending = s.pending ∧ (setIo s b o v).freeCtr = s.freeCtr ∧ (setIo s b o v).ident = s.ident ∧ (setIo s b o
    v).straps = s.straps ∧ (setIo s b o v).md = s.md ∧ (setIo s b o v).seq = s.seq ∧ (setIo s b o v).slu = s.slu ∧ (setIo s b o
    v).ds = s.ds ∧ (setIo s b o v).img = s.img ∧ (setIo s b o v).haz = s.haz ∧ (setIo s b o v).cap = s.cap ∧ (setIo s b o v).casc
    = s.casc ∧ (setIo s b o v).chn = s.chn ∧ (setIo s b o v).ckp = s.ckp ∧ (setIo s b o v).trx = s.trx ∧ (setIo s b o v).io =
    s.io ∧ (setIo s b o v).err = s.err ∧ (setIo s b o v).fab = s.fab ∧ (setIo s b o v).time = s.time ∧ (setIo s b o v).pwr =
    s.pwr ∧ (setIo s b o v).net = s.net ∧ (setIo s b o v).trc = s.trc ∧ (setIo s b o v).util = s.util ∧ (setIo s b o v).peers =
    s.peers ∧ (setIo s b o v).boot = s.boot ∧ (setIo s b o v).acc = s.acc ∧ (setIo s b o v).ucie = s.ucie ∧ (setIo s b o v).bl =
    s.bl ∧ (setIo s b o v).ctl = s.ctl ∧ (setIo s b o v).sec = s.sec ∧ (setIo s b o v).banks = s.banks ∧ (setIo s b o v).phys =
    s.phys := by
  simp [setIo]

/-- bump changes nothing but regs. -/
@[simp] theorem bump_frame (s : State) (k w d : Nat) :
    (bump s k w d).pending = s.pending ∧ (bump s k w d).freeCtr = s.freeCtr ∧ (bump s k w d).ident = s.ident ∧ (bump s k w
    d).straps = s.straps ∧ (bump s k w d).md = s.md ∧ (bump s k w d).seq = s.seq ∧ (bump s k w d).slu = s.slu ∧ (bump s k w d).ds
    = s.ds ∧ (bump s k w d).img = s.img ∧ (bump s k w d).haz = s.haz ∧ (bump s k w d).cap = s.cap ∧ (bump s k w d).casc = s.casc
    ∧ (bump s k w d).chn = s.chn ∧ (bump s k w d).ckp = s.ckp ∧ (bump s k w d).trx = s.trx ∧ (bump s k w d).io = s.io ∧ (bump s k
    w d).err = s.err ∧ (bump s k w d).fab = s.fab ∧ (bump s k w d).time = s.time ∧ (bump s k w d).pwr = s.pwr ∧ (bump s k w
    d).net = s.net ∧ (bump s k w d).trc = s.trc ∧ (bump s k w d).util = s.util ∧ (bump s k w d).peers = s.peers ∧ (bump s k w
    d).boot = s.boot ∧ (bump s k w d).acc = s.acc ∧ (bump s k w d).ucie = s.ucie ∧ (bump s k w d).bl = s.bl ∧ (bump s k w d).ctl
    = s.ctl ∧ (bump s k w d).sec = s.sec ∧ (bump s k w d).banks = s.banks ∧ (bump s k w d).phys = s.phys := by
  simp [bump]

/-- bumpIo changes nothing but regs. -/
@[simp] theorem bumpIo_frame (s : State) (b o w d : Nat) :
    (bumpIo s b o w d).pending = s.pending ∧ (bumpIo s b o w d).freeCtr = s.freeCtr ∧ (bumpIo s b o w d).ident = s.ident ∧
    (bumpIo s b o w d).straps = s.straps ∧ (bumpIo s b o w d).md = s.md ∧ (bumpIo s b o w d).seq = s.seq ∧ (bumpIo s b o w d).slu
    = s.slu ∧ (bumpIo s b o w d).ds = s.ds ∧ (bumpIo s b o w d).img = s.img ∧ (bumpIo s b o w d).haz = s.haz ∧ (bumpIo s b o w
    d).cap = s.cap ∧ (bumpIo s b o w d).casc = s.casc ∧ (bumpIo s b o w d).chn = s.chn ∧ (bumpIo s b o w d).ckp = s.ckp ∧ (bumpIo
    s b o w d).trx = s.trx ∧ (bumpIo s b o w d).io = s.io ∧ (bumpIo s b o w d).err = s.err ∧ (bumpIo s b o w d).fab = s.fab ∧
    (bumpIo s b o w d).time = s.time ∧ (bumpIo s b o w d).pwr = s.pwr ∧ (bumpIo s b o w d).net = s.net ∧ (bumpIo s b o w d).trc =
    s.trc ∧ (bumpIo s b o w d).util = s.util ∧ (bumpIo s b o w d).peers = s.peers ∧ (bumpIo s b o w d).boot = s.boot ∧ (bumpIo s
    b o w d).acc = s.acc ∧ (bumpIo s b o w d).ucie = s.ucie ∧ (bumpIo s b o w d).bl = s.bl ∧ (bumpIo s b o w d).ctl = s.ctl ∧
    (bumpIo s b o w d).sec = s.sec ∧ (bumpIo s b o w d).banks = s.banks ∧ (bumpIo s b o w d).phys = s.phys := by
  simp [bumpIo]

/-- maxIo changes nothing but regs. -/
@[simp] theorem maxIo_frame (s : State) (b o v : Nat) :
    (maxIo s b o v).pending = s.pending ∧ (maxIo s b o v).freeCtr = s.freeCtr ∧ (maxIo s b o v).ident = s.ident ∧ (maxIo s b o
    v).straps = s.straps ∧ (maxIo s b o v).md = s.md ∧ (maxIo s b o v).seq = s.seq ∧ (maxIo s b o v).slu = s.slu ∧ (maxIo s b o
    v).ds = s.ds ∧ (maxIo s b o v).img = s.img ∧ (maxIo s b o v).haz = s.haz ∧ (maxIo s b o v).cap = s.cap ∧ (maxIo s b o v).casc
    = s.casc ∧ (maxIo s b o v).chn = s.chn ∧ (maxIo s b o v).ckp = s.ckp ∧ (maxIo s b o v).trx = s.trx ∧ (maxIo s b o v).io =
    s.io ∧ (maxIo s b o v).err = s.err ∧ (maxIo s b o v).fab = s.fab ∧ (maxIo s b o v).time = s.time ∧ (maxIo s b o v).pwr =
    s.pwr ∧ (maxIo s b o v).net = s.net ∧ (maxIo s b o v).trc = s.trc ∧ (maxIo s b o v).util = s.util ∧ (maxIo s b o v).peers =
    s.peers ∧ (maxIo s b o v).boot = s.boot ∧ (maxIo s b o v).acc = s.acc ∧ (maxIo s b o v).ucie = s.ucie ∧ (maxIo s b o v).bl =
    s.bl ∧ (maxIo s b o v).ctl = s.ctl ∧ (maxIo s b o v).sec = s.sec ∧ (maxIo s b o v).banks = s.banks ∧ (maxIo s b o v).phys =
    s.phys := by
  unfold maxIo; split <;> simp

/-- orIo changes nothing but regs. -/
@[simp] theorem orIo_frame (s : State) (b o v : Nat) :
    (orIo s b o v).pending = s.pending ∧ (orIo s b o v).freeCtr = s.freeCtr ∧ (orIo s b o v).ident = s.ident ∧ (orIo s b o
    v).straps = s.straps ∧ (orIo s b o v).md = s.md ∧ (orIo s b o v).seq = s.seq ∧ (orIo s b o v).slu = s.slu ∧ (orIo s b o v).ds
    = s.ds ∧ (orIo s b o v).img = s.img ∧ (orIo s b o v).haz = s.haz ∧ (orIo s b o v).cap = s.cap ∧ (orIo s b o v).casc = s.casc
    ∧ (orIo s b o v).chn = s.chn ∧ (orIo s b o v).ckp = s.ckp ∧ (orIo s b o v).trx = s.trx ∧ (orIo s b o v).io = s.io ∧ (orIo s b
    o v).err = s.err ∧ (orIo s b o v).fab = s.fab ∧ (orIo s b o v).time = s.time ∧ (orIo s b o v).pwr = s.pwr ∧ (orIo s b o
    v).net = s.net ∧ (orIo s b o v).trc = s.trc ∧ (orIo s b o v).util = s.util ∧ (orIo s b o v).peers = s.peers ∧ (orIo s b o
    v).boot = s.boot ∧ (orIo s b o v).acc = s.acc ∧ (orIo s b o v).ucie = s.ucie ∧ (orIo s b o v).bl = s.bl ∧ (orIo s b o v).ctl
    = s.ctl ∧ (orIo s b o v).sec = s.sec ∧ (orIo s b o v).banks = s.banks ∧ (orIo s b o v).phys = s.phys := by
  simp [orIo]

/-- tickFree changes nothing but freeCtr. -/
@[simp] theorem tickFree_frame (s : State) :
    (tickFree s).pending = s.pending ∧ (tickFree s).ident = s.ident ∧ (tickFree s).straps = s.straps ∧ (tickFree s).regs = s.regs
    ∧ (tickFree s).md = s.md ∧ (tickFree s).seq = s.seq ∧ (tickFree s).slu = s.slu ∧ (tickFree s).ds = s.ds ∧ (tickFree s).img =
    s.img ∧ (tickFree s).haz = s.haz ∧ (tickFree s).cap = s.cap ∧ (tickFree s).casc = s.casc ∧ (tickFree s).chn = s.chn ∧
    (tickFree s).ckp = s.ckp ∧ (tickFree s).trx = s.trx ∧ (tickFree s).io = s.io ∧ (tickFree s).err = s.err ∧ (tickFree s).fab =
    s.fab ∧ (tickFree s).time = s.time ∧ (tickFree s).pwr = s.pwr ∧ (tickFree s).net = s.net ∧ (tickFree s).trc = s.trc ∧
    (tickFree s).util = s.util ∧ (tickFree s).peers = s.peers ∧ (tickFree s).boot = s.boot ∧ (tickFree s).acc = s.acc ∧ (tickFree
    s).ucie = s.ucie ∧ (tickFree s).bl = s.bl ∧ (tickFree s).ctl = s.ctl ∧ (tickFree s).sec = s.sec ∧ (tickFree s).banks =
    s.banks ∧ (tickFree s).phys = s.phys := by
  simp [tickFree]

/-- sendFw changes nothing but net. -/
@[simp] theorem sendFw_frame (s : State) (m : FwMsg) :
    (sendFw s m).pending = s.pending ∧ (sendFw s m).freeCtr = s.freeCtr ∧ (sendFw s m).ident = s.ident ∧ (sendFw s m).straps =
    s.straps ∧ (sendFw s m).regs = s.regs ∧ (sendFw s m).md = s.md ∧ (sendFw s m).seq = s.seq ∧ (sendFw s m).slu = s.slu ∧
    (sendFw s m).ds = s.ds ∧ (sendFw s m).img = s.img ∧ (sendFw s m).haz = s.haz ∧ (sendFw s m).cap = s.cap ∧ (sendFw s m).casc =
    s.casc ∧ (sendFw s m).chn = s.chn ∧ (sendFw s m).ckp = s.ckp ∧ (sendFw s m).trx = s.trx ∧ (sendFw s m).io = s.io ∧ (sendFw s
    m).err = s.err ∧ (sendFw s m).fab = s.fab ∧ (sendFw s m).time = s.time ∧ (sendFw s m).pwr = s.pwr ∧ (sendFw s m).trc = s.trc
    ∧ (sendFw s m).util = s.util ∧ (sendFw s m).peers = s.peers ∧ (sendFw s m).boot = s.boot ∧ (sendFw s m).acc = s.acc ∧ (sendFw
    s m).ucie = s.ucie ∧ (sendFw s m).bl = s.bl ∧ (sendFw s m).ctl = s.ctl ∧ (sendFw s m).sec = s.sec ∧ (sendFw s m).banks =
    s.banks ∧ (sendFw s m).phys = s.phys := by
  simp [sendFw]

/-- countReq changes nothing but regs. -/
@[simp] theorem countReq_frame (s : State) (c : Nat) :
    (countReq s c).pending = s.pending ∧ (countReq s c).freeCtr = s.freeCtr ∧ (countReq s c).ident = s.ident ∧ (countReq s
    c).straps = s.straps ∧ (countReq s c).md = s.md ∧ (countReq s c).seq = s.seq ∧ (countReq s c).slu = s.slu ∧ (countReq s c).ds
    = s.ds ∧ (countReq s c).img = s.img ∧ (countReq s c).haz = s.haz ∧ (countReq s c).cap = s.cap ∧ (countReq s c).casc = s.casc
    ∧ (countReq s c).chn = s.chn ∧ (countReq s c).ckp = s.ckp ∧ (countReq s c).trx = s.trx ∧ (countReq s c).io = s.io ∧ (countReq
    s c).err = s.err ∧ (countReq s c).fab = s.fab ∧ (countReq s c).time = s.time ∧ (countReq s c).pwr = s.pwr ∧ (countReq s
    c).net = s.net ∧ (countReq s c).trc = s.trc ∧ (countReq s c).util = s.util ∧ (countReq s c).peers = s.peers ∧ (countReq s
    c).boot = s.boot ∧ (countReq s c).acc = s.acc ∧ (countReq s c).ucie = s.ucie ∧ (countReq s c).bl = s.bl ∧ (countReq s c).ctl
    = s.ctl ∧ (countReq s c).sec = s.sec ∧ (countReq s c).banks = s.banks ∧ (countReq s c).phys = s.phys := by
  simp [countReq]

/-- pulse changes nothing but regs, slu. -/
@[simp] theorem pulse_frame (s : State) (c n : Nat) :
    (pulse s c n).pending = s.pending ∧ (pulse s c n).freeCtr = s.freeCtr ∧ (pulse s c n).ident = s.ident ∧ (pulse s c n).straps
    = s.straps ∧ (pulse s c n).md = s.md ∧ (pulse s c n).seq = s.seq ∧ (pulse s c n).ds = s.ds ∧ (pulse s c n).img = s.img ∧
    (pulse s c n).haz = s.haz ∧ (pulse s c n).cap = s.cap ∧ (pulse s c n).casc = s.casc ∧ (pulse s c n).chn = s.chn ∧ (pulse s c
    n).ckp = s.ckp ∧ (pulse s c n).trx = s.trx ∧ (pulse s c n).io = s.io ∧ (pulse s c n).err = s.err ∧ (pulse s c n).fab = s.fab
    ∧ (pulse s c n).time = s.time ∧ (pulse s c n).pwr = s.pwr ∧ (pulse s c n).net = s.net ∧ (pulse s c n).trc = s.trc ∧ (pulse s
    c n).util = s.util ∧ (pulse s c n).peers = s.peers ∧ (pulse s c n).boot = s.boot ∧ (pulse s c n).acc = s.acc ∧ (pulse s c
    n).ucie = s.ucie ∧ (pulse s c n).bl = s.bl ∧ (pulse s c n).ctl = s.ctl ∧ (pulse s c n).sec = s.sec ∧ (pulse s c n).banks =
    s.banks ∧ (pulse s c n).phys = s.phys := by
  simp [pulse]

/-- holdReq changes nothing but regs, slu. -/
@[simp] theorem holdReq_frame (s : State) (c u : Nat) :
    (holdReq s c u).pending = s.pending ∧ (holdReq s c u).freeCtr = s.freeCtr ∧ (holdReq s c u).ident = s.ident ∧ (holdReq s c
    u).straps = s.straps ∧ (holdReq s c u).md = s.md ∧ (holdReq s c u).seq = s.seq ∧ (holdReq s c u).ds = s.ds ∧ (holdReq s c
    u).img = s.img ∧ (holdReq s c u).haz = s.haz ∧ (holdReq s c u).cap = s.cap ∧ (holdReq s c u).casc = s.casc ∧ (holdReq s c
    u).chn = s.chn ∧ (holdReq s c u).ckp = s.ckp ∧ (holdReq s c u).trx = s.trx ∧ (holdReq s c u).io = s.io ∧ (holdReq s c u).err
    = s.err ∧ (holdReq s c u).fab = s.fab ∧ (holdReq s c u).time = s.time ∧ (holdReq s c u).pwr = s.pwr ∧ (holdReq s c u).net =
    s.net ∧ (holdReq s c u).trc = s.trc ∧ (holdReq s c u).util = s.util ∧ (holdReq s c u).peers = s.peers ∧ (holdReq s c u).boot
    = s.boot ∧ (holdReq s c u).acc = s.acc ∧ (holdReq s c u).ucie = s.ucie ∧ (holdReq s c u).bl = s.bl ∧ (holdReq s c u).ctl =
    s.ctl ∧ (holdReq s c u).sec = s.sec ∧ (holdReq s c u).banks = s.banks ∧ (holdReq s c u).phys = s.phys := by
  unfold holdReq; split <;> simp

/-- dropReq changes nothing but slu. -/
@[simp] theorem dropReq_frame (s : State) (c u : Nat) :
    (dropReq s c u).pending = s.pending ∧ (dropReq s c u).freeCtr = s.freeCtr ∧ (dropReq s c u).ident = s.ident ∧ (dropReq s c
    u).straps = s.straps ∧ (dropReq s c u).regs = s.regs ∧ (dropReq s c u).md = s.md ∧ (dropReq s c u).seq = s.seq ∧ (dropReq s c
    u).ds = s.ds ∧ (dropReq s c u).img = s.img ∧ (dropReq s c u).haz = s.haz ∧ (dropReq s c u).cap = s.cap ∧ (dropReq s c u).casc
    = s.casc ∧ (dropReq s c u).chn = s.chn ∧ (dropReq s c u).ckp = s.ckp ∧ (dropReq s c u).trx = s.trx ∧ (dropReq s c u).io =
    s.io ∧ (dropReq s c u).err = s.err ∧ (dropReq s c u).fab = s.fab ∧ (dropReq s c u).time = s.time ∧ (dropReq s c u).pwr =
    s.pwr ∧ (dropReq s c u).net = s.net ∧ (dropReq s c u).trc = s.trc ∧ (dropReq s c u).util = s.util ∧ (dropReq s c u).peers =
    s.peers ∧ (dropReq s c u).boot = s.boot ∧ (dropReq s c u).acc = s.acc ∧ (dropReq s c u).ucie = s.ucie ∧ (dropReq s c u).bl =
    s.bl ∧ (dropReq s c u).ctl = s.ctl ∧ (dropReq s c u).sec = s.sec ∧ (dropReq s c u).banks = s.banks ∧ (dropReq s c u).phys =
    s.phys := by
  simp [dropReq]

/-- countEcc changes nothing but regs. -/
@[simp] theorem countEcc_frame (s : State) (site cls : Nat) (unc : Bool) :
    (countEcc s site cls unc).pending = s.pending ∧ (countEcc s site cls unc).freeCtr = s.freeCtr ∧ (countEcc s site cls
    unc).ident = s.ident ∧ (countEcc s site cls unc).straps = s.straps ∧ (countEcc s site cls unc).md = s.md ∧ (countEcc s site
    cls unc).seq = s.seq ∧ (countEcc s site cls unc).slu = s.slu ∧ (countEcc s site cls unc).ds = s.ds ∧ (countEcc s site cls
    unc).img = s.img ∧ (countEcc s site cls unc).haz = s.haz ∧ (countEcc s site cls unc).cap = s.cap ∧ (countEcc s site cls
    unc).casc = s.casc ∧ (countEcc s site cls unc).chn = s.chn ∧ (countEcc s site cls unc).ckp = s.ckp ∧ (countEcc s site cls
    unc).trx = s.trx ∧ (countEcc s site cls unc).io = s.io ∧ (countEcc s site cls unc).err = s.err ∧ (countEcc s site cls
    unc).fab = s.fab ∧ (countEcc s site cls unc).time = s.time ∧ (countEcc s site cls unc).pwr = s.pwr ∧ (countEcc s site cls
    unc).net = s.net ∧ (countEcc s site cls unc).trc = s.trc ∧ (countEcc s site cls unc).util = s.util ∧ (countEcc s site cls
    unc).peers = s.peers ∧ (countEcc s site cls unc).boot = s.boot ∧ (countEcc s site cls unc).acc = s.acc ∧ (countEcc s site cls
    unc).ucie = s.ucie ∧ (countEcc s site cls unc).bl = s.bl ∧ (countEcc s site cls unc).ctl = s.ctl ∧ (countEcc s site cls
    unc).sec = s.sec ∧ (countEcc s site cls unc).banks = s.banks ∧ (countEcc s site cls unc).phys = s.phys := by
  unfold countEcc; cases unc <;> simp

/-- signal changes nothing but io. -/
@[simp] theorem signal_frame (s : State) (v : Nat) :
    (signal s v).pending = s.pending ∧ (signal s v).freeCtr = s.freeCtr ∧ (signal s v).ident = s.ident ∧ (signal s v).straps =
    s.straps ∧ (signal s v).regs = s.regs ∧ (signal s v).md = s.md ∧ (signal s v).seq = s.seq ∧ (signal s v).slu = s.slu ∧
    (signal s v).ds = s.ds ∧ (signal s v).img = s.img ∧ (signal s v).haz = s.haz ∧ (signal s v).cap = s.cap ∧ (signal s v).casc =
    s.casc ∧ (signal s v).chn = s.chn ∧ (signal s v).ckp = s.ckp ∧ (signal s v).trx = s.trx ∧ (signal s v).err = s.err ∧ (signal
    s v).fab = s.fab ∧ (signal s v).time = s.time ∧ (signal s v).pwr = s.pwr ∧ (signal s v).net = s.net ∧ (signal s v).trc =
    s.trc ∧ (signal s v).util = s.util ∧ (signal s v).peers = s.peers ∧ (signal s v).boot = s.boot ∧ (signal s v).acc = s.acc ∧
    (signal s v).ucie = s.ucie ∧ (signal s v).bl = s.bl ∧ (signal s v).ctl = s.ctl ∧ (signal s v).sec = s.sec ∧ (signal s
    v).banks = s.banks ∧ (signal s v).phys = s.phys := by
  unfold signal; split <;> simp

/-- writeBack changes nothing but io. -/
@[simp] theorem writeBack_frame (s : State) :
    (writeBack s).pending = s.pending ∧ (writeBack s).freeCtr = s.freeCtr ∧ (writeBack s).ident = s.ident ∧ (writeBack s).straps
    = s.straps ∧ (writeBack s).regs = s.regs ∧ (writeBack s).md = s.md ∧ (writeBack s).seq = s.seq ∧ (writeBack s).slu = s.slu ∧
    (writeBack s).ds = s.ds ∧ (writeBack s).img = s.img ∧ (writeBack s).haz = s.haz ∧ (writeBack s).cap = s.cap ∧ (writeBack
    s).casc = s.casc ∧ (writeBack s).chn = s.chn ∧ (writeBack s).ckp = s.ckp ∧ (writeBack s).trx = s.trx ∧ (writeBack s).err =
    s.err ∧ (writeBack s).fab = s.fab ∧ (writeBack s).time = s.time ∧ (writeBack s).pwr = s.pwr ∧ (writeBack s).net = s.net ∧
    (writeBack s).trc = s.trc ∧ (writeBack s).util = s.util ∧ (writeBack s).peers = s.peers ∧ (writeBack s).boot = s.boot ∧
    (writeBack s).acc = s.acc ∧ (writeBack s).ucie = s.ucie ∧ (writeBack s).bl = s.bl ∧ (writeBack s).ctl = s.ctl ∧ (writeBack
    s).sec = s.sec ∧ (writeBack s).banks = s.banks ∧ (writeBack s).phys = s.phys := by
  simp [writeBack]

/-- sendMgmt changes nothing but net, sec. -/
@[simp] theorem sendMgmt_frame (s : State) (id : Word) (m : Reply ⊕ Event) :
    (sendMgmt s id m).pending = s.pending ∧ (sendMgmt s id m).freeCtr = s.freeCtr ∧ (sendMgmt s id m).ident = s.ident ∧ (sendMgmt
    s id m).straps = s.straps ∧ (sendMgmt s id m).regs = s.regs ∧ (sendMgmt s id m).md = s.md ∧ (sendMgmt s id m).seq = s.seq ∧
    (sendMgmt s id m).slu = s.slu ∧ (sendMgmt s id m).ds = s.ds ∧ (sendMgmt s id m).img = s.img ∧ (sendMgmt s id m).haz = s.haz ∧
    (sendMgmt s id m).cap = s.cap ∧ (sendMgmt s id m).casc = s.casc ∧ (sendMgmt s id m).chn = s.chn ∧ (sendMgmt s id m).ckp =
    s.ckp ∧ (sendMgmt s id m).trx = s.trx ∧ (sendMgmt s id m).io = s.io ∧ (sendMgmt s id m).err = s.err ∧ (sendMgmt s id m).fab =
    s.fab ∧ (sendMgmt s id m).time = s.time ∧ (sendMgmt s id m).pwr = s.pwr ∧ (sendMgmt s id m).trc = s.trc ∧ (sendMgmt s id
    m).util = s.util ∧ (sendMgmt s id m).peers = s.peers ∧ (sendMgmt s id m).boot = s.boot ∧ (sendMgmt s id m).acc = s.acc ∧
    (sendMgmt s id m).ucie = s.ucie ∧ (sendMgmt s id m).bl = s.bl ∧ (sendMgmt s id m).ctl = s.ctl ∧ (sendMgmt s id m).banks =
    s.banks ∧ (sendMgmt s id m).phys = s.phys := by
  unfold sendMgmt; split <;> simp

/-- copyEvent changes nothing but net, sec. -/
@[simp] theorem copyEvent_frame (s : State) (e : Event) :
    (copyEvent s e).pending = s.pending ∧ (copyEvent s e).freeCtr = s.freeCtr ∧ (copyEvent s e).ident = s.ident ∧ (copyEvent s
    e).straps = s.straps ∧ (copyEvent s e).regs = s.regs ∧ (copyEvent s e).md = s.md ∧ (copyEvent s e).seq = s.seq ∧ (copyEvent s
    e).slu = s.slu ∧ (copyEvent s e).ds = s.ds ∧ (copyEvent s e).img = s.img ∧ (copyEvent s e).haz = s.haz ∧ (copyEvent s e).cap
    = s.cap ∧ (copyEvent s e).casc = s.casc ∧ (copyEvent s e).chn = s.chn ∧ (copyEvent s e).ckp = s.ckp ∧ (copyEvent s e).trx =
    s.trx ∧ (copyEvent s e).io = s.io ∧ (copyEvent s e).err = s.err ∧ (copyEvent s e).fab = s.fab ∧ (copyEvent s e).time = s.time
    ∧ (copyEvent s e).pwr = s.pwr ∧ (copyEvent s e).trc = s.trc ∧ (copyEvent s e).util = s.util ∧ (copyEvent s e).peers = s.peers
    ∧ (copyEvent s e).boot = s.boot ∧ (copyEvent s e).acc = s.acc ∧ (copyEvent s e).ucie = s.ucie ∧ (copyEvent s e).bl = s.bl ∧
    (copyEvent s e).ctl = s.ctl ∧ (copyEvent s e).banks = s.banks ∧ (copyEvent s e).phys = s.phys := by
  unfold copyEvent; split
  · simp
  · refine ⟨?_, ?_, ?_, ?_, ?_, ?_, ?_, ?_, ?_, ?_, ?_, ?_, ?_, ?_, ?_, ?_, ?_, ?_, ?_, ?_, ?_, ?_, ?_, ?_, ?_, ?_, ?_, ?_, ?_, ?_, ?_⟩ <;> exact foldl_keeps _ _ (fun _ _ => by simp) _ _

/-- tickEvent changes nothing but io. -/
@[simp] theorem tickEvent_frame (s : State) :
    (tickEvent s).pending = s.pending ∧ (tickEvent s).freeCtr = s.freeCtr ∧ (tickEvent s).ident = s.ident ∧ (tickEvent s).straps
    = s.straps ∧ (tickEvent s).regs = s.regs ∧ (tickEvent s).md = s.md ∧ (tickEvent s).seq = s.seq ∧ (tickEvent s).slu = s.slu ∧
    (tickEvent s).ds = s.ds ∧ (tickEvent s).img = s.img ∧ (tickEvent s).haz = s.haz ∧ (tickEvent s).cap = s.cap ∧ (tickEvent
    s).casc = s.casc ∧ (tickEvent s).chn = s.chn ∧ (tickEvent s).ckp = s.ckp ∧ (tickEvent s).trx = s.trx ∧ (tickEvent s).err =
    s.err ∧ (tickEvent s).fab = s.fab ∧ (tickEvent s).time = s.time ∧ (tickEvent s).pwr = s.pwr ∧ (tickEvent s).net = s.net ∧
    (tickEvent s).trc = s.trc ∧ (tickEvent s).util = s.util ∧ (tickEvent s).peers = s.peers ∧ (tickEvent s).boot = s.boot ∧
    (tickEvent s).acc = s.acc ∧ (tickEvent s).ucie = s.ucie ∧ (tickEvent s).bl = s.bl ∧ (tickEvent s).ctl = s.ctl ∧ (tickEvent
    s).sec = s.sec ∧ (tickEvent s).banks = s.banks ∧ (tickEvent s).phys = s.phys := by
  simp [tickEvent]

/-- queueEvent changes nothing but io, net, sec. -/
@[simp] theorem queueEvent_frame (s : State) (c st : Nat) (t : BitVec 16) (p : List Word) :
    (queueEvent s c st t p).pending = s.pending ∧ (queueEvent s c st t p).freeCtr = s.freeCtr ∧ (queueEvent s c st t p).ident =
    s.ident ∧ (queueEvent s c st t p).straps = s.straps ∧ (queueEvent s c st t p).regs = s.regs ∧ (queueEvent s c st t p).md =
    s.md ∧ (queueEvent s c st t p).seq = s.seq ∧ (queueEvent s c st t p).slu = s.slu ∧ (queueEvent s c st t p).ds = s.ds ∧
    (queueEvent s c st t p).img = s.img ∧ (queueEvent s c st t p).haz = s.haz ∧ (queueEvent s c st t p).cap = s.cap ∧ (queueEvent
    s c st t p).casc = s.casc ∧ (queueEvent s c st t p).chn = s.chn ∧ (queueEvent s c st t p).ckp = s.ckp ∧ (queueEvent s c st t
    p).trx = s.trx ∧ (queueEvent s c st t p).err = s.err ∧ (queueEvent s c st t p).fab = s.fab ∧ (queueEvent s c st t p).time =
    s.time ∧ (queueEvent s c st t p).pwr = s.pwr ∧ (queueEvent s c st t p).trc = s.trc ∧ (queueEvent s c st t p).util = s.util ∧
    (queueEvent s c st t p).peers = s.peers ∧ (queueEvent s c st t p).boot = s.boot ∧ (queueEvent s c st t p).acc = s.acc ∧
    (queueEvent s c st t p).ucie = s.ucie ∧ (queueEvent s c st t p).bl = s.bl ∧ (queueEvent s c st t p).ctl = s.ctl ∧ (queueEvent
    s c st t p).banks = s.banks ∧ (queueEvent s c st t p).phys = s.phys := by
  simp [queueEvent]

/-- postCompletion changes nothing but io, net, sec. -/
@[simp] theorem postCompletion_frame (s : State) (w : Waiting) (st : Nat) (ws : List Word) :
    (postCompletion s w st ws).pending = s.pending ∧ (postCompletion s w st ws).freeCtr = s.freeCtr ∧ (postCompletion s w st
    ws).ident = s.ident ∧ (postCompletion s w st ws).straps = s.straps ∧ (postCompletion s w st ws).regs = s.regs ∧
    (postCompletion s w st ws).md = s.md ∧ (postCompletion s w st ws).seq = s.seq ∧ (postCompletion s w st ws).slu = s.slu ∧
    (postCompletion s w st ws).ds = s.ds ∧ (postCompletion s w st ws).img = s.img ∧ (postCompletion s w st ws).haz = s.haz ∧
    (postCompletion s w st ws).cap = s.cap ∧ (postCompletion s w st ws).casc = s.casc ∧ (postCompletion s w st ws).chn = s.chn ∧
    (postCompletion s w st ws).ckp = s.ckp ∧ (postCompletion s w st ws).trx = s.trx ∧ (postCompletion s w st ws).err = s.err ∧
    (postCompletion s w st ws).fab = s.fab ∧ (postCompletion s w st ws).time = s.time ∧ (postCompletion s w st ws).pwr = s.pwr ∧
    (postCompletion s w st ws).trc = s.trc ∧ (postCompletion s w st ws).util = s.util ∧ (postCompletion s w st ws).peers =
    s.peers ∧ (postCompletion s w st ws).boot = s.boot ∧ (postCompletion s w st ws).acc = s.acc ∧ (postCompletion s w st ws).ucie
    = s.ucie ∧ (postCompletion s w st ws).bl = s.bl ∧ (postCompletion s w st ws).ctl = s.ctl ∧ (postCompletion s w st ws).banks =
    s.banks ∧ (postCompletion s w st ws).phys = s.phys := by
  unfold postCompletion; split
  · simp
  · split <;> simp

/-- completeWhere changes nothing but io, net, sec. -/
@[simp] theorem completeWhere_frame (s : State) (p : Waiting → Bool) (st : Nat) (ws : List Word) :
    (completeWhere s p st ws).pending = s.pending ∧ (completeWhere s p st ws).freeCtr = s.freeCtr ∧ (completeWhere s p st
    ws).ident = s.ident ∧ (completeWhere s p st ws).straps = s.straps ∧ (completeWhere s p st ws).regs = s.regs ∧ (completeWhere
    s p st ws).md = s.md ∧ (completeWhere s p st ws).seq = s.seq ∧ (completeWhere s p st ws).slu = s.slu ∧ (completeWhere s p st
    ws).ds = s.ds ∧ (completeWhere s p st ws).img = s.img ∧ (completeWhere s p st ws).haz = s.haz ∧ (completeWhere s p st ws).cap
    = s.cap ∧ (completeWhere s p st ws).casc = s.casc ∧ (completeWhere s p st ws).chn = s.chn ∧ (completeWhere s p st ws).ckp =
    s.ckp ∧ (completeWhere s p st ws).trx = s.trx ∧ (completeWhere s p st ws).err = s.err ∧ (completeWhere s p st ws).fab = s.fab
    ∧ (completeWhere s p st ws).time = s.time ∧ (completeWhere s p st ws).pwr = s.pwr ∧ (completeWhere s p st ws).trc = s.trc ∧
    (completeWhere s p st ws).util = s.util ∧ (completeWhere s p st ws).peers = s.peers ∧ (completeWhere s p st ws).boot = s.boot
    ∧ (completeWhere s p st ws).acc = s.acc ∧ (completeWhere s p st ws).ucie = s.ucie ∧ (completeWhere s p st ws).bl = s.bl ∧
    (completeWhere s p st ws).ctl = s.ctl ∧ (completeWhere s p st ws).banks = s.banks ∧ (completeWhere s p st ws).phys = s.phys := by
  unfold completeWhere
  refine ⟨?_, ?_, ?_, ?_, ?_, ?_, ?_, ?_, ?_, ?_, ?_, ?_, ?_, ?_, ?_, ?_, ?_, ?_, ?_, ?_, ?_, ?_, ?_, ?_, ?_, ?_, ?_, ?_, ?_, ?_⟩ <;> exact (foldl_keeps _ _ (fun _ _ => by simp) _ _).trans rfl

/-- bump16Hi changes nothing but regs. -/
@[simp] theorem bump16Hi_frame (s : State) (k : Nat) :
    (bump16Hi s k).pending = s.pending ∧ (bump16Hi s k).freeCtr = s.freeCtr ∧ (bump16Hi s k).ident = s.ident ∧ (bump16Hi s
    k).straps = s.straps ∧ (bump16Hi s k).md = s.md ∧ (bump16Hi s k).seq = s.seq ∧ (bump16Hi s k).slu = s.slu ∧ (bump16Hi s k).ds
    = s.ds ∧ (bump16Hi s k).img = s.img ∧ (bump16Hi s k).haz = s.haz ∧ (bump16Hi s k).cap = s.cap ∧ (bump16Hi s k).casc = s.casc
    ∧ (bump16Hi s k).chn = s.chn ∧ (bump16Hi s k).ckp = s.ckp ∧ (bump16Hi s k).trx = s.trx ∧ (bump16Hi s k).io = s.io ∧ (bump16Hi
    s k).err = s.err ∧ (bump16Hi s k).fab = s.fab ∧ (bump16Hi s k).time = s.time ∧ (bump16Hi s k).pwr = s.pwr ∧ (bump16Hi s
    k).net = s.net ∧ (bump16Hi s k).trc = s.trc ∧ (bump16Hi s k).util = s.util ∧ (bump16Hi s k).peers = s.peers ∧ (bump16Hi s
    k).boot = s.boot ∧ (bump16Hi s k).acc = s.acc ∧ (bump16Hi s k).ucie = s.ucie ∧ (bump16Hi s k).bl = s.bl ∧ (bump16Hi s k).ctl
    = s.ctl ∧ (bump16Hi s k).sec = s.sec ∧ (bump16Hi s k).banks = s.banks ∧ (bump16Hi s k).phys = s.phys := by
  simp [bump16Hi]

/-- queueShort changes nothing but io, net, sec. -/
@[simp] theorem queueShort_frame (s : State) (c n : Nat) (p : List Word) :
    (queueShort s c n p).pending = s.pending ∧ (queueShort s c n p).freeCtr = s.freeCtr ∧ (queueShort s c n p).ident = s.ident ∧
    (queueShort s c n p).straps = s.straps ∧ (queueShort s c n p).regs = s.regs ∧ (queueShort s c n p).md = s.md ∧ (queueShort s
    c n p).seq = s.seq ∧ (queueShort s c n p).slu = s.slu ∧ (queueShort s c n p).ds = s.ds ∧ (queueShort s c n p).img = s.img ∧
    (queueShort s c n p).haz = s.haz ∧ (queueShort s c n p).cap = s.cap ∧ (queueShort s c n p).casc = s.casc ∧ (queueShort s c n
    p).chn = s.chn ∧ (queueShort s c n p).ckp = s.ckp ∧ (queueShort s c n p).trx = s.trx ∧ (queueShort s c n p).err = s.err ∧
    (queueShort s c n p).fab = s.fab ∧ (queueShort s c n p).time = s.time ∧ (queueShort s c n p).pwr = s.pwr ∧ (queueShort s c n
    p).trc = s.trc ∧ (queueShort s c n p).util = s.util ∧ (queueShort s c n p).peers = s.peers ∧ (queueShort s c n p).boot =
    s.boot ∧ (queueShort s c n p).acc = s.acc ∧ (queueShort s c n p).ucie = s.ucie ∧ (queueShort s c n p).bl = s.bl ∧ (queueShort
    s c n p).ctl = s.ctl ∧ (queueShort s c n p).banks = s.banks ∧ (queueShort s c n p).phys = s.phys := by
  simp [queueShort]

/-- completeFirst changes nothing but io, net, sec. -/
@[simp] theorem completeFirst_frame (s : State) (p : Waiting → Bool) (st : Nat) (ws : List Word) :
    (completeFirst s p st ws).pending = s.pending ∧ (completeFirst s p st ws).freeCtr = s.freeCtr ∧ (completeFirst s p st
    ws).ident = s.ident ∧ (completeFirst s p st ws).straps = s.straps ∧ (completeFirst s p st ws).regs = s.regs ∧ (completeFirst
    s p st ws).md = s.md ∧ (completeFirst s p st ws).seq = s.seq ∧ (completeFirst s p st ws).slu = s.slu ∧ (completeFirst s p st
    ws).ds = s.ds ∧ (completeFirst s p st ws).img = s.img ∧ (completeFirst s p st ws).haz = s.haz ∧ (completeFirst s p st ws).cap
    = s.cap ∧ (completeFirst s p st ws).casc = s.casc ∧ (completeFirst s p st ws).chn = s.chn ∧ (completeFirst s p st ws).ckp =
    s.ckp ∧ (completeFirst s p st ws).trx = s.trx ∧ (completeFirst s p st ws).err = s.err ∧ (completeFirst s p st ws).fab = s.fab
    ∧ (completeFirst s p st ws).time = s.time ∧ (completeFirst s p st ws).pwr = s.pwr ∧ (completeFirst s p st ws).trc = s.trc ∧
    (completeFirst s p st ws).util = s.util ∧ (completeFirst s p st ws).peers = s.peers ∧ (completeFirst s p st ws).boot = s.boot
    ∧ (completeFirst s p st ws).acc = s.acc ∧ (completeFirst s p st ws).ucie = s.ucie ∧ (completeFirst s p st ws).bl = s.bl ∧
    (completeFirst s p st ws).ctl = s.ctl ∧ (completeFirst s p st ws).banks = s.banks ∧ (completeFirst s p st ws).phys = s.phys
    := by
  unfold completeFirst; split <;> simp

/-- completeAll changes nothing but io, net, sec. -/
@[simp] theorem completeAll_frame (s : State) (op st : Nat) (ws : List Word) :
    (completeAll s op st ws).pending = s.pending ∧ (completeAll s op st ws).freeCtr = s.freeCtr ∧ (completeAll s op st ws).ident
    = s.ident ∧ (completeAll s op st ws).straps = s.straps ∧ (completeAll s op st ws).regs = s.regs ∧ (completeAll s op st ws).md
    = s.md ∧ (completeAll s op st ws).seq = s.seq ∧ (completeAll s op st ws).slu = s.slu ∧ (completeAll s op st ws).ds = s.ds ∧
    (completeAll s op st ws).img = s.img ∧ (completeAll s op st ws).haz = s.haz ∧ (completeAll s op st ws).cap = s.cap ∧
    (completeAll s op st ws).casc = s.casc ∧ (completeAll s op st ws).chn = s.chn ∧ (completeAll s op st ws).ckp = s.ckp ∧
    (completeAll s op st ws).trx = s.trx ∧ (completeAll s op st ws).err = s.err ∧ (completeAll s op st ws).fab = s.fab ∧
    (completeAll s op st ws).time = s.time ∧ (completeAll s op st ws).pwr = s.pwr ∧ (completeAll s op st ws).trc = s.trc ∧
    (completeAll s op st ws).util = s.util ∧ (completeAll s op st ws).peers = s.peers ∧ (completeAll s op st ws).boot = s.boot ∧
    (completeAll s op st ws).acc = s.acc ∧ (completeAll s op st ws).ucie = s.ucie ∧ (completeAll s op st ws).bl = s.bl ∧
    (completeAll s op st ws).ctl = s.ctl ∧ (completeAll s op st ws).banks = s.banks ∧ (completeAll s op st ws).phys = s.phys := by
  simp [completeAll]

/-- writeEvent changes nothing but io, regs. -/
@[simp] theorem writeEvent_frame (s : State) (e : Event) :
    (writeEvent s e).pending = s.pending ∧ (writeEvent s e).freeCtr = s.freeCtr ∧ (writeEvent s e).ident = s.ident ∧ (writeEvent
    s e).straps = s.straps ∧ (writeEvent s e).md = s.md ∧ (writeEvent s e).seq = s.seq ∧ (writeEvent s e).slu = s.slu ∧
    (writeEvent s e).ds = s.ds ∧ (writeEvent s e).img = s.img ∧ (writeEvent s e).haz = s.haz ∧ (writeEvent s e).cap = s.cap ∧
    (writeEvent s e).casc = s.casc ∧ (writeEvent s e).chn = s.chn ∧ (writeEvent s e).ckp = s.ckp ∧ (writeEvent s e).trx = s.trx ∧
    (writeEvent s e).err = s.err ∧ (writeEvent s e).fab = s.fab ∧ (writeEvent s e).time = s.time ∧ (writeEvent s e).pwr = s.pwr ∧
    (writeEvent s e).net = s.net ∧ (writeEvent s e).trc = s.trc ∧ (writeEvent s e).util = s.util ∧ (writeEvent s e).peers =
    s.peers ∧ (writeEvent s e).boot = s.boot ∧ (writeEvent s e).acc = s.acc ∧ (writeEvent s e).ucie = s.ucie ∧ (writeEvent s
    e).bl = s.bl ∧ (writeEvent s e).ctl = s.ctl ∧ (writeEvent s e).sec = s.sec ∧ (writeEvent s e).banks = s.banks ∧ (writeEvent s
    e).phys = s.phys := by
  simp [writeEvent]

/-- postError changes nothing but io, regs, err. -/
@[simp] theorem postError_frame (s : State) :
    (postError s).pending = s.pending ∧ (postError s).freeCtr = s.freeCtr ∧ (postError s).ident = s.ident ∧ (postError s).straps
    = s.straps ∧ (postError s).md = s.md ∧ (postError s).seq = s.seq ∧ (postError s).slu = s.slu ∧ (postError s).ds = s.ds ∧
    (postError s).img = s.img ∧ (postError s).haz = s.haz ∧ (postError s).cap = s.cap ∧ (postError s).casc = s.casc ∧ (postError
    s).chn = s.chn ∧ (postError s).ckp = s.ckp ∧ (postError s).trx = s.trx ∧ (postError s).fab = s.fab ∧ (postError s).time =
    s.time ∧ (postError s).pwr = s.pwr ∧ (postError s).net = s.net ∧ (postError s).trc = s.trc ∧ (postError s).util = s.util ∧
    (postError s).peers = s.peers ∧ (postError s).boot = s.boot ∧ (postError s).acc = s.acc ∧ (postError s).ucie = s.ucie ∧
    (postError s).bl = s.bl ∧ (postError s).ctl = s.ctl ∧ (postError s).sec = s.sec ∧ (postError s).banks = s.banks ∧ (postError
    s).phys = s.phys := by
  unfold postError; split
  · simp
  · split <;> simp

/-- postErrors changes nothing but io, regs, err. -/
@[simp] theorem postErrors_frame (n : Nat) (s : State) :
    (postErrors n s).pending = s.pending ∧ (postErrors n s).freeCtr = s.freeCtr ∧ (postErrors n s).ident = s.ident ∧ (postErrors
    n s).straps = s.straps ∧ (postErrors n s).md = s.md ∧ (postErrors n s).seq = s.seq ∧ (postErrors n s).slu = s.slu ∧
    (postErrors n s).ds = s.ds ∧ (postErrors n s).img = s.img ∧ (postErrors n s).haz = s.haz ∧ (postErrors n s).cap = s.cap ∧
    (postErrors n s).casc = s.casc ∧ (postErrors n s).chn = s.chn ∧ (postErrors n s).ckp = s.ckp ∧ (postErrors n s).trx = s.trx ∧
    (postErrors n s).fab = s.fab ∧ (postErrors n s).time = s.time ∧ (postErrors n s).pwr = s.pwr ∧ (postErrors n s).net = s.net ∧
    (postErrors n s).trc = s.trc ∧ (postErrors n s).util = s.util ∧ (postErrors n s).peers = s.peers ∧ (postErrors n s).boot =
    s.boot ∧ (postErrors n s).acc = s.acc ∧ (postErrors n s).ucie = s.ucie ∧ (postErrors n s).bl = s.bl ∧ (postErrors n s).ctl =
    s.ctl ∧ (postErrors n s).sec = s.sec ∧ (postErrors n s).banks = s.banks ∧ (postErrors n s).phys = s.phys := by
  induction n generalizing s with
  | zero => simp [postErrors]
  | succ n ih => simp [postErrors, ih]

/-- enterSafeHold changes nothing but md, time, bl, regs, slu. -/
@[simp] theorem enterSafeHold_frame (s : State) (c : Nat) :
    (enterSafeHold s c).pending = s.pending ∧ (enterSafeHold s c).freeCtr = s.freeCtr ∧ (enterSafeHold s c).ident = s.ident ∧
    (enterSafeHold s c).straps = s.straps ∧ (enterSafeHold s c).seq = s.seq ∧ (enterSafeHold s c).ds = s.ds ∧ (enterSafeHold s
    c).img = s.img ∧ (enterSafeHold s c).haz = s.haz ∧ (enterSafeHold s c).cap = s.cap ∧ (enterSafeHold s c).casc = s.casc ∧
    (enterSafeHold s c).chn = s.chn ∧ (enterSafeHold s c).ckp = s.ckp ∧ (enterSafeHold s c).trx = s.trx ∧ (enterSafeHold s c).io
    = s.io ∧ (enterSafeHold s c).err = s.err ∧ (enterSafeHold s c).fab = s.fab ∧ (enterSafeHold s c).pwr = s.pwr ∧ (enterSafeHold
    s c).net = s.net ∧ (enterSafeHold s c).trc = s.trc ∧ (enterSafeHold s c).util = s.util ∧ (enterSafeHold s c).peers = s.peers
    ∧ (enterSafeHold s c).boot = s.boot ∧ (enterSafeHold s c).acc = s.acc ∧ (enterSafeHold s c).ucie = s.ucie ∧ (enterSafeHold s
    c).ctl = s.ctl ∧ (enterSafeHold s c).sec = s.sec ∧ (enterSafeHold s c).banks = s.banks ∧ (enterSafeHold s c).phys = s.phys := by
  unfold enterSafeHold; split <;> simp

/-- assertReplace changes nothing but regs. -/
@[simp] theorem assertReplace_frame (s : State) (c : Nat) :
    (assertReplace s c).pending = s.pending ∧ (assertReplace s c).freeCtr = s.freeCtr ∧ (assertReplace s c).ident = s.ident ∧
    (assertReplace s c).straps = s.straps ∧ (assertReplace s c).md = s.md ∧ (assertReplace s c).seq = s.seq ∧ (assertReplace s
    c).slu = s.slu ∧ (assertReplace s c).ds = s.ds ∧ (assertReplace s c).img = s.img ∧ (assertReplace s c).haz = s.haz ∧
    (assertReplace s c).cap = s.cap ∧ (assertReplace s c).casc = s.casc ∧ (assertReplace s c).chn = s.chn ∧ (assertReplace s
    c).ckp = s.ckp ∧ (assertReplace s c).trx = s.trx ∧ (assertReplace s c).io = s.io ∧ (assertReplace s c).err = s.err ∧
    (assertReplace s c).fab = s.fab ∧ (assertReplace s c).time = s.time ∧ (assertReplace s c).pwr = s.pwr ∧ (assertReplace s
    c).net = s.net ∧ (assertReplace s c).trc = s.trc ∧ (assertReplace s c).util = s.util ∧ (assertReplace s c).peers = s.peers ∧
    (assertReplace s c).boot = s.boot ∧ (assertReplace s c).acc = s.acc ∧ (assertReplace s c).ucie = s.ucie ∧ (assertReplace s
    c).bl = s.bl ∧ (assertReplace s c).ctl = s.ctl ∧ (assertReplace s c).sec = s.sec ∧ (assertReplace s c).banks = s.banks ∧
    (assertReplace s c).phys = s.phys := by
  unfold assertReplace; split <;> simp

/-- storeErr changes nothing but err, net, sec, io. -/
@[simp] theorem storeErr_frame (s : State) (r : ErrRec) :
    (storeErr s r).pending = s.pending ∧ (storeErr s r).freeCtr = s.freeCtr ∧ (storeErr s r).ident = s.ident ∧ (storeErr s
    r).straps = s.straps ∧ (storeErr s r).regs = s.regs ∧ (storeErr s r).md = s.md ∧ (storeErr s r).seq = s.seq ∧ (storeErr s
    r).slu = s.slu ∧ (storeErr s r).ds = s.ds ∧ (storeErr s r).img = s.img ∧ (storeErr s r).haz = s.haz ∧ (storeErr s r).cap =
    s.cap ∧ (storeErr s r).casc = s.casc ∧ (storeErr s r).chn = s.chn ∧ (storeErr s r).ckp = s.ckp ∧ (storeErr s r).trx = s.trx ∧
    (storeErr s r).fab = s.fab ∧ (storeErr s r).time = s.time ∧ (storeErr s r).pwr = s.pwr ∧ (storeErr s r).trc = s.trc ∧
    (storeErr s r).util = s.util ∧ (storeErr s r).peers = s.peers ∧ (storeErr s r).boot = s.boot ∧ (storeErr s r).acc = s.acc ∧
    (storeErr s r).ucie = s.ucie ∧ (storeErr s r).bl = s.bl ∧ (storeErr s r).ctl = s.ctl ∧ (storeErr s r).banks = s.banks ∧
    (storeErr s r).phys = s.phys := by
  unfold storeErr; generalize (if 4 ≤ r.cls then 64 else 60) = n; dsimp only; split <;> simp

/-- countFault changes nothing but regs, err. -/
@[simp] theorem countFault_frame (s : State) (c : Nat) :
    (countFault s c).pending = s.pending ∧ (countFault s c).freeCtr = s.freeCtr ∧ (countFault s c).ident = s.ident ∧ (countFault
    s c).straps = s.straps ∧ (countFault s c).md = s.md ∧ (countFault s c).seq = s.seq ∧ (countFault s c).slu = s.slu ∧
    (countFault s c).ds = s.ds ∧ (countFault s c).img = s.img ∧ (countFault s c).haz = s.haz ∧ (countFault s c).cap = s.cap ∧
    (countFault s c).casc = s.casc ∧ (countFault s c).chn = s.chn ∧ (countFault s c).ckp = s.ckp ∧ (countFault s c).trx = s.trx ∧
    (countFault s c).io = s.io ∧ (countFault s c).fab = s.fab ∧ (countFault s c).time = s.time ∧ (countFault s c).pwr = s.pwr ∧
    (countFault s c).net = s.net ∧ (countFault s c).trc = s.trc ∧ (countFault s c).util = s.util ∧ (countFault s c).peers =
    s.peers ∧ (countFault s c).boot = s.boot ∧ (countFault s c).acc = s.acc ∧ (countFault s c).ucie = s.ucie ∧ (countFault s
    c).bl = s.bl ∧ (countFault s c).ctl = s.ctl ∧ (countFault s c).sec = s.sec ∧ (countFault s c).banks = s.banks ∧ (countFault s
    c).phys = s.phys := by
  simp [countFault]

/-- addRecord changes nothing but regs, err, net, sec, trc, io. -/
@[simp] theorem addRecord_frame (s : State) (r : ErrRec) (b : Bool) :
    (addRecord s r b).pending = s.pending ∧ (addRecord s r b).freeCtr = s.freeCtr ∧ (addRecord s r b).ident = s.ident ∧
    (addRecord s r b).straps = s.straps ∧ (addRecord s r b).md = s.md ∧ (addRecord s r b).seq = s.seq ∧ (addRecord s r b).slu =
    s.slu ∧ (addRecord s r b).ds = s.ds ∧ (addRecord s r b).img = s.img ∧ (addRecord s r b).haz = s.haz ∧ (addRecord s r b).cap =
    s.cap ∧ (addRecord s r b).casc = s.casc ∧ (addRecord s r b).chn = s.chn ∧ (addRecord s r b).ckp = s.ckp ∧ (addRecord s r
    b).trx = s.trx ∧ (addRecord s r b).fab = s.fab ∧ (addRecord s r b).time = s.time ∧ (addRecord s r b).pwr = s.pwr ∧ (addRecord
    s r b).util = s.util ∧ (addRecord s r b).peers = s.peers ∧ (addRecord s r b).boot = s.boot ∧ (addRecord s r b).acc = s.acc ∧
    (addRecord s r b).ucie = s.ucie ∧ (addRecord s r b).bl = s.bl ∧ (addRecord s r b).ctl = s.ctl ∧ (addRecord s r b).banks =
    s.banks ∧ (addRecord s r b).phys = s.phys := by
  unfold addRecord
  dsimp only
  repeat' split
  all_goals simp

/-- flushRecords changes nothing but regs, err, net, sec, trc, io. -/
@[simp] theorem flushRecords_frame (s : State) :
    (flushRecords s).pending = s.pending ∧ (flushRecords s).freeCtr = s.freeCtr ∧ (flushRecords s).ident = s.ident ∧
    (flushRecords s).straps = s.straps ∧ (flushRecords s).md = s.md ∧ (flushRecords s).seq = s.seq ∧ (flushRecords s).slu = s.slu
    ∧ (flushRecords s).ds = s.ds ∧ (flushRecords s).img = s.img ∧ (flushRecords s).haz = s.haz ∧ (flushRecords s).cap = s.cap ∧
    (flushRecords s).casc = s.casc ∧ (flushRecords s).chn = s.chn ∧ (flushRecords s).ckp = s.ckp ∧ (flushRecords s).trx = s.trx ∧
    (flushRecords s).fab = s.fab ∧ (flushRecords s).time = s.time ∧ (flushRecords s).pwr = s.pwr ∧ (flushRecords s).util = s.util
    ∧ (flushRecords s).peers = s.peers ∧ (flushRecords s).boot = s.boot ∧ (flushRecords s).acc = s.acc ∧ (flushRecords s).ucie =
    s.ucie ∧ (flushRecords s).bl = s.bl ∧ (flushRecords s).ctl = s.ctl ∧ (flushRecords s).banks = s.banks ∧ (flushRecords s).phys
    = s.phys := by
  unfold flushRecords; dsimp only
  refine ⟨?_, ?_, ?_, ?_, ?_, ?_, ?_, ?_, ?_, ?_, ?_, ?_, ?_, ?_, ?_, ?_, ?_, ?_, ?_, ?_, ?_, ?_, ?_, ?_, ?_, ?_, ?_⟩
  all_goals exact (foldl_keeps _ _ (fun _ _ => by simp) _ _).trans rfl

/-- noteOverlap changes nothing but err. -/
@[simp] theorem noteOverlap_frame (s : State) :
    (noteOverlap s).pending = s.pending ∧ (noteOverlap s).freeCtr = s.freeCtr ∧ (noteOverlap s).ident = s.ident ∧ (noteOverlap
    s).straps = s.straps ∧ (noteOverlap s).regs = s.regs ∧ (noteOverlap s).md = s.md ∧ (noteOverlap s).seq = s.seq ∧
    (noteOverlap s).slu = s.slu ∧ (noteOverlap s).ds = s.ds ∧ (noteOverlap s).img = s.img ∧ (noteOverlap s).haz = s.haz ∧
    (noteOverlap s).cap = s.cap ∧ (noteOverlap s).casc = s.casc ∧ (noteOverlap s).chn = s.chn ∧ (noteOverlap s).ckp = s.ckp ∧
    (noteOverlap s).trx = s.trx ∧ (noteOverlap s).io = s.io ∧ (noteOverlap s).fab = s.fab ∧ (noteOverlap s).time = s.time ∧
    (noteOverlap s).pwr = s.pwr ∧ (noteOverlap s).net = s.net ∧ (noteOverlap s).trc = s.trc ∧ (noteOverlap s).util = s.util ∧
    (noteOverlap s).peers = s.peers ∧ (noteOverlap s).boot = s.boot ∧ (noteOverlap s).acc = s.acc ∧ (noteOverlap s).ucie =
    s.ucie ∧ (noteOverlap s).bl = s.bl ∧ (noteOverlap s).ctl = s.ctl ∧ (noteOverlap s).sec = s.sec ∧ (noteOverlap s).banks =
    s.banks ∧ (noteOverlap s).phys = s.phys := by
  simp [noteOverlap]

/-- makeRecord changes nothing but regs, err, net, sec, trc, io, md, time, bl, slu. -/
@[simp] theorem makeRecord_frame (s : State) (r : ErrRec) (b : Bool) :
    (makeRecord s r b).pending = s.pending ∧ (makeRecord s r b).freeCtr = s.freeCtr ∧ (makeRecord s r b).ident = s.ident ∧
    (makeRecord s r b).straps = s.straps ∧ (makeRecord s r b).seq = s.seq ∧ (makeRecord s r b).ds = s.ds ∧ (makeRecord s r b).img
    = s.img ∧ (makeRecord s r b).haz = s.haz ∧ (makeRecord s r b).cap = s.cap ∧ (makeRecord s r b).casc = s.casc ∧ (makeRecord s
    r b).chn = s.chn ∧ (makeRecord s r b).ckp = s.ckp ∧ (makeRecord s r b).trx = s.trx ∧ (makeRecord s r b).fab = s.fab ∧
    (makeRecord s r b).pwr = s.pwr ∧ (makeRecord s r b).util = s.util ∧ (makeRecord s r b).peers = s.peers ∧ (makeRecord s r
    b).boot = s.boot ∧ (makeRecord s r b).acc = s.acc ∧ (makeRecord s r b).ucie = s.ucie ∧ (makeRecord s r b).ctl = s.ctl ∧
    (makeRecord s r b).banks = s.banks ∧ (makeRecord s r b).phys = s.phys := by
  unfold makeRecord
  split <;> simp

/-- fault changes nothing but regs, err, net, sec, trc, io, md, time, bl, slu. -/
@[simp] theorem fault_frame (s : State) (f : FaultInfo) :
    (fault s f).pending = s.pending ∧ (fault s f).freeCtr = s.freeCtr ∧ (fault s f).ident = s.ident ∧ (fault s f).straps =
    s.straps ∧ (fault s f).seq = s.seq ∧ (fault s f).ds = s.ds ∧ (fault s f).img = s.img ∧ (fault s f).haz = s.haz ∧ (fault s
    f).cap = s.cap ∧ (fault s f).casc = s.casc ∧ (fault s f).chn = s.chn ∧ (fault s f).ckp = s.ckp ∧ (fault s f).trx = s.trx ∧
    (fault s f).fab = s.fab ∧ (fault s f).pwr = s.pwr ∧ (fault s f).util = s.util ∧ (fault s f).peers = s.peers ∧ (fault s
    f).boot = s.boot ∧ (fault s f).acc = s.acc ∧ (fault s f).ucie = s.ucie ∧ (fault s f).ctl = s.ctl ∧ (fault s f).banks =
    s.banks ∧ (fault s f).phys = s.phys := by
  simp [fault]

/-- pendFault changes nothing but err. -/
@[simp] theorem pendFault_frame (s : State) (f : FaultInfo) :
    (pendFault s f).pending = s.pending ∧ (pendFault s f).freeCtr = s.freeCtr ∧ (pendFault s f).ident = s.ident ∧ (pendFault s
    f).straps = s.straps ∧ (pendFault s f).regs = s.regs ∧ (pendFault s f).md = s.md ∧ (pendFault s f).seq = s.seq ∧
    (pendFault s f).slu = s.slu ∧ (pendFault s f).ds = s.ds ∧ (pendFault s f).img = s.img ∧ (pendFault s f).haz = s.haz ∧
    (pendFault s f).cap = s.cap ∧ (pendFault s f).casc = s.casc ∧ (pendFault s f).chn = s.chn ∧ (pendFault s f).ckp = s.ckp ∧
    (pendFault s f).trx = s.trx ∧ (pendFault s f).io = s.io ∧ (pendFault s f).fab = s.fab ∧ (pendFault s f).time = s.time ∧
    (pendFault s f).pwr = s.pwr ∧ (pendFault s f).net = s.net ∧ (pendFault s f).trc = s.trc ∧ (pendFault s f).util = s.util ∧
    (pendFault s f).peers = s.peers ∧ (pendFault s f).boot = s.boot ∧ (pendFault s f).acc = s.acc ∧ (pendFault s f).ucie =
    s.ucie ∧ (pendFault s f).bl = s.bl ∧ (pendFault s f).ctl = s.ctl ∧ (pendFault s f).sec = s.sec ∧ (pendFault s f).banks =
    s.banks ∧ (pendFault s f).phys = s.phys := by
  simp [pendFault]

/-- remark changes nothing but seq, net. -/
@[simp] theorem remark_frame (s : State) :
    (remark s).pending = s.pending ∧ (remark s).freeCtr = s.freeCtr ∧ (remark s).ident = s.ident ∧ (remark s).straps = s.straps
    ∧ (remark s).regs = s.regs ∧ (remark s).md = s.md ∧ (remark s).slu = s.slu ∧ (remark s).ds = s.ds ∧ (remark s).img = s.img
    ∧ (remark s).haz = s.haz ∧ (remark s).cap = s.cap ∧ (remark s).casc = s.casc ∧ (remark s).chn = s.chn ∧ (remark s).ckp =
    s.ckp ∧ (remark s).trx = s.trx ∧ (remark s).io = s.io ∧ (remark s).err = s.err ∧ (remark s).fab = s.fab ∧ (remark s).time =
    s.time ∧ (remark s).pwr = s.pwr ∧ (remark s).trc = s.trc ∧ (remark s).util = s.util ∧ (remark s).peers = s.peers ∧ (remark
    s).boot = s.boot ∧ (remark s).acc = s.acc ∧ (remark s).ucie = s.ucie ∧ (remark s).bl = s.bl ∧ (remark s).ctl = s.ctl ∧
    (remark s).sec = s.sec ∧ (remark s).banks = s.banks ∧ (remark s).phys = s.phys := by
  unfold remark; split
  · simp
  · dsimp only; split <;> simp

/-- markWeir changes nothing but bl. -/
@[simp] theorem markWeir_frame (s : State) (d : Nat) :
    (markWeir s d).pending = s.pending ∧ (markWeir s d).freeCtr = s.freeCtr ∧ (markWeir s d).ident = s.ident ∧ (markWeir s
    d).straps = s.straps ∧ (markWeir s d).regs = s.regs ∧ (markWeir s d).md = s.md ∧ (markWeir s d).seq = s.seq ∧ (markWeir s
    d).slu = s.slu ∧ (markWeir s d).ds = s.ds ∧ (markWeir s d).img = s.img ∧ (markWeir s d).haz = s.haz ∧ (markWeir s d).cap =
    s.cap ∧ (markWeir s d).casc = s.casc ∧ (markWeir s d).chn = s.chn ∧ (markWeir s d).ckp = s.ckp ∧ (markWeir s d).trx = s.trx ∧
    (markWeir s d).io = s.io ∧ (markWeir s d).err = s.err ∧ (markWeir s d).fab = s.fab ∧ (markWeir s d).time = s.time ∧ (markWeir
    s d).pwr = s.pwr ∧ (markWeir s d).net = s.net ∧ (markWeir s d).trc = s.trc ∧ (markWeir s d).util = s.util ∧ (markWeir s
    d).peers = s.peers ∧ (markWeir s d).boot = s.boot ∧ (markWeir s d).acc = s.acc ∧ (markWeir s d).ucie = s.ucie ∧ (markWeir s
    d).ctl = s.ctl ∧ (markWeir s d).sec = s.sec ∧ (markWeir s d).banks = s.banks ∧ (markWeir s d).phys = s.phys := by
  simp [markWeir]

/-- trainWeir changes nothing but bl, phys. -/
@[simp] theorem trainWeir_frame (s : State) (d : Nat) :
    (trainWeir s d).pending = s.pending ∧ (trainWeir s d).freeCtr = s.freeCtr ∧ (trainWeir s d).ident = s.ident ∧ (trainWeir s
    d).straps = s.straps ∧ (trainWeir s d).regs = s.regs ∧ (trainWeir s d).md = s.md ∧ (trainWeir s d).seq = s.seq ∧ (trainWeir s
    d).slu = s.slu ∧ (trainWeir s d).ds = s.ds ∧ (trainWeir s d).img = s.img ∧ (trainWeir s d).haz = s.haz ∧ (trainWeir s d).cap
    = s.cap ∧ (trainWeir s d).casc = s.casc ∧ (trainWeir s d).chn = s.chn ∧ (trainWeir s d).ckp = s.ckp ∧ (trainWeir s d).trx =
    s.trx ∧ (trainWeir s d).io = s.io ∧ (trainWeir s d).err = s.err ∧ (trainWeir s d).fab = s.fab ∧ (trainWeir s d).time = s.time
    ∧ (trainWeir s d).pwr = s.pwr ∧ (trainWeir s d).net = s.net ∧ (trainWeir s d).trc = s.trc ∧ (trainWeir s d).util = s.util ∧
    (trainWeir s d).peers = s.peers ∧ (trainWeir s d).boot = s.boot ∧ (trainWeir s d).acc = s.acc ∧ (trainWeir s d).ucie = s.ucie
    ∧ (trainWeir s d).ctl = s.ctl ∧ (trainWeir s d).sec = s.sec ∧ (trainWeir s d).banks = s.banks := by
  simp [trainWeir]

/-- Records made one after another change nothing but regs, err, net, sec, trc, io. -/
theorem addAll_frame (us : Nat) (l : List ErrRec) (s : State) :
    (l.foldl (fun u e => addRecord u { e with stallUs := us } false) s).pending = s.pending ∧ (l.foldl (fun u e => addRecord u {
    e with stallUs := us } false) s).freeCtr = s.freeCtr ∧ (l.foldl (fun u e => addRecord u { e with stallUs := us } false)
    s).ident = s.ident ∧ (l.foldl (fun u e => addRecord u { e with stallUs := us } false) s).straps = s.straps ∧ (l.foldl (fun u
    e => addRecord u { e with stallUs := us } false) s).md = s.md ∧ (l.foldl (fun u e => addRecord u { e with stallUs := us }
    false) s).seq = s.seq ∧ (l.foldl (fun u e => addRecord u { e with stallUs := us } false) s).slu = s.slu ∧ (l.foldl (fun u e
    => addRecord u { e with stallUs := us } false) s).ds = s.ds ∧ (l.foldl (fun u e => addRecord u { e with stallUs := us }
    false) s).img = s.img ∧ (l.foldl (fun u e => addRecord u { e with stallUs := us } false) s).haz = s.haz ∧ (l.foldl (fun u e
    => addRecord u { e with stallUs := us } false) s).cap = s.cap ∧ (l.foldl (fun u e => addRecord u { e with stallUs := us }
    false) s).casc = s.casc ∧ (l.foldl (fun u e => addRecord u { e with stallUs := us } false) s).chn = s.chn ∧ (l.foldl (fun u e
    => addRecord u { e with stallUs := us } false) s).ckp = s.ckp ∧ (l.foldl (fun u e => addRecord u { e with stallUs := us }
    false) s).trx = s.trx ∧ (l.foldl (fun u e => addRecord u { e with stallUs := us } false) s).fab = s.fab ∧ (l.foldl (fun u e
    => addRecord u { e with stallUs := us } false) s).time = s.time ∧ (l.foldl (fun u e => addRecord u { e with stallUs := us }
    false) s).pwr = s.pwr ∧ (l.foldl (fun u e => addRecord u { e with stallUs := us } false) s).util = s.util ∧ (l.foldl (fun u e
    => addRecord u { e with stallUs := us } false) s).peers = s.peers ∧ (l.foldl (fun u e => addRecord u { e with stallUs := us }
    false) s).boot = s.boot ∧ (l.foldl (fun u e => addRecord u { e with stallUs := us } false) s).acc = s.acc ∧ (l.foldl (fun u e
    => addRecord u { e with stallUs := us } false) s).ucie = s.ucie ∧ (l.foldl (fun u e => addRecord u { e with stallUs := us }
    false) s).bl = s.bl ∧ (l.foldl (fun u e => addRecord u { e with stallUs := us } false) s).ctl = s.ctl ∧ (l.foldl (fun u e =>
    addRecord u { e with stallUs := us } false) s).banks = s.banks ∧ (l.foldl (fun u e => addRecord u { e with stallUs := us }
    false) s).phys = s.phys := by
  refine ⟨?_, ?_, ?_, ?_, ?_, ?_, ?_, ?_, ?_, ?_, ?_, ?_, ?_, ?_, ?_, ?_, ?_, ?_, ?_, ?_, ?_, ?_, ?_, ?_, ?_, ?_, ?_⟩ <;> exact foldl_keeps _ _ (fun _ _ => by simp) _ _

/-- endRepair changes nothing but regs, err, net, sec, trc, io, trx, seq, ds. -/
@[simp] theorem endRepair_frame (s : State) (r : Repair) :
    (endRepair s r).pending = s.pending ∧ (endRepair s r).freeCtr = s.freeCtr ∧ (endRepair s r).ident = s.ident ∧ (endRepair s
    r).straps = s.straps ∧ (endRepair s r).md = s.md ∧ (endRepair s r).slu = s.slu ∧ (endRepair s r).img = s.img ∧ (endRepair s
    r).haz = s.haz ∧ (endRepair s r).cap = s.cap ∧ (endRepair s r).casc = s.casc ∧ (endRepair s r).chn = s.chn ∧ (endRepair s
    r).ckp = s.ckp ∧ (endRepair s r).fab = s.fab ∧ (endRepair s r).time = s.time ∧ (endRepair s r).pwr = s.pwr ∧ (endRepair s
    r).util = s.util ∧ (endRepair s r).peers = s.peers ∧ (endRepair s r).boot = s.boot ∧ (endRepair s r).acc = s.acc ∧ (endRepair
    s r).ucie = s.ucie ∧ (endRepair s r).bl = s.bl ∧ (endRepair s r).ctl = s.ctl ∧ (endRepair s r).banks = s.banks ∧ (endRepair s
    r).phys = s.phys := by
  unfold endRepair; dsimp only
  repeat' split
  all_goals simp [addAll_frame]

/-- endRepairs changes nothing but regs, err, net, sec, trc, io, trx, seq, ds. -/
@[simp] theorem endRepairs_frame (s : State) (p : Repair → Bool) :
    (endRepairs s p).pending = s.pending ∧ (endRepairs s p).freeCtr = s.freeCtr ∧ (endRepairs s p).ident = s.ident ∧ (endRepairs
    s p).straps = s.straps ∧ (endRepairs s p).md = s.md ∧ (endRepairs s p).slu = s.slu ∧ (endRepairs s p).img = s.img ∧
    (endRepairs s p).haz = s.haz ∧ (endRepairs s p).cap = s.cap ∧ (endRepairs s p).casc = s.casc ∧ (endRepairs s p).chn = s.chn ∧
    (endRepairs s p).ckp = s.ckp ∧ (endRepairs s p).fab = s.fab ∧ (endRepairs s p).time = s.time ∧ (endRepairs s p).pwr = s.pwr ∧
    (endRepairs s p).util = s.util ∧ (endRepairs s p).peers = s.peers ∧ (endRepairs s p).boot = s.boot ∧ (endRepairs s p).acc =
    s.acc ∧ (endRepairs s p).ucie = s.ucie ∧ (endRepairs s p).bl = s.bl ∧ (endRepairs s p).ctl = s.ctl ∧ (endRepairs s p).banks =
    s.banks ∧ (endRepairs s p).phys = s.phys := by
  unfold endRepairs; dsimp only
  refine ⟨?_, ?_, ?_, ?_, ?_, ?_, ?_, ?_, ?_, ?_, ?_, ?_, ?_, ?_, ?_, ?_, ?_, ?_, ?_, ?_, ?_, ?_, ?_, ?_⟩
  all_goals exact (foldl_keeps _ _ (fun _ _ => by simp) _ _).trans rfl

/-- passRepairs changes nothing but regs, err, net, sec, trc, io, trx, seq, ds, bl, phys. -/
@[simp] theorem passRepairs_frame (s : State) :
    (passRepairs s).pending = s.pending ∧ (passRepairs s).freeCtr = s.freeCtr ∧ (passRepairs s).ident = s.ident ∧ (passRepairs
    s).straps = s.straps ∧ (passRepairs s).md = s.md ∧ (passRepairs s).slu = s.slu ∧ (passRepairs s).img = s.img ∧ (passRepairs
    s).haz = s.haz ∧ (passRepairs s).cap = s.cap ∧ (passRepairs s).casc = s.casc ∧ (passRepairs s).chn = s.chn ∧ (passRepairs
    s).ckp = s.ckp ∧ (passRepairs s).fab = s.fab ∧ (passRepairs s).time = s.time ∧ (passRepairs s).pwr = s.pwr ∧ (passRepairs
    s).util = s.util ∧ (passRepairs s).peers = s.peers ∧ (passRepairs s).boot = s.boot ∧ (passRepairs s).acc = s.acc ∧
    (passRepairs s).ucie = s.ucie ∧ (passRepairs s).ctl = s.ctl ∧ (passRepairs s).banks = s.banks := by
  unfold passRepairs; dsimp only
  repeat' split
  all_goals simp

/-- endFault changes nothing but regs, err, net, sec, trc, io, md, time, bl, slu. -/
@[simp] theorem endFault_frame (s : State) (p : ErrRec → Bool) (f : ErrRec → ErrRec) :
    (endFault s p f).pending = s.pending ∧ (endFault s p f).freeCtr = s.freeCtr ∧ (endFault s p f).ident = s.ident ∧ (endFault
    s p f).straps = s.straps ∧ (endFault s p f).seq = s.seq ∧ (endFault s p f).ds = s.ds ∧ (endFault s p f).img = s.img ∧
    (endFault s p f).haz = s.haz ∧ (endFault s p f).cap = s.cap ∧ (endFault s p f).casc = s.casc ∧ (endFault s p f).chn = s.chn
    ∧ (endFault s p f).ckp = s.ckp ∧ (endFault s p f).trx = s.trx ∧ (endFault s p f).fab = s.fab ∧ (endFault s p f).pwr = s.pwr
    ∧ (endFault s p f).util = s.util ∧ (endFault s p f).peers = s.peers ∧ (endFault s p f).boot = s.boot ∧ (endFault s p f).acc
    = s.acc ∧ (endFault s p f).ucie = s.ucie ∧ (endFault s p f).ctl = s.ctl ∧ (endFault s p f).banks = s.banks ∧ (endFault s p
    f).phys = s.phys := by
  unfold endFault; dsimp only
  exact ⟨foldl_keeps (fun u => u.pending) (fun u r => makeRecord u (f r) false) (by simp) _ _,
    foldl_keeps (fun u => u.freeCtr) (fun u r => makeRecord u (f r) false) (by simp) _ _,
    foldl_keeps (fun u => u.ident) (fun u r => makeRecord u (f r) false) (by simp) _ _,
    foldl_keeps (fun u => u.straps) (fun u r => makeRecord u (f r) false) (by simp) _ _,
    foldl_keeps (fun u => u.seq) (fun u r => makeRecord u (f r) false) (by simp) _ _,
    foldl_keeps (fun u => u.ds) (fun u r => makeRecord u (f r) false) (by simp) _ _,
    foldl_keeps (fun u => u.img) (fun u r => makeRecord u (f r) false) (by simp) _ _,
    foldl_keeps (fun u => u.haz) (fun u r => makeRecord u (f r) false) (by simp) _ _,
    foldl_keeps (fun u => u.cap) (fun u r => makeRecord u (f r) false) (by simp) _ _,
    foldl_keeps (fun u => u.casc) (fun u r => makeRecord u (f r) false) (by simp) _ _,
    foldl_keeps (fun u => u.chn) (fun u r => makeRecord u (f r) false) (by simp) _ _,
    foldl_keeps (fun u => u.ckp) (fun u r => makeRecord u (f r) false) (by simp) _ _,
    foldl_keeps (fun u => u.trx) (fun u r => makeRecord u (f r) false) (by simp) _ _,
    foldl_keeps (fun u => u.fab) (fun u r => makeRecord u (f r) false) (by simp) _ _,
    foldl_keeps (fun u => u.pwr) (fun u r => makeRecord u (f r) false) (by simp) _ _,
    foldl_keeps (fun u => u.util) (fun u r => makeRecord u (f r) false) (by simp) _ _,
    foldl_keeps (fun u => u.peers) (fun u r => makeRecord u (f r) false) (by simp) _ _,
    foldl_keeps (fun u => u.boot) (fun u r => makeRecord u (f r) false) (by simp) _ _,
    foldl_keeps (fun u => u.acc) (fun u r => makeRecord u (f r) false) (by simp) _ _,
    foldl_keeps (fun u => u.ucie) (fun u r => makeRecord u (f r) false) (by simp) _ _,
    foldl_keeps (fun u => u.ctl) (fun u r => makeRecord u (f r) false) (by simp) _ _,
    foldl_keeps (fun u => u.banks) (fun u r => makeRecord u (f r) false) (by simp) _ _,
    foldl_keeps (fun u => u.phys) (fun u r => makeRecord u (f r) false) (by simp) _ _⟩

/-- finishDisable changes nothing but regs, io. -/
@[simp] theorem finishDisable_frame (s : State) :
    (finishDisable s).pending = s.pending ∧ (finishDisable s).freeCtr = s.freeCtr ∧ (finishDisable s).ident = s.ident ∧
    (finishDisable s).straps = s.straps ∧ (finishDisable s).md = s.md ∧ (finishDisable s).seq = s.seq ∧ (finishDisable s).slu =
    s.slu ∧ (finishDisable s).ds = s.ds ∧ (finishDisable s).img = s.img ∧ (finishDisable s).haz = s.haz ∧ (finishDisable s).cap
    = s.cap ∧ (finishDisable s).casc = s.casc ∧ (finishDisable s).chn = s.chn ∧ (finishDisable s).ckp = s.ckp ∧ (finishDisable
    s).trx = s.trx ∧ (finishDisable s).err = s.err ∧ (finishDisable s).fab = s.fab ∧ (finishDisable s).time = s.time ∧
    (finishDisable s).pwr = s.pwr ∧ (finishDisable s).net = s.net ∧ (finishDisable s).trc = s.trc ∧ (finishDisable s).util =
    s.util ∧ (finishDisable s).peers = s.peers ∧ (finishDisable s).boot = s.boot ∧ (finishDisable s).acc = s.acc ∧
    (finishDisable s).ucie = s.ucie ∧ (finishDisable s).bl = s.bl ∧ (finishDisable s).ctl = s.ctl ∧ (finishDisable s).sec =
    s.sec ∧ (finishDisable s).banks = s.banks ∧ (finishDisable s).phys = s.phys := by
  unfold finishDisable; split <;> simp

/-- startRepair changes nothing but regs, err. -/
@[simp] theorem startRepair_frame (s : State) (r : Repair) :
    (startRepair s r).pending = s.pending ∧ (startRepair s r).freeCtr = s.freeCtr ∧ (startRepair s r).ident = s.ident ∧
    (startRepair s r).straps = s.straps ∧ (startRepair s r).md = s.md ∧ (startRepair s r).seq = s.seq ∧ (startRepair s r).slu =
    s.slu ∧ (startRepair s r).ds = s.ds ∧ (startRepair s r).img = s.img ∧ (startRepair s r).haz = s.haz ∧ (startRepair s r).cap =
    s.cap ∧ (startRepair s r).casc = s.casc ∧ (startRepair s r).chn = s.chn ∧ (startRepair s r).ckp = s.ckp ∧ (startRepair s
    r).trx = s.trx ∧ (startRepair s r).io = s.io ∧ (startRepair s r).fab = s.fab ∧ (startRepair s r).time = s.time ∧ (startRepair
    s r).pwr = s.pwr ∧ (startRepair s r).net = s.net ∧ (startRepair s r).trc = s.trc ∧ (startRepair s r).util = s.util ∧
    (startRepair s r).peers = s.peers ∧ (startRepair s r).boot = s.boot ∧ (startRepair s r).acc = s.acc ∧ (startRepair s r).ucie
    = s.ucie ∧ (startRepair s r).bl = s.bl ∧ (startRepair s r).ctl = s.ctl ∧ (startRepair s r).sec = s.sec ∧ (startRepair s
    r).banks = s.banks ∧ (startRepair s r).phys = s.phys := by
  simp [startRepair]

/-- unitFault changes nothing but regs, err, net, sec, trc, io, md, time, bl, slu, freeCtr. -/
@[simp] theorem unitFault_frame (s : State) (c u : Nat) (f : FaultInfo) :
    (unitFault s c u f).pending = s.pending ∧ (unitFault s c u f).ident = s.ident ∧ (unitFault s c u f).straps = s.straps ∧
    (unitFault s c u f).seq = s.seq ∧ (unitFault s c u f).ds = s.ds ∧ (unitFault s c u f).img = s.img ∧ (unitFault s c u f).haz =
    s.haz ∧ (unitFault s c u f).cap = s.cap ∧ (unitFault s c u f).casc = s.casc ∧ (unitFault s c u f).chn = s.chn ∧ (unitFault s
    c u f).ckp = s.ckp ∧ (unitFault s c u f).trx = s.trx ∧ (unitFault s c u f).fab = s.fab ∧ (unitFault s c u f).pwr = s.pwr ∧
    (unitFault s c u f).util = s.util ∧ (unitFault s c u f).peers = s.peers ∧ (unitFault s c u f).boot = s.boot ∧ (unitFault s c
    u f).acc = s.acc ∧ (unitFault s c u f).ucie = s.ucie ∧ (unitFault s c u f).ctl = s.ctl ∧ (unitFault s c u f).banks = s.banks
    ∧ (unitFault s c u f).phys = s.phys := by
  unfold unitFault; split <;> simp

/-- singleFault changes nothing but regs, err, net, sec, trc, io, md, time, bl, slu, freeCtr. -/
@[simp] theorem singleFault_frame (s : State) (c : Nat) (f : FaultInfo) :
    (singleFault s c f).pending = s.pending ∧ (singleFault s c f).ident = s.ident ∧ (singleFault s c f).straps = s.straps ∧
    (singleFault s c f).seq = s.seq ∧ (singleFault s c f).ds = s.ds ∧ (singleFault s c f).img = s.img ∧ (singleFault s c f).haz =
    s.haz ∧ (singleFault s c f).cap = s.cap ∧ (singleFault s c f).casc = s.casc ∧ (singleFault s c f).chn = s.chn ∧ (singleFault
    s c f).ckp = s.ckp ∧ (singleFault s c f).trx = s.trx ∧ (singleFault s c f).fab = s.fab ∧ (singleFault s c f).pwr = s.pwr ∧
    (singleFault s c f).util = s.util ∧ (singleFault s c f).peers = s.peers ∧ (singleFault s c f).boot = s.boot ∧ (singleFault s
    c f).acc = s.acc ∧ (singleFault s c f).ucie = s.ucie ∧ (singleFault s c f).ctl = s.ctl ∧ (singleFault s c f).banks = s.banks
    ∧ (singleFault s c f).phys = s.phys := by
  simp [singleFault]

/-- joinRepair changes nothing but regs, err, net, sec, trc, io, md, time, bl, slu, freeCtr. -/
@[simp] theorem joinRepair_frame (s : State) (c u : Nat) (f : FaultInfo) :
    (joinRepair s c u f).pending = s.pending ∧ (joinRepair s c u f).ident = s.ident ∧ (joinRepair s c u f).straps = s.straps ∧
    (joinRepair s c u f).seq = s.seq ∧ (joinRepair s c u f).ds = s.ds ∧ (joinRepair s c u f).img = s.img ∧ (joinRepair s c u
    f).haz = s.haz ∧ (joinRepair s c u f).cap = s.cap ∧ (joinRepair s c u f).casc = s.casc ∧ (joinRepair s c u f).chn = s.chn ∧
    (joinRepair s c u f).ckp = s.ckp ∧ (joinRepair s c u f).trx = s.trx ∧ (joinRepair s c u f).fab = s.fab ∧ (joinRepair s c u
    f).pwr = s.pwr ∧ (joinRepair s c u f).util = s.util ∧ (joinRepair s c u f).peers = s.peers ∧ (joinRepair s c u f).boot =
    s.boot ∧ (joinRepair s c u f).acc = s.acc ∧ (joinRepair s c u f).ucie = s.ucie ∧ (joinRepair s c u f).ctl = s.ctl ∧
    (joinRepair s c u f).banks = s.banks ∧ (joinRepair s c u f).phys = s.phys := by
  unfold joinRepair; split <;> simp

/-- wordFault changes nothing but regs, err, net, sec, trc, io, md, time, bl, slu, ds. -/
@[simp] theorem wordFault_frame (s : State) (st : StoreKind) (k : Nat) (f : FaultInfo) :
    (wordFault s st k f).pending = s.pending ∧ (wordFault s st k f).freeCtr = s.freeCtr ∧ (wordFault s st k f).ident = s.ident ∧
    (wordFault s st k f).straps = s.straps ∧ (wordFault s st k f).seq = s.seq ∧ (wordFault s st k f).img = s.img ∧ (wordFault s
    st k f).haz = s.haz ∧ (wordFault s st k f).cap = s.cap ∧ (wordFault s st k f).casc = s.casc ∧ (wordFault s st k f).chn =
    s.chn ∧ (wordFault s st k f).ckp = s.ckp ∧ (wordFault s st k f).trx = s.trx ∧ (wordFault s st k f).fab = s.fab ∧ (wordFault s
    st k f).pwr = s.pwr ∧ (wordFault s st k f).util = s.util ∧ (wordFault s st k f).peers = s.peers ∧ (wordFault s st k f).boot =
    s.boot ∧ (wordFault s st k f).acc = s.acc ∧ (wordFault s st k f).ucie = s.ucie ∧ (wordFault s st k f).ctl = s.ctl ∧
    (wordFault s st k f).banks = s.banks ∧ (wordFault s st k f).phys = s.phys := by
  unfold wordFault; repeat' split
  all_goals simp

/-- widthFault changes nothing but regs, err, net, sec, trc, io, md, time, bl, slu, freeCtr, seq. -/
@[simp] theorem widthFault_frame (s : State) (u : Nat) (f : FaultInfo) :
    (widthFault s u f).pending = s.pending ∧ (widthFault s u f).ident = s.ident ∧ (widthFault s u f).straps = s.straps ∧
    (widthFault s u f).ds = s.ds ∧ (widthFault s u f).img = s.img ∧ (widthFault s u f).haz = s.haz ∧ (widthFault s u f).cap =
    s.cap ∧ (widthFault s u f).casc = s.casc ∧ (widthFault s u f).chn = s.chn ∧ (widthFault s u f).ckp = s.ckp ∧ (widthFault s u
    f).trx = s.trx ∧ (widthFault s u f).fab = s.fab ∧ (widthFault s u f).pwr = s.pwr ∧ (widthFault s u f).util = s.util ∧
    (widthFault s u f).peers = s.peers ∧ (widthFault s u f).boot = s.boot ∧ (widthFault s u f).acc = s.acc ∧ (widthFault s u
    f).ucie = s.ucie ∧ (widthFault s u f).ctl = s.ctl ∧ (widthFault s u f).banks = s.banks ∧ (widthFault s u f).phys = s.phys :=
    by
  unfold widthFault; dsimp only; split <;> simp

/-- joinRecovery changes nothing but ckp. -/
@[simp] theorem joinRecovery_frame (s : State) :
    (joinRecovery s).pending = s.pending ∧ (joinRecovery s).freeCtr = s.freeCtr ∧ (joinRecovery s).ident = s.ident ∧
    (joinRecovery s).straps = s.straps ∧ (joinRecovery s).regs = s.regs ∧ (joinRecovery s).md = s.md ∧ (joinRecovery s).seq =
    s.seq ∧ (joinRecovery s).slu = s.slu ∧ (joinRecovery s).ds = s.ds ∧ (joinRecovery s).img = s.img ∧ (joinRecovery s).haz =
    s.haz ∧ (joinRecovery s).cap = s.cap ∧ (joinRecovery s).casc = s.casc ∧ (joinRecovery s).chn = s.chn ∧ (joinRecovery s).trx =
    s.trx ∧ (joinRecovery s).io = s.io ∧ (joinRecovery s).err = s.err ∧ (joinRecovery s).fab = s.fab ∧ (joinRecovery s).time =
    s.time ∧ (joinRecovery s).pwr = s.pwr ∧ (joinRecovery s).net = s.net ∧ (joinRecovery s).trc = s.trc ∧ (joinRecovery s).util =
    s.util ∧ (joinRecovery s).peers = s.peers ∧ (joinRecovery s).boot = s.boot ∧ (joinRecovery s).acc = s.acc ∧ (joinRecovery
    s).ucie = s.ucie ∧ (joinRecovery s).bl = s.bl ∧ (joinRecovery s).ctl = s.ctl ∧ (joinRecovery s).sec = s.sec ∧ (joinRecovery
    s).banks = s.banks ∧ (joinRecovery s).phys = s.phys := by
  simp [joinRecovery]

/-- beginRecovery changes nothing but ckp, net. -/
@[simp] theorem beginRecovery_frame (s : State) :
    (beginRecovery s).pending = s.pending ∧ (beginRecovery s).freeCtr = s.freeCtr ∧ (beginRecovery s).ident = s.ident ∧
    (beginRecovery s).straps = s.straps ∧ (beginRecovery s).regs = s.regs ∧ (beginRecovery s).md = s.md ∧ (beginRecovery s).seq =
    s.seq ∧ (beginRecovery s).slu = s.slu ∧ (beginRecovery s).ds = s.ds ∧ (beginRecovery s).img = s.img ∧ (beginRecovery s).haz =
    s.haz ∧ (beginRecovery s).cap = s.cap ∧ (beginRecovery s).casc = s.casc ∧ (beginRecovery s).chn = s.chn ∧ (beginRecovery
    s).trx = s.trx ∧ (beginRecovery s).io = s.io ∧ (beginRecovery s).err = s.err ∧ (beginRecovery s).fab = s.fab ∧ (beginRecovery
    s).time = s.time ∧ (beginRecovery s).pwr = s.pwr ∧ (beginRecovery s).trc = s.trc ∧ (beginRecovery s).util = s.util ∧
    (beginRecovery s).peers = s.peers ∧ (beginRecovery s).boot = s.boot ∧ (beginRecovery s).acc = s.acc ∧ (beginRecovery s).ucie
    = s.ucie ∧ (beginRecovery s).bl = s.bl ∧ (beginRecovery s).ctl = s.ctl ∧ (beginRecovery s).sec = s.sec ∧ (beginRecovery
    s).banks = s.banks ∧ (beginRecovery s).phys = s.phys := by
  unfold beginRecovery; split <;> simp

/-- needRecovery changes nothing but regs, err, net, sec, trc, io, md, time, bl, slu, ckp. -/
@[simp] theorem needRecovery_frame (s : State) (f : FaultInfo) :
    (needRecovery s f).pending = s.pending ∧ (needRecovery s f).freeCtr = s.freeCtr ∧ (needRecovery s f).ident = s.ident ∧
    (needRecovery s f).straps = s.straps ∧ (needRecovery s f).seq = s.seq ∧ (needRecovery s f).ds = s.ds ∧ (needRecovery s f).img
    = s.img ∧ (needRecovery s f).haz = s.haz ∧ (needRecovery s f).cap = s.cap ∧ (needRecovery s f).casc = s.casc ∧ (needRecovery
    s f).chn = s.chn ∧ (needRecovery s f).trx = s.trx ∧ (needRecovery s f).fab = s.fab ∧ (needRecovery s f).pwr = s.pwr ∧
    (needRecovery s f).util = s.util ∧ (needRecovery s f).peers = s.peers ∧ (needRecovery s f).boot = s.boot ∧ (needRecovery s
    f).acc = s.acc ∧ (needRecovery s f).ucie = s.ucie ∧ (needRecovery s f).ctl = s.ctl ∧ (needRecovery s f).banks = s.banks ∧
    (needRecovery s f).phys = s.phys := by
  unfold needRecovery; split
  · simp
  · dsimp only; split <;> simp

/-- modeEvent changes nothing but trc, io, net, sec. -/
@[simp] theorem modeEvent_frame (s : State) (d : Nat) :
    (modeEvent s d).pending = s.pending ∧ (modeEvent s d).freeCtr = s.freeCtr ∧ (modeEvent s d).ident = s.ident ∧ (modeEvent s
    d).straps = s.straps ∧ (modeEvent s d).regs = s.regs ∧ (modeEvent s d).md = s.md ∧ (modeEvent s d).seq = s.seq ∧ (modeEvent s
    d).slu = s.slu ∧ (modeEvent s d).ds = s.ds ∧ (modeEvent s d).img = s.img ∧ (modeEvent s d).haz = s.haz ∧ (modeEvent s d).cap
    = s.cap ∧ (modeEvent s d).casc = s.casc ∧ (modeEvent s d).chn = s.chn ∧ (modeEvent s d).ckp = s.ckp ∧ (modeEvent s d).trx =
    s.trx ∧ (modeEvent s d).err = s.err ∧ (modeEvent s d).fab = s.fab ∧ (modeEvent s d).time = s.time ∧ (modeEvent s d).pwr =
    s.pwr ∧ (modeEvent s d).util = s.util ∧ (modeEvent s d).peers = s.peers ∧ (modeEvent s d).boot = s.boot ∧ (modeEvent s d).acc
    = s.acc ∧ (modeEvent s d).ucie = s.ucie ∧ (modeEvent s d).bl = s.bl ∧ (modeEvent s d).ctl = s.ctl ∧ (modeEvent s d).banks =
    s.banks ∧ (modeEvent s d).phys = s.phys := by
  simp [modeEvent]

/-- wakeLinks changes nothing but bl, regs. -/
@[simp] theorem wakeLinks_frame (s : State) :
    (wakeLinks s).pending = s.pending ∧ (wakeLinks s).freeCtr = s.freeCtr ∧ (wakeLinks s).ident = s.ident ∧ (wakeLinks s).straps
    = s.straps ∧ (wakeLinks s).md = s.md ∧ (wakeLinks s).seq = s.seq ∧ (wakeLinks s).slu = s.slu ∧ (wakeLinks s).ds = s.ds ∧
    (wakeLinks s).img = s.img ∧ (wakeLinks s).haz = s.haz ∧ (wakeLinks s).cap = s.cap ∧ (wakeLinks s).casc = s.casc ∧ (wakeLinks
    s).chn = s.chn ∧ (wakeLinks s).ckp = s.ckp ∧ (wakeLinks s).trx = s.trx ∧ (wakeLinks s).io = s.io ∧ (wakeLinks s).err = s.err
    ∧ (wakeLinks s).fab = s.fab ∧ (wakeLinks s).time = s.time ∧ (wakeLinks s).pwr = s.pwr ∧ (wakeLinks s).net = s.net ∧
    (wakeLinks s).trc = s.trc ∧ (wakeLinks s).util = s.util ∧ (wakeLinks s).peers = s.peers ∧ (wakeLinks s).boot = s.boot ∧
    (wakeLinks s).acc = s.acc ∧ (wakeLinks s).ucie = s.ucie ∧ (wakeLinks s).ctl = s.ctl ∧ (wakeLinks s).sec = s.sec ∧ (wakeLinks
    s).banks = s.banks ∧ (wakeLinks s).phys = s.phys := by
  unfold wakeLinks
  refine ⟨?_, ?_, ?_, ?_, ?_, ?_, ?_, ?_, ?_, ?_, ?_, ?_, ?_, ?_, ?_, ?_, ?_, ?_, ?_, ?_, ?_, ?_, ?_, ?_, ?_, ?_, ?_, ?_, ?_, ?_, ?_⟩ <;> dsimp only
  all_goals (apply foldl_keeps; intro _ _; split <;> simp)

/-- setMode changes nothing but md, bl, regs. -/
@[simp] theorem setMode_frame (s : State) (m : Mode) (sub : Sub) (d : Bool) :
    (setMode s m sub d).pending = s.pending ∧ (setMode s m sub d).freeCtr = s.freeCtr ∧ (setMode s m sub d).ident = s.ident ∧
    (setMode s m sub d).straps = s.straps ∧ (setMode s m sub d).seq = s.seq ∧ (setMode s m sub d).slu = s.slu ∧ (setMode s m sub
    d).ds = s.ds ∧ (setMode s m sub d).img = s.img ∧ (setMode s m sub d).haz = s.haz ∧ (setMode s m sub d).cap = s.cap ∧ (setMode
    s m sub d).casc = s.casc ∧ (setMode s m sub d).chn = s.chn ∧ (setMode s m sub d).ckp = s.ckp ∧ (setMode s m sub d).trx =
    s.trx ∧ (setMode s m sub d).io = s.io ∧ (setMode s m sub d).err = s.err ∧ (setMode s m sub d).fab = s.fab ∧ (setMode s m sub
    d).time = s.time ∧ (setMode s m sub d).pwr = s.pwr ∧ (setMode s m sub d).net = s.net ∧ (setMode s m sub d).trc = s.trc ∧
    (setMode s m sub d).util = s.util ∧ (setMode s m sub d).peers = s.peers ∧ (setMode s m sub d).boot = s.boot ∧ (setMode s m
    sub d).acc = s.acc ∧ (setMode s m sub d).ucie = s.ucie ∧ (setMode s m sub d).ctl = s.ctl ∧ (setMode s m sub d).sec = s.sec ∧
    (setMode s m sub d).banks = s.banks ∧ (setMode s m sub d).phys = s.phys := by
  unfold setMode
  dsimp only
  split <;> simp

/-- A register reads what was written, and every other one as before. -/
theorem reg_setReg (s : State) (k x : Nat) (w : Word) : reg (setReg s k w) x = if x = k then w else reg s x :=
  cget_cset regReset s.regs k w x

@[simp] theorem reg_setReg_same (s : State) (k : Nat) (w : Word) : reg (setReg s k w) k = w := by simp [reg_setReg]

theorem reg_setReg_other (s : State) (k x : Nat) (w : Word) (h : x ≠ k) : reg (setReg s k w) x = reg s x := by simp [reg_setReg, h]

/-- An I/O-die register reads the number written, cut to 32 bits. -/
@[simp] theorem ioReg_setIo_same (s : State) (b o v : Nat) : ioReg (setIo s b o v) b o = v % 2 ^ 32 := by
  simp [ioReg, setIo]

/-- The register file stays canonical. -/
theorem wf_setReg (s : State) (k : Nat) (w : Word) (h : Memory.wf regReset s.regs = true) : Memory.wf regReset (setReg s k w).regs = true :=
  Memory.wf_cset regReset s.regs h k w

end Sys2Proof.Machine
end

