-- ==== Sys2Proof/Laws/Commands.lean ====
section
/-! SUPPORT. Laws/Commands.lean: what taking, answering and running a command packet does, once for every opcode. -/
namespace Sys2Proof.Machine

/-- A command that passes its checks runs on this device, on the state with its ring entry consumed. -/
theorem hostCmd_accepts {op : Nat} {chk : State → Cmd → Nat} {act : State → Cmd → State × Res} {c : Cmd} {s : State}
    (h : accepts s op chk c = true) :
    hostCmd op chk act c s = settle (takeEntry s c) op c (act (takeEntry s c) c) := by
  simp only [accepts, Bool.and_eq_true, beq_iff_eq] at h
  obtain ⟨⟨⟨⟨⟨⟨hp, ht⟩, hh⟩, hn⟩, hpos⟩, hs⟩, hb⟩ := h
  have hpo : cPos c = posOf (takeEntry s c) := by simp [takeEntry, hp, posOf] at hpos ⊢; exact hpos
  have hb' : behindSpillway (takeEntry s c) op c = false := by simpa using hb
  unfold hostCmd
  simp only [ht, Bool.not_true, Bool.false_eq_true, if_false, hp]
  simp only [firstBad, hh, hn, bne_self_eq_false, Bool.false_eq_true, if_false, hpo, runCmd, hs, hb', Bool.false_and]

/-- Taking a command changes the ring's consumer index or its session, and which source was served last. -/
@[simp] theorem takeEntry_frame (s : State) (c : Cmd) :
    (takeEntry s c).pending = s.pending ∧ (takeEntry s c).freeCtr = s.freeCtr ∧ (takeEntry s c).ident = s.ident ∧ (takeEntry s c).straps = s.straps
    ∧ (takeEntry s c).md = s.md ∧ (takeEntry s c).seq = s.seq ∧ (takeEntry s c).slu = s.slu ∧ (takeEntry s c).ds = s.ds
    ∧ (takeEntry s c).img = s.img ∧ (takeEntry s c).haz = s.haz ∧ (takeEntry s c).cap = s.cap ∧ (takeEntry s c).casc = s.casc
    ∧ (takeEntry s c).chn = s.chn ∧ (takeEntry s c).ckp = s.ckp ∧ (takeEntry s c).trx = s.trx ∧ (takeEntry s c).err = s.err
    ∧ (takeEntry s c).fab = s.fab ∧ (takeEntry s c).time = s.time ∧ (takeEntry s c).pwr = s.pwr ∧ (takeEntry s c).net = s.net
    ∧ (takeEntry s c).trc = s.trc ∧ (takeEntry s c).util = s.util ∧ (takeEntry s c).peers = s.peers ∧ (takeEntry s c).boot = s.boot
    ∧ (takeEntry s c).acc = s.acc ∧ (takeEntry s c).ucie = s.ucie ∧ (takeEntry s c).bl = s.bl ∧ (takeEntry s c).ctl = s.ctl
    ∧ (takeEntry s c).banks = s.banks ∧ (takeEntry s c).phys = s.phys
    ∧ (takeEntry s c).io.waiting = s.io.waiting ∧ (takeEntry s c).io.queue = s.io.queue ∧ (takeEntry s c).io.mask = s.io.mask
    ∧ (takeEntry s c).io.version = s.io.version ∧ (takeEntry s c).io.deferred = s.io.deferred
    ∧ (takeEntry s c).io.stopping = s.io.stopping ∧ (takeEntry s c).io.relayed = s.io.relayed := by
  unfold takeEntry
  split <;> simp [mapSession]

/-- A PCIe command touches no session. -/
theorem takeEntry_sec {s : State} {c : Cmd} (h : c.path = .pcie) : (takeEntry s c).sec = s.sec := by simp [takeEntry, h]

/-- Writing a reply changes the registers and the host side alone. -/
@[simp] theorem writeReply_frame (s : State) (r : Reply) :
    (writeReply s r).pending = s.pending ∧ (writeReply s r).freeCtr = s.freeCtr ∧ (writeReply s r).ident = s.ident ∧ (writeReply s r).straps = s.straps
    ∧ (writeReply s r).md = s.md ∧ (writeReply s r).seq = s.seq ∧ (writeReply s r).slu = s.slu ∧ (writeReply s r).ds = s.ds
    ∧ (writeReply s r).img = s.img ∧ (writeReply s r).haz = s.haz ∧ (writeReply s r).cap = s.cap ∧ (writeReply s r).casc = s.casc
    ∧ (writeReply s r).chn = s.chn ∧ (writeReply s r).ckp = s.ckp ∧ (writeReply s r).trx = s.trx ∧ (writeReply s r).err = s.err
    ∧ (writeReply s r).fab = s.fab ∧ (writeReply s r).time = s.time ∧ (writeReply s r).pwr = s.pwr ∧ (writeReply s r).net = s.net
    ∧ (writeReply s r).trc = s.trc ∧ (writeReply s r).util = s.util ∧ (writeReply s r).peers = s.peers ∧ (writeReply s r).boot = s.boot
    ∧ (writeReply s r).acc = s.acc ∧ (writeReply s r).ucie = s.ucie ∧ (writeReply s r).bl = s.bl ∧ (writeReply s r).ctl = s.ctl
    ∧ (writeReply s r).sec = s.sec ∧ (writeReply s r).banks = s.banks ∧ (writeReply s r).phys = s.phys
    ∧ (writeReply s r).io.waiting = s.io.waiting ∧ (writeReply s r).io.queue = s.io.queue ∧ (writeReply s r).io.mask = s.io.mask
    ∧ (writeReply s r).io.deferred = s.io.deferred := by
  unfold writeReply
  simp only [signal, finishDisable]
  split <;> split <;> simp [writeBack]

/-- Outside SAFE HOLD the answer of a PCIe command is its reply in the ring. -/
@[simp] theorem answer_pcie {s : State} {op : Nat} {c : Cmd} {st : Nat} {ws : List Word} (h : c.path = .pcie) (hs : s.md.safeHold = none) :
    answer s op c st ws = writeReply s (mkReply s op c st 0 ws) := by simp [answer, sendReply, inSafeHold, h, hs]

/-- An accepted command is a PCIe command. -/
theorem accepts_pcie {op : Nat} {chk : State → Cmd → Nat} {c : Cmd} {s : State} (h : accepts s op chk c = true) : c.path = .pcie := by
  simp only [accepts, Bool.and_eq_true, beq_iff_eq] at h
  exact h.1.1.1.1.1.1

/-- The opcode's own check of parameters has passed. -/
theorem accepts_chk {op : Nat} {chk : State → Cmd → Nat} {c : Cmd} {s : State} (h : accepts s op chk c = true) : chk (takeEntry s c) c = 0 := by
  simp only [accepts, Bool.and_eq_true, beq_iff_eq] at h
  have h := h.1.2
  unfold statusOf at h
  split at h
  · exact absurd h (by decide)
  · simp only [firstBad] at h
    by_contra hne
    repeat' split at h
    all_goals simp_all

/-- Writing a command's reply is what `replied` says, of rings that are not being disabled (R355). -/
theorem replied_writeReply (e : State) (op : Nat) (c : Cmd) (st : Nat) (ws : List Word) (hst : st ≤ 1) (he : e.io.stopping = false) :
    replied e op c st ws (writeReply e (mkReply e op c st 0 ws)) := by
  refine ⟨?_, ?_, ?_, ?_⟩
  · simp only [writeReply, signal, finishDisable]
    split <;> simp [writeBack, mkReply, hst, setReg, he]
  · simp only [writeReply, signal, finishDisable]
    split <;> simp [writeBack, reg, setReg, cget_cset, he]
  · intro k hk
    simp only [writeReply, signal, finishDisable]
    split <;> simp [writeBack, reg, setReg, cget_cset, hk, he]
  · simp only [writeReply, signal, finishDisable]
    split <;> simp [writeBack, setReg, he]

/-- A command is accepted only outside SAFE HOLD and while its rings are not being disabled (R355, R364). -/
theorem accepts_live {op : Nat} {chk : State → Cmd → Nat} {c : Cmd} {s : State} (h : accepts s op chk c = true) :
    s.md.safeHold = none ∧ s.io.stopping = false := by
  simp only [accepts, Bool.and_eq_true, beq_iff_eq] at h
  obtain ⟨⟨⟨⟨⟨⟨hp, ht⟩, _⟩, _⟩, _⟩, _⟩, _⟩ := h
  simp only [canTake, hp, ringWork, inSafeHold, Bool.and_eq_true, Bool.not_eq_true'] at ht
  exact ⟨by simpa using ht.1.1.1.1, ht.2.1.1.1.2⟩

/-- An accepted command whose effect is e and whose result is words ends in e with its reply. -/
theorem hostCmd_ok {op : Nat} {chk : State → Cmd → Nat} {act : State → Cmd → State × Res} {c : Cmd} {s : State}
    (h : accepts s op chk c = true) {e : State} {ws : List Word} (ha : act (takeEntry s c) c = (e, .ok ws))
    (hs : e.md.safeHold = none) (he : e.io.stopping = false) :
    replied e op c 0 ws (hostCmd op chk act c s) := by
  rw [hostCmd_accepts h, ha]
  simp only [settle, answer_pcie (accepts_pcie h) hs]
  exact replied_writeReply e op c 0 ws (by decide) he

/-- An accepted command that is to complete later waits, with room among the 64, and its reply is 0x0001. -/
theorem hostCmd_accept {op : Nat} {chk : State → Cmd → Nat} {act : State → Cmd → State × Res} {c : Cmd} {s : State}
    (h : accepts s op chk c = true) (hw : s.io.waiting.length < 64) {e : State} (ha : act (takeEntry s c) c = (e, .accept))
    (hs : e.md.safeHold = none) (he : e.io.stopping = false) :
    replied (nowWaiting e op c) op c 1 [] (hostCmd op chk act c s) := by
  rw [hostCmd_accepts h, ha]
  have hn : ¬ 64 ≤ (takeEntry s c).io.waiting.length := by simp; omega
  simp only [settle, hn, if_false]
  rw [answer_pcie (accepts_pcie h) (by exact hs)]
  exact replied_writeReply (nowWaiting e op c) op c 1 [] (by decide) (by exact he)

end Sys2Proof.Machine
end

