-- ==== Sys2Proof/Laws/Digests.lean ====
section
/-! SUPPORT. Laws/Digests.lean: bytes and words of a number and of a digest go back and forth. -/
namespace Sys2Proof.Machine

/-- The number of a number's k low bytes. -/
theorem ofLe_leBytes (k n : Nat) : ofLe (leBytes k n) = n % 256 ^ k := by
  induction k generalizing n with
  | zero => simp [leBytes, ofLe, Nat.mod_one]
  | succ k ih =>
    have h : n % 256 ^ (k + 1) = n % 256 + 256 * (n / 256 % 256 ^ k) := by rw [Nat.pow_succ, Nat.mul_comm, Nat.mod_mul]
    simp only [leBytes, ofLe, ih, BitVec.toNat_ofNat]
    omega

theorem leBytes_length (k n : Nat) : (leBytes k n).length = k := by
  induction k generalizing n with
  | zero => rfl
  | succ k ih => simp [leBytes, ih]

/-- Four bytes survive the word that they make. -/
theorem leBytes_word (a b c d : Byte) : leBytes 4 (BitVec.ofNat 32 (ofLe [a, b, c, d])).toNat = [a, b, c, d] := by
  have ha := a.isLt; have hb := b.isLt; have hc := c.isLt; have hd := d.isLt
  simp only [leBytes, ofLe, BitVec.toNat_ofNat, List.cons.injEq, and_true]
  refine ⟨?_, ?_, ?_, ?_⟩ <;> · apply BitVec.eq_of_toNat_eq; simp only [BitVec.toNat_ofNat]; omega

/-- Bytes by fours survive the words that they make. -/
theorem wordBytes_bytesWords (n : Nat) (bs : List Byte) (h : bs.length = 4 * n) : wordBytes (bytesWords bs) = bs := by
  induction n generalizing bs with
  | zero => cases bs with
    | nil => rfl
    | cons _ _ => simp at h
  | succ n ih =>
    match bs, h with
    | a :: b :: c :: d :: rest, h =>
      have hr : rest.length = 4 * n := by simp at h; omega
      have := ih rest hr
      simp only [wordBytes] at this
      simp only [bytesWords, wordBytes, List.flatMap_cons, this, leBytes_word, List.cons_append, List.nil_append]
    | [], h => simp at h
    | [_], h => simp at h; omega
    | [_, _], h => simp at h; omega
    | [_, _, _], h => simp at h; omega

theorem bytesWords_length (n : Nat) (bs : List Byte) (h : bs.length = 4 * n) : (bytesWords bs).length = n := by
  induction n generalizing bs with
  | zero => cases bs with
    | nil => rfl
    | cons _ _ => simp at h
  | succ n ih =>
    match bs, h with
    | _ :: _ :: _ :: _ :: rest, h => simp [bytesWords, ih rest (by simp at h; omega)]
    | [], h => simp at h
    | [_], h => simp at h; omega
    | [_, _], h => simp at h; omega
    | [_, _, _], h => simp at h; omega

theorem digestWords_length (d : Digest) : (digestWords d).length = 8 :=
  bytesWords_length 8 _ (by simp [digestBytes, leBytes_length])

/-- A digest survives its eight result words (R636). -/
theorem wordsDigest_digestWords (d : Digest) : wordsDigest (digestWords d) = d := by
  unfold wordsDigest
  rw [List.take_of_length_le (by rw [digestWords_length]), digestWords, wordBytes_bytesWords 8 _ (by simp [digestBytes, leBytes_length]),
    digestBytes, List.reverse_reverse, ofLe_leBytes]
  apply BitVec.eq_of_toNat_eq
  have := d.isLt
  simp only [BitVec.toNat_ofNat]
  omega

end Sys2Proof.Machine
end

