-- ==== Sys2Proof/Laws/Export.lean ====
section
/-! SUPPORT. Laws/Export.lean: a checkpoint's export passes the checks of an import on the device that made it (R315, R316). -/
namespace Sys2Proof.Machine

theorem le_ceil64 (n : Nat) : n ≤ ceil64 n := by unfold ceil64; omega
theorem ceil64_lt (n : Nat) : ceil64 n < n + 64 := by unfold ceil64; omega
@[simp] theorem ceil64_mod (n : Nat) : ceil64 n % 64 = 0 := Nat.mul_mod_left _ _

theorem sectionsEnd_ge (secs : List (Nat × Word × Nat)) (o : Nat) : o ≤ sectionsEnd o secs := by
  induction secs generalizing o with
  | nil => exact Nat.le_refl _
  | cons x xs ih => exact Nat.le_trans (Nat.le_trans (le_ceil64 o) (Nat.le_add_right _ x.2.2)) (ih (ceil64 o + x.2.2))

/-- The end of sections that are placed one after another: less than 64 bytes are lost before each. -/
theorem sectionsEnd_le (secs : List (Nat × Word × Nat)) (o : Nat) : sectionsEnd o secs ≤ o + (secs.map (fun x => x.2.2 + 64)).sum := by
  induction secs generalizing o with
  | nil => exact Nat.le_refl _
  | cons x xs ih =>
    obtain ⟨typ, scope, len⟩ := x
    have h := ih (ceil64 o + len)
    have := ceil64_lt o
    simp only [sectionsEnd, List.map_cons, List.sum_cons]
    omega

/-- The entries name the sections in their order. -/
theorem placeSections_map (secs : List (Nat × Word × Nat)) (o : Nat) :
    (placeSections o secs).map (fun t => (t.typ, t.scope, t.length)) = secs := by
  induction secs generalizing o with
  | nil => rfl
  | cons x xs ih => simp [placeSections, ih]

theorem placeSections_length (secs : List (Nat × Word × Nat)) (o : Nat) : (placeSections o secs).length = secs.length := by
  have h := congrArg List.length (placeSections_map secs o)
  simpa using h

/-- Every placed section stands at a multiple of 64 at or after the start, and ends by the end. -/
theorem placeSections_mem (secs : List (Nat × Word × Nat)) (o : Nat) (t : SectionEntry) (h : t ∈ placeSections o secs) :
    t.reserved = false ∧ t.reserved18 = false ∧ t.offset % 64 = 0 ∧ o ≤ t.offset ∧ t.offset + t.length ≤ sectionsEnd o secs := by
  induction secs generalizing o with
  | nil => cases h
  | cons x xs ih =>
    rcases List.mem_cons.mp h with rfl | h
    · exact ⟨rfl, rfl, ceil64_mod o, le_ceil64 o, sectionsEnd_ge xs _⟩
    · have := ih _ h
      have := le_ceil64 o
      exact ⟨by tauto, by tauto, by tauto, by omega, by tauto⟩

/-- No two placed sections overlap. -/
theorem placeSections_pairwise (secs : List (Nat × Word × Nat)) (o : Nat) :
    (placeSections o secs).Pairwise (fun a b => a.offset + a.length ≤ b.offset ∨ b.offset + b.length ≤ a.offset) := by
  induction secs generalizing o with
  | nil => exact List.Pairwise.nil
  | cons x xs ih => exact List.Pairwise.cons (fun t ht => Or.inl (placeSections_mem xs _ t ht).2.2.2.1) (ih _)

/-- An export is no longer than its header, its table and its sections with less than 64 bytes before each. -/
theorem exportOf_bytes_le (s : State) (k : Checkpoint) :
    (exportOf s k).totalBytes ≤ 0x100 + 32 * (sectionsFor (exportCore s k) (regionSections s)).length + ((sectionsFor (exportCore s k) (regionSections s)).map (fun x => x.2.2 + 64)).sum :=
  sectionsEnd_le _ _

/-- The region sections among the sections of an export are those given. -/
theorem sectionsFor_regions (e : CkpExport) (regs : List (Nat × Word × Nat)) (h : ∀ x ∈ regs, x.1 = 0x0103) :
    (sectionsFor e regs).filter (fun t => t.1 == 0x0103) = regs := by
  have hr : regs.filter (fun t => t.1 == 0x0103) = regs := List.filter_eq_self.mpr (fun x hx => by simp [h x hx])
  have hd : ((partDies e.part).map (fun d => ((0x0101, mkLoc (64 * d) 0 0 0, dieSectionLen e.state d) : Nat × Word × Nat))).filter (fun t => t.1 == 0x0103) = [] :=
    List.filter_eq_nil_iff.mpr (fun x hx => by obtain ⟨d, _, rfl⟩ := List.mem_map.mp hx; simp)
  simp [sectionsFor, List.filter_append, hr, hd]

theorem regionSections_typ (s : State) : ∀ x ∈ regionSections s, x.1 = 0x0103 := by
  unfold regionSections
  split
  · intro x hx
    obtain ⟨r, _, rfl⟩ := List.mem_map.mp hx
    rfl
  · intro x hx; cases hx

/-- The table of an export of a checkpoint of the resident image passes the check of the section table. -/
theorem tableOk_exportOf {s : State} {k : Checkpoint} {i : Image} (hi : s.img.resident = some i) (hset : k.setId = i.hdr.setId) :
    tableOk s (exportOf s k) = true := by
  have hs : sectionsFor (exportOf s k) (regionSections s) = sectionsFor (exportCore s k) (regionSections s) := rfl
  have ht : (exportOf s k).table
      = placeSections (0x100 + 32 * (sectionsFor (exportCore s k) (regionSections s)).length) (sectionsFor (exportCore s k) (regionSections s)) := rfl
  have hb : (exportOf s k).totalBytes
      = sectionsEnd (0x100 + 32 * (sectionsFor (exportCore s k) (regionSections s)).length) (sectionsFor (exportCore s k) (regionSections s)) := rfl
  have ho : ofResident s (exportOf s k) = true := by
    have h1 : (exportOf s k).state.setId = k.setId := rfl
    simp [ofResident, hi, h1, hset]
  have hf := sectionsFor_regions (exportCore s k) _ (regionSections_typ s)
  unfold tableOk
  rw [ht, hb, placeSections_map, placeSections_length]
  dsimp only
  rw [hf, hs, ho]
  generalize sectionsFor (exportCore s k) (regionSections s) = secs
  generalize regionSections s = regs
  simp only [Bool.and_eq_true, List.all_eq_true, decide_eq_true_eq, beq_iff_eq, Bool.not_eq_true', if_true]
  refine ⟨⟨⟨List.isPerm_iff.mpr (List.Perm.refl _), List.isPerm_iff.mpr (List.Perm.refl _)⟩, ?_⟩, placeSections_pairwise secs _⟩
  intro t h
  have := placeSections_mem secs _ t h
  tauto

theorem exportBody_digest (e : CkpExport) (d : Digest) : exportBody { e with bodyDigest := d } = exportBody e := rfl

/-- BODY_DIGEST of an export is that of its bytes. -/
theorem exportOf_digest (s : State) (k : Checkpoint) : sm3 (exportBody (exportOf s k)) = (exportOf s k).bodyDigest := by
  unfold exportOf
  exact congrArg sm3 (exportBody_digest _ _)

/-- The export of a checkpoint of the resident image passes every check on the device that made it. -/
theorem importStatus_exportOf {s : State} {k : Checkpoint} {i : Image} (hi : s.img.resident = some i) (hset : k.setId = i.hdr.setId) :
    importStatus s (exportOf s k) (exportOf s k).totalBytes = 0 := by
  have hm : (exportOf s k).magic = 0x50434541 := rfl
  have hf : (exportOf s k).fmtMajor = 1 := rfl
  have hp : (exportOf s k).position = posOf s := rfl
  have hq : (exportOf s k).part = partByte s := rfl
  have h1 : (exportOf s k).state.setId = k.setId := rfl
  have h2 : (exportOf s k).sigDigest = i.hdr.sigDigest := by
    have : (exportOf s k).sigDigest = match s.img.resident with | some i => i.hdr.sigDigest | none => 0 := rfl
    rw [this, hi]
  simp [importStatus, hm, hf, hp, hq, h1, h2, hi, hset, tableOk_exportOf hi hset, exportOf_digest]

end Sys2Proof.Machine
end

