-- ==== Sys2Proof/Laws/Modes.lean ====
section
/-! SUPPORT. Laws/Modes.lean: which shared operations touch the mode, the sub-state and the debug flag (R38), and what a set kept as a rising
list holds. -/
namespace Sys2Proof.Machine

/-- Mode, sub-state and debug flag of a state. -/
def runMode (s : State) : Mode × Sub × Bool := (s.md.mode, s.md.sub, s.md.debug)

/-- A state with the mode, sub-state and debug flag of a legal one is legal. -/
theorem legalMode_congr {s t : State} (h : runMode t = runMode s) (hs : s.legalMode) : t.legalMode := by
  simp only [runMode, Prod.mk.injEq] at h
  intro hm
  rw [h.1] at hm
  rw [h.2.1, h.2.2]
  exact hs hm

/-- Entering any mode leaves a legal one. -/
theorem setMode_legal (s : State) (m : Mode) (sub : Sub) (debug : Bool) : (setMode s m sub debug).legalMode := by
  cases m <;> simp [setMode, State.legalMode]

theorem setMode_mode (s : State) (m : Mode) (sub : Sub) (debug : Bool) : (setMode s m sub debug).md.mode = m := by
  cases m <;> simp [setMode]

/-- SAFE HOLD keeps the mode (R45). -/
@[simp] theorem enterSafeHold_runMode (s : State) (c : Nat) : runMode (enterSafeHold s c) = runMode s := by
  unfold enterSafeHold; split <;> simp [runMode]

@[simp] theorem postErrors_runMode (n : Nat) (s : State) : runMode (postErrors n s) = runMode s := by simp [runMode]
@[simp] theorem maxIo_runMode (s : State) (b o v : Nat) : runMode (maxIo s b o v) = runMode s := by simp [runMode]
@[simp] theorem assertReplace_runMode (s : State) (c : Nat) : runMode (assertReplace s c) = runMode s := by simp [runMode]

/-- Making a record keeps the mode, FATAL or not. -/
@[simp] theorem makeRecord_runMode (s : State) (r : ErrRec) (b : Bool) : runMode (makeRecord s r b) = runMode s := by
  unfold makeRecord
  split
  · rw [enterSafeHold_runMode, postErrors_runMode]; simp [runMode]
  · simp [runMode]

@[simp] theorem fault_runMode (s : State) (f : FaultInfo) : runMode (fault s f) = runMode s := by
  unfold fault
  rw [makeRecord_runMode]
  simp [runMode]

@[simp] theorem unitFault_runMode (s : State) (c u : Nat) (f : FaultInfo) : runMode (unitFault s c u f) = runMode s := by
  unfold unitFault; split
  · simp
  · simp [runMode, startRepair]

@[simp] theorem joinRepair_runMode (s : State) (c u : Nat) (f : FaultInfo) : runMode (joinRepair s c u f) = runMode s := by
  unfold joinRepair; split
  · simp [runMode]
  · simp

@[simp] theorem singleFault_runMode (s : State) (c : Nat) (f : FaultInfo) : runMode (singleFault s c f) = runMode s := unitFault_runMode s c 0 f

@[simp] theorem needRecovery_runMode (s : State) (f : FaultInfo) : runMode (needRecovery s f) = runMode s := by
  unfold needRecovery
  split
  · simp
  · dsimp only; split <;> simp [runMode]

/-- A set kept as a rising list holds what was put in and what it held. -/
theorem mem_ins (l : List Nat) (x y : Nat) : y ∈ ins l x ↔ y = x ∨ y ∈ l := by
  induction l with
  | nil => simp [ins]
  | cons a l ih =>
    simp only [ins]
    split
    · simp only [List.mem_cons, ih]; tauto
    · split
      · next h => subst h; simp
      · simp

end Sys2Proof.Machine
end

