-- ==== Sys2Proof/Laws/Network.lean ====
section
/-! SUPPORT. Laws/Network.lean: what the shared operations of the network, the service banks and the planned holds leave unchanged. -/
namespace Sys2Proof.Machine

/-- countNoc changes nothing but regs. -/
@[simp] theorem countNoc_frame (s : State) (o : Nat) :
    (countNoc s o).pending = s.pending ∧ (countNoc s o).freeCtr = s.freeCtr ∧ (countNoc s o).ident = s.ident ∧ (countNoc s
    o).straps = s.straps ∧ (countNoc s o).md = s.md ∧ (countNoc s o).seq = s.seq ∧ (countNoc s o).slu = s.slu ∧ (countNoc s o).ds
    = s.ds ∧ (countNoc s o).img = s.img ∧ (countNoc s o).haz = s.haz ∧ (countNoc s o).cap = s.cap ∧ (countNoc s o).casc = s.casc
    ∧ (countNoc s o).chn = s.chn ∧ (countNoc s o).ckp = s.ckp ∧ (countNoc s o).trx = s.trx ∧ (countNoc s o).io = s.io ∧ (countNoc
    s o).err = s.err ∧ (countNoc s o).fab = s.fab ∧ (countNoc s o).time = s.time ∧ (countNoc s o).pwr = s.pwr ∧ (countNoc s
    o).net = s.net ∧ (countNoc s o).trc = s.trc ∧ (countNoc s o).util = s.util ∧ (countNoc s o).peers = s.peers ∧ (countNoc s
    o).boot = s.boot ∧ (countNoc s o).acc = s.acc ∧ (countNoc s o).ucie = s.ucie ∧ (countNoc s o).bl = s.bl ∧ (countNoc s o).ctl
    = s.ctl ∧ (countNoc s o).sec = s.sec ∧ (countNoc s o).banks = s.banks ∧ (countNoc s o).phys = s.phys := by
  simp [countNoc]

/-- respond changes nothing but regs, net. -/
@[simp] theorem respond_frame (s : State) (c st : Nat) (p : Packet) (ws : List Word) :
    (respond s c st p ws).pending = s.pending ∧ (respond s c st p ws).freeCtr = s.freeCtr ∧ (respond s c st p ws).ident = s.ident
    ∧ (respond s c st p ws).straps = s.straps ∧ (respond s c st p ws).md = s.md ∧ (respond s c st p ws).seq = s.seq ∧ (respond s
    c st p ws).slu = s.slu ∧ (respond s c st p ws).ds = s.ds ∧ (respond s c st p ws).img = s.img ∧ (respond s c st p ws).haz =
    s.haz ∧ (respond s c st p ws).cap = s.cap ∧ (respond s c st p ws).casc = s.casc ∧ (respond s c st p ws).chn = s.chn ∧
    (respond s c st p ws).ckp = s.ckp ∧ (respond s c st p ws).trx = s.trx ∧ (respond s c st p ws).io = s.io ∧ (respond s c st p
    ws).err = s.err ∧ (respond s c st p ws).fab = s.fab ∧ (respond s c st p ws).time = s.time ∧ (respond s c st p ws).pwr = s.pwr
    ∧ (respond s c st p ws).trc = s.trc ∧ (respond s c st p ws).util = s.util ∧ (respond s c st p ws).peers = s.peers ∧ (respond
    s c st p ws).boot = s.boot ∧ (respond s c st p ws).acc = s.acc ∧ (respond s c st p ws).ucie = s.ucie ∧ (respond s c st p
    ws).bl = s.bl ∧ (respond s c st p ws).ctl = s.ctl ∧ (respond s c st p ws).sec = s.sec ∧ (respond s c st p ws).banks = s.banks
    ∧ (respond s c st p ws).phys = s.phys := by
  unfold respond; dsimp only; repeat' split
  all_goals simp [queueOutPacket, setOutstanding]

/-- answerWith changes nothing but regs, net. -/
@[simp] theorem answerWith_frame (s : State) (c : Option Nat) (st : Nat) (p : Packet) (ws : List Word) :
    (answerWith s c st p ws).pending = s.pending ∧ (answerWith s c st p ws).freeCtr = s.freeCtr ∧ (answerWith s c st p ws).ident
    = s.ident ∧ (answerWith s c st p ws).straps = s.straps ∧ (answerWith s c st p ws).md = s.md ∧ (answerWith s c st p ws).seq =
    s.seq ∧ (answerWith s c st p ws).slu = s.slu ∧ (answerWith s c st p ws).ds = s.ds ∧ (answerWith s c st p ws).img = s.img ∧
    (answerWith s c st p ws).haz = s.haz ∧ (answerWith s c st p ws).cap = s.cap ∧ (answerWith s c st p ws).casc = s.casc ∧
    (answerWith s c st p ws).chn = s.chn ∧ (answerWith s c st p ws).ckp = s.ckp ∧ (answerWith s c st p ws).trx = s.trx ∧
    (answerWith s c st p ws).io = s.io ∧ (answerWith s c st p ws).err = s.err ∧ (answerWith s c st p ws).fab = s.fab ∧
    (answerWith s c st p ws).time = s.time ∧ (answerWith s c st p ws).pwr = s.pwr ∧ (answerWith s c st p ws).trc = s.trc ∧
    (answerWith s c st p ws).util = s.util ∧ (answerWith s c st p ws).peers = s.peers ∧ (answerWith s c st p ws).boot = s.boot ∧
    (answerWith s c st p ws).acc = s.acc ∧ (answerWith s c st p ws).ucie = s.ucie ∧ (answerWith s c st p ws).bl = s.bl ∧
    (answerWith s c st p ws).ctl = s.ctl ∧ (answerWith s c st p ws).sec = s.sec ∧ (answerWith s c st p ws).banks = s.banks ∧
    (answerWith s c st p ws).phys = s.phys := by
  unfold answerWith; split <;> simp

/-- bankRequest changes nothing but regs, net, banks. -/
@[simp] theorem bankRequest_frame (s : State) (p : Packet) (a : Option Nat) (n : Nat) (w : Bool) :
    (bankRequest s p a n w).pending = s.pending ∧ (bankRequest s p a n w).freeCtr = s.freeCtr ∧ (bankRequest s p a n w).ident =
    s.ident ∧ (bankRequest s p a n w).straps = s.straps ∧ (bankRequest s p a n w).md = s.md ∧ (bankRequest s p a n w).seq = s.seq
    ∧ (bankRequest s p a n w).slu = s.slu ∧ (bankRequest s p a n w).ds = s.ds ∧ (bankRequest s p a n w).img = s.img ∧
    (bankRequest s p a n w).haz = s.haz ∧ (bankRequest s p a n w).cap = s.cap ∧ (bankRequest s p a n w).casc = s.casc ∧
    (bankRequest s p a n w).chn = s.chn ∧ (bankRequest s p a n w).ckp = s.ckp ∧ (bankRequest s p a n w).trx = s.trx ∧
    (bankRequest s p a n w).io = s.io ∧ (bankRequest s p a n w).err = s.err ∧ (bankRequest s p a n w).fab = s.fab ∧ (bankRequest
    s p a n w).time = s.time ∧ (bankRequest s p a n w).pwr = s.pwr ∧ (bankRequest s p a n w).trc = s.trc ∧ (bankRequest s p a n
    w).util = s.util ∧ (bankRequest s p a n w).peers = s.peers ∧ (bankRequest s p a n w).boot = s.boot ∧ (bankRequest s p a n
    w).acc = s.acc ∧ (bankRequest s p a n w).ucie = s.ucie ∧ (bankRequest s p a n w).bl = s.bl ∧ (bankRequest s p a n w).ctl =
    s.ctl ∧ (bankRequest s p a n w).sec = s.sec ∧ (bankRequest s p a n w).phys = s.phys := by
  unfold bankRequest; dsimp only; repeat' split
  all_goals simp

/-- bankStore changes nothing but banks. -/
@[simp] theorem bankStore_frame (s : State) (n a : Nat) (ws : List Word) :
    (bankStore s n a ws).pending = s.pending ∧ (bankStore s n a ws).freeCtr = s.freeCtr ∧ (bankStore s n a ws).ident = s.ident ∧
    (bankStore s n a ws).straps = s.straps ∧ (bankStore s n a ws).regs = s.regs ∧ (bankStore s n a ws).md = s.md ∧ (bankStore s n
    a ws).seq = s.seq ∧ (bankStore s n a ws).slu = s.slu ∧ (bankStore s n a ws).ds = s.ds ∧ (bankStore s n a ws).img = s.img ∧
    (bankStore s n a ws).haz = s.haz ∧ (bankStore s n a ws).cap = s.cap ∧ (bankStore s n a ws).casc = s.casc ∧ (bankStore s n a
    ws).chn = s.chn ∧ (bankStore s n a ws).ckp = s.ckp ∧ (bankStore s n a ws).trx = s.trx ∧ (bankStore s n a ws).io = s.io ∧
    (bankStore s n a ws).err = s.err ∧ (bankStore s n a ws).fab = s.fab ∧ (bankStore s n a ws).time = s.time ∧ (bankStore s n a
    ws).pwr = s.pwr ∧ (bankStore s n a ws).net = s.net ∧ (bankStore s n a ws).trc = s.trc ∧ (bankStore s n a ws).util = s.util ∧
    (bankStore s n a ws).peers = s.peers ∧ (bankStore s n a ws).boot = s.boot ∧ (bankStore s n a ws).acc = s.acc ∧ (bankStore s n
    a ws).ucie = s.ucie ∧ (bankStore s n a ws).bl = s.bl ∧ (bankStore s n a ws).ctl = s.ctl ∧ (bankStore s n a ws).sec = s.sec ∧
    (bankStore s n a ws).phys = s.phys := by
  unfold bankStore; dsimp only; split <;> simp

/-- buildRoutes changes nothing but net. -/
@[simp] theorem buildRoutes_frame (s : State) :
    (buildRoutes s).pending = s.pending ∧ (buildRoutes s).freeCtr = s.freeCtr ∧ (buildRoutes s).ident = s.ident ∧ (buildRoutes
    s).straps = s.straps ∧ (buildRoutes s).regs = s.regs ∧ (buildRoutes s).md = s.md ∧ (buildRoutes s).seq = s.seq ∧ (buildRoutes
    s).slu = s.slu ∧ (buildRoutes s).ds = s.ds ∧ (buildRoutes s).img = s.img ∧ (buildRoutes s).haz = s.haz ∧ (buildRoutes s).cap
    = s.cap ∧ (buildRoutes s).casc = s.casc ∧ (buildRoutes s).chn = s.chn ∧ (buildRoutes s).ckp = s.ckp ∧ (buildRoutes s).trx =
    s.trx ∧ (buildRoutes s).io = s.io ∧ (buildRoutes s).err = s.err ∧ (buildRoutes s).fab = s.fab ∧ (buildRoutes s).time = s.time
    ∧ (buildRoutes s).pwr = s.pwr ∧ (buildRoutes s).trc = s.trc ∧ (buildRoutes s).util = s.util ∧ (buildRoutes s).peers = s.peers
    ∧ (buildRoutes s).boot = s.boot ∧ (buildRoutes s).acc = s.acc ∧ (buildRoutes s).ucie = s.ucie ∧ (buildRoutes s).bl = s.bl ∧
    (buildRoutes s).ctl = s.ctl ∧ (buildRoutes s).sec = s.sec ∧ (buildRoutes s).banks = s.banks ∧ (buildRoutes s).phys = s.phys
    := by
  simp [buildRoutes]

/-- fixHold changes nothing but freeCtr, slu, net. -/
@[simp] theorem fixHold_frame (s : State) (w : Option HoldWork) :
    (fixHold s w).pending = s.pending ∧ (fixHold s w).ident = s.ident ∧ (fixHold s w).straps = s.straps ∧ (fixHold s w).regs =
    s.regs ∧ (fixHold s w).md = s.md ∧ (fixHold s w).seq = s.seq ∧ (fixHold s w).ds = s.ds ∧ (fixHold s w).img = s.img ∧ (fixHold
    s w).haz = s.haz ∧ (fixHold s w).cap = s.cap ∧ (fixHold s w).casc = s.casc ∧ (fixHold s w).chn = s.chn ∧ (fixHold s w).ckp =
    s.ckp ∧ (fixHold s w).trx = s.trx ∧ (fixHold s w).io = s.io ∧ (fixHold s w).err = s.err ∧ (fixHold s w).fab = s.fab ∧
    (fixHold s w).time = s.time ∧ (fixHold s w).pwr = s.pwr ∧ (fixHold s w).trc = s.trc ∧ (fixHold s w).util = s.util ∧ (fixHold
    s w).peers = s.peers ∧ (fixHold s w).boot = s.boot ∧ (fixHold s w).acc = s.acc ∧ (fixHold s w).ucie = s.ucie ∧ (fixHold s
    w).bl = s.bl ∧ (fixHold s w).ctl = s.ctl ∧ (fixHold s w).sec = s.sec ∧ (fixHold s w).banks = s.banks ∧ (fixHold s w).phys =
    s.phys := by
  simp [fixHold]

/-- agreeHold changes nothing but freeCtr, slu, net. -/
@[simp] theorem agreeHold_frame (s : State) (w : HoldWork) :
    (agreeHold s w).pending = s.pending ∧ (agreeHold s w).ident = s.ident ∧ (agreeHold s w).straps = s.straps ∧ (agreeHold s
    w).regs = s.regs ∧ (agreeHold s w).md = s.md ∧ (agreeHold s w).seq = s.seq ∧ (agreeHold s w).ds = s.ds ∧ (agreeHold s w).img
    = s.img ∧ (agreeHold s w).haz = s.haz ∧ (agreeHold s w).cap = s.cap ∧ (agreeHold s w).casc = s.casc ∧ (agreeHold s w).chn =
    s.chn ∧ (agreeHold s w).ckp = s.ckp ∧ (agreeHold s w).trx = s.trx ∧ (agreeHold s w).io = s.io ∧ (agreeHold s w).err = s.err ∧
    (agreeHold s w).fab = s.fab ∧ (agreeHold s w).time = s.time ∧ (agreeHold s w).pwr = s.pwr ∧ (agreeHold s w).trc = s.trc ∧
    (agreeHold s w).util = s.util ∧ (agreeHold s w).peers = s.peers ∧ (agreeHold s w).boot = s.boot ∧ (agreeHold s w).acc = s.acc
    ∧ (agreeHold s w).ucie = s.ucie ∧ (agreeHold s w).bl = s.bl ∧ (agreeHold s w).ctl = s.ctl ∧ (agreeHold s w).sec = s.sec ∧
    (agreeHold s w).banks = s.banks ∧ (agreeHold s w).phys = s.phys := by
  unfold agreeHold; repeat' split
  all_goals simp

/-- joinHold changes nothing but slu. -/
@[simp] theorem joinHold_frame (s : State) (n : Nat) :
    (joinHold s n).pending = s.pending ∧ (joinHold s n).freeCtr = s.freeCtr ∧ (joinHold s n).ident = s.ident ∧ (joinHold s
    n).straps = s.straps ∧ (joinHold s n).regs = s.regs ∧ (joinHold s n).md = s.md ∧ (joinHold s n).seq = s.seq ∧ (joinHold s
    n).ds = s.ds ∧ (joinHold s n).img = s.img ∧ (joinHold s n).haz = s.haz ∧ (joinHold s n).cap = s.cap ∧ (joinHold s n).casc =
    s.casc ∧ (joinHold s n).chn = s.chn ∧ (joinHold s n).ckp = s.ckp ∧ (joinHold s n).trx = s.trx ∧ (joinHold s n).io = s.io ∧
    (joinHold s n).err = s.err ∧ (joinHold s n).fab = s.fab ∧ (joinHold s n).time = s.time ∧ (joinHold s n).pwr = s.pwr ∧
    (joinHold s n).net = s.net ∧ (joinHold s n).trc = s.trc ∧ (joinHold s n).util = s.util ∧ (joinHold s n).peers = s.peers ∧
    (joinHold s n).boot = s.boot ∧ (joinHold s n).acc = s.acc ∧ (joinHold s n).ucie = s.ucie ∧ (joinHold s n).bl = s.bl ∧
    (joinHold s n).ctl = s.ctl ∧ (joinHold s n).sec = s.sec ∧ (joinHold s n).banks = s.banks ∧ (joinHold s n).phys = s.phys := by
  unfold joinHold; split <;> simp

/-! ### Records below FATAL -/

/-- A record of a class other than FATAL leaves the mode, the time, the sluice and the board links alone: only class 5 enters SAFE HOLD. -/
theorem makeRecord_below_fatal (s : State) (r : ErrRec) (b : Bool) (h : r.cls ≠ 5) :
    (makeRecord s r b).md = s.md ∧ (makeRecord s r b).time = s.time ∧ (makeRecord s r b).slu = s.slu ∧ (makeRecord s r b).bl = s.bl := by
  have h5 : (r.cls == 5) = false := by simp [h]
  unfold makeRecord
  simp only [h5, Bool.false_eq_true, if_false]
  simp

/-- A fault of a class other than FATAL. -/
theorem fault_below_fatal (s : State) (f : FaultInfo) (h : f.cls ≠ 5) :
    (fault s f).md = s.md ∧ (fault s f).time = s.time ∧ (fault s f).slu = s.slu ∧ (fault s f).bl = s.bl := by
  simpa [fault] using makeRecord_below_fatal (noteOverlap s) (recordOf s f) f.noReplace h

/-- The end of waiting records to none of which it gives class FATAL. -/
theorem endFault_below_fatal (s : State) (p : ErrRec → Bool) (f : ErrRec → ErrRec) (h : ∀ r ∈ s.err.pending, p r = true → (f r).cls ≠ 5) :
    (endFault s p f).md = s.md ∧ (endFault s p f).time = s.time ∧ (endFault s p f).slu = s.slu ∧ (endFault s p f).bl = s.bl := by
  have h' : ∀ r ∈ s.err.pending.filter p, (f r).cls ≠ 5 := fun r hr => h r (List.mem_filter.mp hr).1 (List.mem_filter.mp hr).2
  unfold endFault
  generalize s.err.pending.filter p = rs at h'
  generalize hu : ({ s with err := { s.err with pending := s.err.pending.filter (fun r => !p r) } } : State) = u
  have e : u.md = s.md ∧ u.time = s.time ∧ u.slu = s.slu ∧ u.bl = s.bl := by subst hu; exact ⟨rfl, rfl, rfl, rfl⟩
  clear hu h
  dsimp only
  induction rs generalizing u with
  | nil => exact e
  | cons r rs ih =>
    have hr := makeRecord_below_fatal u (f r) false (h' r List.mem_cons_self)
    exact ih (fun x hx => h' x (List.mem_cons_of_mem _ hx)) _ ⟨hr.1.trans e.1, hr.2.1.trans e.2.1, hr.2.2.1.trans e.2.2.1, hr.2.2.2.trans e.2.2.2⟩

/-! ### Transmitters of the board links -/

/-- setOutstanding changes nothing but net. -/
@[simp] theorem setOutstanding_frame (s : State) (u v n : Nat) :
    (setOutstanding s u v n).pending = s.pending ∧ (setOutstanding s u v n).freeCtr = s.freeCtr ∧ (setOutstanding s u v n).ident
    = s.ident ∧ (setOutstanding s u v n).straps = s.straps ∧ (setOutstanding s u v n).regs = s.regs ∧ (setOutstanding s u v n).md
    = s.md ∧ (setOutstanding s u v n).seq = s.seq ∧ (setOutstanding s u v n).slu = s.slu ∧ (setOutstanding s u v n).ds = s.ds ∧
    (setOutstanding s u v n).img = s.img ∧ (setOutstanding s u v n).haz = s.haz ∧ (setOutstanding s u v n).cap = s.cap ∧
    (setOutstanding s u v n).casc = s.casc ∧ (setOutstanding s u v n).chn = s.chn ∧ (setOutstanding s u v n).ckp = s.ckp ∧
    (setOutstanding s u v n).trx = s.trx ∧ (setOutstanding s u v n).io = s.io ∧ (setOutstanding s u v n).err = s.err ∧
    (setOutstanding s u v n).fab = s.fab ∧ (setOutstanding s u v n).time = s.time ∧ (setOutstanding s u v n).pwr = s.pwr ∧
    (setOutstanding s u v n).trc = s.trc ∧ (setOutstanding s u v n).util = s.util ∧ (setOutstanding s u v n).peers = s.peers ∧
    (setOutstanding s u v n).boot = s.boot ∧ (setOutstanding s u v n).acc = s.acc ∧ (setOutstanding s u v n).ucie = s.ucie ∧
    (setOutstanding s u v n).bl = s.bl ∧ (setOutstanding s u v n).ctl = s.ctl ∧ (setOutstanding s u v n).sec = s.sec ∧
    (setOutstanding s u v n).banks = s.banks ∧ (setOutstanding s u v n).phys = s.phys := by
  simp [setOutstanding]

/-- queueOutPacket changes nothing but net. -/
@[simp] theorem queueOutPacket_frame (s : State) (p : OutPacket) :
    (queueOutPacket s p).pending = s.pending ∧ (queueOutPacket s p).freeCtr = s.freeCtr ∧ (queueOutPacket s p).ident = s.ident ∧
    (queueOutPacket s p).straps = s.straps ∧ (queueOutPacket s p).regs = s.regs ∧ (queueOutPacket s p).md = s.md ∧
    (queueOutPacket s p).seq = s.seq ∧ (queueOutPacket s p).slu = s.slu ∧ (queueOutPacket s p).ds = s.ds ∧ (queueOutPacket s
    p).img = s.img ∧ (queueOutPacket s p).haz = s.haz ∧ (queueOutPacket s p).cap = s.cap ∧ (queueOutPacket s p).casc = s.casc ∧
    (queueOutPacket s p).chn = s.chn ∧ (queueOutPacket s p).ckp = s.ckp ∧ (queueOutPacket s p).trx = s.trx ∧ (queueOutPacket s
    p).io = s.io ∧ (queueOutPacket s p).err = s.err ∧ (queueOutPacket s p).fab = s.fab ∧ (queueOutPacket s p).time = s.time ∧
    (queueOutPacket s p).pwr = s.pwr ∧ (queueOutPacket s p).trc = s.trc ∧ (queueOutPacket s p).util = s.util ∧ (queueOutPacket s
    p).peers = s.peers ∧ (queueOutPacket s p).boot = s.boot ∧ (queueOutPacket s p).acc = s.acc ∧ (queueOutPacket s p).ucie =
    s.ucie ∧ (queueOutPacket s p).bl = s.bl ∧ (queueOutPacket s p).ctl = s.ctl ∧ (queueOutPacket s p).sec = s.sec ∧
    (queueOutPacket s p).banks = s.banks ∧ (queueOutPacket s p).phys = s.phys := by
  simp [queueOutPacket]

/-- spendWay changes nothing but net. -/
@[simp] theorem spendWay_frame (s : State) (w : List (Nat × Nat)) (n : Nat) :
    (spendWay s w n).pending = s.pending ∧ (spendWay s w n).freeCtr = s.freeCtr ∧ (spendWay s w n).ident = s.ident ∧ (spendWay s
    w n).straps = s.straps ∧ (spendWay s w n).regs = s.regs ∧ (spendWay s w n).md = s.md ∧ (spendWay s w n).seq = s.seq ∧
    (spendWay s w n).slu = s.slu ∧ (spendWay s w n).ds = s.ds ∧ (spendWay s w n).img = s.img ∧ (spendWay s w n).haz = s.haz ∧
    (spendWay s w n).cap = s.cap ∧ (spendWay s w n).casc = s.casc ∧ (spendWay s w n).chn = s.chn ∧ (spendWay s w n).ckp = s.ckp ∧
    (spendWay s w n).trx = s.trx ∧ (spendWay s w n).io = s.io ∧ (spendWay s w n).err = s.err ∧ (spendWay s w n).fab = s.fab ∧
    (spendWay s w n).time = s.time ∧ (spendWay s w n).pwr = s.pwr ∧ (spendWay s w n).trc = s.trc ∧ (spendWay s w n).util = s.util
    ∧ (spendWay s w n).peers = s.peers ∧ (spendWay s w n).boot = s.boot ∧ (spendWay s w n).acc = s.acc ∧ (spendWay s w n).ucie =
    s.ucie ∧ (spendWay s w n).bl = s.bl ∧ (spendWay s w n).ctl = s.ctl ∧ (spendWay s w n).sec = s.sec ∧ (spendWay s w n).banks =
    s.banks ∧ (spendWay s w n).phys = s.phys := by
  unfold spendWay
  refine ⟨?_, ?_, ?_, ?_, ?_, ?_, ?_, ?_, ?_, ?_, ?_, ?_, ?_, ?_, ?_, ?_, ?_, ?_, ?_, ?_, ?_, ?_, ?_, ?_, ?_, ?_, ?_, ?_, ?_, ?_, ?_, ?_⟩
  all_goals (apply foldl_keeps; intro _ _; simp)

/-- setTx changes nothing but bl. -/
@[simp] theorem setTx_frame (s : State) (d : Nat) (f : LinkTx → LinkTx) :
    (setTx s d f).pending = s.pending ∧ (setTx s d f).freeCtr = s.freeCtr ∧ (setTx s d f).ident = s.ident ∧ (setTx s d f).straps
    = s.straps ∧ (setTx s d f).regs = s.regs ∧ (setTx s d f).md = s.md ∧ (setTx s d f).seq = s.seq ∧ (setTx s d f).slu = s.slu ∧
    (setTx s d f).ds = s.ds ∧ (setTx s d f).img = s.img ∧ (setTx s d f).haz = s.haz ∧ (setTx s d f).cap = s.cap ∧ (setTx s d
    f).casc = s.casc ∧ (setTx s d f).chn = s.chn ∧ (setTx s d f).ckp = s.ckp ∧ (setTx s d f).trx = s.trx ∧ (setTx s d f).io =
    s.io ∧ (setTx s d f).err = s.err ∧ (setTx s d f).fab = s.fab ∧ (setTx s d f).time = s.time ∧ (setTx s d f).pwr = s.pwr ∧
    (setTx s d f).net = s.net ∧ (setTx s d f).trc = s.trc ∧ (setTx s d f).util = s.util ∧ (setTx s d f).peers = s.peers ∧ (setTx
    s d f).boot = s.boot ∧ (setTx s d f).acc = s.acc ∧ (setTx s d f).ucie = s.ucie ∧ (setTx s d f).ctl = s.ctl ∧ (setTx s d
    f).sec = s.sec ∧ (setTx s d f).banks = s.banks ∧ (setTx s d f).phys = s.phys := by
  simp [setTx]

/-- sendFlit changes nothing but net, bl. -/
@[simp] theorem sendFlit_frame (s : State) (d : Nat) (b : BoardLink) (S : Nat) (f : SentFlit) :
    (sendFlit s d b S f).pending = s.pending ∧ (sendFlit s d b S f).freeCtr = s.freeCtr ∧ (sendFlit s d b S f).ident = s.ident ∧
    (sendFlit s d b S f).straps = s.straps ∧ (sendFlit s d b S f).regs = s.regs ∧ (sendFlit s d b S f).md = s.md ∧ (sendFlit s d
    b S f).seq = s.seq ∧ (sendFlit s d b S f).slu = s.slu ∧ (sendFlit s d b S f).ds = s.ds ∧ (sendFlit s d b S f).img = s.img ∧
    (sendFlit s d b S f).haz = s.haz ∧ (sendFlit s d b S f).cap = s.cap ∧ (sendFlit s d b S f).casc = s.casc ∧ (sendFlit s d b S
    f).chn = s.chn ∧ (sendFlit s d b S f).ckp = s.ckp ∧ (sendFlit s d b S f).trx = s.trx ∧ (sendFlit s d b S f).io = s.io ∧
    (sendFlit s d b S f).err = s.err ∧ (sendFlit s d b S f).fab = s.fab ∧ (sendFlit s d b S f).time = s.time ∧ (sendFlit s d b S
    f).pwr = s.pwr ∧ (sendFlit s d b S f).trc = s.trc ∧ (sendFlit s d b S f).util = s.util ∧ (sendFlit s d b S f).peers = s.peers
    ∧ (sendFlit s d b S f).boot = s.boot ∧ (sendFlit s d b S f).acc = s.acc ∧ (sendFlit s d b S f).ucie = s.ucie ∧ (sendFlit s d
    b S f).ctl = s.ctl ∧ (sendFlit s d b S f).sec = s.sec ∧ (sendFlit s d b S f).banks = s.banks ∧ (sendFlit s d b S f).phys =
    s.phys := by
  unfold sendFlit; dsimp only; split <;> simp

/-- spendCredits changes nothing but net. -/
@[simp] theorem spendCredits_frame (s : State) (u : Nat) (v : List Nat) :
    (spendCredits s u v).pending = s.pending ∧ (spendCredits s u v).freeCtr = s.freeCtr ∧ (spendCredits s u v).ident = s.ident ∧
    (spendCredits s u v).straps = s.straps ∧ (spendCredits s u v).regs = s.regs ∧ (spendCredits s u v).md = s.md ∧ (spendCredits
    s u v).seq = s.seq ∧ (spendCredits s u v).slu = s.slu ∧ (spendCredits s u v).ds = s.ds ∧ (spendCredits s u v).img = s.img ∧
    (spendCredits s u v).haz = s.haz ∧ (spendCredits s u v).cap = s.cap ∧ (spendCredits s u v).casc = s.casc ∧ (spendCredits s u
    v).chn = s.chn ∧ (spendCredits s u v).ckp = s.ckp ∧ (spendCredits s u v).trx = s.trx ∧ (spendCredits s u v).io = s.io ∧
    (spendCredits s u v).err = s.err ∧ (spendCredits s u v).fab = s.fab ∧ (spendCredits s u v).time = s.time ∧ (spendCredits s u
    v).pwr = s.pwr ∧ (spendCredits s u v).trc = s.trc ∧ (spendCredits s u v).util = s.util ∧ (spendCredits s u v).peers = s.peers
    ∧ (spendCredits s u v).boot = s.boot ∧ (spendCredits s u v).acc = s.acc ∧ (spendCredits s u v).ucie = s.ucie ∧ (spendCredits
    s u v).bl = s.bl ∧ (spendCredits s u v).ctl = s.ctl ∧ (spendCredits s u v).sec = s.sec ∧ (spendCredits s u v).banks = s.banks
    ∧ (spendCredits s u v).phys = s.phys := by
  unfold spendCredits
  refine ⟨?_, ?_, ?_, ?_, ?_, ?_, ?_, ?_, ?_, ?_, ?_, ?_, ?_, ?_, ?_, ?_, ?_, ?_, ?_, ?_, ?_, ?_, ?_, ?_, ?_, ?_, ?_, ?_, ?_, ?_, ?_, ?_⟩
  all_goals (apply foldl_keeps; intro _ _; simp)

/-- flitSlot changes nothing but net, bl. -/
@[simp] theorem flitSlot_frame (s : State) (d : Nat) :
    (flitSlot s d).pending = s.pending ∧ (flitSlot s d).freeCtr = s.freeCtr ∧ (flitSlot s d).ident = s.ident ∧ (flitSlot s
    d).straps = s.straps ∧ (flitSlot s d).regs = s.regs ∧ (flitSlot s d).md = s.md ∧ (flitSlot s d).seq = s.seq ∧ (flitSlot s
    d).slu = s.slu ∧ (flitSlot s d).ds = s.ds ∧ (flitSlot s d).img = s.img ∧ (flitSlot s d).haz = s.haz ∧ (flitSlot s d).cap =
    s.cap ∧ (flitSlot s d).casc = s.casc ∧ (flitSlot s d).chn = s.chn ∧ (flitSlot s d).ckp = s.ckp ∧ (flitSlot s d).trx = s.trx ∧
    (flitSlot s d).io = s.io ∧ (flitSlot s d).err = s.err ∧ (flitSlot s d).fab = s.fab ∧ (flitSlot s d).time = s.time ∧ (flitSlot
    s d).pwr = s.pwr ∧ (flitSlot s d).trc = s.trc ∧ (flitSlot s d).util = s.util ∧ (flitSlot s d).peers = s.peers ∧ (flitSlot s
    d).boot = s.boot ∧ (flitSlot s d).acc = s.acc ∧ (flitSlot s d).ucie = s.ucie ∧ (flitSlot s d).ctl = s.ctl ∧ (flitSlot s
    d).sec = s.sec ∧ (flitSlot s d).banks = s.banks ∧ (flitSlot s d).phys = s.phys := by
  unfold flitSlot; split
  · simp
  · dsimp only
    repeat' split
    all_goals simp

/-- linkSpan changes nothing but net, bl. -/
@[simp] theorem linkSpan_frame (s : State) (u d : Nat) :
    (linkSpan s u d).pending = s.pending ∧ (linkSpan s u d).freeCtr = s.freeCtr ∧ (linkSpan s u d).ident = s.ident ∧ (linkSpan s
    u d).straps = s.straps ∧ (linkSpan s u d).regs = s.regs ∧ (linkSpan s u d).md = s.md ∧ (linkSpan s u d).seq = s.seq ∧
    (linkSpan s u d).slu = s.slu ∧ (linkSpan s u d).ds = s.ds ∧ (linkSpan s u d).img = s.img ∧ (linkSpan s u d).haz = s.haz ∧
    (linkSpan s u d).cap = s.cap ∧ (linkSpan s u d).casc = s.casc ∧ (linkSpan s u d).chn = s.chn ∧ (linkSpan s u d).ckp = s.ckp ∧
    (linkSpan s u d).trx = s.trx ∧ (linkSpan s u d).io = s.io ∧ (linkSpan s u d).err = s.err ∧ (linkSpan s u d).fab = s.fab ∧
    (linkSpan s u d).time = s.time ∧ (linkSpan s u d).pwr = s.pwr ∧ (linkSpan s u d).trc = s.trc ∧ (linkSpan s u d).util = s.util
    ∧ (linkSpan s u d).peers = s.peers ∧ (linkSpan s u d).boot = s.boot ∧ (linkSpan s u d).acc = s.acc ∧ (linkSpan s u d).ucie =
    s.ucie ∧ (linkSpan s u d).ctl = s.ctl ∧ (linkSpan s u d).sec = s.sec ∧ (linkSpan s u d).banks = s.banks ∧ (linkSpan s u
    d).phys = s.phys := by
  unfold linkSpan; split
  · simp
  · dsimp only
    split
    · simp
    · refine ⟨?_, ?_, ?_, ?_, ?_, ?_, ?_, ?_, ?_, ?_, ?_, ?_, ?_, ?_, ?_, ?_, ?_, ?_, ?_, ?_, ?_, ?_, ?_, ?_, ?_, ?_, ?_, ?_, ?_, ?_, ?_⟩
      all_goals (refine (foldl_keeps _ _ (fun _ _ => by split <;> simp [loopSlot]) _ _).trans ?_; simp)

/-- loadOut changes nothing but net, bl, regs. -/
@[simp] theorem loadOut_frame (s : State) :
    (loadOut s).pending = s.pending ∧ (loadOut s).freeCtr = s.freeCtr ∧ (loadOut s).ident = s.ident ∧ (loadOut s).straps =
    s.straps ∧ (loadOut s).md = s.md ∧ (loadOut s).seq = s.seq ∧ (loadOut s).slu = s.slu ∧ (loadOut s).ds = s.ds ∧ (loadOut
    s).img = s.img ∧ (loadOut s).haz = s.haz ∧ (loadOut s).cap = s.cap ∧ (loadOut s).casc = s.casc ∧ (loadOut s).chn = s.chn ∧
    (loadOut s).ckp = s.ckp ∧ (loadOut s).trx = s.trx ∧ (loadOut s).io = s.io ∧ (loadOut s).err = s.err ∧ (loadOut s).fab = s.fab
    ∧ (loadOut s).time = s.time ∧ (loadOut s).pwr = s.pwr ∧ (loadOut s).trc = s.trc ∧ (loadOut s).util = s.util ∧ (loadOut
    s).peers = s.peers ∧ (loadOut s).boot = s.boot ∧ (loadOut s).acc = s.acc ∧ (loadOut s).ucie = s.ucie ∧ (loadOut s).ctl =
    s.ctl ∧ (loadOut s).sec = s.sec ∧ (loadOut s).banks = s.banks ∧ (loadOut s).phys = s.phys := by
  unfold loadOut; dsimp only
  refine ⟨?_, ?_, ?_, ?_, ?_, ?_, ?_, ?_, ?_, ?_, ?_, ?_, ?_, ?_, ?_, ?_, ?_, ?_, ?_, ?_, ?_, ?_, ?_, ?_, ?_, ?_, ?_, ?_, ?_, ?_⟩
  all_goals (apply foldl_keeps; intro _ _; repeat' split)
  all_goals simp

/-- linksSpan changes nothing but net, bl, regs. -/
@[simp] theorem linksSpan_frame (s : State) (u : Nat) :
    (linksSpan s u).pending = s.pending ∧ (linksSpan s u).freeCtr = s.freeCtr ∧ (linksSpan s u).ident = s.ident ∧ (linksSpan s
    u).straps = s.straps ∧ (linksSpan s u).md = s.md ∧ (linksSpan s u).seq = s.seq ∧ (linksSpan s u).slu = s.slu ∧ (linksSpan s
    u).ds = s.ds ∧ (linksSpan s u).img = s.img ∧ (linksSpan s u).haz = s.haz ∧ (linksSpan s u).cap = s.cap ∧ (linksSpan s u).casc
    = s.casc ∧ (linksSpan s u).chn = s.chn ∧ (linksSpan s u).ckp = s.ckp ∧ (linksSpan s u).trx = s.trx ∧ (linksSpan s u).io =
    s.io ∧ (linksSpan s u).err = s.err ∧ (linksSpan s u).fab = s.fab ∧ (linksSpan s u).time = s.time ∧ (linksSpan s u).pwr =
    s.pwr ∧ (linksSpan s u).trc = s.trc ∧ (linksSpan s u).util = s.util ∧ (linksSpan s u).peers = s.peers ∧ (linksSpan s u).boot
    = s.boot ∧ (linksSpan s u).acc = s.acc ∧ (linksSpan s u).ucie = s.ucie ∧ (linksSpan s u).ctl = s.ctl ∧ (linksSpan s u).sec =
    s.sec ∧ (linksSpan s u).banks = s.banks ∧ (linksSpan s u).phys = s.phys := by
  unfold linksSpan
  refine ⟨?_, ?_, ?_, ?_, ?_, ?_, ?_, ?_, ?_, ?_, ?_, ?_, ?_, ?_, ?_, ?_, ?_, ?_, ?_, ?_, ?_, ?_, ?_, ?_, ?_, ?_, ?_, ?_, ?_, ?_⟩
  all_goals (refine (foldl_keeps _ _ (fun _ _ => by simp) _ _).trans ?_; split <;> simp)

end Sys2Proof.Machine
end

