-- ==== Sys2Proof/Laws/Repairs.lean ====
section
/-! SUPPORT. Laws/Repairs.lean: what a single fault of a unit does where slots run: its repair stands in the line, bounded by 20 µs (R531,
R532). -/
namespace Sys2Proof.Machine

theorem cdiv_le {a b n : Nat} (h : a ≤ b * n) (hb : 0 < b) : cdiv a b ≤ n := by
  unfold cdiv
  have : (a + b - 1) / b < n + 1 := Nat.div_lt_of_lt_mul (by rw [Nat.mul_add]; omega)
  omega

/-- A repair of at most the slots of the bound ends within 20 µs of its request. -/
theorem usTicks_bound {s : State} {n : Nat} (h : n ≤ boundSlots s) : usTicks s (32 * (n + 8)) ≤ 20 := by
  unfold usTicks
  unfold boundSlots at h
  by_cases hg : gradeEff s = 2
  · simp only [hg, beq_self_eq_true, if_true] at h ⊢; exact cdiv_le (by omega) (by decide)
  · have hg' : (gradeEff s == 2) = false := by simp [hg]
    simp only [hg', Bool.false_eq_true, if_false] at h ⊢; exact cdiv_le (by omega) (by decide)

/-- The slots of a repair are at least 64 and at most those of the bound. -/
theorem repairSlots_range (s : State) : 64 ≤ repairSlots s ∧ repairSlots s ≤ boundSlots s := by
  have hb : 792 ≤ boundSlots s := by unfold boundSlots; split <;> omega
  have := Nat.mod_lt (Config.freeNat s.freeCtr) (show 0 < boundSlots s - 63 by omega)
  unfold repairSlots
  omega

/-- A repair of a code stands in the line of t, which is no shorter than that of s, and ends within the bound. -/
theorem asksRepair_of {s t : State} {r : Repair} (hr : r ∈ t.err.repairs) (hl : s.err.repairs.length ≤ t.err.repairs.length)
    (hn : ∀ n, r.left = some n → 1 ≤ n ∧ n ≤ boundSlots s) : asksRepair s t r.code := by
  intro _ _
  refine ⟨?_, hl, r, hr, rfl, fun n h => ⟨(hn n h).1, usTicks_bound (hn n h).2⟩⟩
  have : t.err.repairs.any (fun x => x.code == r.code) = true := List.any_eq_true.mpr ⟨r, hr, by simp⟩
  simp [srcHeld, this]

theorem startRepair_repairs (s : State) (r : Repair) : ∃ rs, (startRepair s r).err.repairs = rs ++ [r] ∧ rs.length = s.err.repairs.length :=
  ⟨_, rfl, by simp [noteOverlap, countReq, bumpIo, bump, setReg]⟩

/-- The repair that a single fault of a unit starts. -/
def unitRepair (s : State) (code unit : Nat) (f : FaultInfo) : Repair :=
  { code := code, unit := unit, left := some (repairSlots s), driven := 0, word := none, recs := [recordOf s { f with source := code }] }

/-- A single fault of a unit goes into handling under its code. -/
theorem unitFault_asks (s : State) (code unit : Nat) (f : FaultInfo) : asksRepair s (unitFault s code unit f) code := by
  by_cases h : (!slotsRun s || inSafeHold s) = true
  · intro h1 h2
    simp [h1, inSafeHold, h2] at h
  · unfold unitFault
    rw [if_neg h]
    obtain ⟨rs, he, hl⟩ := startRepair_repairs (tickFree s) (unitRepair s code unit f)
    have hc : (unitRepair s code unit f).code = code := rfl
    rw [← hc]
    refine asksRepair_of (r := unitRepair s code unit f) (t := startRepair (tickFree s) (unitRepair s code unit f)) (by rw [he]; simp) (by rw [he]; simp [hl, tickFree]) ?_
    intro n hn
    cases hn
    exact ⟨by have := (repairSlots_range s).1; omega, (repairSlots_range s).2⟩

/-- A single fault that joins a repair of its unit, or starts one. -/
theorem joinRepair_asks (s : State) (code unit : Nat) (f : FaultInfo) : asksRepair s (joinRepair s code unit f) code := by
  unfold joinRepair
  split
  · next h =>
    obtain ⟨r, hr, hp⟩ := List.any_eq_true.mp (Bool.and_eq_true_iff.mp h).1
    simp only [Bool.and_eq_true, beq_iff_eq] at hp
    have hm : ({ r with recs := r.recs.map (fun e => { e with flags := e.flags ||| 1 }) } : Repair) ∈ (noteOverlap (tickFree s)).err.repairs := by
      simp only [noteOverlap, tickFree]
      exact List.mem_map_of_mem hr
    have hc : r.code = code := hp.1
    rw [← hc] at hp ⊢
    refine asksRepair_of (r := { r with
        left := some (repairSlots s), recs := r.recs.map (fun e => { e with flags := e.flags ||| 1 }) ++ [recordOf s { f with source := r.code }] }) ?_ ?_ ?_
    · exact List.mem_map.mpr ⟨_, hm, by simp [hp]⟩
    · simp [noteOverlap, tickFree]
    · intro n hn
      cases hn
      exact ⟨by have := (repairSlots_range s).1; omega, (repairSlots_range s).2⟩
  · exact unitFault_asks s code unit f

end Sys2Proof.Machine
end

