-- ==== Sys2Proof/Tests/Slice0.lean ====
section
/-! SUPPORT. Tests/Slice0.lean: the well-formedness smoke, the decoding of words written out from the table of R277, small checks of single
steps, and for every statement that has hypotheses a witness that meets them clause by clause. -/
namespace Sys2Proof.Tests
open Sys2Proof Sys2Proof.Machine

set_option Elab.async false

/-! ### Small states -/

/-- A device of cold reset in a mode, with the rings on and one command entry to take. -/
def up (m : Mode) : State := { State.reset with
  md := { State.reset.md with mode := m }, regs := [(bkey 0x1000, 1), (bkey 0x101C, 1)], io := { State.resetIo with version := some 0x10000 }
  boot := { State.reset.boot with ready := true } }

/-- A command packet of the ring with parameter words, its target and host data. -/
def cmd (ps : List Word) (target : Word := 0) (data : HostData := .nothing) : Cmd :=
  { path := .pcie, flags := 0, nParams := ps.length, rsvd := 0, tag := 1, target := target, seq := 0, params := ps, data := data }

/-- The smallest image header: depth 512, one device, one granule of nothing. -/
def hdr0 : ImageHeader := {
  magic := 0, fmtMajor := 1, fmtMinor := 0, hdrBytes := 0, flags := 0, imageBytes := 4096, setId := 7, depth := 512, devicePos := 0, devices := 1
  actQuota := 1, secTable := 0, sigDigest := 0, bodyDigest := 0, stepShare := [], vn2 := [], reserved := none }

/-- The header of an empty section. -/
def head0 : SectionHead := { count := 0, reserved := false }

/-- An image without sections. -/
def img0 : Image := {
  hdr := hdr0, table := [], measured := 0, gap := none, sig := [], ep := [], grp := [], clu := [], cluPad := [], badCheck := [], inPort := [], egress := []
  desc := [], bmap := [], bmapHead := head0, rows := [(5, 3)], tiles := [], regions := [⟨0, 1, 4096⟩], regionInit := [], probes := [], capture := none, churn := []
  portCells := [], cellHead := head0, channels := [], chanHead := head0, marks := [], fresh := [], customer := none }

/-- The same device with that image. -/
def loaded (m : Mode) : State := { up m with img := { State.resetImg with resident := some img0, ddrGb := 128, area := 1000, free := 1000 } }


/-- That device in RUN, stepping with the epoch, at a tick. -/
def runAt (t : Tick) : State :=
  let s := loaded .run
  { s with seq := { s.seq with epoch := true, tick := t }, slu := { s.slu with bootLow := false } }

/-- The same, HALTED. -/
def haltedRun : State := let s := runAt .idle; { s with md := { s.md with sub := .halted } }

/-- The state with its start-up state changed. -/
def bootAs (s : State) (f : BootState → BootState) : State := { s with boot := f s.boot }

/-- Modules trained and links unconnected, as start-up leaves them. -/
def trained : State := { State.reset with
  ucie := State.reset.ucie.map (fun e => (e.1, { e.2 with st := 3, proto := 1 })), bl := State.reset.bl.map (fun e => (e.1, { e.2 with st := 1, cause := 1 })) }

/-- A base personality that passes its checks. -/
def base0 : BasePersonality := {
  bytes := 4096, magic := 0x53424541, fmtMajor := 1, totalBytes := 4096, partMask := 3, fwVersion := 5, reservedOk := true, sigOk := true
  digestOk := true, bodyDigest := 7, fwDigest := 9, frames := [], baseLock := 0, prKey := 0, utilMap := [], ioCells := [], owners := [] }

/-- BASE_LOAD as it waits. -/
def baseCmd : Cmd := cmd [0, 0, 0, 4096, 0] 0 (.base base0)

/-! ### Witnesses: the queue, start-up and resets -/

theorem witness_StepTakesTheFrontOrIdles :
    { up .standby with pending := [.timeGet (cmd [])] }.pending = .timeGet (cmd []) :: []
    ∧ (up .run).pending = [] ∧ stepping (up .run) = true ∧ (up .standby).pending = [] ∧ stepping (up .standby) = false := by decide +kernel

theorem witness_StartUpLinesAndCfgDone :
    (State.reset.straps.boot = false ∧ State.reset.boot.ready = false ∧ ({ path := .pcie, flags := 0, nParams := 0, rsvd := 0, tag := 0, target := 0, seq := 0, params := [], data := .nothing } : Cmd).path = .pcie)
    ∧ ({ up .standby with straps := { (up .standby).straps with boot := true } } : State).straps.boot = true
    ∧ (bootAs State.reset (fun b => { b with released := true, phase := 4 })).boot.released = true
    ∧ (bootAs State.reset (fun b => { b with phase := 5, pulsed := true })).boot.pulsed = true
    ∧ (let b : BoardLink := { State.resetLink with st := 3, version := 3 }; let s := { State.reset with bl := put State.reset.bl 2 b };
      linkOf s 2 = some b ∧ 2 ∈ diesOf s ∧ linkUp b = true ∧ b.version = 3 ∧ s.seq.epoch = false)
    ∧ (linkOf State.reset 2 = some State.resetLink ∧ linkUp State.resetLink = false)
    ∧ (let s := bootAs trained (fun b => { b with phase := 3, accepted := true, remap := true, ddr := true });
      s.boot.phase = 3 ∧ s.boot.accepted = true ∧ s.boot.remap = true ∧ s.boot.ddr = true ∧ modulesTrained s = true ∧ linksSettled s = true
        ∧ admissionEnded s = true)
    ∧ modulesTrained State.reset = false := by decide +kernel

theorem witness_StartUpEndsOrFails :
    (let s := { bootAs State.reset (fun b => { b with phase := 5 }) with seq := { State.reset.seq with epoch := true } };
      s.boot.phase = 5 ∧ s.seq.epoch = true)
    ∧ (State.reset.boot.phase ≤ 1 ∧ 100 ≤ (100 : Word).toNat % 2 ^ 16 ∧ (60000 : Word).toNat % 2 ^ 16 ≤ 60000 ∧ bootElapsed State.reset < 100)
    ∧ ((99 : Word).toNat % 2 ^ 16 < 100 ∧ 60000 < (60001 : Word).toNat % 2 ^ 16)
    ∧ deadlineRuns (bootAs State.reset (fun b => { b with ready := true, phase := 1 })) = true
    ∧ (let s := bootAs State.reset (fun b => { b with ready := true, phase := 1, cycles := 40000000 });
      deadlineRuns s = true ∧ s.boot.phase ≤ 1 ∧ (100 : Word).toNat % 2 ^ 16 ≤ bootElapsed s) := by decide +kernel

theorem witness_ResetsKeepAndClear :
    (let s := bootAs State.reset (fun b => { b with released := true, line := true }); s.boot.released = true ∧ s.boot.line = true)
    ∧ (bootAs State.reset (fun b => { b with resetDue := true })).boot.resetDue = true
    ∧ (State.reset.straps.boot = false ∧ State.reset.md.mode = .boot)
    ∧ ((up .loaded).straps.boot = false ∧ (up .loaded).md.mode ≠ .boot ∧ (up .loaded).md.safeHold = none)
    ∧ (endpointKey (rkey 15 0x15 0) = false) := by decide +kernel

theorem witness_StartUpChecksAndBaseLoad :
    (State.reset.md.mode = .boot ∧ State.reset.boot.phase ≠ 7 ∧ State.reset.boot.remap = false
      ∧ (diesOf State.reset).any (dieBeyond (failedMap (State.reset.ident.badGroups ++ State.reset.ident.worn ++ [(0, 0)]))) = false)
    ∧ (let found := (List.range 64).flatMap (fun g => [(g, 0), (g, 1)]);
      (diesOf State.reset).any (dieBeyond (failedMap (State.reset.ident.badGroups ++ State.reset.ident.worn ++ found))) = true)
    ∧ (State.reset.boot.ddr = false ∧ 255 % 256 = 255 ∧ 254 % 256 ≠ 255 ∧ State.reset.img.golden = 0 ∧ State.reset.img.cowGb = 0 ∧ State.reset.img.spillGb = 0
      ∧ State.reset.img.logMb = 0)
    ∧ (accepts (up .boot) 0x0C00 noCheck baseCmd = true ∧ baseCmd.data = .base base0 ∧ (up .boot).boot.phase ≠ 7 ∧ (up .boot).boot.base = none
      ∧ (up .boot).io.waiting.length < 64)
    ∧ (let s := { bootAs State.reset (fun b => { b with phase := 2, base := some base0 }) with
          io := { State.resetIo with waiting := [waitingOf 0x0C00 baseCmd] } };
      s.md.safeHold = none ∧ s.boot.phase = 2 ∧ s.boot.base = some base0 ∧ firstWaiting s (fun w => w.opcode == 0x0C00) = some (waitingOf 0x0C00 baseCmd)
        ∧ packageCheck (privGap { s with boot := { s.boot with received := true, phase := 3 } }) base0 (cPar64 baseCmd 3) = 0 ∧ framesOk base0 = true)
    ∧ (let s := { bootAs State.reset (fun b => { b with phase := 2, base := some noPersonality }) with
          io := { State.resetIo with waiting := [waitingOf 0x0C00 (cmd [])] } };
      s.boot.base = some noPersonality ∧ s.boot.phase = 2 ∧ s.md.safeHold = none ∧ (firstWaiting s (fun w => w.opcode == 0x0C00)).isSome = true)
    ∧ packageCheck State.reset { base0 with magic := 0 } 4096 ≠ 0 := by decide +kernel

/-! ### Witnesses: device and image commands -/

theorem witness_DeviceAndImageQueries :
    (accepts (up .boot) 0x0000 noCheck (cmd [0x10000, 0x10000]) = true ∧ cPar (cmd [0x10000, 0x10000]) 0 ≤ 0x10000
      ∧ 0x10000 ≤ cPar (cmd [0x10000, 0x10000]) 1)
    ∧ (accepts (up .boot) 0x0000 noCheck (cmd [0x10001, 0x10001]) = true ∧ 0x10000 < cPar (cmd [0x10001, 0x10001]) 0)
    ∧ accepts (up .boot) 0x0001 noCheck (cmd []) = true
    ∧ accepts (loaded .loaded) 0x0005 chkSignature (cmd [0]) = true
    ∧ accepts (up .standby) 0x0008 noCheck (cmd [0xFF]) = true
    ∧ accepts (up .standby) 0x0100 noCheck (cmd []) = true
    ∧ (accepts (loaded .loaded) 0x0105 noCheck (cmd []) = true ∧ (loaded .loaded).img.resident = some img0 ∧ (loaded .loaded).img.loading = none)
    ∧ (accepts (loaded .loaded) 0x0101 noCheck (cmd [4096, 0]) = true ∧ cPar64 (cmd [4096, 0]) 0 ≤ 4096 * (loaded .loaded).img.free) := by decide +kernel

/-- The device with die 0 behind its spillway, and one in SAFE HOLD. -/
def isolated0 (s : State) : State := { s with net := { s.net with spill := [0] } }
def held (s : State) : State := { s with md := { s.md with safeHold := some 0x0502 } }

theorem witness_IsolatedCommands :
    isolates (isolated0 (up .standby)) 0x0002 chkRegRead (cmd [0x01200000, 1]) = true
    ∧ isolates (isolated0 haltedRun) 0x0300 (chkRows 480) (cmd [5, 1]) = true ∧ isolates (isolated0 haltedRun) 0x0302 (chkTiles 480) (cmd [0, 4, 1]) = true
    ∧ isolates (isolated0 (loaded .loaded)) 0x0501 chkChnRing (cmd [0x1000, 0, 65536, 0, 0, 0]) = true
    ∧ isolates (isolated0 (up .standby)) 0x0800 (chkLink false) (cmd [0]) = true := by decide +kernel

theorem witness_RegisterCommandsReadAndWrite :
    accepts (up .standby) 0x0002 chkRegRead (cmd [0xF1500004, 1]) = true
    ∧ (accepts (up .standby) 0x0003 chkRegWrite (cmd [0xF1500000, 1, 8]) = true
      ∧ capBarred (takeEntry (up .standby) (cmd [0xF1500000, 1, 8])) (regAt (cmd [0xF1500000, 1, 8])).2.1 = false)
    ∧ accepts (up .standby) 0x0004 chkRegModify (cmd [0xF1500000, 8, 8]) = true
    ∧ (let s := { up .loaded with cap := { State.resetCap with mode := .armed } };
      accepts s 0x0003 chkRegWrite (cmd [0xF0500000, 1, 0]) = true ∧ (regAt (cmd [0xF0500000, 1, 0])).2.1 = 5
        ∧ s.cap.mode ≠ .idle ∧ s.cap.mode ≠ .frozen) := by decide +kernel

theorem witness_ResetAndUnloadCommands :
    (accepts (up .standby) 0x0006 chkReset (cmd [0]) = true ∧ cPar (cmd [0]) 0 = 0)
    ∧ (accepts (up .standby) 0x0006 chkReset (cmd [1]) = true ∧ cPar (cmd [1]) 0 = 1 ∧ (up .standby).ckp.recovery = none)
    ∧ (accepts (up .standby) 0x0007 chkPowerCap (cmd [0]) = true ∧ accepts (up .standby) 0x0007 chkPowerCap (cmd [300]) = true)
    ∧ (accepts (loaded .loaded) 0x0103 noCheck (cmd []) = true ∧ (loaded .loaded).img.resetting = false)
    ∧ (accepts (loaded .loaded) 0x0104 noCheck (cmd []) = true ∧ (loaded .loaded).io.waiting.length < 64 ∧ img0.regions.isEmpty = false)
    ∧ (let s := { loaded .loaded with img := { (loaded .loaded).img with resetting := true } }; s.md.safeHold = none ∧ s.img.resident = some img0 ∧ s.img.resetting = true)
    ∧ ((up .standby).io.waiting.length < 64 ∧ stepping (up .standby) = false ∧ dieRegister 0 (rkey 0 0x01 0) = true) := by decide +kernel

/-! ### Witnesses: the run commands and design memory from the host -/

/-- A region read or write of region 0, from word 8 on, one word. -/
def regionCmd : Cmd := cmd [0, 8, 1, 7]

/-- A state with a command of that opcode waiting for its completion. -/
def waitingFor (s : State) (op : Nat) (c : Cmd) : State := { s with io := { s.io with waiting := [waitingOf op c] } }

/-- A planned hold with work of a kind. -/
def holdOf (w : HoldWork) : Hold := { dcn := 0, work := [w], srcs := [], ckp := false, s0 := 0, len := 0 }

/-- A halted device that steps the cycles of a recovery towards F. -/
def recovering : State :=
  { haltedRun with
    ckp := { State.resetCkp with recovery := some { f := 2, kept := false, collected := false, stepping := true, die := none, stall0 := 0 } } }

theorem witness_RunStartAndResumeEnterRun :
    (let s := loaded .loaded; let c := cmd [1, 5, 0];
      accepts s 0x0200 chkRunStart c = true ∧ startBars s = 0 ∧ s.ckp.stale = false ∧ s.peers.any (·.stale) = false ∧ imagesMatch s = true
        ∧ s.peers.any (fun p => p.dcn != s.seq.dcn) = false ∧ needsStartCkp s = true)
    ∧ (accepts haltedRun 0x0202 chkRunResume (cmd [0]) = true ∧ haltedRun.ckp.recovery = none) := by decide +kernel

theorem witness_HaltAndStopFixAnEffectiveDcn :
    (accepts (runAt (.step 0)) 0x0201 noCheck (cmd []) = true ∧ accepts (runAt (.step 0)) 0x0203 noCheck (cmd []) = true
      ∧ isHalted (runAt (.step 0)) = false)
    ∧ (let s := runAt (.step 0); accepts { s with md := { s.md with mode := .replay } } 0x0603 noCheck (cmd []) = true)
    ∧ (accepts haltedRun 0x0201 noCheck (cmd []) = true ∧ accepts haltedRun 0x0203 noCheck (cmd []) = true ∧ isHalted haltedRun = true)
    ∧ accepts (runAt (.step 0)) 0x0204 noCheck (cmd []) = true := by decide +kernel

theorem witness_ReadsOfDesignMemoryAnswerOrWait :
    (accepts haltedRun 0x0300 (chkRows 480) (cmd [5, 1]) = true ∧ accepts haltedRun 0x0302 (chkTiles 480) (cmd [0, 4, 1]) = true
      ∧ accepts haltedRun 0x0304 (chkRegion 480) (cmd [0, 8, 1]) = true ∧ modeSteps haltedRun = false ∧ haltedRun.img.resetting = false
      ∧ regionPoisoned haltedRun 0 8 1 = false)
    ∧ (accepts (runAt (.step 0)) 0x0300 (chkRows 480) (cmd [5, 1]) = true ∧ accepts (runAt (.step 0)) 0x0302 (chkTiles 480) (cmd [0, 4, 1]) = true
      ∧ accepts (runAt (.step 0)) 0x0304 (chkRegion 480) (cmd [0, 8, 1]) = true ∧ modeSteps (runAt (.step 0)) = true
      ∧ (runAt (.step 0)).img.resetting = false ∧ isLead (runAt (.step 0)) = true)
    ∧ (let r := runAt (.step 0); let s := { r with straps := { r.straps with pos := 1 } };
      accepts s 0x0300 (chkRows 480) (cmd [5, 1] 0x10000) = true ∧ modeSteps s = true ∧ isLead s = false)
    ∧ (let s := { runAt (.step 0) with slu := { (runAt (.step 0)).slu with hold := some (holdOf .hostAccess) } };
      s.slu.hold = some (holdOf .hostAccess) ∧ .hostAccess ∈ (holdOf .hostAccess).work)
    ∧ accepts haltedRun 0x0306 noCheck (cmd []) = true := by decide +kernel

theorem witness_WritesOfDesignMemoryStoreExactlyTheirWords :
    accepts haltedRun 0x0301 (chkRows 476) (cmd [5, 1, 7]) = true ∧ accepts haltedRun 0x0303 (chkTiles 474) (cmd [0, 4, 1, 7]) = true
    ∧ accepts haltedRun 0x0305 (chkRegion 474) regionCmd = true ∧ stepping haltedRun = false ∧ haltedRun.img.resetting = false
    ∧ cPar regionCmd 0 < 2 ^ 32 ∧ cPar regionCmd 1 < 2 ^ 32
    ∧ (accepts recovering 0x0301 (chkRows 476) (cmd [5, 1, 7]) = true ∧ recoverySteps recovering = true)
    ∧ (∀ x ∈ [(0x0301, cmd [5, 1, 7]), (0x0303, cmd [0, 4, 1, 7]), (0x0305, regionCmd)], let s := runAt (.step 0); let c := x.2;
      c.path = .pcie ∧ canTake s c = true ∧ headerStatus x.1 c = 0 ∧ negotiateStatus (takeEntry s c) x.1 c = 0 ∧ cPos c = posOf s
        ∧ cSite c < 9 ∧ modeSteps s = true)
    ∧ chkRows 476 (takeEntry (runAt (.step 0)) (cmd [5, 1, 7])) (cmd [5, 1, 7]) = 0
    ∧ chkTiles 474 (takeEntry (runAt (.step 0)) (cmd [0, 4, 1, 7])) (cmd [0, 4, 1, 7]) = 0
    ∧ chkRegion 474 (takeEntry (runAt (.step 0)) regionCmd) regionCmd = 0 := by decide +kernel

theorem witness_RegionTransfersBetweenHostAndRegions :
    (let c := cmd [0, 0, 0, 0x1000, 0, 8192]; let big : Image := { img0 with regions := [⟨0, 2, 8192⟩] };
      let s := { haltedRun with img := { haltedRun.img with resident := some big } };
      accepts s 0x0307 chkRegionDma c = true ∧ accepts s 0x0308 chkRegionDma { c with data := .words [1, 2] } = true ∧ stepping s = false
        ∧ s.img.resetting = false ∧ s.io.waiting.length < 64 ∧ cPar64 c 1 + cPar c 5 / 2 ≤ 2 ^ 32)
    ∧ (let c := cmd [0, 0, 0, 0x1000, 0, 8192]; let s := waitingFor haltedRun 0x0307 c;
      firstWaiting s isDma = some (waitingOf 0x0307 c) ∧ (waitingOf 0x0307 c).opcode = 0x0307
        ∧ regionPoisoned s (cPar c 0) (cPar64 c 1) (cPar c 5 / 2) = false ∧ s.md.safeHold = none ∧ (held s).md.safeHold.isSome = true
        ∧ ddrOutcome (ddrSyndrome (ddrWordAddr s 0) 0 0) = .good
        ∧ 4 * 0 < cPar c 5 / 2 ∧ s.ds.poison.contains 0 = false ∧ ddrOutcome (ddrSyndrome (ddrWordAddr s 0) 3 0) ≠ .good
        ∧ ddrOutcome (ddrSyndrome (ddrWordAddr s 0) 3 0) ≠ .corrected) := by decide +kernel

/-! ### Witnesses: the run itself, the sluice, capture and recovery -/

/-- A tick environment in which nothing happens, and one of the boundary. -/
def calm : StepEnv := { ecc := [], refresh := [], pads := 0 }
def calmB : BoundEnv := { pads := 0, util := 0, ecc := [] }

/-- A checkpoint of the halted device, at DCN 0 with nothing in it. -/
def ckp0 : Checkpoint := { dcn := 0, setId := 7, sigDigest := 0, rows := [], tiles := [], caps := [], churn := [], chans := [], cow := [], imported := false }

/-- The device with its stops and DCN set. -/
def stopping (s : State) (dcn : Nat) (st : List Stop) : State := { s with md := { s.md with stops := st }, seq := { s.seq with dcn := dcn } }

/-- The device in a slot: ticks, slot started, what it sampled before. -/
def inSlot (ticks : Nat) (hist : List SlotRec) (stalled : Bool) : State :=
  let s := runAt (.step 0)
  { s with
    seq := { s.seq with ticks := ticks }
    slu := { s.slu with slot := some (ticks / 32), hist := hist, stalled := stalled } }

theorem witness_AScheduleStepRunsEveryProcessorOnce :
    stepReady (runAt (.step 0)) img0 0 ∧ (runAt (.step 0)).ds.tileReads.any (fun r => r.due == 0) = false
    ∧ (runAt (.step 0)).ds.ddr.any (fun r => r.issue + r.lead == 0) = false
    ∧ (portOps img0 0).all (fun o => dKind o.d == 0 || dLead o.d != 0) = true ∧ (portOps img0 0).all (fun o => o.op != 2) = true :=
  ⟨⟨by decide +kernel, by decide +kernel, by decide +kernel, by decide +kernel⟩, by decide +kernel, by decide +kernel, by decide +kernel, by decide +kernel⟩

theorem witness_CycleBoundaryStepsClearAndSample :
    (runAt (.bound 0)).img.resident = some img0 ∧ (runAt (.bound 0)).seq.tick = .bound 0 ∧ canTick (runAt (.bound 0)) (.bound 0) = true
    ∧ (runAt (.bound 2)).seq.tick = .bound 2 ∧ canTick (runAt (.bound 2)) (.bound 2) = true ∧ inRecovery (runAt (.bound 2)) = false
    ∧ (runAt (.bound 4)).seq.tick = .bound 4 ∧ canTick (runAt (.bound 4)) (.bound 4) = true ∧ fromLog (runAt (.bound 4)) = false := by decide +kernel

theorem witness_CycleEndAdvancesOrEnds :
    (let s := runAt (.bound 16); s.seq.epoch = true ∧ stepping s = true ∧ s.seq.tick = .bound 16 ∧ endWaits s = false ∧ fromLog s = false
      ∧ s.md.stops = [] ∧ s.md.safeHold = none)
    ∧ (let r := runAt (.bound 16); let s := { r with md := { r.md with safeHold := some 0x0502 } };
      s.seq.epoch = true ∧ stepping s = true ∧ s.seq.tick = .bound 16 ∧ endWaits s = false ∧ s.md.safeHold.isSome = true)
    ∧ (let s := stopping (runAt (.bound 16)) 4 [⟨4, .runStop⟩]; stepping s = true ∧ endWaits s = false ∧ s.md.stops.any (fun x => x.kind == .runStop && decide (x.dcn ≤ s.seq.dcn)) = true)
    ∧ (let s := stopping (runAt (.bound 16)) 4 [⟨4, .halt⟩]; stepping s = true ∧ endWaits s = false ∧ s.md.mode = .run
      ∧ s.md.stops.any (fun x => x.kind == .halt && decide (x.dcn ≤ s.seq.dcn)) = true
      ∧ s.md.stops.all (fun x => x.kind != .runStop && x.kind != .replayStop) = true)
    ∧ (let r := runAt (.step 0); let s := stopping { r with md := { r.md with sub := .stepN } } 5 [⟨4, .stepN⟩];
      s.md.mode = .run ∧ s.md.sub = .stepN ∧ s.seq.tick = .step 0 ∧ s.md.safeHold = none ∧ stopDue s [.stepN] = true)
    ∧ (let r := runAt (.step 0); let s := stopping { r with md := { r.md with mode := .replay } } 5 [⟨4, .replayTarget⟩];
      s.md.mode = .replay ∧ s.seq.tick = .step 0 ∧ s.md.safeHold = none ∧ stopDue s [.replayTarget, .replayLog] = true)
    ∧ (let s := { runAt (.step 0) with ckp := { State.resetCkp with due := [0] } }; s.seq.dcn ∈ s.ckp.due ∧ s.seq.tick = .step 0)
    ∧ (let s := { runAt (.step 0) with ckp := { State.resetCkp with busy := some ckp0 } };
      s.ckp.busy = some ckp0 ∧ allDone s ckp0 = true ∧ s.slu.agreed.any (fun a => a.2 == some .checkpoint) = false) := by decide +kernel

/-- Records of an error and of a hazard. -/
def err0 : ErrRec := {
  cause := 0x0501, cls := 3, flags := 0, unit := 0, dcn := 0, time := 0, seq := 0, memClass := 0, source := 0, stallUs := 0, address := 0
  syndrome := 0, d1 := 0, d2 := 0 }

theorem witness_StallStepsAndSluiceSlots :
    (let s := inSlot 300 [{ k := 1, low := true, srcs := [] }] true; stepping s = true ∧ s.seq.epoch = true ∧ frozen s = true)
    ∧ (let r := runAt (.step 0); let s := { r with seq := { r.seq with degrade := true } };
      stepping s = true ∧ s.seq.epoch = true ∧ frozen s = false ∧ s.seq.degrade = true)
    ∧ (let s := runAt (.step 0); slotNew s = true ∧ slotDiscipline s = false ∧ s.slu.stalled = false)
    ∧ (let r := inSlot 300 [{ k := 1, low := true, srcs := [13] }] true
      let s := { r with slu := { r.slu with slot := none }, ckp := { r.ckp with wantForced := true } }
      slotNew s = true ∧ slotDiscipline s = false ∧ slotBack s = some { k := 1, low := true, srcs := [13] } ∧ stepping s = true
        ∧ s.ckp.recovery = none ∧ s.ckp.wantForced = true ∧ isLead s = true ∧ s.slu.stalled = true)
    ∧ (∀ x ∈ [(9, some 1), (9, some 2), (10, some 1), (8, none)], ∀ q ∈ [false, true],
      let p : Repair := { code := x.1, unit := 1, left := x.2, driven := 0, word := none, recs := [err0] };
      let r := inSlot 300 [{ k := 1, low := q, srcs := [] }] q;
      let s := { r with slu := { r.slu with slot := none }, err := { State.reset.err with repairs := [p] } };
      slotNew s = true ∧ slotDiscipline s = false ∧ s.err.repairs = [p] ∧ s.md.safeHold = none ∧ frozen s = q)
    ∧ canSample (inSlot 300 [] false) = false ∧ canSample (inSlot 312 [] false) = true
    ∧ (let r := inSlot 300 [{ k := 1, low := true, srcs := [13] }] false; let s := { r with ckp := { r.ckp with wantForced := true } };
      slotBack s = some { k := 1, low := true, srcs := [13] } ∧ s.slu.stalled = false ∧ stepping s = true ∧ s.ckp.recovery = none
        ∧ s.ckp.wantForced = true ∧ isLead s = true)
    ∧ (let s := inSlot 300 [{ k := 1, low := false, srcs := [] }] true;
      slotBack s = some { k := 1, low := false, srcs := [] } ∧ s.slu.stalled = true ∧ s.slu.hold = none)
    ∧ (let s := setIo (inSlot 300 [] false) 0x02 0x010 5; s.slu.line = false ∧ ioReg s 0x02 0x010 ≠ 0 ∧ bitOf (ioReg s 0x02 0) 6 = false) := by
  decide +kernel

/-- Capture in a mode, with its end fixed. -/
def capAs (s : State) (m : CapMode) (e : Option Nat) : State :=
  { s with cap := { State.resetCap with mode := m, endDcn := e, dies := (List.range 8).map (fun d => (d, newCapDie [])) } }

theorem witness_CascadeEventsAndTheEndOfCapture :
    (let s := inSlot 312 [] false; s.seq.epoch = true ∧ s.slu.slot = some (slotOf s) ∧ 24 ≤ s.seq.ticks % 32
      ∧ s.casc.samples.any (fun e => e.1 == slotOf s) = false ∧ s.casc.samples.find? (fun e => e.1 + 8 == slotOf s) = none)
    ∧ (let r := capAs (inSlot 300 [] false) .armed none; let s := { r with casc := { r.casc with samples := [(1, 1, [])] } };
      s.casc.samples.find? (fun e => e.1 + 8 == slotOf s) = some (1, 1, []) ∧ bitOf (1 : BitVec 4).toNat 0 = true ∧ s.cap.mode = .armed
        ∧ s.cap.trigDcn = none) := by decide +kernel

theorem witness_TheEndOfCapture :
    (let s := capAs (runAt (.bound 14)) .triggered (some 0); captureEndDue s = true ∧ s.seq.tick = .bound 14 ∧ frozen s = false ∧ s.md.safeHold = none)
    ∧ (let s := capAs (runAt (.bound 16)) .triggered (some 0); captureEndDue s = true ∧ s.seq.tick = .bound 16 ∧ s.md.safeHold = none)
    ∧ (let s := setIo (setIo (capAs (stopping (runAt (.bound 14)) 4 []) .armed none) 0x05 0 0x1000) 0x05 0x00C 5;
      autoCyclesDue s = true ∧ s.seq.tick = .bound 14 ∧ frozen s = false ∧ inRecovery s = false ∧ droveBefore s 0 s.seq.dcn = false)
    ∧ (let s := setIo (capAs (runAt (.step 3)) .armed none) 0x05 0 0x3000;
      isLead s = true ∧ autoEn s = true ∧ autoTime s = true ∧ s.cap.mode = .armed ∧ s.cap.trigDcn = none ∧ s.cap.autoDone = false
        ∧ (capAuto s : Int) ≤ sinceArm s ∧ inRecovery s = false ∧ droveBefore s 0 s.seq.dcn = false) := by decide +kernel

/-- A recovery towards DCN 0 that has not restored yet. -/
def rec0 (st : Bool) (f : Nat) : Recovery := { f := f, kept := false, collected := false, stepping := st, die := none, stall0 := 0 }

theorem witness_RecoveryRestoresAndEndsAtF :
    (let s := { haltedRun with ckp := { State.resetCkp with recovery := some (rec0 false 0), last := some ckp0 } };
      s.ckp.recovery = some (rec0 false 0) ∧ (rec0 false 0).stepping = false ∧ s.pwr.lost = [] ∧ s.net.spill.any (· < 8) = false
        ∧ s.md.safeHold = none ∧ s.img.resident.isSome = true ∧ s.ckp.last = some ckp0 ∧ ckp0.spoiled = false ∧ ({ ckp0 with spoiled := true } : Checkpoint).spoiled = true ∧ ckp0.dcn ≤ (rec0 false 0).f
        ∧ (rec0 false 0).f ≤ (logReach s).1 ∧ s.ckp.log.entries.all (fun e => e.typ != 0x44) = true ∧ s.ckp.log.host = [])
    ∧ (let s := { haltedRun with ckp := { State.resetCkp with recovery := some (rec0 false 9), last := some ckp0 } };
      s.ckp.recovery = some (rec0 false 9) ∧ (rec0 false 9).stepping = false ∧ s.pwr.lost = [] ∧ s.net.spill.any (· < 8) = false
        ∧ s.md.safeHold = none ∧ s.img.resident.isSome = true ∧ s.ckp.last = some ckp0 ∧ (logReach s).1 < (rec0 false 9).f)
    ∧ (let s := { haltedRun with ckp := { State.resetCkp with recovery := some (rec0 true 0) } };
      s.ckp.recovery = some (rec0 true 0) ∧ (rec0 true 0).stepping = true ∧ s.seq.dcn = (rec0 true 0).f) := by decide +kernel

/-! ### Witnesses: registers, the bulk window, engines and pins -/

/-- A region selected in the bulk window of the halted device. -/
def bulkAt (sel : Word) : State := setReg haltedRun (bkey 0x1080) sel

theorem witness_RingRegistersOfTheEndpoint :
    (let s := { up .standby with regs := [] }; hostOpen s = true ∧ ringsOn s = false ∧ ringsOk s = true)
    ∧ (let s := { up .standby with regs := [(bkey 0x1018, 3)] }; hostOpen s = true ∧ ringsOn s = false ∧ ringsOk s = false)
    ∧ (hostOpen State.reset = false ∧ pcieOpen State.reset = false ∧ hostOpen (held (up .run)) = false ∧ pcieOpen (held (up .run)) = true)
    ∧ hostOpen (up .standby) = true ∧ hostOpen (up .run) = true ∧ hostOpen (up .loaded) = true ∧ ringsOn (up .standby) = true ∧ ringBusy (up .standby) = false ∧ chanOf (up .standby) 3 = none
    ∧ (let s := { up .run with io := { (up .run).io with deferred := [waitingOf 0x0300 (cmd [5, 1])] } }; ringsOn s = true ∧ ringBusy s = true)
    ∧ (let ch := newChan { channel := 3, dir := 3, source := 0, inLoc := 0, readyLoc := 0, outLoc := 0, inMaxW := 16, outMaxW := 16, fgroup := 0, outRing := 0, inDepth := 4, outDepth := 4, maxPkt := 1, format := 0, link := 0, reserved := false };
      chanOf (setChan (up .loaded) 3 ch) 3 = some ch) := by decide +kernel

theorem witness_BulkWindowReadsAndWrites :
    (let s := { bulkAt 0 with img := { haltedRun.img with stageBytes := some 4096 } }; 0 + 4 ≤ bulkLimit s ∧ 4092 + 4 ≤ bulkLimit s
      ∧ ¬ 4096 + 4 ≤ bulkLimit s ∧ bitOf (bulkSel s) 0 = false)
    ∧ (let s := bulkAt 1; 8188 + 4 ≤ bulkLimit s ∧ bitOf (bulkSel s) 0 = true ∧ stepping s = false ∧ s.img.resetting = false
      ∧ (2 ^ 28 * fld (bulkSel s) 21 16 + 8188 / 4 * 4) / 2 + 1 < 2 ^ 32)
    ∧ (let s := bulkAt 1; hostOpen s = true ∧ modeSteps s = false ∧ s.ds.poison = [] ∧ ddrOutcome (ddrSyndrome (ddrWordAddr s 0) 0 0) = .good
      ∧ ddrOutcome (ddrSyndrome (ddrWordAddr s 0) 3 0) ≠ .good)
    ∧ (hostOpen State.reset = false ∧ pcieOpen State.reset = false ∧ pcieOpen (held (bulkAt 1)) = true ∧ (held (bulkAt 1)).md.safeHold.isSome = true)
    ∧ bulkLimit (bulkAt 1) < 8192 + 4 ∧ bulkBarred (setReg (runAt (.step 0)) (bkey 0x1080) 1) = true := by decide +kernel

theorem witness_RegisterWritesKeepTheirRules :
    (regCheck (up .standby) 0x9F000000 1 ≠ 0)
    ∧ (let s := capAs (up .loaded) .armed none; capBarred s (wfld (0xF0500000 : Word) 27 20) = true)
    ∧ (0xFFC < 0x1000) ∧ ringsOn (up .standby) = true ∧ (hostOpen (up .standby) = true ∧ 63 < 64 ∧ 63 ∉ (up .standby).io.pba)
    ∧ (held (up .standby)).md.safeHold.isSome = true ∧ ((up .standby).md.safeHold = none ∧ 15 ∉ (up .standby).net.spill)
    ∧ (let s := isolated0 (up .standby); s.md.safeHold = none ∧ wfld (0x01200000 : Word) 31 28 ∈ s.net.spill ∧ regCheck s 0x01200000 1 = 0
      ∧ capBarred s (wfld (0x01200000 : Word) 27 20) = false) := by decide +kernel

theorem witness_ControlRegisterWrites :
    (held (up .run)).md.safeHold.isSome = true
    ∧ (let s := isolated0 (up .standby); 0 < nDies s ∧ s.md.safeHold = none ∧ 0 ∈ s.net.spill)
    ∧ ((loaded .loaded).md.safeHold = none ∧ 7 ∉ (loaded .loaded).net.spill ∧ 15 ∉ (loaded .loaded).net.spill)
    ∧ ((runAt (.step 0)).md.safeHold = none ∧ 0 ∉ (runAt (.step 0)).net.spill)
    ∧ (let s := loaded .loaded; 7 < nDies s ∧ chnEn (engineOf s 7) = false ∧ 4096 ≤ availCycles s 24 ∧ stepping s = false)
    ∧ (let s := runAt (.step 0); chnEn (engineOf s 0) = false ∧ 4096 ≤ availCycles s 5 ∧ stepping s = true)
    ∧ availCycles (loaded .loaded) 4 < 4096
    ∧ (let e : ChurnDie := { newEngine [] [] 0 with pend := some (true, 8) }; chnEn (engineOf (setChn (runAt (.step 0)) 2 e) 2) = true
      ∧ stepping (setChn (runAt (.step 0)) 2 e) = true ∧ chnEn (engineOf (setChn (loaded .loaded) 2 e) 2) = true)
    ∧ (sigKind 0 ≠ 0 ∧ bitOf (trcCtrl (up .standby)) 0 = false ∧ bitOf (trcCtrl (setReg (up .standby) (rkey 15 0x16 0) 1)) 0 = true)
    ∧ (bitOf (ioReg (up .standby) 0x15 0x000) 3 = bitOf (7 : Word).toNat 3 ∧ bitOf (ioReg (up .standby) 0x15 0x000) 3 ≠ bitOf (8 : Word).toNat 3) := by
  decide +kernel

/-! ### Witnesses: capture, churn, checkpoint and channel commands -/

/-- A device in LOADED with that checkpoint, and its export, which it can import. -/
def kept : State := { loaded .loaded with ckp := { State.resetCkp with last := some ckp0 } }
def export0 : CkpExport := exportOf kept ckp0
/-- CKP_IMPORT of it, with its length. -/
def importCmd : Cmd := cmd [0x1000, 0, lo32 export0.totalBytes, hi32 export0.totalBytes] 0 (.ckp export0)

/-- A channel that carries both directions, with its inbound and outbound rings in host memory. -/
def entry3 : ChannelEntry := {
  channel := 3, dir := 3, source := 0, inLoc := 0, readyLoc := 0, outLoc := 0, inMaxW := 16, outMaxW := 16, fgroup := 0, outRing := 0, inDepth := 4
  outDepth := 4, maxPkt := 1, format := 0, link := 0, reserved := false }

/-- A message that waits in its outbound queue, complete in packet 5, and one that is not complete. -/
def msg (done : Option Nat) : OutMsg := { seq := 0, words := [1], endF := true, cut := false, prio := 0, dcn := 0, replayed := false, done := done }

/-- That channel with its queues. -/
def chan3 (isOpen : Bool) (inq : List InMsg) (outq : List OutMsg) : Chan :=
  { newChan entry3 with isOpen := isOpen, inq := inq, outq := outq, ring := { base := 0x1000, entries := 16, wb := 0, prod := 1, cons := 0 } }

/-- A device with that channel. -/
def withChan (s : State) (ch : Chan) : State := setChan s 3 ch

/-- The device set to skim capture, with a spill area. -/
def spilled (s : State) : State := let s := setIo s 0x05 0 1; { s with img := { s.img with spillGb := 512 } }

theorem witness_CaptureCommands :
    accepts (loaded .loaded) 0x0400 noCheck (cmd []) = true
    ∧ (let s := spilled (loaded .loaded); accepts s 0x0401 noCheck (cmd []) = true ∧ armStatus s = 0 ∧ stepping s = false)
    ∧ (let s := spilled (runAt (.step 0)); accepts s 0x0401 noCheck (cmd []) = true ∧ armStatus s = 0 ∧ stepping s = true)
    ∧ (let s := capAs (runAt (.step 0)) .armed none; accepts s 0x0402 noCheck (cmd []) = true ∧ accepts s 0x0403 noCheck (cmd []) = true
      ∧ isLead s = true ∧ s.cap.mode = .armed)
    ∧ (let s := capAs (runAt (.step 0)) .idle none; accepts s 0x0402 noCheck (cmd []) = true ∧ accepts s 0x0403 noCheck (cmd []) = true
      ∧ s.cap.mode ≠ .armed ∧ s.cap.mode ≠ .triggered)
    ∧ (let b : Block := { pos := 0, die := 0, seq := 0, skim := false, base := 0, last := 0, cont := false, recs := [], lastRecs := 0, fin := true, time := 0, poison := false };
      let f := capAs (loaded .loaded) .frozen none; let s := { f with cap := { f.cap with ring := [b] } };
      accepts s 0x0404 chkCapRead (cmd [0, 1, 0x1000, 0]) = true ∧ ringReadable s = true ∧ s.io.waiting.length < 64
        ∧ s.md.safeHold = none ∧ (held s).md.safeHold.isSome = true
        ∧ firstWaiting (waitingFor s 0x0404 (cmd [0, 1, 0x1000, 0])) (fun w => w.opcode == 0x0404) = some (waitingOf 0x0404 (cmd [0, 1, 0x1000, 0])))
    ∧ (let s := capAs (loaded .loaded) .armed none; accepts s 0x0404 chkCapRead (cmd [0, 1, 0x1000, 0]) = true ∧ ringReadable s = false) := by
  decide +kernel

theorem witness_ChurnCommandsReadAndWriteTheEngine :
    accepts (loaded .loaded) 0x0500 noCheck (cmd []) = true
    ∧ accepts (loaded .loaded) 0x0501 chkChnRing (cmd [0x1000, 0, 65536, 0, 0, 0] 7) = true
    ∧ (accepts (loaded .loaded) 0x0502 (chkChnMem 240) (cmd [2, 8191, 1] 7) = true ∧ (engineOf (loaded .loaded) 7).poison = [])
    ∧ (accepts (loaded .loaded) 0x0503 (chkChnMem 237) (cmd [0, 4095, 1, 9] 7) = true ∧ chnEn (engineOf (loaded .loaded) 7) = false
      ∧ (engineOf (loaded .loaded) 7).m.en = false)
    ∧ (let e : ChurnDie := { newEngine [] [] 0 with pend := some (true, 8) }; let s := setChn (loaded .loaded) 7 e;
      accepts s 0x0503 (chkChnMem 237) (cmd [0, 4095, 1, 9] 7) = true ∧ chnEn (engineOf s 7) = true) := by decide +kernel

theorem witness_CheckpointAndReplayCommands :
    accepts (loaded .loaded) 0x0600 noCheck (cmd []) = true
    ∧ (accepts haltedRun 0x0601 noCheck (cmd []) = true ∧ haltedRun.io.waiting.length < 64 ∧ stepping haltedRun = false ∧ haltedRun.ckp.recovery = none)
    ∧ (accepts (runAt (.step 0)) 0x0601 noCheck (cmd []) = true ∧ stepping (runAt (.step 0)) = true ∧ (runAt (.step 0)).ckp.recovery = none)
    ∧ (let log : LogState := { State.resetCkp.log with entries := [⟨0x42, 0, 3, [], 0, 0, false⟩, ⟨0x41, 0, 4, [], 0, 1, false⟩, ⟨0x41, 0, 5, [], 0, 2, false⟩] };
      let k : Checkpoint := { ckp0 with dcn := 3 }; let s := { loaded .loaded with ckp := { State.resetCkp with last := some k, log := log } };
      let q : Checkpoint := { k with spoiled := true }; let s' := { s with ckp := { s.ckp with last := some q } };
      (accepts s' 0x0602 chkReplayStart (cmd [0, 3, 0]) = true ∧ startBars s' = 0 ∧ replayBoard s' false = true ∧ ckpMatches s' = true ∧ s'.ckp.last = some q
        ∧ q.spoiled = true) ∧ k.spoiled = false
        ∧ accepts s 0x0602 chkReplayStart (cmd [0, 3, 0]) = true ∧ accepts s 0x0602 chkReplayStart (cmd [0, 5, 0]) = true ∧ startBars s = 0
        ∧ replayBoard s (bitOf (cPar (cmd [0, 5, 0]) 0) 0) = true ∧ ckpMatches s = true ∧ s.ckp.last = some k
        ∧ (cPar64 (cmd [0, 3, 0]) 1 = k.dcn ∧ cPar64 (cmd [0, 3, 0]) 1 ≠ 0)
        ∧ (cPar64 (cmd [0, 5, 0]) 1 ≠ k.dcn ∧ cPar64 (cmd [0, 5, 0]) 1 ≠ 0 ∧ s.peers = [] ∧ s.ckp.log.host = [] ∧ k.dcn < (logReach s).1)) := by
  decide +kernel

theorem witness_ExportAndImportOfACheckpoint :
    (let s := { loaded .loaded with ckp := { State.resetCkp with last := some ckp0 } };
      accepts s 0x0604 noCheck (cmd [0x1000, 0, 4096, 0]) = true ∧ s.ckp.last.isSome = true ∧ s.io.waiting.length < 64
        ∧ firstWaiting (waitingFor s 0x0604 (cmd [0x1000, 0, 4096, 0])) (fun w => w.opcode == 0x0604) = some (waitingOf 0x0604 (cmd [0x1000, 0, 4096, 0]))
        ∧ s.md.safeHold = none ∧ (held s).md.safeHold.isSome = true ∧ ckp0.spoiled = false
        ∧ (waitingOf 0x0604 (cmd [0x1000, 0, 4096, 0])).quiet = false ∧ (waitingOf 0x0604 (cmd [0x1000, 0, 4096, 0])).path = .pcie)
    ∧ (accepts (loaded .loaded) 0x0605 noCheck (cmd [0x1000, 0, 4096, 0]) = true ∧ haltedRun.md.mode ≠ .loaded)
    ∧ (let e : CkpExport := { exportCore kept ckp0 with magic := 0, fmtMinor := 0 }; let c := cmd [0x1000, 0, 4096, 0] 0 (.ckp e);
      firstWaiting (waitingFor kept 0x0605 c) (fun w => w.opcode == 0x0605) = some (waitingOf 0x0605 c) ∧ (waitingOf 0x0605 c).cmd.data = .ckp e
        ∧ importStatus kept e (cPar64 c 2) ≠ 0) := by decide +kernel

/-- The export is short enough for the two words that name its length. -/
theorem export0_bytes : cPar64 importCmd 2 = export0.totalBytes := by
  have hs : sectionsFor (exportCore kept ckp0) (regionSections kept) = (List.range 8).map (fun d => (0x0101, mkLoc (64 * d) 0 0 0, 146800640))
    ++ [(0x0102, 0, ioSectionLen (exportCore kept ckp0)), (0x0103, 0, 8192), (0x0104, 0, 0)] := by
    have hd (d : Nat) : dieSectionLen ckp0 d = 146800640 := by simp [dieSectionLen, dieUnits, ckp0, lookup]
    have hl : logBytes (exportCore kept ckp0).log = 0 := by decide
    have hr : kept.img.resident = some img0 := rfl
    have he : (exportCore kept ckp0).state = ckp0 := rfl
    have hp : partDies (exportCore kept ckp0).part = List.range 8 := by decide
    simp only [sectionsFor, regionSections, hr, hp, hl, he, hd]
    rfl
  have hu (u : UnitState) : unitLen u ≤ 2 ^ 32 + 16 := by
    have := List.length_take_le (2 ^ 30 - 1) (Config.unitWords u)
    simp only [unitLen, unitData]; omega
  have h := exportOf_bytes_le kept ckp0
  have h1 := hu (.collector (exportCore kept ckp0).ioUnits)
  have h2 := hu (.recorder (exportCore kept ckp0).ioUnits)
  rw [hs] at h
  simp [ioSectionLen, List.range_succ] at h
  have : export0.totalBytes < 2 ^ 64 := by unfold export0; omega
  simp [importCmd, cmd, cPar64, cPar, par, nth, lo32, hi32, Nat.shiftRight_eq_div_pow]
  omega

theorem witness_ExportAndImport_accepted :
    firstWaiting (waitingFor kept 0x0605 importCmd) (fun w => w.opcode == 0x0605) = some (waitingOf 0x0605 importCmd)
    ∧ (waitingOf 0x0605 importCmd).cmd.data = .ckp export0 ∧ kept.md.mode = .loaded
    ∧ importStatus (waitingFor kept 0x0605 importCmd) export0 (cPar64 importCmd 2) = 0 := by
  refine ⟨rfl, rfl, rfl, ?_⟩
  rw [export0_bytes]
  exact importStatus_exportOf (s := kept) (k := ckp0) (i := img0) rfl rfl

theorem witness_ChannelCommandsOpenCloseAndFlush :
    (let s := withChan (loaded .loaded) (chan3 false [] []); let r := withChan (runAt (.step 0)) (chan3 false [] []);
      accepts s 0x0700 chkChan (cmd [3]) = true ∧ chanOf s (cPar (cmd [3]) 0) = some (chan3 false [] [])
        ∧ accepts s 0x0701 chkChOpen (cmd [3, 0x1000, 0, 16, 0, 0]) = true ∧ chanOf s (openChan (cmd [3, 0x1000, 0, 16, 0, 0])) = some (chan3 false [] [])
        ∧ (chan3 false [] []).isOpen = false ∧ (chan3 false [] []).opening = none
        ∧ (chan3 false [] []).cfg.format ≤ openFormat (cmd [3, 0x1000, 0, 16, 0, 0]) ∧ stepping s = false
        ∧ accepts r 0x0701 chkChOpen (cmd [3, 0x1000, 0, 16, 0, 0]) = true ∧ stepping r = true)
    ∧ (let s := withChan (loaded .loaded) (chan3 true [] []); let r := withChan (runAt (.step 0)) (chan3 true [] []);
      accepts s 0x0702 chkChan (cmd [3]) = true ∧ accepts r 0x0702 chkChan (cmd [3]) = true ∧ chanOf s 3 = some (chan3 true [] [])
        ∧ (chan3 true [] []).isOpen = true ∧ stepping s = false ∧ stepping r = true
        ∧ accepts s 0x0703 chkChan (cmd [3]) = true ∧ (chan3 true [] []).flush = false ∧ s.io.waiting.length < 64
        ∧ pktOpen (chan3 true [] []) = false)
    ∧ (let ch := chan3 true [] [msg none]; let s := withChan (loaded .loaded) ch;
      accepts s 0x0703 chkChan (cmd [3]) = true ∧ chanOf s 3 = some ch ∧ ch.flush = false ∧ s.io.waiting.length < 64 ∧ pktOpen ch = true)
    ∧ (let ch := { chan3 true [] [msg (some 5)] with flush := true }; let s := withChan (loaded .loaded) ch;
      accepts s 0x0702 chkChan (cmd [3]) = true ∧ chanOf s 3 = some ch ∧ ch.isOpen = true ∧ ch.flush = true ∧ stepping s = false)
    ∧ (let s := withChan (loaded .loaded) (chan3 false [] []);
      accepts s 0x0704 chkOutRing (cmd [15, 0x1000, 0, 65536, 0, 0, 63]) = true
        ∧ s.trx.chans.any (fun e => e.2.isOpen && hasOut e.2.cfg && e.2.cfg.outRing == cPar (cmd [15]) 0) = false) := by decide +kernel

theorem witness_MessagesEnterStageAndLeave :
    (let s := withChan (runAt (.step 0)) (chan3 true [] []);
      chanOf s 3 = some (chan3 true [] []) ∧ (chan3 true [] []).isOpen = true ∧ hasIn (chan3 true [] []).cfg = true
        ∧ (chan3 true [] []).cfg.source = 0 ∧ inSafeHold s = false ∧ s.md.mode ≠ .replay
        ∧ entryOk (chan3 true [] []) (parseEntry 0 (0x00100001 :: 0 :: 0 :: 0 :: List.replicate 16 7)) = true
        ∧ entryOk (chan3 true [] []) (parseEntry 0 [2, 65535, 0, 0]) = true
        ∧ (chan3 true [] []).fmt = 0
        ∧ inRoom (chan3 true [] []) = true ∧ (chan3 true [] []).ring.cons ≠ (chan3 true [] []).ring.prod)
    ∧ (let s := withChan (runAt (.step 0)) (chan3 true [⟨0, none, [1], false⟩] []);
      3 < 4 ∧ fromLog s = false ∧ (s.trx.staged.filter (fun c => c % 4 == 3)).length < 16
        ∧ (engineOrder 3 (nth 0 s.trx.engLast 3)).find? (canStage s) = some 3)
    ∧ (let r := withChan (runAt (.step 0)) (chan3 true [] [msg (some 5)]);
      let s := { r with trx := { r.trx with rings := [(0, { base := 0x8000, entries := 16, wb := 0, vec := 0, prod := 0, data := [] })] } };
      lookup s.trx.rings 0 = some { base := 0x8000, entries := 16, wb := 0, vec := 0, prod := 0, data := [] }
        ∧ s.md.safeHold = none ∧ (held s).md.safeHold.isSome = true ∧ bestPacket (packetsOf s 0) = some (3, 5, 0, [msg (some 5)]) ∧ [msg (some 5)].length ≤ 16)
    ∧ (let ch := { chan3 true [] [msg (some 5)] with flush := true }; let s := withChan (runAt (.step 0)) ch;
      chanOf s 3 = some ch ∧ ch.flush = true ∧ pktOpen ch = false)
    ∧ (let ch := { chan3 true [] [] with flushed := [(0, 2)] }; let s := withChan (runAt (.step 0)) ch;
      chanOf s 3 = some ch ∧ ch.flush = false ∧ ch.flushed = [(0, 2)]) := by decide +kernel

/-! ### Witnesses: links, time, security, service and the fabric -/

/-- The device in STANDBY with an open session 5. -/
def sess5 : Session := {
  id := 5, key := 0, slot := 1, ctrIn := 0, ctrOut := 0, nextSeq := none, version := some 0x10000, mask := 0, replies := [], closing := false }
def withSession (s : State) : State := { s with sec := { s.sec with sessions := [sess5] } }

/-- A command that comes on that session. -/
def onSession (c : Cmd) : Cmd := { c with path := .session 5 }

/-- Key slot 1 in a state, with key 0. -/
def slot1 (st : SlotSt) : State := { up .standby with sec := { State.reset.sec with slots := [(1, st, 0)] } }

/-- Host data: the digest of the key under which a record's signature verifies (log 7). -/
def signedBy (d : Digest) : HostData := .words (digestWords d)

/-- A partial bitstream of region 32 with one frame. -/
def pr32 : PartialBits := {
  bytes := 4096, magic := 0x52504541, fmtMajor := 1, regionAddr := BitVec.ofNat 32 (regionFrame 32), nFrames := 1, keySlot := 0, reservedOk := true
  key := some Config.firmwareKey, table := [BitVec.ofNat 32 (regionFrame 32)], records := [], digestOk := true, bodyDigest := 0, ioCells := [] }

theorem witness_LinkCommands :
    (accepts (up .boot) 0x0800 (chkLink false) (cmd [7]) = true ∧ accepts (up .boot) 0x0801 (chkLink true) (cmd [7]) = true
      ∧ bitOf (cPar (cmd [7]) 0) 8 = false ∧ accepts (up .boot) 0x0801 (chkLink true) (cmd [0x107]) = true ∧ bitOf (cPar (cmd [0x107]) 0) 8 = true)
    ∧ (accepts (up .standby) 0x0802 (chkLink false) (cmd [7]) = true ∧ (up .standby).io.waiting.length < 64 ∧ lnkModule (cmd [7]) = true
      ∧ lnkIndex (cmd [7]) ≠ 24 ∧ (up .standby).img.resident = none)
    ∧ (accepts (loaded .loaded) 0x0802 (chkLink false) (cmd [14]) = true ∧ lnkModule (cmd [14]) = false ∧ linkBooked (loaded .loaded) 7 = false)
    ∧ (accepts (up .service) 0x0803 chkLoop (cmd [7, 1]) = true ∧ lnkModule (cmd [7, 1]) = true ∧ (up .service).md.mode = .service)
    ∧ (accepts (up .standby) 0x0803 chkLoop (cmd [14, 2]) = true ∧ lnkModule (cmd [14, 2]) = false ∧ linkOf (up .standby) 7 = some State.resetLink
      ∧ cPar (cmd [14, 2]) 1 = 2)
    ∧ (accepts (up .standby) 0x0803 chkLoop (cmd [7, 1]) = true ∧ (up .standby).md.mode ≠ .service)
    ∧ (let s := { up .standby with bl := put State.reset.bl 7 { State.resetLink with st := 5, loopMode := 2 } };
      accepts s 0x0803 chkLoop (cmd [14, 0]) = true ∧ lnkModule (cmd [14, 0]) = false
        ∧ linkOf s 7 = some { State.resetLink with st := 5, loopMode := 2 } ∧ cPar (cmd [14, 0]) 1 = 0)
    ∧ (let s := { up .service with ucie := put State.reset.ucie 3 { State.resetMod with loopMode := 1 } };
      accepts s 0x0803 chkLoop (cmd [7, 0]) = true ∧ lookup s.ucie 3 = some { State.resetMod with loopMode := 1 } ∧ cPar (cmd [7, 0]) 1 = 0) := by
  decide +kernel

theorem witness_TimeCommandsSetAndReadTheTime :
    accepts (up .boot) 0x0900 noCheck (cmd []) = true
    ∧ (accepts (up .standby) 0x0901 chkTimeSet (cmd [0, 0, 5]) = true ∧ isLead (up .standby) = true)
    ∧ (let r := setIo (up .standby) 0x15 0 2; let s := { r with straps := { r.straps with pos := 1 } };
      accepts s 0x0901 chkTimeSet (cmd [0, 0, 5] 0x10000) = true ∧ fld (ioReg s 0x15 0x000) 1 0 = 2 ∧ isLead s = false)
    ∧ accepts (up .standby) 0x0902 chkPtp (cmd [2, 0x200]) = true ∧ accepts (up .standby) 0x0903 chkPps (cmd [0x101, 0]) = true := by decide +kernel

theorem witness_TimeEventsMoveTheServo :
    (let r := setIo (up .standby) 0x15 0 1;
      let s := setDom r false { domOf r false with cfg0 := 2 };
      bitOf (domOf s (0 != 0)).cfg0.toNat 1 = true ∧ timeSrc s = 1 ∧ s.time.domB = (0 != 0) ∧ 1000000 < (1000001 : Int).natAbs
        ∧ (domOf s (0 != 0)).mayStep = true ∧ (-1000000 : Int).natAbs ≤ 1000000 ∧ s.md.safeHold = none)
    ∧ (let r := setIo (up .standby) 0x15 0 2; let s := { r with seq := { r.seq with epoch := true } };
      isLead s = true ∧ fld (ioReg s 0x15 0x000) 1 0 = 2 ∧ s.seq.epoch = true)
    ∧ (let r := setIo (up .standby) 0x15 0 2; let s := { r with straps := { r.straps with pos := 1 } }; timeSrc s = 2)
    ∧ bitOf (ioReg (setIo (up .standby) 0x15 0x02C 0x101) 0x15 0x02C) 0 = true
    ∧ { State.reset.md with safeHold := some 1 }.safeHold.isSome = true := by decide +kernel

theorem witness_SessionsOpenSubscribeAndClose :
    (let s := slot1 .installed; let c := cmd (0 :: 1 :: List.replicate 32 0) 0 (signedBy 0);
      accepts s 0x0A02 chkSession c = true ∧ cPar c 0 = 0 ∧ s.sec.sessions.length < 8 ∧ slotUsable (slotOf? s (cPar c 1)).1 = true
        ∧ sigKey c = some (slotOf? s (cPar c 1)).2 ∧ s.sec.sessions.all (fun x => !x.closing) = true)
    ∧ (let s := withSession (up .standby);
      acceptsOn s 5 0x0A02 chkSession (onSession (cmd [2, 0xFF])) = true ∧ cPar (onSession (cmd [2, 0xFF])) 0 = 2
        ∧ acceptsOn s 5 0x0A02 chkSession (onSession (cmd [1])) = true ∧ cPar (onSession (cmd [1])) 0 = 1) := by decide +kernel

theorem witness_KeySlotsFollowTheirStates :
    (let c := cmd (1 :: List.replicate 16 9); accepts (up .standby) 0x0A03 chkKeySlot c = true ∧ ksOp c = 0 ∧ slotInUse (up .standby) (ksSlot c) = false
      ∧ (slotOf? (up .standby) (ksSlot c)).1 = .empty ∧ (slotOf? (slot1 .installed) (ksSlot c)).1 = .installed
      ∧ accepts (slot1 .locked) 0x0A03 chkKeySlot c = true ∧ (slotOf? (slot1 .locked) (ksSlot c)).1 = .locked)
    ∧ (let c := cmd [0x11]; accepts (slot1 .installed) 0x0A03 chkKeySlot c = true ∧ ksOp c = 1 ∧ slotInUse (slot1 .installed) (ksSlot c) = false
      ∧ (slotOf? (slot1 .installed) (ksSlot c)).1 = .installed ∧ accepts (slot1 .revoked) 0x0A03 chkKeySlot c = true
      ∧ (slotOf? (slot1 .revoked) (ksSlot c)).1 = .revoked)
    ∧ (let c := cmd [0x21]; accepts (slot1 .locked) 0x0A03 chkKeySlot c = true ∧ ksOp c = 2 ∧ slotInUse (slot1 .locked) (ksSlot c) = false
      ∧ (slotOf? (slot1 .locked) (ksSlot c)).1 = .locked ∧ accepts (slot1 .revoked) 0x0A03 chkKeySlot c = true)
    ∧ (let c := cmd [0x30]; accepts (up .standby) 0x0A03 chkKeySlot c = true ∧ ksOp c = 3) := by decide +kernel

/-- A record for AUTHORISE that answers challenge 0: R1 to R32 of its parameters. -/
def authRecord : List Word := 1 :: 0x55484541 :: 1 :: List.replicate 30 0

theorem witness_CertificatesAttestationAndAuthorisation :
    accepts (up .boot) 0x0A00 chkCert (cmd [0, 0]) = true
    ∧ (accepts (up .standby) 0x0A01 noCheck (cmd (List.replicate 10 0)) = true ∧ (up .standby).io.waiting.length < 64)
    ∧ (let c := cmd (List.replicate 10 0);
      (waitingFor (up .standby) 0x0A01 c).md.safeHold = none
        ∧ firstWaiting (waitingFor (up .standby) 0x0A01 c) (fun w => w.opcode == 0x0A01) = some (waitingOf 0x0A01 c))
    ∧ (accepts (up .standby) 0x0A04 chkAuthorise (cmd [0]) = true ∧ cPar (cmd [0]) 0 = 0)
    ∧ (let s := { up .standby with sec := { State.reset.sec with challenge := some 0 } };
      accepts s 0x0A04 chkAuthorise (cmd authRecord) = true ∧ cPar (cmd authRecord) 0 = 1 ∧ authRecordOk s (cmd authRecord) = true
        ∧ accepts (up .standby) 0x0A04 chkAuthorise (cmd authRecord) = true ∧ authRecordOk (up .standby) (cmd authRecord) = false) := by decide +kernel

theorem witness_AuthorisePresentSigned :
    let s := { up .standby with sec := { State.reset.sec with challenge := some 0 } }; let c := cmd authRecord 0 (signedBy Config.lenauxKey)
    accepts s 0x0A04 chkAuthorise c = true ∧ authRecordOk s c = true ∧ sigKey c = some Config.lenauxKey :=
  ⟨by decide +kernel, by decide +kernel, by simp [sigKey, cmd, signedBy, digestWords_length, wordsDigest_digestWords]⟩

theorem witness_ServiceModeAndFirmwareCommands :
    accepts (up .standby) 0x0B00 noCheck (cmd []) = true
    ∧ (let s := { up .standby with sec := { State.reset.sec with authService := true } };
      accepts s 0x0B01 noCheck (cmd []) = true ∧ s.img.loading = none ∧ s.sec.authService = true)
    ∧ (accepts (up .standby) 0x0B01 noCheck (cmd []) = true ∧ (up .standby).sec.authService = false)
    ∧ accepts (up .service) 0x0B02 noCheck (cmd []) = true
    ∧ (let c := cmd [0, 0, 0, 4096, 0] 0 (.base base0);
      accepts (up .standby) 0x0B03 chkFwUpdate c = true ∧ packageOf c = some base0 ∧ (up .standby).ctl.update = none
        ∧ (up .standby).ckp.recovery = none ∧ packageCheck (up .standby) base0 (cPar64 c 3) = 0
        ∧ bitOf base0.fwVersion.toNat 31 = false ∧ (up .standby).md.mode ≠ .service ∧ (up .standby).io.waiting.length < 64)
    ∧ (let s := { up .standby with ctl := { State.resetCtl with update := some base0 } };
      s.md.safeHold = none ∧ s.ctl.update = some base0 ∧ s.ctl.aFailed = false ∧ s.ctl.bFailed = false)
    ∧ (held (up .standby)).md.safeHold.isSome = true := by decide +kernel

theorem witness_TraceBankManagementAndDiagnostics :
    (accepts (up .standby) 0x0B04 chkTraceCtrl (cmd [1]) = true ∧ accepts (up .standby) 0x0B04 chkTraceCtrl (cmd [2]) = true)
    ∧ (State.resetBank.reads = [] ∧ State.resetBank.writes = [] ∧ traceBank (up .standby) 15 = false ∧ cPar (cmd [15, 1]) 1 ≠ 2)
    ∧ (finalStatus 0 = true ∧ finalStatus 0x0620 = true ∧ finalStatus 1 = false ∧ finalStatus 0x0621 = false)
    ∧ (let s := up .standby; accepts s 0x0B05 chkBankPower (cmd [15, 1]) = true ∧ s.banks[15]? = some State.resetBank
      ∧ accepts s 0x0B05 chkBankPower (cmd [15, 2]) = true ∧ cPar (cmd [15, 2]) 1 = 2 ∧ State.resetBank.power ≠ 2 ∧ bankInUse s State.resetBank = true)
    ∧ accepts (up .standby) 0x0B06 chkMgmt (cmd [1, 0, 0, 0, 0, 0, 0]) = true
    ∧ (accepts (up .service) 0x0B07 noCheck (cmd []) = true ∧ (up .service).io.waiting.length < 64)
    ∧ (let s := waitingFor (up .service) 0x0B07 (cmd []); firstWaiting s (fun w => w.opcode == 0x0B07) = some (waitingOf 0x0B07 (cmd []))
      ∧ (waitingOf 0x0B07 (cmd [])).quiet = false ∧ (waitingOf 0x0B07 (cmd [])).path = .pcie ∧ s.md.safeHold = none)
    ∧ (held (up .service)).md.safeHold.isSome = true := by decide +kernel

theorem witness_PartialLoadsOfFabricRegions :
    (let s := up .standby; let c := cmd [32, 0, 0, 0, 4096, 0] 0 (.frames pr32);
      prBars s (cPar c 0) = 0 ∧ prKeyOk s pr32 = true ∧ pr32.table.length = pr32.nFrames ∧ risingFrames pr32.table = true
        ∧ pr32.table.all (entryHere 32) = true ∧ s.io.waiting.length < 64)
    ∧ (bitsOf (cmd [32, 0, 0, 0, 4096, 0] 0 (.frames pr32)) = some pr32 ∧ accepts (up .standby) 0x0C01 chkPrLoad (cmd [32, 0, 0, 0, 4096, 0] 0 (.frames pr32)) = true ∧ prSigOk (up .standby) pr32 = true)
    ∧ (let c := cmd [32, 0, 0, 0, 4096, 0]; let r := waitingFor (up .standby) 0x0C01 c; let s := { r with fab := { r.fab with loads := [(32, pr32)] } };
      firstWaiting s (fun w => w.opcode == 0x0C01) = some (waitingOf 0x0C01 c)
        ∧ (lookup s.fab.loads (cPar (waitingOf 0x0C01 c).cmd 0)).isSome = true ∧ s.md.safeHold = none)
    ∧ accepts (up .standby) 0x0C02 chkFabRegion (cmd [39]) = true :=
  ⟨by decide +kernel, ⟨rfl, by decide +kernel, by simp [prSigOk, pr32, up, State.reset, State.resetFab]⟩, by decide +kernel, by decide +kernel⟩

/-! ### Witnesses: the churn engine -/

/-- An engine of die 0 that is about to execute an instruction, with another word behind it; its cycles have come. -/
def engOf (i : Instr) (next : Word := 0) : ChurnDie :=
  let e := newEngine [(0, (Decode.encode i).getD 0), (1, next)] [] 2
  { e with prog := (if (Decode.encode i).getD 0 = 0 then [] else [(0, (Decode.encode i).getD 0)]) ++ (if next = 0 then [] else [(1, next)]), m := { e.m with en := true, wexp := 10, running := true, avail := 100000 } }
def engAt (i : Instr) (next : Word := 0) : State := setChn (runAt (.step 9)) 0 (engOf i next)

theorem witness_ChurnRegisterInstructions :
    (∀ x ∈ [(Instr.nop 0, 1), (.ldi 0 7 0xFFFFF, 1), (.sethi 0 7 0xFFF, 1), (.add 0 1 2 3, 1), (.addi 0 1 1 0xFFFF, 1), (.setp 0 1 0, 1),
        (.setp 0 1 1, 1), (.setp 0 1 2, 1), (.getp 0 1 2, 1), (.setsh 0 31 31, 1), (.clra 0, 1), (.ldk 0 1 8191, 1), (.stk 0 1 8191, 1),
        (.getm 0 1 1, 1), (.getw 0 1 3, 1), (.jmp 0 4095, 2), (.br 0 1 1 0 4095, 2), (.br 0 1 1 1 4095, 1)],
      engineReady (engAt x.1) 0 x.1 x.2 (engOf x.1))
    ∧ brTaken 0 (kGet (engOf (.nop 0)).m 1) (kGet (engOf (.nop 0)).m 1) = true
    ∧ brTaken 1 (kGet (engOf (.nop 0)).m 1) (kGet (engOf (.nop 0)).m 1) = false := by unfold engineReady; decide +kernel

theorem witness_MacTakesTheClampedOperand :
    ∀ i ∈ [Instr.mac 0 16, .macs 0 16], engineReady (engAt i) 0 i 1 (engOf i) := by unfold engineReady; decide +kernel

theorem witness_StoresRoundHalfUpAndClamp :
    ∀ i ∈ [Instr.sta 0 0, .sta 0 1], engineReady (engAt i) 0 i 1 (engOf i) := by unfold engineReady; decide +kernel

theorem witness_SumsLoadsAndExtremesOfTheEngine :
    ∀ x ∈ [(Instr.suma 0, 2), (.ldz 0, 1), (.max 0 8191, 514), (.min 0 8191, 514), (.max 0 0, 3)],
      engineReady (engAt x.1) 0 x.1 x.2 (engOf x.1) := by unfold engineReady; decide +kernel

/-- An engine whose window closes at the end of cycle 0, one whose record waits with a host ring. -/
def closing : State := setChn (runAt (.bound 16)) 0 { engOf (.nop 0) with m := { (engOf (.nop 0)).m with wexp := 0 } }
def posting : ChurnDie := { engOf (.nop 0) with buf := [List.replicate 9 0], ring := some (0x1000, 65536, 0x8000, 0) }

theorem witness_ProgramsRepeatPostAndEnd :
    ((chnOf closing 0).isSome = true ∧ closing.seq.tick = .bound 16 ∧ ((chnOf closing 0).map (closeDue closing)) = some true)
    ∧ (let i := Instr.repeatN 0 1023; let w : Word := 0x14900001; let c := engOf i w;
      engineReady (engAt i w) 0 i (1 + fetchCost { c.m with cache := cacheAfter c.m c.m.pc } 1 + 1024) c
        ∧ instrAt c 0 1 = some (.addi 0 1 1 1) ∧ Instr.repeatable (.addi 0 1 1 1) = true ∧ Instr.wellFormed (.addi 0 1 1 1) = true
        ∧ c.m.k.length = 8)
    ∧ (let i := Instr.out 0 1023; engineReady (engAt i) 0 i 65 (engOf i) ∧ muted (engOf i) = false
      ∧ bufBytes (engOf i) + 4 * (1023 + 9) ≤ 65536)
    ∧ (let i := Instr.out 0 0; let c : ChurnDie := { engOf i with mute := some 0 };
      engineReady (setChn (runAt (.step 9)) 0 c) 0 i 2 c ∧ muted c = true)
    ∧ (let i := Instr.out 0 0; let c : ChurnDie := { engOf i with buf := [List.replicate 16384 0] }; 65536 < bufBytes c + 4 * (0 + 9))
    ∧ engineAt (engAt (.halt 0)) 0 (.halt 0) 1 = some (engOf (.halt 0))
    ∧ (let c : ChurnDie := { engOf (.nop 0) with m := { (engOf (.nop 0)).m with used := 99000, wexp := 9 } }; let s := setChn (runAt (.step 9)) 0 c;
      engineAt s 0 (.nop 0) 1 = some c ∧ budget s c.m.wexp ≤ c.m.used + fetchCost c.m c.m.pc + 1 ∧ muted c = false ∧ bufBytes c + 32 ≤ 65536)
    ∧ (let c : ChurnDie := { engOf (.nop 0) with poison := [0], progLen := 2 }; let s := setChn (runAt (.step 9)) 0 c;
      engineDue s 0 (.nop 0) 1 = some c ∧ c.m.pc ∈ c.poison ∧ c.m.pc ∉ c.m.cache ∧ c.m.pc < c.progLen ∧ c.m.pc < 4096 ∧ c.m.en = true ∧ muted c = false
        ∧ bufBytes c + 32 ≤ 65536)
    ∧ (let s := setChn (runAt (.step 9)) 0 posting; chnOf s 0 = some posting ∧ s.md.safeHold = none ∧ bitOf 0x1000 63 = false)
    ∧ (∀ x ∈ [(4, 1), (0, 0), (4, 0)], let base := 2 ^ 63 + 2 ^ 24 * 15;
      let r := setChn (runAt (.step 9)) 0 { posting with ring := some (base, 4096, 0x8000, 0) };
      let s := { r with banks := r.banks.set 15 { State.resetBank with owner := x.1, power := x.2 } };
      bitOf base 63 = true ∧ s.banks[base % 2 ^ 63 / bankBytes]? = some { State.resetBank with owner := x.1, power := x.2 }
        ∧ s.md.safeHold = none ∧ base % 2 ^ 24 + 4096 ≤ 2 ^ 24) := by
  unfold engineReady; decide +kernel

theorem witness_ReservedChurnEncodingsStopTheEngine :
    (∀ i ∈ [Instr.setp 0 1 3, .getp 0 1 3, .mac 0 17, .macs 0 31], (engineAt (engAt i) 0 i 1).isSome = true ∧ Instr.wellFormed i = false)
    ∧ (engineAt (engAt (.br 0 0 0 4 0)) 0 (.br 0 0 0 4 0) 2).isSome = true ∧ brTaken 4 (kGet (engOf (.nop 0)).m 0) (kGet (engOf (.nop 0)).m 0) = true
    ∧ (let i := Instr.repeatN 0 0; let w : Word := 0x0C200003; engineAt (engAt i w) 0 i 3 = some (engOf i w)
      ∧ instrAt (engOf i w) 0 1 = none) := by decide +kernel

/-! ### Witnesses: relays, datagrams, other controllers, faults and sensors -/

/-- A follower of the lead at position 0, and a relayed command that waits. -/
def follower (s : State) : State := { s with straps := { s.straps with pos := 1 } }
def relayedTo (acc : Bool) (path : Path) : Relayed := { pos := 2, opcode := 0x0900, tag := 1, seq := 0, accepted := acc, path := path, tko := true }
def withRelayed (r : Relayed) : State := { up .loaded with io := { (up .loaded).io with relayed := [r] } }

/-- A TIME_GET datagram of session 5, with its MAC under key 0 or with 0 in its place. -/
def gram (ctr : Nat) (good : Bool) : Datagram := {
  session := 5, counter := ctr, opcode := 0x0900, cmd := cmd [], mac := if good then datagramMac 0 5 ctr (commandPacket 0x0900 (cmd [])) else 0 }

def haz0 : HazRec := { kind := 1, halts := false, lost := false, step := 0, loc := 0, d1 := 0, d2 := 0, dcn := 0, time := 0, qual := 0, seq := 0 }
def evt0 : Event := { code := 8, status := 0, tag := 0, dcnLo := 0, seq := 0, payload := [] }

/-- A DDR read of port 3 of cluster 1 that has not been answered. -/
def read0 : DdrRead := { gc := 1, port := 3, issue := 4, lead := 5, gg := 32, bit0 := 0, width := 16, value := 0, key := 2048, chan := 0, tick := 0, arrived := false }
def reading (s : State) : State := { s with ds := { s.ds with ddr := [read0] } }

/-- A scrub finding on die 7. -/
def found (cls addr : Nat) (hit : Option EccHit) : ScrubFinding := {
  cls := cls, site := 7, addr := addr, place := .plain, hit := hit, synd := 0, wrong := 0, vote := false, micro := none }

/-- The key of the first instruction word of die 7's first cluster, and the repair of a word. -/
def key7 : Nat := 4096 * 448
def wordRepair : Repair := { code := 8, unit := 0, left := none, driven := 1, word := some (.cluInstr, key7), recs := [err0] }

theorem witness_RelayedCommandsRepliesAndEvents :
    (let r := up .loaded; let s := follower { r with peers := [] }; let c : Cmd := { cmd [] 0x10000 with path := .relay 0 true };
      c.path = .relay 0 true ∧ cPos c = posOf s ∧ canTake s c = true ∧ statusOf s 0x0900 (opAction 0x0900).1 c = 0
        ∧ behindSpillway s 0x0900 c = false
        ∧ (match ((opAction 0x0900).2 s c).2 with | .ok _ => true | _ => false) = true ∧ ((opAction 0x0900).2 s c).1.md.safeHold = none)
    ∧ (finalStatus 0x0307 = true ∧ 0x0307 ≠ 1 ∧ finalStatus 0x0603 = false)
    ∧ (let s := withRelayed (relayedTo false .pcie); s.io.relayed.find? (isRelayed 2 1 false) = some (relayedTo false .pcie)
      ∧ (relayedTo false .pcie).path = .pcie ∧ s.io.relayed.any (isRelayed 2 1 true) = false ∧ s.md.safeHold = none
      ∧ (relayedTo false .pcie).quiet = false ∧ s.io.relayed = [relayedTo false .pcie] ∧ (relayedTo false .pcie).tag = 1
      ∧ (relayedTo false .pcie).accepted = false)
    ∧ (let s := withRelayed (relayedTo true .pcie); s.io.relayed.find? (isRelayed 2 1 true) = some (relayedTo true .pcie)
      ∧ (relayedTo true .pcie).accepted = true ∧ (relayedTo true .pcie).quiet = false ∧ s.io.relayed = [relayedTo true .pcie] ∧ s.md.safeHold = none
      ∧ reaches s 2 = false) := by decide +kernel

theorem witness_DatagramsAndPostedEvents :
    (let r := withSession (up .loaded); let s := { r with sec := { r.sec with sessions := [{ sess5 with nextSeq := some 0, ctrIn := 4 }] } };
      let x := { sess5 with nextSeq := some 0, ctrIn := 4 };
      s.md.safeHold = none ∧ s.sec.sessions.find? (fun y => y.id == 5) = some x
        ∧ (gram 5 false).mac ≠ datagramMac x.key 5 5 (commandPacket 0x0900 (cmd []))
        ∧ (gram 4 true).mac = datagramMac x.key 5 4 (commandPacket 0x0900 (cmd [])) ∧ (gram 4 true).counter ≤ x.ctrIn ∧ x.ctrIn < (gram 5 true).counter
        ∧ (gram 5 true).mac = datagramMac x.key 5 5 (commandPacket 0x0900 (cmd [])) ∧ x.nextSeq = some (gram 5 true).cmd.seq ∧ acceptsOn s 5 0x0900 noCheck { cmd [] with path := .session 5 } = true)
    ∧ (let s := { up .loaded with io := { (up .loaded).io with queue := [evt0] } }; s.io.queue = [evt0] ∧ canPost s 8 = true)
    ∧ (let s := { up .loaded with err := { State.reset.err with queue := [err0] } }; s.err.queue = [err0] ∧ canPost s 3 = true)
    ∧ (let s := { up .loaded with haz := { State.reset.haz with queue := [haz0] } }; s.haz.queue = [haz0] ∧ canPost s 2 = true)
    ∧ (let s := { up .loaded with io := { (up .loaded).io with mask := 0x10C, queue := [evt0] } };
      canPost s 3 = false ∧ canPost s 2 = false ∧ s.io.queue = [evt0] ∧ ringTakes s = true ∧ canPost s evt0.code = false)
    ∧ ringTakes State.reset = false := by decide +kernel

theorem witness_OrdersAndReportsOfOtherControllers :
    (let s := { up .loaded with md := { State.reset.md with safeHold := some 1 } }; s.md.safeHold ≠ none)
    ∧ isLead (up .loaded) = true
    ∧ (let s := follower (runAt (.step 0)); s.md.safeHold = none ∧ isLead s = false ∧ s.md.mode = .run ∧ s.md.sub ≠ .halted)
    ∧ (let s := follower (loaded .loaded); s.md.safeHold = none ∧ isLead s = false ∧ s.md.mode = .loaded ∧ s.img.resident = some img0
      ∧ s.ckp.recovery = none)
    ∧ (let s := capAs (follower (runAt (.step 0))) .triggered none; s.md.safeHold = none ∧ isLead s = false ∧ capturing s = true)
    ∧ (let s := setIo (follower (up .loaded)) 0x15 0 2; s.md.safeHold = none ∧ isLead s = false ∧ timeSrc s = 2)
    ∧ (15 ≠ posOf (up .loaded) ∧ 15 < 16)
    ∧ (let s := { runAt (.step 0) with ckp := { State.resetCkp with busy := some ckp0 } }; s.md.safeHold = none ∧ s.ckp.busy = some ckp0 ∧ ckp0.dcn = 0) := by
  decide +kernel

theorem witness_ErrorsOfDesignMemoryAreMendedOrFatal :
    (let s := reading (runAt (.step 7)); s.ckp.recovery = none ∧ waitingRead s 1 3 = some read0 ∧ s.ds.poison.contains (read0.key / 4) = false
      ∧ (let y (x : BitVec 16) := ddrOutcome (ddrSyndrome (ddrWordAddr s read0.key) x 0); y 0 = .good ∧ y 0x8000 = .corrected ∧ y 0x0101 = .uncorrectable)
      ∧ granuleSaved s read0.key = false ∧ s.ckp.badDcn ≠ some s.seq.dcn)
    ∧ (let s := { reading (runAt (.step 7)) with ckp := { State.resetCkp with last := some { ckp0 with cow := [(1, [])] } } };
      s.ckp.recovery = none ∧ granuleSaved s read0.key = true ∧ s.ckp.badDcn ≠ some s.seq.dcn
        ∧ ({ s with ckp := { s.ckp with badDcn := some 0 } } : State).ckp.badDcn = some s.seq.dcn)
    ∧ (let r := inSlot 300 [{ k := 1, low := true, srcs := [] }] true; let s := { r with err := { r.err with repairs := [wordRepair] } };
      s.ckp.recovery = none ∧ s.err.repairs = [wordRepair] ∧ wordRepair.word = some (.cluInstr, key7) ∧ frozen s = true ∧ s.md.safeHold = none
        ∧ (held s).md.safeHold.isSome = true ∧ frozen (runAt (.step 0)) = false)
    ∧ (let r := { wordRepair with word := none }; [r].head? = some r ∧ r.word = none)
    ∧ (let s := runAt (.step 7); s.md.mode = .run ∧ 511 / 64 < nDies s ∧ 31 < 32 ∧ failedGroups s 511 = [] ∧ s.ident.worn.contains (511, 31) = false
      ∧ s.ident.worn.contains (511, 32) = false)
    ∧ (let r := runAt (.step 7); let s := { r with ds := { r.ds with failed := [(511, [3])] } };
      failedGroups s 511 ≠ [] ∧ (failedGroups s 511).contains 31 = false ∧ s.ident.worn.contains (511, 31) = false) := by decide +kernel

theorem witness_ScrubbersAndBankTest :
    (let s := runAt (.step 7); let ready (f : ScrubFinding) : Bool := !f.vote && f.micro == none && scrubHere f.site f.cls && placeOk s f && !scrubSkips s f;
      scrubbersRun s = true ∧ 7 < nDies s ∧ s.ckp.recovery = none
        ∧ (∀ n ∈ [20478, 20479], ready (found 4 n none) = true ∧ foundHit s (found 4 n none) = none)
        ∧ 20478 + 1 < scrubWords s 7 4 ∧ scrubWords s 7 4 ≤ 20479 + 1
        ∧ ready (found 4 0 (some .corrected)) = true ∧ foundHit s (found 4 0 (some .corrected)) = some .corrected
        ∧ ready (found 1 0 (some .uncorrectable)) = true ∧ foundHit s (found 1 0 (some .uncorrectable)) = some .uncorrectable
        ∧ (let f : ScrubFinding := { found 7 (ddrWordAddr s 0) none with site := 15, place := .region 0 }; ready f = true ∧ foundHit s f = none)
        ∧ (let f : ScrubFinding := { found 6 0 none with site := 15 }; ready f = true ∧ foundHit s f = none ∧ nextWord s 15 6 (0 + 1) = some 1
          ∧ scrubUnit 15 6 = some (2 ^ 21))
        ∧ (let f : ScrubFinding := { found 5 0 none with place := .frame 0x70000000 }; ready f = true ∧ foundHit s f = none ∧ nextWord s 7 5 (0 + 1) = some 1
          ∧ (scrubUnit 7 5).isSome = true)
        ∧ (let f : ScrubFinding := { found 0 0 (some .uncorrectable) with place := .instr .cluInstr key7 };
          ready f = true ∧ foundHit s f = some .uncorrectable ∧ s.ds.faulty.contains (.cluInstr, key7) = false
            ∧ [((.cluInstr : StoreKind), key7)].contains (.cluInstr, key7) = true)
        ∧ (let f : ScrubFinding := { found 6 0 none with site := 15 }; let b := { s with banks := s.banks.set 0 { State.resetBank with power := 2 } };
          f.vote = false ∧ f.micro = none ∧ scrubSkips b f = true))
    ∧ (∀ x ∈ [(3, false), (4, false), (4, true)], let b : Bank := { State.resetBank with used := x.1, stopped := x.2, region := 4095 };
      let r := setIo (up .standby) 0x13 0x4F0 4; let s := { r with banks := r.banks.set 15 b }; s.ckp.recovery = none ∧ s.banks[15]? = some b
      ∧ bitOf (ioReg s 0x13 (0x400 + 16 * 15)) 2 = true ∧ b.stopped = x.2 ∧ b.power = 0 ∧ 15 < 16 ∧ b.region < 4096) := by
  decide +kernel

theorem witness_SuppliesClocksAndSensors :
    (let s := up .standby; s.ckp.recovery = none ∧ 7 < nDies s ∧ s.pwr.lost.contains 7 = false ∧ s.pwr.clk.contains 7 = false
      ∧ hasSensors s 15 = true ∧ s.pwr.lost.contains 15 = false ∧ 760 ≤ (760 : Int) ∧ (736 : Int) ≤ 736
      ∧ bitOf (reg s (rkey 15 0x10 0x800)).toNat 6 = false ∧ 880 ≤ (2047 : Int) ∧ 7000 < 7001 ∧ 6799 < 6800)
    ∧ (trained.ucie.any (fun e => e.1 == clockModule trained 7 && e.2.st == 3) = true)
    ∧ (let s := { up .standby with pwr := { State.reset.pwr with clk := [7] } }; s.pwr.clk.contains 7 = true) := by decide +kernel

theorem witness_ControllersTakeOverRestartAndFail :
    (let s := up .standby; s.ctl.aFailed = false ∧ s.ctl.bFailed = false ∧ restarting s = false ∧ ctlFailed s (!s.ctl.activeB) = false
      ∧ ctlFailed s s.ctl.activeB = false ∧ s.md.safeHold = none ∧ 7 < nDies s ∧ lookup s.ctl.dieRestarts 7 = none ∧ s.ctl.fw = s.ctl.prod)
    ∧ (let s := { up .standby with err := { State.reset.err with pending := [{ err0 with cause := 0x0702 }] } };
      restarting s = true ∧ ctlFailed s (!s.ctl.activeB) = false)
    ∧ (let s := { up .standby with ctl := { State.resetCtl with fw := 5 } }; s.ctl.fw ≠ s.ctl.prod)
    ∧ (8 * 2 ^ 20 ≤ 9 * 2 ^ 20 - 2 ^ 20 ∧ 9 * 2 ^ 20 - (2 ^ 20 + 1) < 8 * 2 ^ 20)
    ∧ (let s := setIo (up .standby) 0x18 0x06C 9; 3 < 4 ∧ s.md.safeHold = none ∧ ioReg s 0x18 (0x060 + 4 * 3) ≠ 0) := by decide +kernel

/-! ### Witnesses: links between dies and boards, the packet network, trace -/

/-- Board link 7 of the device in a state, with 16 lanes in use. -/
def blAs (st : Nat) : BoardLink := { State.resetLink with st := st, version := 3, peerPos := 1, peerDie := 2, txUsed := List.range 16, rxUsed := List.range 16 }
def withBl (s : State) (b : BoardLink) : State := { s with bl := put s.bl 7 b }

/-- A training of that link that succeeds: all lanes lock and hear TS1 of die 2 at position 1, whose TS2 names this end. -/
def train0 : LinkTraining := {
  lanes := (List.range 18).map (fun l => { lane := l, tests := List.replicate 64 true, ts1 := ts1Word 6 1 2 0x80 l [] false, align := alignWord l, scr := 0 })
  ts2 := ts2Word 3 (List.range 16) false 0 7, tested := [], creditsOk := true, peak := 3, eye := 9 }

/-- A flit of sequence 0 on it: one step record of send step 351, channels 0 and 5; its bits scrambled lane by lane; one bit wrong or none. -/
def flitBits : Nat :=
  28933314729772536569850962028988283489521382901645617736975199924435450926406486403371564836116733996463143671935666267363901623733830997654003431734881654327151081222859156300304387912648222114515668878771124366656142284669822115512728727550499074441504642148104786309345566709051514126937683070353879318911

/-- The CRC bit by bit, in the form that the kernel runs through. -/
def crcGo (v : Nat) : List Nat → Nat → Nat
  | [], r => r
  | i :: is, r => if xor (bitOf r 23) (bitOf v i) then crcGo v is ((2 * r % 2 ^ 24) ^^^ 0x5D6DCB) else crcGo v is (2 * r % 2 ^ 24)

theorem crc24_eq_crcGo (start v n : Nat) : crc24 start v n = crcGo v (List.range n) start := by
  unfold crc24
  generalize List.range n = l
  induction l generalizing start with
  | nil => rfl
  | cons i is ih =>
    simp only [List.foldl_cons, crcGo]
    split <;> exact ih _

def onLanes (v : Nat) : LinkFlit := {
  blocks := (toLanes v 16).map (fun w => { header := 1, payload := (scramble 0 w).1 }), drift := 0, held := false }
def flit0 (good : Bool) : LinkFlit := onLanes (if good then flitBits else flitBits ^^^ 256)

/-- Flits of sequence 0 with one item: the marker of cycle 0 under TAG 5, and a middle flit of a packet on virtual network 0. -/
def markBits : Nat :=
  30030132370260543524920188877707082542848248095003636048226771696979109669358993517078052560640056590759712131027532019517099689391171364155311685064582949841231431449425714232434059951371616549340580024764674509928411699341835588157620030959907414755565978962022244027961509701769937790956688883499977932800
def middleBits : Nat :=
  75776435079962441314406840930243401441798105826880196342921486777814320421414296371684268498834933512310037435978878836057671550445536176851716337549036264400362223294922697250807728921450179910721237420981233335248917490144626772853597617688476278231009712647236928868891927473980346813065881499313375395840

/-- A device that runs with that link, a peer that sends 16 channels over it, and step 351 sent lately. -/
def linked (b : BoardLink) : State :=
  let s := withBl (runAt (.step 40)) b
  { s with
    seq := { s.seq with recent := [(351, 351)] }
    peers := [{ pos := 1, part := 0x80, mode := 3, dcn := 0, setId := 0, depth := 0, discipline := false, sigDigest := 0, ckpDcn := none, imported := false
                share := [(16, 1)], logEnd := 0, busy := false, stale := false, wrote := 0, named := [], topology := [], shorts := [], marked := [] }] }

theorem witness_RelayedOnward : let s := linked (blAs 3); let c : Cmd := { cmd [] 0x10000 with path := .relay 0 true }
    c.path = .relay 0 true ∧ cPos c ≠ posOf s ∧ reaches s (cPos c) = true ∧ s.md.safeHold = none := by decide +kernel

/-- UCIe module 3 in a state. -/
def modAs (st : Nat) : UcieMod := { State.resetMod with st := st, proto := 1 }
def withMod (s : State) (m : Nat) (u : UcieMod) : State := { s with ucie := put s.ucie m u }
def uciOk : UcieTraining := { sideband := true, mainband := true, txFailed := [], rxFailed := [], creditsOk := true }

/-- A device with an accessory site in a state of its admission. -/
def accAs (st : Nat) (u : UcieMod) : State :=
  let s := withMod (up .standby) 24 u
  { s with
    ident := { s.ident with accessory := 0x44 }
    boot := { s.boot with accepted := true }
    acc := { s.acc with st := st, identOk := true } }

/-- A packet of a virtual network between two endpoints. -/
def packet (vn src dst : Nat) : Packet := {
  src := src, dst := dst, tag := 9, srcPos := 0, dstPos := 0, vn := vn, status := 0, addr := 0, bytes := 4, words := [], poison := false }

/-- That training over which nothing was heard, and one whose TS2 names another version. -/
def silent : LinkTraining := { train0 with lanes := [] }
def otherVersion : LinkTraining := { train0 with ts2 := ts2Word 2 (List.range 16) false 0 7 }
def causeOf (s : State) (b : BoardLink) (r : LinkTraining) : Nat := trainingCause s 7 (heardLink s 7 b r) r

/-- The device with die 7's link booked by the image. -/
def bookedBl (b : BoardLink) : State :=
  let r := withBl (loaded .loaded) b
  { r with img := { r.img with resident := some { img0 with hdr := { hdr0 with stepShare := [(56, 16)] } } } }

theorem witness_BoardLinksTrain :
    (let s := withBl (up .standby) (blAs 2); linkOf s 7 = some (blAs 2) ∧ inTraining (blAs 2).st = true ∧ causeOf s (blAs 2) train0 = 0
      ∧ train0.creditsOk = true ∧ (blAs 2).fresh = true ∧ (blAs 2).quick = false ∧ linkBooked s 7 = false
      ∧ causeOf s (blAs 2) silent = 7 ∧ causeOf s (blAs 2) otherVersion = 4)
    ∧ (let s := bookedBl (blAs 2); linkOf s 7 = some (blAs 2) ∧ causeOf s (blAs 2) silent ≠ 0 ∧ linkBooked s 7 = true)
    ∧ (let s := withBl (up .standby) (blAs 3); let ms := List.replicate 1024 (5, 256 * 5 + 300); linkOf s 7 = some (blAs 3)
      ∧ canTrainWeir s 7 0 ms = true ∧ canTrainWeir s 7 5 ms = true ∧ inRepair s 10 56 = false ∧ inRepair s 10 61 = false
      ∧ canTrainWeir s 7 0 [(5, 6)] = false
      ∧ (let r := inSlot 300 [{ k := 1, low := true, srcs := [] }] true;
        let f := withBl { r with err := { r.err with repairs := [{ wordRepair with code := 10, unit := 56, word := none }] } } (blAs 3);
        linkOf f 7 = some (blAs 3) ∧ canTrainWeir f 7 0 ms = true ∧ recentring f 7 0 = true)) := by decide +kernel

theorem witness_BoardLinksRemapIdleAndFall :
    (let s := withBl (up .standby) (blAs 3); linkOf s 7 = some (blAs 3) ∧ linkCarries (blAs 3) = true
      ∧ (blAs 3).txUsed.contains 15 = true
      ∧ (let n := lanesAfter (blAs 3).txUsed (ins (blAs 3).txFail 15) 15; n ≠ [] ∧ n.length = (blAs 3).txUsed.length)
      ∧ (let n := lanesAfter { blAs 3 with txFail := [16, 17] }.txUsed (ins [16, 17] 15) 15; n ≠ [] ∧ n.length ≠ 16)
      ∧ (let b := { blAs 3 with txUsed := List.range 8, txFail := (List.range 10).map (· + 8) };
        linkCarries b = true ∧ b.txUsed.contains 7 = true ∧ lanesAfter b.txUsed (ins b.txFail 7) 7 = [])
      ∧ (let q := { blAs 3 with quick := true }; causeOf s q train0 = 0 ∧ causeOf s q silent ≠ 0)
      ∧ linkBooked s 7 = false ∧ (blAs 3).st = 3 ∧ s.md.mode = .standby ∧ (blAs 3).version = 3 ∧ linkUp (blAs 3) = true)
    ∧ (let s := withBl (setReg (up .standby) (rkey 7 0x11 0x100) 1) (blAs 3); linkOf s 7 = some (blAs 3) ∧ bitOf (reg s (rkey 7 0x11 0x100)).toNat 0 = true
      ∧ s.md.mode = .standby ∧ linkWork s 7 (blAs 3) = false ∧ (blAs 3).tx.owed.all (· == 0) = true
      ∧ linkWork s 7 { blAs 3 with tx := { State.resetTx with timing := 3 } } = true)
    ∧ (let s := bookedBl (blAs 3); linkOf s 7 = some (blAs 3) ∧ linkBooked s 7 = true ∧ causeOf s { blAs 3 with quick := true } silent ≠ 0)
    ∧ (let s := withBl (up .standby) (blAs 4); linkOf s 7 = some (blAs 4) ∧ (blAs 4).st = 4 ∧ { peer := true, heads := [] : IdleWake }.peer = true
      ∧ linkWork s 7 (blAs 4) = false ∧ [(1 : BitVec 2), 1, 2, 1].all headerOk = true ∧ [(1 : BitVec 2), 1, 2, 0].all headerOk = false)
    ∧ { blAs 5 with loopMode := 4 }.loopMode = 4 ∧ (runAt (.step 0)).md.mode = .run := by decide +kernel

theorem witness_BoardFlits :
    (let s := linked (blAs 3); let b := blAs 3;
      let v (f : LinkFlit) := ofLanes ((takeBlocks (nowNs s) b f.blocks).map (fun g => g.2.2));
      let body (n : Nat) := parseBody true (rxS s 7 b) (fld n (bodyBits true + 7) 8);
      let clean (f : LinkFlit) : Bool := f.blocks.length == b.rxUsed.length && (takeBlocks (nowNs s) b f.blocks).all (fun g => !laneFails (nowNs s) g.1);
      linkOf s 7 = some b ∧ linkCarries b = true ∧ clean (flit0 true) = true ∧ clean (flit0 false) = true
        ∧ v (flit0 true) = flitBits ∧ v (flit0 false) = flitBits ^^^ 256 ∧ (body flitBits).records = [(351, 33)] ∧ (body flitBits).items = []
        ∧ lookup s.seq.recent 351 = some 351 ∧ 351 + 160 < depthOf s ∧ weirShort s 7 0 = false)
    ∧ (let r := linked (blAs 3); let s := { r with seq := { r.seq with recent := [(5, 0)] } }; let b := blAs 3;
      let v (f : LinkFlit) := ofLanes ((takeBlocks (nowNs s) b f.blocks).map (fun g => g.2.2));
      let body (n : Nat) := parseBody true (rxS s 7 b) (fld n (bodyBits true + 7) 8);
      let clean (f : LinkFlit) : Bool := f.blocks.length == b.rxUsed.length && (takeBlocks (nowNs s) b f.blocks).all (fun g => !laneFails (nowNs s) g.1);
      linkOf s 7 = some b ∧ clean (onLanes markBits) = true ∧ clean (onLanes middleBits) = true ∧ v (onLanes markBits) = markBits ∧ v (onLanes middleBits) = middleBits
        ∧ (∃ x ∈ (body markBits).items, (body markBits).items = [x] ∧ fld x 143 140 = 3
          ∧ (s.seq.recent.find? (fun r => r.1 == fld x 25 16)).map (·.2) = some 0)
        ∧ (∃ x ∈ (body middleBits).items, (body middleBits).items = [x] ∧ fld x 143 140 = 1 ∧ isTail x = false)) := by decide +kernel

theorem witness_FlitsGoodAndBad :
    flitGood true (blAs 3).expect flitBits = true ∧ flitGood true (blAs 3).expect (flitBits ^^^ 256) = false
    ∧ flitGood true (blAs 3).expect markBits = true ∧ flitGood true (blAs 3).expect middleBits = true := by
  simp only [flitGood, crc24_eq_crcGo]; decide +kernel

theorem witness_RetriesAndMarkers :
    (blAs 3).nakSent = false ∧ (let b := { blAs 3 with nakSent := true }; b.nakSent = true ∧ b.tx.nakWait = 0)
    ∧ (let b := { blAs 3 with nakSent := true, tx := { State.resetTx with nakWait := 64, retry := [⟨0, 0, { records := [], items := [] }⟩] } };
      linkOf (linked b) 7 = some b ∧ b.nakSent = true ∧ b.tx.nakWait ≠ 0 ∧ b.tx.retry ≠ [] ∧ linkCarries b = true ∧ (blAs 3).tx.retry = []
        ∧ linkUp b = true ∧ b.parts = [] ∧ linkUp (blAs 2) = false)
    ∧ (let r := linked (blAs 3); let s := { r with seq := { r.seq with recent := [(5, 0)] } };
      markerOk s 1 0 5 = true ∧ markerOk s 1 9 5 = false ∧ markerOk s 1 0 6 = false ∧ markerOk s 0 0 5 = false ∧ stepping s = true ∧ 7 < nDies s
      ∧ routeHere s 7 1 = true ∧ s.ckp.recovery = none)
    ∧ (let r := linked (blAs 3); let s := { r with ckp := { State.resetCkp with recovery := some (rec0 true 5) } };
      s.ckp.recovery ≠ none ∧ stepping s = true ∧ routeHere s 7 1 = true ∧ markerOk s 1 9 5 = false) := by decide +kernel

theorem witness_UcieModulesAndAccessorySite :
    (let s := withMod (up .standby) 3 (modAs 2); modOf s 3 = some (modAs 2) ∧ inTraining (modAs 2).st = true ∧ (trainWidth (modAs 2) (fusedMap s 3) uciOk).st ≠ 1
      ∧ (trainWidth (modAs 2) (fusedMap s 3) { uciOk with txFailed := [33, 34, 35, 36, 37] }).st = 4)
    ∧ (let s := withMod (up .boot) 3 (modAs 2); afterReset s 3 = true ∧ s.md.mode = .boot ∧ s.boot.phase ≠ 7 ∧ { uciOk with sideband := false }.sideband = false)
    ∧ (let s := withMod (up .standby) 3 (modAs 3); let r : ParamRecord := { second := false, site := 1, ioDie := false, proto := 1, caps := 0, serial := 0 };
      modTrained (modAs 3) = true ∧ (moduleEnds s 3).1 = 1 ∧ identOf (moduleEnds s 3).1 r = true ∧ 1 < nDies s
      ∧ lookup (modAs 3).heard 1 = none ∧ lookup { modAs 3 with heard := [(1, 3, 1)] }.heard 1 = some (3, 1) ∧ agreedProto 3 r.proto ≠ 0
      ∧ (modAs 3).txFused + (modAs 3).txTrained < 4 ∧ (-2 : Int).natAbs ≤ 2 ∧ 2 < (3 : Int).natAbs)
    ∧ 4 ≤ { modAs 3 with txTrained := 4 }.txFused + { modAs 3 with txTrained := 4 }.txTrained
    ∧ ((modAs 4).st = 4 ∧ 63 / 32 ≠ (modAs 4).half ∧ 31 / 32 = (modAs 4).half)
    ∧ (modOf (accAs 0 (modAs 2)) 24 = some (modAs 2) ∧ (accAs 0 (modAs 2)).boot.accepted = true ∧ (accAs 0 (modAs 2)).acc.st = 0)
    ∧ (1 ≤ (accAs 2 (modAs 3)).acc.st ∧ (accAs 3 (modAs 3)).acc.st ≤ 3 ∧ (accAs 2 (modAs 3)).boot.accepted = true)
    ∧ (modOf (accAs 0 (modAs 3)) 24 = some (modAs 3) ∧ (modAs 3).proto ≠ 0 ∧ (accAs 0 (modAs 3)).acc.identOk = true)
    ∧ (let s := accAs 3 (modAs 3); let d : AdmissionDesc := { magic := 0x44414541, fmt := 1, kind := orderedKind s, serial := 0, channels := 8, gbps := 16, capacity := if orderedKind s == 1 then 96 else 0, sigOk := true, reservedOk := true };
      s.acc.st = 3 ∧ descriptorCause s d = 0 ∧ descriptorCause s { d with fmt := 2 } ≠ 0) := by decide +kernel

/-- A requester with no request outstanding may ask for what every requester has room for. -/
theorem mayGo_of_room {s : State} {p : Packet} {n k : Nat} (hw : wayOpen s (vn01Way s p) n = true) (h0 : s.net.asked = []) (hk : k ≤ 33) :
    mayGo s p n k = true := by
  have : holdsRoom s p k = true := by
    simp only [holdsRoom, mayAsk, heldRoom, h0, responseRoom, List.filter_nil, List.map_nil, List.sum_nil, Bool.or_eq_true, decide_eq_true_eq]
    exact .inr (by omega)
  simp [mayGo, hw, this]

theorem witness_PacketsThatMayGo :
    (let s := up .loaded; let p := packet 0 0x0000 0x1000;
      mayGo s p 2 (responseFlits p.bytes) = true ∧ mayGo s p 2 1 = true ∧ mayGo s p 2 0 = true
        ∧ mayGo s (packet 0 0 0x103F) 2 (responseFlits 4) = true
        ∧ mayGo { s with net := { s.net with spill := [1] } } p 2 (responseFlits p.bytes) = true
        ∧ mayGo { s with net := { s.net with spill := [0] } } p 2 (responseFlits p.bytes) = true
        ∧ mayGo (setOutstanding s (spokeTo p.src) (vcIndex 0 0) 95) p 2 (responseFlits p.bytes) = false)
    ∧ (let s := up .loaded; let p := { packet 0 (ownerAddress 0) bankAddress with words := [5], addr := 8 };
      mayGo s p 2 (responseFlits p.bytes) = true ∧ mayGo s p 3 1 = true ∧ mayGo s { p with src := 0 } 2 (responseFlits p.bytes) = true) := by
  refine ⟨⟨?_, ?_, ?_, ?_, ?_, ?_, ?_⟩, ?_, ?_, ?_⟩
  all_goals first
    | exact mayGo_of_room (by decide +kernel) rfl (by decide +kernel)
    | decide +kernel

theorem witness_PacketsAreAnsweredCountedOrTaken :
    (let s := up .loaded; let p := packet 0 0x0000 0x1000; p.vn = 0 ∧ accessoryBars s 0 p = false ∧ accessoryBars s 1 (packet 1 0 0x1000) = false ∧ s.md.mode ≠ .boot ∧ p.dstPos = posOf s
      ∧ s.net.spill.contains (naSite p.dst) = false ∧ p.poison = false ∧ endpointHere s p.dst = true ∧ banksHere p = false
      ∧ endpointHere s (packet 0 0 0x103F).dst = false ∧ { p with poison := true }.poison = true ∧ (packet 1 0 0x1000).vn = 1
      ∧ (let r := { s with net := { s.net with spill := [1] } }; r.net.spill.contains (naSite p.dst) = true)
      ∧ (let r := { s with net := { s.net with spill := [0] } }; r.net.spill.contains (naSite p.src) = true ∧ r.net.spill.contains (naSite p.dst) = false))
    ∧ (let r := runAt (.step 7);
      let s := { r with ds := { r.ds with ddr := [{ read0 with gc := 64, port := 1 }] }, ckp := { State.resetCkp with last := some { ckp0 with cow := [(1, [])] } } };
      let p := packet 1 0x0000 0x1000;
      naSite p.dst < nDies s ∧ naEnd p.dst = 0
        ∧ s.ds.ddr.find? (fun r => r.gc == 64 * naSite p.dst + 16 * (naX p.dst / 4 + 2 * (naY p.dst / 4)) + naX p.dst % 4 + 4 * (naY p.dst % 4) && !r.arrived && r.port == p.tag % 4)
          = some { read0 with gc := 64, port := 1 }
        ∧ granuleSaved s 2048 = true ∧ s.ckp.recovery = none ∧ s.ckp.badDcn ≠ some s.seq.dcn ∧ ({ p with poison := true } : Packet).poison = true) := by decide +kernel

theorem witness_PacketsOfTheServiceBanks :
    let s := up .loaded; let p := { packet 0 (ownerAddress 0) bankAddress with words := [5], addr := 8 }
    p.vn = 0 ∧ accessoryBars s 0 p = false ∧ s.md.mode ≠ .boot ∧ p.dstPos = posOf s ∧ s.net.spill.contains (naSite p.dst) = false ∧ p.poison = false
      ∧ endpointHere s p.dst = true ∧ banksHere p = true ∧ s.banks[p.addr.toNat / bankBytes]? = some State.resetBank ∧ 0 < p.bytes
      ∧ p.addr.toNat % bankBytes + p.bytes ≤ bankBytes ∧ ownsBank s State.resetBank p = true
      ∧ State.resetBank.power = 0 ∧ p.words ≠ [] ∧ p.addr.toNat % bankBytes + 4 * p.words.length ≤ bankBytes
      ∧ ownsBank s State.resetBank { p with src := 0 } = false := by decide +kernel

/-- A message of one word as a ring entry. -/
def message0 : List Word := 0x00100001 :: 0 :: 0 :: 0 :: List.replicate 16 7

theorem witness_MessagesOverThePacketNetwork :
    (let ch := { chan3 true [] [] with cfg := { entry3 with source := 2, link := 7 }, credits := 1 }; let s := withBl (withChan (runAt (.step 7)) ch) (blAs 3);
      let p := { packet 0 0x0000 trxAddress with srcPos := 1, words := message0 };
      p.vn = 0 ∧ p.dst = trxAddress ∧ p.dstPos = posOf s ∧ p.poison = false ∧ chanOf s 3 = some ch ∧ takesIn s ch = true ∧ ch.credits ≠ 0
        ∧ packetSource s p ch = some ch.cfg.source.toNat ∧ ch.cfg.source ≠ 1 ∧ entryOk ch (parseEntry ch.fmt p.words) = true
        ∧ { ch with credits := 0 }.credits = 0 ∧ { p with poison := true }.poison = true)
    ∧ (let r := runAt (.step 7); let s := { r with acc := { r.acc with gbps := 16 } }; partnerRoom s = true) := by decide +kernel

/-- A device with its modules trained and its route tables. -/
def routed : State := buildRoutes trained

theorem witness_CaptureBlockParts :
    (let s := { up .loaded with cap := { State.resetCap with parts := [(16 * 1 + 5, 6, [], false)] } }; let p := { packet 2 0 0 with die := 15, srcPos := 1 };
      p.vn = 2 ∧ p.poison = false ∧ partArrives s p 1 5 = true ∧ 6 < 7 ∧ lookup s.cap.parts (16 * 1 + 5) = some (6, [], false)
        ∧ (partTravels s p 1 5).isSome = true ∧ 5 ≠ 6 ∧ partArrives s { p with die := 3 } 1 5 = false ∧ (packet 1 0 0).vn ≠ 2
        ∧ naSite p.src ≠ 8 ∧ s.md.safeHold = none ∧ naSite (packet 2 0x8000 0).src = 8 ∧ 0 = posOf s)
    ∧ (let s := routed; let p := packet 2 0 0; partArrives s p 0 5 = true ∧ (partTravels s p 0 5).isSome = true) := by decide +kernel

/-- Trace into bank 0, which the trace owns. -/
def tracing (ctrl size wptr : Nat) : State :=
  let s := setIo (setIo (setIo (up .standby) 0x16 0x000 ctrl) 0x16 0x010 size) 0x16 0x014 wptr
  { s with banks := s.banks.set 0 { State.resetBank with owner := 3 } }

theorem witness_TraceFunnelRulesAndGates :
    (let p := { packet 2 0 0 with words := List.replicate 8 1 }; let s := tracing 1 1 4064;
      p.vn = 2 ∧ naSite p.src ≠ 8 ∧ p.poison = false ∧ p.words.length = 8 ∧ bankRefuses s = false ∧ trcWptr s + 32 ≤ trcSize s ∧ trcWptr s + 32 < 2 ^ 32
        ∧ { p with poison := true }.poison = true ∧ (packet 1 0 0).vn ≠ 2 ∧ naSite (packet 2 0x8000 0).src = 8 ∧ (packet 2 0x8000 0).srcPos = posOf s)
    ∧ trcDest (tracing 1 1 4064) = 0 ∧ (let s := tracing 0x8001 1 4064; trcDest s = 2 ∧ bankRefuses s = false)
    ∧ (let s := tracing 1 1 4096; bankRefuses s = false ∧ trcSize s < trcWptr s + 32 ∧ bitOf (trcCtrl s) 13 = false)
    ∧ ruleFires (tracing 1 1 0) { cmp := 0 } = false
    ∧ (let r := setIo (tracing 1 1 0) 0x16 0x060 0x4140; let s := { r with trc := { r.trc with hostIn := true } }; ruleFires s { cmp := 0 } = true)
    ∧ (10 < 11 ∧ (up .standby).trc.gated.contains 10 = false)
    ∧ (let s := { up .standby with trc := { State.reset.trc with gated := [10] } }; s.trc.gated.contains 10 = true) := by decide +kernel

theorem witness_StepKeepsTheModeLegal : (runAt (.step 0)).legalMode ∧ (up .standby).legalMode
    ∧ step { runAt (.step 0) with pending := [.runHalt (cmd [])] } = .next (match step { runAt (.step 0) with pending := [.runHalt (cmd [])] } with | .next t => t | _ => State.reset) := by
  refine ⟨?_, ?_, rfl⟩ <;> intro h <;> revert h <;> decide +kernel

/-! ### Witness: an image that passes every check of R209 -/

/-- A 9640 in STANDBY with 128 GB. -/
def sm : State := buildSig { up .standby with
  ident := { State.reset.ident with small := true }, ucie := State.resetUcie true 0x4E
  bl := (List.range 4).map (fun d => (d, { State.resetLink with st := 1, cause := 1 }))
  img := { State.resetImg with ddrGb := 128, area := 1000000, free := 1000000 } }

/-- The k-th section of the image: of a type, for a unit. -/
def secOf (k : Nat) (r : Nat × Nat) : SectionEntry := {
  typ := r.1, scope := if scopeKind r.1 == 1 then mkLoc r.2 0 0 0 else if scopeKind r.1 == 2 then siteLoc r.2 else 0, offset := 65536 + 524288 * k
  length := match r.1 with | 0x10 => 11 * 512 * 64 | 0x11 => 9 * 32 * 64 | 0x12 => 18 * 64 | _ => 64
  reserved := false }

/-- Its section table. -/
def tabV : List SectionEntry := (indexed (requiredSections sm img0)).map (fun e => secOf e.1 e.2)

/-- The smallest image that the 9640 accepts: every section that must be there, empty stores. -/
def imgV : Image := { img0 with
  hdr := { hdr0 with
    magic := 0x49444541, hdrBytes := 256, imageBytes := 700000000, secTable := 256, depth := 64, devices := (nth 0 (liveSig sm) 0).toNat, sigDigest := liveDigest sm }
  table := tabV, sig := liveSig sm, rows := [], regions := [] }
def jobV : LoadJob := { image := imgV, bytes := 700000000, slots := 0, staged := false, logMb := 0, cowGb := 0, check := 0 }
def loadingV : State := { sm with img := { sm.img with loading := some jobV } }

/-- A number that tells the sections of the table apart, rising along it. -/
def secKey (t u : Nat) : Nat := if t == 1 then 0 else if t == 0x16 then 1 else if t == 0x14 then 2 + u else 10 + 8 * u + (t - 0x10)

/-- Offsets and keys rise from each entry of a table to the next. -/
def risingTable : List SectionEntry → Bool
  | a :: b :: r => decide (a.offset + 524288 ≤ b.offset) && decide (secKey a.typ (scopeUnit a) < secKey b.typ (scopeUnit b)) && risingTable (b :: r)
  | _ => true

theorem risingTable_before (a : SectionEntry) (r : List SectionEntry) (h : risingTable (a :: r) = true) :
    ∀ e ∈ r, a.offset + 524288 ≤ e.offset ∧ secKey a.typ (scopeUnit a) < secKey e.typ (scopeUnit e) := by
  induction r generalizing a with
  | nil => intro e he; cases he
  | cons b r ih =>
    simp only [risingTable, Bool.and_eq_true, decide_eq_true_eq] at h
    intro e he
    rcases List.mem_cons.1 he with rfl | he
    · exact h.1
    · have := ih b h.2 e he
      omega

theorem risingTable_take (l : List SectionEntry) (h : risingTable l = true) (k : Nat) (e : SectionEntry) (he : l[k]? = some e) :
    ∀ b ∈ l.take k, b.offset + 524288 ≤ e.offset ∧ secKey b.typ (scopeUnit b) < secKey e.typ (scopeUnit e) := by
  induction l generalizing k with
  | nil => intro b hb; simp at hb
  | cons a r ih =>
    cases k with
    | zero => intro b hb; simp at hb
    | succ k =>
      intro b hb
      rcases List.mem_cons.1 (List.take_succ_cons ▸ hb) with rfl | hb
      · exact risingTable_before b r h e (List.mem_of_getElem? he)
      · refine ih ?_ k he b hb
        cases r with
        | nil => rfl
        | cons c r => simp only [risingTable, Bool.and_eq_true] at h; exact h.2

theorem mem_indexed {α : Type} (xs : List α) (k : Nat) (x : α) (h : (k, x) ∈ indexed xs) : xs[k]? = some x := by
  obtain ⟨n, hn, he⟩ := List.mem_iff_getElem.1 h
  simp only [indexed, List.getElem_zip, List.getElem_range, Prod.mk.injEq] at he
  obtain ⟨rfl, rfl⟩ := he
  exact List.getElem?_eq_getElem _

/-- What check 6 asks of an entry by itself. -/
def entryOk6 (s : State) (i : Image) (e : SectionEntry) : Bool :=
  sectionTypes.contains e.typ && e.typ != 0x50 && e.typ != 0x51 && e.typ != 0x60 && e.typ != 0xF0 && !e.reserved && !e.reserved18 && scopeOk s i e
    && e.offset % 64 == 0 && decide (65536 ≤ e.offset) && decide (e.offset + e.length ≤ 700000000) && lengthOk i e && decide (e.length ≤ 524288)

theorem table_rising : risingTable imgV.table = true := by decide +kernel
theorem table_entries : imgV.table.all (entryOk6 loadingV imgV) = true := by decide +kernel
theorem table_length : imgV.table.length = 1286 := by decide +kernel
theorem table_required : requiredSections loadingV imgV = requiredSections sm img0 := by decide +kernel
theorem table_units : (indexed (requiredSections sm img0)).all (fun e => (secOf e.1 e.2).typ == e.2.1 && scopeUnit (secOf e.1 e.2) == e.2.2) = true := by
  decide +kernel

theorem mem_of_indexed {α : Type} (xs : List α) (n : Nat) (h : n < xs.length) : (n, xs[n]) ∈ indexed xs :=
  List.mem_iff_getElem.2 ⟨n, by simpa [indexed] using h, by simp [indexed]⟩

theorem table_has (req : List (Nat × Nat)) (tab : List SectionEntry) (ht : tab = (indexed req).map (fun e => secOf e.1 e.2))
    (hu : (indexed req).all (fun e => (secOf e.1 e.2).typ == e.2.1 && scopeUnit (secOf e.1 e.2) == e.2.2) = true) :
    req.any (fun r => !tab.any (fun e => e.typ == r.1 && scopeUnit e == r.2)) = false := by
  rw [List.any_eq_false]
  intro r hr
  obtain ⟨n, hn, rfl⟩ := List.mem_iff_getElem.1 hr
  have hm := mem_of_indexed req n hn
  simp only [Bool.not_eq_true', Bool.not_eq_false, List.any_eq_true]
  exact ⟨_, ht ▸ List.mem_map.2 ⟨_, hm, rfl⟩, List.all_eq_true.1 hu _ hm⟩

/-- What the single entries of a table give one of them. -/
theorem entry_clear (i : Image) (k : Nat) (e : SectionEntry) (he : i.table[k]? = some e) (hr : risingTable i.table = true)
    (ha : i.table.all (fun b => decide (b.length ≤ 524288)) = true) :
    (i.table.take k).any (fun b => b.typ == e.typ && scopeUnit b == scopeUnit e) = false ∧ (i.table.take k).any (overlaps e) = false := by
  have hb := risingTable_take _ hr k e he
  constructor
  · rw [List.any_eq_false]
    intro b hbm hc
    have := (hb b hbm).2
    simp only [Bool.and_eq_true, beq_iff_eq] at hc
    rw [hc.1, hc.2] at this
    exact absurd this (Nat.lt_irrefl _)
  · rw [List.any_eq_false]
    intro b hbm
    have := (hb b hbm).1
    have hl := List.all_eq_true.1 ha b (List.mem_of_mem_take hbm)
    simp only [decide_eq_true_eq] at hl
    simp only [overlaps, Bool.and_eq_true, decide_eq_true_eq]
    omega

/-- Check 6 of a table that rises, whose entries are in order by themselves and which has what must be there. -/
theorem check6_nil (s : State) (i : Image) (hr : risingTable i.table = true) (ho : i.table.all (entryOk6 s i) = true)
    (hlen : i.table.length = 1286) (hsec : i.hdr.secTable = 256) (hby : i.hdr.imageBytes = 700000000) (hgap : i.gap = none)
    (hreq : (requiredSections s i).any (fun r => !i.table.any (fun e => e.typ == r.1 && scopeUnit e == r.2)) = false) : check6 s i = [] := by
  have hl : i.table.all (fun b => decide (b.length ≤ 524288)) = true := by
    rw [List.all_eq_true]
    intro b hb
    have := List.all_eq_true.1 ho b hb
    simp only [entryOk6, Bool.and_eq_true] at this
    exact this.2
  unfold check6
  rw [hgap, List.append_nil, List.append_eq_nil_iff]
  constructor
  · rw [List.flatMap_eq_nil_iff]
    rintro ⟨k, e⟩ hk
    have he := mem_indexed _ _ _ hk
    have hx := List.all_eq_true.1 ho e (List.mem_of_getElem? he)
    obtain ⟨h12, h13⟩ := entry_clear i k e he hr hl
    simp only [entryOk6, Bool.and_eq_true, decide_eq_true_eq, beq_iff_eq, bne_iff_ne, Bool.not_eq_true'] at hx
    obtain ⟨⟨⟨⟨⟨⟨⟨⟨⟨⟨⟨⟨h1, h2⟩, h3⟩, h4⟩, h5⟩, h6⟩, h15⟩, h7⟩, h8⟩, h9⟩, h10⟩, h14⟩, h11⟩ := hx
    simp only [hlen, hsec, hby]
    have hh : overlaps e { typ := 0xF0, scope := 0, offset := 0, length := 256, reserved := false } = false := by
      simp only [overlaps, Bool.and_eq_false_iff, decide_eq_false_iff_not]; left; omega
    have ht : overlaps e { typ := 0xF0, scope := 0, offset := 256, length := 32 * 1286, reserved := false } = false := by
      simp only [overlaps, Bool.and_eq_false_iff, decide_eq_false_iff_not]; left; omega
    simp [fieldsOf, h2, h3, h4, h6, h7, h8, h12, h13, h14, h15, Nat.not_lt.2 h10]
    exact ⟨by simpa using h1, hh, ht⟩
  · simp only [hreq, hlen, hsec, hby]
    decide +kernel

theorem runChecks_none (s : State) (j : LoadJob) (k n : Nat) (h : ∀ m, n ≤ m → m < n + k → loadCheck s j m = []) : runChecks s j none k n = none := by
  induction k generalizing n with
  | zero => rfl
  | succ k ih =>
    have h0 := h n (Nat.le_refl n) (by omega)
    simp only [runChecks, h0, firstItem]
    exact ih (n + 1) (fun m h1 h2 => h m (by omega) (by omega))

theorem imgV_table : imgV.table = tabV := by simp only [imgV]

theorem imgV_check6 : check6 loadingV imgV = [] :=
  check6_nil loadingV imgV table_rising table_entries table_length rfl rfl rfl
    (by rw [table_required]; exact table_has _ _ (by rw [imgV_table, tabV]) table_units)

/-- The image passes every check; one with a wrong magic number fails. -/
theorem witness_ImageLoadTakesEffectAtItsEnd :
    loadingV.img.loading = some jobV ∧ runChecks loadingV jobV none 14 1 = none
    ∧ (runChecks loadingV { jobV with image := img0 } none 14 1).isSome = true
    ∧ (let c := cmd [0, 0, 0, 0, 700000000, 0] 0 (.image imgV);
      accepts sm 0x0102 chkImageLoad c = true ∧ sm.img.loading = none ∧ sm.img.resetting = false ∧ sm.io.waiting.length < 64 ∧ cPar c 0 = 0
        ∧ sm.md.mode ≠ .loaded) := by
  refine ⟨rfl, ?_, by decide +kernel, by decide +kernel⟩
  have h1 : check1 loadingV imgV 700000000 = [] := by decide +kernel
  have h2 : check2 imgV = [] := by decide +kernel
  have h3 : check3 loadingV imgV 0 = [] := by decide +kernel
  have h4 : check4 imgV = [] := by decide +kernel
  have h5 : check5 loadingV imgV = [] := by decide +kernel
  have h7 : check7 imgV = [] := by decide +kernel
  have h8 : check8 imgV = [] := by decide +kernel
  have h9 : check9 imgV = [] := by decide +kernel
  have h10 : check10 loadingV imgV = [] := by decide +kernel
  have h11 : check11 loadingV imgV = [] := by decide +kernel
  have h12 : check12 loadingV jobV = [] := by decide +kernel
  have h13 : check13 loadingV imgV = [] := by decide +kernel
  have h14 : check14 loadingV imgV = [] := by decide +kernel
  refine runChecks_none _ _ _ _ (fun m hm hk => ?_)
  match m, hm, hk with
  | 1, _, _ => exact h1
  | 2, _, _ => exact h2
  | 3, _, _ => exact h3
  | 4, _, _ => exact h4
  | 5, _, _ => exact h5
  | 6, _, _ => exact imgV_check6
  | 7, _, _ => exact h7
  | 8, _, _ => exact h8
  | 9, _, _ => exact h9
  | 10, _, _ => exact h10
  | 11, _, _ => exact h11
  | 12, _, _ => exact h12
  | 13, _, _ => exact h13
  | 14, _, _ => exact h14
  | m + 15, _, hk => omega

/-! ### Well-formedness -/

/-- Every check refuses a term that breaks it, and takes one at its boundary. -/
theorem test_wellFormed_refuses :
    [Instr.setp 0 1 3, .getp 0 1 3, .mac 0 17, .macs 0 17, .br 0 1 2 4 0].all (fun i => !Instr.wellFormed i) = true
    ∧ [Instr.setp 0 1 2, .getp 0 1 2, .mac 0 16, .macs 0 16, .br 0 1 2 3 0].all Instr.wellFormed = true := by decide

theorem test_repeatable_refuses :
    Instr.repeatable (.repeatN 0 3) = false ∧ Instr.repeatable (.suma 0) = false ∧ Instr.repeatable (.jmp 0 3) = false ∧ Instr.repeatable (.out 0 3) = false
    ∧ Instr.repeatable (.mac 0 16) = true := by decide

theorem test_targetOk_refuses : Instr.targetOk 8 (.jmp 0 8) = false ∧ Instr.targetOk 8 (.br 0 1 2 0 7) = true ∧ Instr.targetOk 8 (.br 0 1 2 0 8) = false := by
  decide

/-! ### Words written out from the table of R277 -/

/-- OPC in bits 31:26, KA in 25:23, KB in 22:20, KC in 19:17, immediates from bit 0. -/
theorem test_decode_words :
    [((0b000000_000_000_000_00000000000000000 : Word), Instr.nop 3),
      (0b000001_000_000_000_00000000000000000, .halt 3),
      (0b000010_111_000_11111111111111111110, .ldi 3 7 0xFFFFE),
      (0b000011_001_00000000000_100000000001, .sethi 3 1 0x801),
      (0b000100_001_010_011_00000000000000000, .add 3 1 2 3),
      (0b000101_110_101_0000_1000000000000001, .addi 3 6 5 0x8001),
      (0b000110_000_100_000000000000000000_10, .setp 3 4 2),
      (0b000111_011_000000000000000000000_01, .getp 3 3 1),
      (0b001000_0000000000000_10001_000_01010, .setsh 3 10 17),
      (0b001001_00000000000000000000000000, .clra 3),
      (0b001010_000000000000000000000_10000, .mac 3 16),
      (0b001011_000000000000000000000_00001, .macs 3 1),
      (0b001100_00000000000000000000000000, .suma 3),
      (0b001101_0000000000000000000000000_1, .sta 3 1),
      (0b001110_00000000000000000000000000, .ldz 3),
      (0b001111_101_0000000000_1000000000001, .ldk 3 5 4097),
      (0b010000_010_0000000000_0100000000000, .stk 3 2 2048),
      (0b010001_0000000000000_1111111111111, .max 3 8191),
      (0b010010_0000000000000_0000000000001, .min 3 1),
      (0b010011_100_0000000000000000000000_1, .getm 3 4 1),
      (0b010100_0000000000000000_1111111110, .repeatN 3 1022),
      (0b010101_001_010_00000_010_100000000000, .br 3 1 2 2 2048),
      (0b010110_00000000000000_000000000011, .jmp 3 3),
      (0b010111_0000000000000000_0000000111, .out 3 7),
      (0b011000_110_000000000000000000000_11, .getw 3 6 3)].all (fun x => Decode.churn 3 x.1 == some x.2 && Decode.encode x.2 == some x.1) = true := by
  decide +kernel

/-- Reserved opcodes and bits that the table does not name are no instruction. -/
theorem test_decode_refuses :
    Decode.churn 0 0x64000000 = none ∧ Decode.churn 0 0xFC000000 = none ∧ Decode.churn 0 1 = none ∧ Decode.churn 0 0x24000001 = none
    ∧ Decode.churn 0 0x10010000 = none := by decide +kernel

/-- The operation table gives its rows no bits. -/
theorem test_table_word : decodeTableWord 0 0 = none ∧ (up .standby).withFetchWord 32 5 = up .standby := by decide +kernel

/-! ### Single steps -/

/-- The published example of the SM3 standard: the digest of the bytes of abc. -/
theorem test_sm3_abc : sm3 [0x61, 0x62, 0x63] = 0x66C7F0F462EEEDD9D1F2D46BDC10E4E24167C4875CF2F7A2297DA02B8F4BA8E0 := by decide +kernel

/-- The published example of the SM4 standard: the plaintext 01 23 … 10 under the same key. -/
theorem test_sm4_example :
    sm4Block (sm4Keys 0x0123456789ABCDEFFEDCBA9876543210) 0x0123456789ABCDEFFEDCBA9876543210 = 0x681EDF34D206965E86B3E94F536E4246 := by decide +kernel

/-- The example of chapter 21: BL5_TX17_M at ball 91-48, the forwarded clock BL5_RX_CK_P at 94-49. -/
theorem test_ball_example : (linkTxBall 5 17).minus = ⟨91, 48⟩ ∧ linkRxBall 5 18 = ⟨94, 49⟩ := by decide

/-- Word addresses that differ in one bit, or in two neighbouring bits, have tags that differ in two bits or more (R511). -/
theorem test_ddrTag_distance :
    (List.range 37).all (fun j => decide (2 ≤ weight 8 (ddrTag (BitVec.ofNat 38 (2 ^ j))).toNat)
      && decide (2 ≤ weight 8 (ddrTag (BitVec.ofNat 38 (3 * 2 ^ j))).toNat)) = true := by decide +kernel

/-- The step as data: what comes next. -/
def after (s : State) (i : Instr) : State := match step { s with pending := [i] } with | .next t => t | _ => State.reset

/-- ADDI of −1 to K1 of 0 wraps to all ones (R276). -/
theorem test_addi_wraps : ((chnOf (after (engAt (.addi 0 1 1 0xFFFF)) (.addi 0 1 1 0xFFFF)) 0).map (fun c => nth 0 c.m.k 1)) = some 0xFFFFFFFF := by
  decide +kernel

/-- MAX of equal words gives the lowest offset (R277). -/
theorem test_max_lowest : ((chnOf (after (engAt (.max 0 15)) (.max 0 15)) 0).map (fun c => (c.m.mval, c.m.midx))) = some (0, 0) := by decide +kernel

/-- YSTEP 17 ends in the fault of its name. -/
theorem test_mac_reserved :
    (match step { engAt (.mac 0 17) with pending := [.mac 0 17] } with | .fault f => f == .reservedChurnEncoding | _ => false) = true := by decide +kernel

/-- CYCLE_END after B15 advances the DCN by one and returns to step 0 (R12). -/
theorem test_cycle_end : (after (runAt (.bound 16)) .cycleEnd).seq.dcn = 1 ∧ (after (runAt (.bound 16)) .cycleEnd).seq.tick = .step 0 := by decide +kernel

/-- IDENTIFY of an AED-9680 answers status 0; in SAFE HOLD nothing is taken. -/
theorem test_identify :
    ((lookup (after (up .boot) (.identify (cmd []))).io.replies 0).map (·.status)) = some 0
    ∧ (after { up .boot with md := { State.reset.md with safeHold := some 1 } } (.identify (cmd []))).io.replies = [] := by decide +kernel

/-- A row write of one word stores that word and nothing beside it. -/
theorem test_row_write :
    (after haltedRun (.rowWrite (cmd [7, 1, 0xBEEF]))).ds.rows = [(7, 0xBEEF)] := by decide +kernel

/-- PPS_CONFIG refuses a pulse width of 0 with 0x0103. -/
theorem test_pps_width : ((lookup (after (up .standby) (.ppsConfig (cmd [1, 0]))).io.replies 0).map (·.status)) = some 0x0103 := by decide +kernel

/-- A masked event is not written; otherwise it reaches the ring (R360). -/
theorem test_event_mask :
    (after { up .standby with io := { (up .standby).io with queue := [evt0], mask := 0x100 } } (.eventPost .other)).io.events = []
    ∧ ((after { up .standby with io := { (up .standby).io with queue := [evt0] } } (.eventPost .other)).io.events.map (fun e => e.2.code)) = [8] := by
  decide +kernel

end Sys2Proof.Tests
end

namespace Sys2Proof.Machine

/-! ### Register writes (R19 to R21, R349 to R356, R368, R520) -/

/-- A block register write that a site takes: outside SAFE HOLD, with no spillway, no refusal and no bar of R259, it is the block's own rule. -/
theorem registerWrite_block {s : State} {a : Word} (w : Word) (ho : siteOpen s (wfld a 31 28)) (hc : regCheck s a 1 = 0)
    (hb : capBarred s (wfld a 27 20) = false) :
    registerWrite s (.block a) w = writeReg s (wfld a 31 28) (wfld a 27 20) (wfld a 19 0) w := by
  obtain ⟨hsafe, hspill⟩ := ho
  simp [registerWrite, siteWrite, inSafeHold, hc, hb, hsafe, hspill]

/-- A write of an I/O-die register outside the capture and trigger blocks, its address given by block and offset. -/
theorem registerWrite_io {s : State} {a : Word} {b off : Nat} (w : Word) (ho : siteOpen s 15)
    (ha : wfld a 31 28 = 15 ∧ wfld a 27 20 = b ∧ wfld a 19 0 = off)
    (hb : isBlock b = true ∧ blockOn 15 b = true ∧ b ≠ 0x05 ∧ b ≠ 0x06) (hoff : off % 4 = 0 ∧ off + 4 ≤ blockEnd b) :
    registerWrite s (.block a) w = writeReg s 15 b off w := by
  obtain ⟨hsite, hblock, hfield⟩ := ha
  obtain ⟨hex, hon, h5, h6⟩ := hb
  obtain ⟨halign, hend⟩ := hoff
  have hc : regCheck s a 1 = 0 := by
    simp [regCheck, hsite, hblock, hfield, halign, hex, hon, sitePresent, Nat.not_lt.mpr hend]
  rw [registerWrite_block w (by rwa [hsite]) hc (by simp [capBarred, hblock, h5, h6]), hsite, hblock, hfield]

/-- In SAFE HOLD no register write reaches a BAR0 register or a site (R364, R544). -/
theorem registerWrite_held {s : State} (a : RegAddr) (w : Word) (h : s.md.safeHold.isSome = true) : registerWrite s a w = s := by
  cases a with
  | bar0 off size => simp [registerWrite, writeBar0, hostWrites, hostOpen, inSafeHold, h]
  | block addr => simp [registerWrite, siteWrite, inSafeHold, h]

/-- A write of a naturally aligned dword of BAR0 (R349). -/
theorem registerWrite_dword {s : State} {off : Nat} (w : Word) (h : off % 4 = 0) : registerWrite s (.bar0 off 4) w = writeBar0 s off w := by
  simp [registerWrite, oneDword, h]

/-- A write of the status block of BAR0 is ignored: its registers are read-only (R352). -/
theorem writeBar0_status {s : State} {off : Nat} (w : Word) (h : off < 0x1000) : writeBar0 s off w = s := by
  have hne : ∀ n, 0x1000 ≤ n → off ≠ n := fun n hn => by omega
  have hlow : ∀ n, 0x1000 ≤ n → ¬ n ≤ off := fun n hn => by omega
  simp [writeBar0, hostWrites, hne, hlow]

/-- The ring settings of BAR0 that EN locks (R355). -/
theorem writeBar0_locked {s : State} {off : Nat} (w : Word) (hon : ringsOn s = true)
    (h : off ∈ [0x1004, 0x1008, 0x1010, 0x1014, 0x1018, 0x1030, 0x1034, 0x1038, 0x1050, 0x1054, 0x1058]) : writeBar0 s off w = s := by
  simp only [List.mem_cons, List.not_mem_nil, or_false] at h
  obtain rfl | rfl | rfl | rfl | rfl | rfl | rfl | rfl | rfl | rfl | rfl := h <;> simp [writeBar0, hostWrites, hon]

/-- The MSI-X table of BAR0 (R356). -/
theorem writeBar0_msix {s : State} {off : Nat} (w : Word) (ho : hostOpen s = true) (hlo : 0x8000 ≤ off) (hhi : off < 0x8400) :
    writeBar0 s off w = writeMsix s off w := by
  have hne : ∀ n, n < 0x8000 → off ≠ n := fun n hn => by omega
  have htrx : ¬ off < 0x5000 := by omega
  simp [writeBar0, hostWrites, ho, hne, htrx, hlo, hhi]

/-- Vector control of a vector that is not pending keeps the mask bit alone, and sends nothing (R356). -/
theorem writeMsix_vectorControl {s : State} {off : Nat} (w : Word) (hoff : off % 16 = 12) (hp : (off - 0x8000) / 16 ∉ s.io.pba) :
    writeMsix s off w = setReg s (bkey off) (w &&& 1) := by
  simp [writeMsix, hoff, hp]

/-- A scrubber of the I/O die takes its rate limited to the range of its class, its backlog noted (R518, R520). -/
theorem writeScr_ioRate {s : State} {c : Nat} (w : Word) (h5 : 5 ≤ c) (h8 : c ≤ 8) :
    writeScr s 15 (0x100 + 32 * c) w
      = setReg { s with err := { s.err with scrub := put s.err.scrub (240 + c) (s.seq.ticks, scrubOwed s 15 c) } } (rkey 15 0x13 (0x100 + 32 * c))
          (BitVec.ofNat 32 (max (scrubRate c).2.1 (min (scrubRate c).2.2 w.toNat))) := by
  have hrate : ¬ 0x400 ≤ 0x100 + 32 * c := by omega
  have hword : (0x100 + 32 * c) % 32 = 0 := by omega
  have hend : 0x100 + 32 * c < 0x220 := by omega
  have hhere : scrubHere 15 c = true := by simp [scrubHere, h5, h8]
  simp [writeScr, putReg, hrate, hword, hend, hhere]

/-- Settles O14: each clause is the rule of a block or of a BAR0 register, once nothing bars the write. -/
theorem registerWritesKeepTheirRules : Obligations.RegisterWritesKeepTheirRules := by
  unfold Obligations.RegisterWritesKeepTheirRules
  refine ⟨fun s w a h => congrArg _ (registerWrite_held a w h), fun s w a hsafe hspill hc hb => ?spillway, fun s w =>
    ⟨fun a h => ?refused, fun off n h => ?notADword, fun off h => ?status, fun off h hon => ?locked, fun ho => ?fltCtrl,
      fun ho => ?traceCtrl, fun c ho h5 h8 => ?scrubRate, fun v ho hv hp => ?vectorControl⟩⟩
    <;> refine congrArg Host.Outcome.next ?_
  case spillway => simp [registerWrite, siteWrite, inSafeHold, hc, hb, hsafe, hspill]
  case refused => obtain h | h := h <;> simp [registerWrite, h]
  case notADword => obtain h | h := h <;> simp [registerWrite, oneDword, h]
  case status => simp [registerWrite, writeBar0_status w h]
  case locked => simp [registerWrite, writeBar0_locked w hon h]
  case fltCtrl => exact registerWrite_io w ho ⟨rfl, rfl, rfl⟩ (by decide) (by decide)
  case traceCtrl => exact registerWrite_io w ho ⟨rfl, rfl, rfl⟩ (by decide) (by decide)
  case scrubRate =>
    have ha : (BitVec.ofNat 32 (0xF1300100 + 32 * c)).toNat = 0xF1300100 + 32 * c := by rw [BitVec.toNat_ofNat]; omega
    have hfields : wfld (BitVec.ofNat 32 (0xF1300100 + 32 * c)) 31 28 = 15 ∧ wfld (BitVec.ofNat 32 (0xF1300100 + 32 * c)) 27 20 = 0x13
        ∧ wfld (BitVec.ofNat 32 (0xF1300100 + 32 * c)) 19 0 = 0x100 + 32 * c := by
      simp only [wfld, fld, ha, Nat.shiftRight_eq_div_pow]; omega
    exact (registerWrite_io w ho hfields (by decide) ⟨by omega, by simp only [blockEnd]; omega⟩).trans (writeScr_ioRate w h5 h8)
  case vectorControl =>
    have hvec : (0x8000 + 16 * v + 12 - 0x8000) / 16 = v := by omega
    rw [registerWrite_dword w (by omega), writeBar0_msix w ho (by omega) (by omega), writeMsix_vectorControl w (by omega) (by rwa [hvec])]

end Sys2Proof.Machine

namespace Sys2Proof.Machine

/-! ### What the recorder writes (R297, R300, R308) -/

/-- The state without the parts that the recorder writes: its log, and the host side, whose memory holds the host buffer (R317). -/
def withoutLog (s : State) : State := { s with io := State.reset.io, ckp := { s.ckp with log := emptyLog } }

/-- What looks at neither the log nor the host side is equal in states that differ in those alone. -/
theorem eq_of_withoutLog {α : Type} (P : State → α) (hP : ∀ u, P (withoutLog u) = P u) {s t : State} (h : withoutLog s = withoutLog t) :
    P s = P t := by
  rw [← hP s, h, hP]

@[simp] theorem withoutLog_appendEntry (s : State) (typ dcn : Nat) (items : List LogItem) :
    withoutLog (appendEntry s typ dcn items) = withoutLog s := by
  unfold appendEntry hostLogPut
  split <;> simp [withoutLog]

@[simp] theorem withoutLog_appendHostWrites (s : State) (dcn : Nat) (ws : List LogItem) :
    withoutLog (appendHostWrites s dcn ws) = withoutLog s :=
  foldl_keeps withoutLog _ (fun s g => withoutLog_appendEntry s 0x44 dcn g) _ s

/-- A change of the log alone. -/
theorem withoutLog_setLog (s : State) (l : LogState) : withoutLog { s with ckp := { s.ckp with log := l } } = withoutLog s := rfl

@[simp] theorem withoutLog_closeHostWrites (s : State) : withoutLog (closeHostWrites s) = withoutLog s := by
  unfold closeHostWrites
  split
  · rfl
  · rw [withoutLog_setLog, withoutLog_appendHostWrites]

@[simp] theorem withoutLog_resumeAt (s : State) (t : Nat) : withoutLog (resumeAt s t) = withoutLog s := by
  unfold resumeAt
  simp only [withoutLog_setLog, withoutLog_appendHostWrites, withoutLog_appendEntry]

@[simp] theorem withoutLog_resumeLogging (s : State) : withoutLog (resumeLogging s) = withoutLog s := by
  unfold resumeLogging; split <;> simp

@[simp] theorem withoutLog_writeCkpMarker (s : State) (c : Nat) : withoutLog (writeCkpMarker s c) = withoutLog s := by
  unfold writeCkpMarker
  split
  · rfl
  · simp only [withoutLog_setLog, withoutLog_appendEntry, withoutLog_resumeLogging]

/-- The checkpoint marker leaves everything but the log and the host side; here is what a checkpoint's start looks at. -/
@[simp] theorem writeCkpMarker_frame (s : State) (c : Nat) :
    (writeCkpMarker s c).md = s.md ∧ (writeCkpMarker s c).seq = s.seq ∧ (writeCkpMarker s c).slu = s.slu
    ∧ (writeCkpMarker s c).ds = s.ds ∧ (writeCkpMarker s c).haz = s.haz ∧ (writeCkpMarker s c).ckp.due = s.ckp.due := by
  have keeps {α : Type} (P : State → α) (hP : ∀ u, P (withoutLog u) = P u) : P (writeCkpMarker s c) = P s :=
    eq_of_withoutLog P hP (withoutLog_writeCkpMarker s c)
  exact ⟨keeps (·.md) (fun _ => rfl), keeps (·.seq) (fun _ => rfl), keeps (·.slu) (fun _ => rfl), keeps (·.ds) (fun _ => rfl),
    keeps (·.haz) (fun _ => rfl), keeps (·.ckp.due) (fun _ => rfl)⟩

/-! ### Planned holds and the start of a checkpoint (R142, R143, R290) -/

/-- Counting requests changes nothing but regs. -/
theorem countReqs_frame (l : List Nat) (s : State) :
    (l.foldl countReq s).md = s.md ∧ (l.foldl countReq s).seq = s.seq ∧ (l.foldl countReq s).slu = s.slu ∧ (l.foldl countReq s).ds = s.ds
    ∧ (l.foldl countReq s).haz = s.haz ∧ (l.foldl countReq s).ckp = s.ckp :=
  ⟨foldl_keeps (·.md) _ (by simp) l s, foldl_keeps (·.seq) _ (by simp) l s, foldl_keeps (·.slu) _ (by simp) l s,
    foldl_keeps (·.ds) _ (by simp) l s, foldl_keeps (·.haz) _ (by simp) l s, foldl_keeps (·.ckp) _ (by simp) l s⟩

/-- A planned hold changes registers and the sluice, whose stall count of the cycle it leaves. -/
@[simp] theorem startHold_frame (s : State) (ws : List HoldWork) :
    (startHold s ws).md = s.md ∧ (startHold s ws).seq = s.seq ∧ (startHold s ws).ds = s.ds ∧ (startHold s ws).haz = s.haz
    ∧ (startHold s ws).ckp = s.ckp ∧ (startHold s ws).slu.cyc = s.slu.cyc := by
  unfold startHold
  dsimp only
  split <;> simp [countReqs_frame]

/-- The hold that is then in force has the work asked for. -/
theorem startHold_work (s : State) (ws : List HoldWork) : ∃ h, (startHold s ws).slu.hold = some h ∧ ∀ w ∈ ws, w ∈ h.work := by
  unfold startHold
  dsimp only
  split
  · exact ⟨_, rfl, fun w hw => List.mem_append_right _ hw⟩
  · exact ⟨_, rfl, fun w hw => hw⟩

/-- The start of a checkpoint leaves the mode, the sequencer, the design data, the hazard marks, the stall count and the checkpoints that are due. -/
@[simp] theorem startCheckpoint_frame (s : State) (b : Bool) :
    (startCheckpoint s b).md = s.md ∧ (startCheckpoint s b).seq = s.seq ∧ (startCheckpoint s b).ds = s.ds
    ∧ (startCheckpoint s b).haz = s.haz ∧ (startCheckpoint s b).slu.cyc = s.slu.cyc ∧ (startCheckpoint s b).ckp.due = s.ckp.due := by
  unfold startCheckpoint
  cases b <;> simp [closeBlocks]

/-- The checkpoint that is then in progress holds this DCN and the design data, and nothing copied on write yet. -/
theorem startCheckpoint_busy (s : State) (b : Bool) :
    ∃ k, (startCheckpoint s b).ckp.busy = some k ∧ k.dcn = s.seq.dcn ∧ k.rows = s.ds.rows ∧ k.tiles = s.ds.tiles ∧ k.cow = [] := by
  unfold startCheckpoint
  cases b <;> simp [closeBlocks, makeCheckpoint]

theorem startCheckpoint_hold (s : State) (b : Bool) : ∃ h, (startCheckpoint s b).slu.hold = some h ∧ .checkpoint ∈ h.work := by
  obtain ⟨h, heq, hw⟩ := startHold_work _ [.checkpoint]
  exact ⟨h, heq, hw _ (List.mem_singleton_self _)⟩

/-! ### The completion of waiting commands (R358, R363) -/

@[simp] theorem postCompletion_waiting (s : State) (w : Waiting) (st : Nat) (ws : List Word) :
    (postCompletion s w st ws).io.waiting = s.io.waiting := by
  unfold postCompletion
  split
  · rfl
  · split <;> simp [queueEvent, tickEvent]

/-- The commands completed wait no more; the others do. -/
theorem completeWhere_waiting (s : State) (p : Waiting → Bool) (st : Nat) (ws : List Word) :
    (completeWhere s p st ws).io.waiting = s.io.waiting.filter (fun w => !p w) := by
  unfold completeWhere
  exact foldl_keeps (·.io.waiting) _ (by simp) _ _

theorem completeAll_waiting (s : State) (op st : Nat) (ws : List Word) :
    (completeAll s op st ws).io.waiting.all (fun w => w.opcode != op) = true := by
  rw [completeAll, completeWhere_waiting, List.all_eq_true]
  intro w hw
  simpa using (List.mem_filter.mp hw).2

/-! ### Ends of stepping (R40, R43) -/

/-- Stepping ends: the mode entered is HALTED where it has a sub-state, no stop is left, and the sequencer stands. -/
theorem endStepping_frame (s : State) (m : Mode) :
    (endStepping s m).md.mode = m ∧ (endStepping s m).md.sub = (if m = .run then .halted else .free)
    ∧ (endStepping s m).md.debug = (s.md.debug && m == .run) ∧ (endStepping s m).md.stops = []
    ∧ (endStepping s m).seq = { s.seq with tick := .idle } ∧ (endStepping s m).slu = s.slu ∧ (endStepping s m).ds = s.ds
    ∧ (endStepping s m).haz.made = s.haz.made ∧ (endStepping s m).haz.takes = s.haz.takes := by
  unfold endStepping
  cases m <;> simp [setMode]

/-- A replay ends: as stepping does, and no replay is left. -/
theorem endReplay_frame (s : State) (m : Mode) :
    (endReplay s m).md.mode = m ∧ (endReplay s m).md.sub = (if m = .run then .halted else .free) ∧ (endReplay s m).md.stops = []
    ∧ (endReplay s m).seq = { s.seq with tick := .idle } ∧ (endReplay s m).slu = s.slu ∧ (endReplay s m).ds = s.ds
    ∧ (endReplay s m).haz = s.haz ∧ (endReplay s m).ckp.replay = none := by
  unfold endReplay
  cases m <;> simp [setMode]

/-! ### What leaves the cycle as it is -/

/-- What a cycle end is judged by: the mode, the sequencer, the design data, the hazard marks and the stall count of the cycle. -/
def cycleView (s : State) : ModeState × SeqState × DataState × HazState × Nat := (s.md, s.seq, s.ds, s.haz, s.slu.cyc)

/-- Two states look the same to a cycle end when they agree in each part. -/
theorem cycleView_eq {s t : State} : cycleView s = cycleView t ↔
    s.md = t.md ∧ s.seq = t.seq ∧ s.ds = t.ds ∧ s.haz = t.haz ∧ s.slu.cyc = t.slu.cyc := by
  simp [cycleView]

@[simp] theorem cycleView_bumpIo (s : State) (b o w d : Nat) : cycleView (bumpIo s b o w d) = cycleView s := by simp [cycleView]
@[simp] theorem cycleView_maxIo (s : State) (b o v : Nat) : cycleView (maxIo s b o v) = cycleView s := by simp [cycleView]
@[simp] theorem cycleView_holdReq (s : State) (c u : Nat) : cycleView (holdReq s c u) = cycleView s := by
  unfold holdReq; split <;> simp [cycleView]
@[simp] theorem cycleView_dropReq (s : State) (c u : Nat) : cycleView (dropReq s c u) = cycleView s := by simp [cycleView, dropReq]
@[simp] theorem cycleView_sendFw (s : State) (m : FwMsg) : cycleView (sendFw s m) = cycleView s := by simp [cycleView]
@[simp] theorem cycleView_setChan (s : State) (c : Nat) (ch : Chan) : cycleView (setChan s c ch) = cycleView s := rfl
@[simp] theorem cycleView_setChn (s : State) (d : Nat) (c : ChurnDie) : cycleView (setChn s d c) = cycleView s := rfl
@[simp] theorem cycleView_logChange (s : State) (c : Nat) (b : Bool) : cycleView (logChange s c b) = cycleView s := rfl

/-- Trace records touch the trace buffers and registers alone (R573). -/
@[simp] theorem cycleView_storeTrc (s : State) (u n : Nat) (o : Nat × Nat) (r : List Word) : cycleView (storeTrc s u n o r) = cycleView s := by
  unfold storeTrc bufRecord
  dsimp only
  split <;> simp [cycleView]

@[simp] theorem cycleView_syncDue (s : State) (u : Nat) : cycleView (syncDue s u) = cycleView s := by
  unfold syncDue
  split
  · exact (cycleView_storeTrc _ _ _ _ _).trans rfl
  · rfl

@[simp] theorem cycleView_decision (s : State) (k c : Nat) (q : Word) (d : Nat) : cycleView (decision s k c q d) = cycleView s := by
  unfold decision; split <;> simp

@[simp] theorem cycleView_backPressure (s : State) (c : Nat) : cycleView (backPressure s c) = cycleView s := by
  unfold backPressure
  dsimp only
  repeat' split
  all_goals simp

@[simp] theorem cycleView_flushPoint (s : State) (c : Nat) : cycleView (flushPoint s c) = cycleView s := by
  unfold flushPoint; split <;> simp

@[simp] theorem cycleView_inNote (ch : Chan) (s : State) (c : Nat) : cycleView (inNote ch s c) = cycleView s := by
  unfold inNote
  repeat' split
  all_goals simp

@[simp] theorem cycleView_setTrx (s : State) (t : TrxState) : cycleView { s with trx := t } = cycleView s := rfl

/-- A close of a channel stays in the transactor, the trace and the sluice's requests (R343). -/
@[simp] theorem cycleView_closeChan (s : State) (c : Nat) (ch : Chan) : cycleView (closeChan s c ch) = cycleView s := by
  unfold closeChan
  dsimp only
  repeat' split
  all_goals simp

@[simp] theorem cycleView_applyChanges (s : State) : cycleView (applyChanges s) = cycleView s := by
  refine foldl_keeps cycleView _ (fun s e => ?_) _ s
  repeat' split
  all_goals simp

@[simp] theorem cycleView_applyEnables (s : State) (n : Nat) : cycleView (applyEnables s n) = cycleView s := by
  refine foldl_keeps cycleView _ (fun s e => ?_) _ s
  split <;> simp

@[simp] theorem cycleView_forceCheckpoint (s : State) : cycleView (forceCheckpoint s) = cycleView s := by
  have hwant (k : CkpState) : cycleView (holdReq { s with ckp := k } 7 0) = cycleView s := (cycleView_holdReq _ _ _).trans rfl
  unfold forceCheckpoint
  dsimp only
  split
  · split
    · exact hwant _
    · exact (cycleView_sendFw _ _).trans (hwant _)
  · rfl

@[simp] theorem cycleView_endChecks (s : State) : cycleView (endChecks s) = cycleView s := by
  unfold endChecks; dsimp only; split <;> simp

@[simp] theorem cycleView_armNow (s : State) (n : Nat) : cycleView (armNow s n) = cycleView s := by
  unfold armNow setCapMode
  dsimp only
  split <;> simp [cycleView]

@[simp] theorem cycleView_periodicDue (s : State) : cycleView (periodicDue s) = cycleView s := by
  unfold periodicDue; dsimp only; split <;> rfl

@[simp] theorem cycleView_startCheckpoint (s : State) (b : Bool) : cycleView (startCheckpoint s b) = cycleView s := by simp [cycleView]
@[simp] theorem cycleView_startHold (s : State) (ws : List HoldWork) : cycleView (startHold s ws) = cycleView s := by simp [cycleView]

@[simp] theorem cycleView_enterHolds (s : State) (n : Nat) : cycleView (enterHolds s n) = cycleView s := by
  unfold enterHolds
  extract_lets now u s1 works ck k s2 rest
  have h2 : cycleView s2 = cycleView s := by
    simp only [s2]
    split
    · exact (cycleView_startCheckpoint _ _).trans rfl
    · rfl
  split
  · exact h2
  · exact (cycleView_startHold s2 rest).trans h2

/-- The state beside the design data and what is saved of it: the mode, the sequencer, the hazard marks and the sluice. -/
def outsideData (s : State) : ModeState × SeqState × HazState × SluState := (s.md, s.seq, s.haz, s.slu)

theorem outsideData_regionPut (s : State) (k : Nat) (v : Half) : outsideData (regionPut s k v) = outsideData s := rfl
theorem outsideData_clearPoison (s : State) (lo n : Nat) : outsideData (clearPoison s lo n) = outsideData s := rfl

/-- A host write of the log changes the design data, and what a checkpoint saves of it (R293, R304). -/
theorem outsideData_applyHostItem (s : State) (x : LogItem) : outsideData (applyHostItem s x) = outsideData s := by
  unfold applyHostItem
  dsimp only
  split
  · rfl
  · rfl
  · rw [outsideData_clearPoison]
    exact foldl_keeps outsideData _ (fun s (v : Nat × Half) => outsideData_regionPut s _ v.2) _ s

theorem outsideData_applyHostWrites (s : State) : outsideData (applyHostWrites s) = outsideData s := by
  unfold applyHostWrites
  exact foldl_keeps outsideData _ (fun s (e : LogEntry) => foldl_keeps outsideData _ outsideData_applyHostItem e.items s) _ s

/-! ### The end of a cycle (R12, R40 to R43) -/

/-- A mode change leaves the DCN, the design data, the marks of the cycle and its stall count. -/
theorem modeChange_frame (s : State) :
    (modeChange s).seq.dcn = s.seq.dcn ∧ (modeChange s).ds = s.ds ∧ (modeChange s).haz.made = s.haz.made
    ∧ (modeChange s).haz.takes = s.haz.takes ∧ (modeChange s).slu = s.slu := by
  unfold modeChange
  repeat' split
  all_goals simp [holdStop, endStepping_frame, endReplay_frame]

/-- A stop is due once the cycle it is fixed for has ended. -/
theorem stopDue_iff {s : State} {ks : List StopKind} : stopDue s ks = true ↔ ∃ x ∈ s.md.stops, x.kind ∈ ks ∧ x.dcn < s.seq.dcn := by
  simp [stopDue]

/-- With no stop fixed the mode stays. -/
theorem modeChange_of_no_stop {s : State} (h : s.md.stops = []) : modeChange s = s := by
  have hdue (ks : List StopKind) : stopDue s ks = false := by simp [stopDue, h]
  simp [modeChange, hdue]

/-- In SAFE HOLD the mode and the sub-state stay (R43, R45). -/
theorem modeChange_held {s : State} (h : s.md.safeHold.isSome = true) :
    (modeChange s).md.mode = s.md.mode ∧ (modeChange s).md.sub = s.md.sub := by
  unfold modeChange
  rw [if_pos (show inSafeHold s = true from h)]
  split <;> simp [holdStop]

/-- RUN_STOP is the first cause: LOADED. -/
theorem modeChange_runStop {s : State} (h : s.md.safeHold = none) (hd : stopDue s [.runStop] = true) :
    modeChange s = endStepping s .loaded := by
  simp [modeChange, inSafeHold, h, hd]

/-- Without RUN_STOP or REPLAY_STOP, a halt of RUN: HALTED. -/
theorem modeChange_halt {s : State} (h : s.md.safeHold = none) (hm : s.md.mode = .run) (hd : stopDue s [.halt, .trigger, .hazard] = true)
    (hrun : stopDue s [.runStop] = false) (hrep : stopDue s [.replayStop] = false) : modeChange s = endStepping s .run := by
  simp [modeChange, inSafeHold, inReplay, h, hm, hd, hrun, hrep]

/-- What CYCLE_END does before the mode changes: the DCN is one higher and the next tick step 0, the marks and the stall count of the cycle are
cleared, and only cycles that the log drives take host writes (R12, R304). Then come the mode change and the holds agreed for the cycle. -/
theorem cycleEnd_parts {s : State} (he : s.seq.epoch = true) (hs : stepping s = true) (ht : s.seq.tick = .bound 16) (hw : endWaits s = false) :
    ∃ t, cycleEnd s = enterHolds (modeChange t) s.seq.dcn ∧ t.md = s.md ∧ t.seq = { s.seq with dcn := s.seq.dcn + 1, tick := .step 0 }
      ∧ t.slu.cyc = 0 ∧ t.haz = { s.haz with made := [], takes := [] } ∧ (fromLog s = false → t.ds = s.ds) := by
  have h : cycleEnd s = _ := cycleEnd.eq_def s
  rw [if_pos (by simp [he, hs, ht, hw])] at h
  extract_lets n rep s1 s2 s3 q u z k closed checked armed live at h
  have h3 : cycleView s3 = cycleView s := by simp [s3, s2, s1]
  have harmed : cycleView armed = cycleView closed := by
    have hchecked : cycleView checked = cycleView closed := cycleView_endChecks closed
    simp only [armed]
    split
    · split
      · exact (cycleView_armNow _ _).trans hchecked
      · exact hchecked
    · exact hchecked
  have hlive : outsideData live = outsideData armed := by
    rw [apply_ite outsideData, outsideData_applyHostWrites, ite_self]
  have hds : fromLog s = false → live.ds = armed.ds := by
    intro hlog
    have hrep : rep = false := by
      simp only [fromLog, Bool.or_eq_false_iff] at hlog
      simp [rep, hlog]
    simp [live, hrep]
  have hdue := cycleView_eq.mp (cycleView_periodicDue live)
  rw [cycleView_eq] at h3 harmed
  simp only [outsideData, Prod.mk.injEq] at hlive
  obtain ⟨md3, seq3, ds3, haz3, -⟩ := h3
  obtain ⟨mdA, seqA, dsA, hazA, cycA⟩ := harmed
  obtain ⟨mdL, seqL, hazL, sluL⟩ := hlive
  obtain ⟨mdD, seqD, dsD, hazD, cycD⟩ := hdue
  refine ⟨periodicDue live, h, ?_, ?_, ?_, ?_, fun hlog => ?_⟩
  · exact mdD.trans (mdL.trans (mdA.trans md3))
  · rw [seqD, seqL, seqA]; simp only [closed, q, seq3, n]
  · rw [cycD, sluL, cycA]
  · rw [hazD, hazL, hazA]; simp only [closed, z, haz3]
  · exact dsD.trans ((hds hlog).trans (dsA.trans ds3))

section
variable {s : State} (he : s.seq.epoch = true) (hs : stepping s = true) (ht : s.seq.tick = .bound 16) (hw : endWaits s = false)
include he hs ht hw

/-- Of the mode, the sequencer, the design data, the marks and the stall count, the end of the cycle shows what the mode change leaves: no hold
touches them. The stops due at the mode change are those fixed at or before the cycle that has ended. -/
theorem cycleEnd_view :
    ∃ t, cycleView (cycleEnd s) = cycleView (modeChange t) ∧ t.md = s.md ∧ t.seq.dcn = s.seq.dcn + 1 ∧ t.seq.tick = .step 0
      ∧ t.slu.cyc = 0 ∧ t.haz.made = [] ∧ t.haz.takes = [] ∧ (fromLog s = false → t.ds = s.ds)
      ∧ ∀ ks, stopDue t ks = true ↔ ∃ x ∈ s.md.stops, x.kind ∈ ks ∧ x.dcn ≤ s.seq.dcn := by
  obtain ⟨t, heq, hmd, hseq, hcyc, hhaz, hds⟩ := cycleEnd_parts he hs ht hw
  refine ⟨t, by rw [heq, cycleView_enterHolds], hmd, by rw [hseq], by rw [hseq], hcyc, by rw [hhaz], by rw [hhaz], hds, fun ks => ?_⟩
  simp only [stopDue_iff, hmd, hseq, Nat.lt_succ_iff]

/-- The DCN counts the cycle, and what is counted or marked within a cycle starts anew; a live cycle end writes no row or tile (R12, R142). -/
theorem cycleEnd_counts :
    (cycleEnd s).seq.dcn = s.seq.dcn + 1 ∧ (cycleEnd s).slu.cyc = 0 ∧ (cycleEnd s).haz.made = [] ∧ (cycleEnd s).haz.takes = []
    ∧ (fromLog s = false → (cycleEnd s).ds = s.ds) := by
  obtain ⟨t, hview, -, hdcn, -, hcyc, hmade, htakes, hds, -⟩ := cycleEnd_view he hs ht hw
  obtain ⟨-, useq, uds, uhaz, ucyc⟩ := cycleView_eq.mp hview
  obtain ⟨cdcn, cds, cmade, ctakes, cslu⟩ := modeChange_frame t
  exact ⟨by rw [useq, cdcn, hdcn], by rw [ucyc, cslu, hcyc], by rw [uhaz, cmade, hmade], by rw [uhaz, ctakes, htakes],
    fun hlog => by rw [uds, cds, hds hlog]⟩

/-- With no stop fixed the next cycle begins. -/
theorem cycleEnd_of_no_stop (hnone : s.md.stops = []) : (cycleEnd s).md = s.md ∧ (cycleEnd s).seq.tick = .step 0 := by
  obtain ⟨t, hview, hmd, -, htick, -⟩ := cycleEnd_view he hs ht hw
  obtain ⟨umd, useq, -⟩ := cycleView_eq.mp hview
  rw [umd, useq, modeChange_of_no_stop (by rw [hmd, hnone])]
  exact ⟨hmd, htick⟩

/-- With RUN_STOP due the board stands in LOADED (R40). -/
theorem cycleEnd_runStop (hsafe : s.md.safeHold = none) (hstop : ∃ x ∈ s.md.stops, x.kind = .runStop ∧ x.dcn ≤ s.seq.dcn) :
    (cycleEnd s).md.mode = .loaded ∧ (cycleEnd s).md.stops = [] ∧ (cycleEnd s).seq.tick = .idle := by
  obtain ⟨t, hview, hmd, -, -, -, -, -, -, hdue⟩ := cycleEnd_view he hs ht hw
  obtain ⟨umd, useq, -⟩ := cycleView_eq.mp hview
  rw [umd, useq, modeChange_runStop (by rw [hmd, hsafe]) ((hdue _).mpr (by simpa using hstop))]
  simp [endStepping_frame]

/-- In SAFE HOLD no cycle end changes the mode or the sub-state (R45). -/
theorem cycleEnd_held (hsafe : s.md.safeHold.isSome = true) : (cycleEnd s).md.mode = s.md.mode ∧ (cycleEnd s).md.sub = s.md.sub := by
  obtain ⟨t, hview, hmd, -⟩ := cycleEnd_view he hs ht hw
  rw [(cycleView_eq.mp hview).1, ← hmd]
  exact modeChange_held (by rwa [hmd])

/-- With a halt of RUN due, and neither RUN_STOP nor REPLAY_STOP, the board stands in HALTED and keeps its debug flag (R40, R43). -/
theorem cycleEnd_halt (hsafe : s.md.safeHold = none) (hrun : s.md.mode = .run) (hstop : ∃ x ∈ s.md.stops, x.kind = .halt ∧ x.dcn ≤ s.seq.dcn)
    (hothers : ∀ x ∈ s.md.stops, x.kind ≠ .runStop ∧ x.kind ≠ .replayStop) :
    (cycleEnd s).md.mode = .run ∧ (cycleEnd s).md.sub = .halted ∧ (cycleEnd s).md.debug = s.md.debug ∧ (cycleEnd s).md.stops = []
    ∧ (cycleEnd s).seq.tick = .idle := by
  obtain ⟨t, hview, hmd, -, -, -, -, -, -, hdue⟩ := cycleEnd_view he hs ht hw
  obtain ⟨umd, useq, -⟩ := cycleView_eq.mp hview
  have hnot {k : StopKind} (hk : ∀ y ∈ s.md.stops, y.kind ≠ k) : stopDue t [k] = false := by
    rw [Bool.eq_false_iff, ne_eq, hdue]
    rintro ⟨y, hy, hmem, -⟩
    exact hk y hy (List.mem_singleton.mp hmem)
  obtain ⟨x, hx, hkind, hle⟩ := hstop
  rw [umd, useq, modeChange_halt (by rw [hmd, hsafe]) (by rw [hmd, hrun]) ((hdue _).mpr ⟨x, hx, by simp [hkind], hle⟩)
    (hnot fun y hy => (hothers y hy).1) (hnot fun y hy => (hothers y hy).2)]
  simp [endStepping_frame, hmd]

end

/-! ### The other ends of stepping, and checkpoints (R43, R290, R292, R308, R372) -/

/-- STEP_N_EXPIRY outside SAFE HOLD after the last cycle of STEP-N (R372). -/
theorem stepNExpiry_due {s : State} (h : s.md.safeHold = none) (hm : s.md.mode = .run) (hsub : s.md.sub = .stepN) (ht : s.seq.tick = .step 0)
    (hd : stopDue s [.stepN] = true) : stepNExpiry s = endStepping s .run := by
  simp [stepNExpiry, inSafeHold, h, hm, hsub, ht, hd]

/-- REPLAY_END outside SAFE HOLD: the replay ends in RUN, LOG_ERR set where the log's end is an error (R308, R309). -/
theorem replayEnd_due {s : State} (h : s.md.safeHold = none) (hm : s.md.mode = .replay) (ht : s.seq.tick = .step 0)
    (hd : stopDue s [.replayTarget, .replayLog] = true) :
    replayEnd s = endReplay (setLogErr s (stopDue s [.replayLog] && (logReach s).2)) .run := by
  simp [replayEnd, inReplay, inSafeHold, h, hm, ht, hd]

@[simp] theorem setLogErr_frame (s : State) (b : Bool) : (setLogErr s b).seq = s.seq ∧ (setLogErr s b).ds = s.ds := by
  cases b <;> simp [setLogErr]

/-- PERIODIC_CHECKPOINT at a DCN at which one is due, between two cycles (R290): the due entry goes and the checkpoint starts. -/
theorem periodicCheckpoint_due {s : State} (hd : s.seq.dcn ∈ s.ckp.due) (ht : s.seq.tick = .step 0 ∨ s.seq.tick = .idle) :
    periodicCheckpoint s = startCheckpoint { s with ckp := { s.ckp with due := s.ckp.due.filter (fun c => c != s.seq.dcn) } } false := by
  obtain ht | ht := ht <;> simp [periodicCheckpoint, hd, ht]

/-- CHECKPOINT_COMPLETE once every device has completed it (R292): it is the last one, and the host writes that count are those served after its
copy was taken; a CKP_TAKE waits no more unless a checkpoint is still to come (R296). -/
theorem completeCheckpoint_done {s : State} {k : Checkpoint} (hb : s.ckp.busy = some k) (hall : allDone s k = true) :
    let u := completeCheckpoint s
    u.ckp.last = some k ∧ u.ckp.busy = none ∧ u.ckp.hostBytes = s.ckp.hostBytes - s.ckp.hostAt ∧ u.ds = s.ds ∧ u.md = s.md
    ∧ (s.slu.agreed.any (fun a => a.2 == some .checkpoint) = false → u.io.waiting.all (fun w => w.opcode != 0x0601) = true) := by
  dsimp only
  unfold completeCheckpoint
  simp only [hb, hall, Bool.not_true, Bool.false_eq_true, if_false]
  split
  · next hagreed =>
    have hcoming : s.slu.agreed.any (fun a => a.2 == some .checkpoint) = true := by simpa [clearArea] using hagreed
    rw [hcoming]
    simp [clearArea]
  · simp [clearArea, completeAll_waiting]

/-- Settles O23: CYCLE_END by the stops that are fixed, then the four rows that end stepping or concern a checkpoint. -/
theorem cycleEndAdvancesOrEnds : Obligations.CycleEndAdvancesOrEnds := by
  unfold Obligations.CycleEndAdvancesOrEnds
  refine ⟨fun s he hs ht hw => ?cycle, fun s =>
    ⟨fun h hm hsub ht hd => ?stepN, fun h hm ht hd => ?replay, fun hd ht => ?periodic, fun k h hb hall => ?complete,
      fun hd => ?stepNWaits, fun hm => ?noReplay, fun hd => ?notDue, fun h => ?noCheckpoint⟩⟩
  case cycle =>
    obtain ⟨hdcn, hcyc, hmade, htakes, hds⟩ := cycleEnd_counts he hs ht hw
    refine ⟨cycleEnd s, rfl, hdcn, hcyc, hmade, htakes, fun hlog => by simp [hds hlog], fun hnone => ?_, cycleEnd_runStop he hs ht hw,
      cycleEnd_held he hs ht hw, cycleEnd_halt he hs ht hw⟩
    obtain ⟨hmd, htick⟩ := cycleEnd_of_no_stop he hs ht hw hnone
    simp [hmd, htick]
  case stepN =>
    refine ⟨_, congrArg Host.Outcome.next (stepNExpiry_due h hm hsub ht hd), ?_⟩
    simp [endStepping_frame]
  case replay =>
    refine ⟨_, congrArg Host.Outcome.next (replayEnd_due h hm ht hd), ?_⟩
    simp [endReplay_frame]
  case periodic =>
    obtain ⟨k, hbusy, hdcn, hrows, htiles, hcow⟩ :=
      startCheckpoint_busy { s with ckp := { s.ckp with due := s.ckp.due.filter (fun c => c != s.seq.dcn) } } false
    refine ⟨_, k, congrArg Host.Outcome.next (periodicCheckpoint_due hd ht), hbusy, hdcn, hrows, htiles, hcow, ?_,
      startCheckpoint_hold _ _, ?_⟩ <;> simp
  case complete =>
    have hrow : execCheckpointComplete s = .next (completeCheckpoint s) := by
      simp [execCheckpointComplete, unlessHeld, inSafeHold, h, checkpointComplete]
    exact ⟨_, hrow, completeCheckpoint_done hb hall⟩
  case stepNWaits => exact congrArg Host.Outcome.next (by simp [stepNExpiry, hd])
  case noReplay => exact congrArg Host.Outcome.next (by simp [replayEnd, inReplay, hm])
  case notDue => exact congrArg Host.Outcome.next (by simp [periodicCheckpoint, hd])
  case noCheckpoint =>
    refine congrArg Host.Outcome.next ?_
    obtain hb | hsafe := h
    · simp [unlessHeld, checkpointComplete, completeCheckpoint, hb]
    · simp [unlessHeld, inSafeHold, hsafe]

end Sys2Proof.Machine

namespace Sys2Proof.Machine

/-! ### The mode, the sub-state and the debug flag, and what keeps them (R38)

`modeOf` reads what legality speaks of, and an operation is in one of three classes: it leaves the mode state as it is (`_md`), it may enter
SAFE HOLD or fix a stop but keeps mode, sub-state and debug flag (`_modeOf`), or it may enter another mode, by `setMode`, which leaves a legal
one (`_legal`). One lemma per operation, in the order of the model's files; a command then needs no more than the lemma of its row. -/

/-- The part of the mode that legality speaks of: mode, sub-state and debug flag. -/
def modeOf (m : ModeState) : Mode × Sub × Bool := (m.mode, m.sub, m.debug)

@[simp] theorem modeOf_update (m : ModeState) (h : Option Nat) (st : List Stop) :
    modeOf ⟨m.mode, m.sub, m.debug, h, st⟩ = modeOf m := rfl

@[simp] theorem md_ite (c : Prop) [Decidable c] (s t : State) : (if c then s else t).md = if c then s.md else t.md := apply_ite State.md c s t
@[simp] theorem modeOf_ite (c : Prop) [Decidable c] (m n : ModeState) : modeOf (if c then m else n) = if c then modeOf m else modeOf n :=
  apply_ite modeOf c m n

@[simp] theorem md_fst_ite {α : Type} (c : Prop) [Decidable c] (x y : State × α) : (if c then x else y).1 = if c then x.1 else y.1 :=
  apply_ite Prod.fst c x y

@[simp] theorem foldl_md {α : Type} (f : State → α → State) (h : ∀ s x, (f s x).md = s.md) (l : List α) (s : State) :
    (l.foldl f s).md = s.md := foldl_keeps (·.md) f h l s
@[simp] theorem foldl_modeOf {α : Type} (f : State → α → State) (h : ∀ s x, modeOf (f s x).md = modeOf s.md) (l : List α) (s : State) :
    modeOf (l.foldl f s).md = modeOf s.md := foldl_keeps (fun s => modeOf s.md) f h l s

/-- Sub-state and debug flag belong to RUN (R38). -/
def legalMd (m : Mode × Sub × Bool) : Prop := m.1 ≠ .run → m.2.1 = .free ∧ m.2.2 = false

theorem legalMode_iff (s : State) : s.legalMode ↔ legalMd (modeOf s.md) := Iff.rfl

@[simp] theorem legalMd_ite (c : Prop) [Decidable c] (m n : Mode × Sub × Bool) :
    legalMd (if c then m else n) ↔ if c then legalMd m else legalMd n := by split <;> rfl

@[simp] theorem legalMd_setMode (s : State) (m : Mode) (sub : Sub) (d : Bool) : legalMd (modeOf (setMode s m sub d).md) := setMode_legal s m sub d

theorem foldl_legal {α : Type} (f : State → α → State) (h : ∀ s x, legalMd (modeOf s.md) → legalMd (modeOf (f s x).md)) (l : List α) (s : State)
    (hs : legalMd (modeOf s.md)) : legalMd (modeOf (l.foldl f s).md) := by
  induction l generalizing s with
  | nil => exact hs
  | cons x l ih => exact ih _ (h s x hs)

@[simp] theorem modeOf_enterSafeHold (s : State) (c : Nat) : modeOf (enterSafeHold s c).md = modeOf s.md := enterSafeHold_runMode s c
@[simp] theorem modeOf_makeRecord (s : State) (r : ErrRec) (b : Bool) : modeOf (makeRecord s r b).md = modeOf s.md := makeRecord_runMode s r b
@[simp] theorem modeOf_fault (s : State) (f : FaultInfo) : modeOf (fault s f).md = modeOf s.md := fault_runMode s f
@[simp] theorem modeOf_unitFault (s : State) (c u : Nat) (f : FaultInfo) : modeOf (unitFault s c u f).md = modeOf s.md := unitFault_runMode s c u f
@[simp] theorem modeOf_joinRepair (s : State) (c u : Nat) (f : FaultInfo) : modeOf (joinRepair s c u f).md = modeOf s.md := joinRepair_runMode s c u f
@[simp] theorem modeOf_singleFault (s : State) (c : Nat) (f : FaultInfo) : modeOf (singleFault s c f).md = modeOf s.md := singleFault_runMode s c f
@[simp] theorem modeOf_needRecovery (s : State) (f : FaultInfo) : modeOf (needRecovery s f).md = modeOf s.md := needRecovery_runMode s f

/-! #### Machine/Ops -/

@[simp] theorem unlessHeld_md (s : State) (f : State → State) (h : (f s).md = s.md) : (unlessHeld s f).md = s.md := by simp [unlessHeld, h]
@[simp] theorem unlessHeld_modeOf (s : State) (f : State → State) (h : modeOf (f s).md = modeOf s.md) :
    modeOf (unlessHeld s f).md = modeOf s.md := by simp [unlessHeld, h]
theorem unlessHeld_legal (s : State) (f : State → State) (hs : legalMd (modeOf s.md)) (h : legalMd (modeOf (f s).md)) :
    legalMd (modeOf (unlessHeld s f).md) := by simp [unlessHeld, hs, h]
@[simp] theorem endFault_modeOf (s : State) (p : ErrRec → Bool) (f : ErrRec → ErrRec) : modeOf (endFault s p f).md = modeOf s.md := by simp [endFault]
@[simp] theorem wordFault_modeOf (s : State) (store : StoreKind) (key : Nat) (f : FaultInfo) :
    modeOf (wordFault s store key f).md = modeOf s.md := by simp [wordFault]

/-! #### Machine/DdrMap -/

@[simp] theorem clearArea_md (s : State) (k : Nat) : (clearArea s k).md = s.md := rfl
@[simp] theorem poisonWord_md (s : State) (key : Nat) : (poisonWord s key).md = s.md := by simp [poisonWord]
@[simp] theorem ddrPoisonRead_modeOf (s : State) (addr d1 d2 : Nat) : modeOf (ddrPoisonRead s addr d1 d2).md = modeOf s.md := by simp [ddrPoisonRead]
@[simp] theorem ddrLost_modeOf (s : State) (spoil : State → State) (flags : Nat) (synd : Option Nat) (addr d1 d2 : Nat)
    (h : modeOf (spoil s).md = modeOf s.md) : modeOf (ddrLost s spoil flags synd addr d1 d2).md = modeOf s.md := by simp [ddrLost, h]
@[simp] theorem ddrWordRead_modeOf (s : State) (spoil : State → State) (addr : Nat) (w : DdrWordFound)
    (h : modeOf (spoil s).md = modeOf s.md) : modeOf (ddrWordRead s spoil addr w).1.md = modeOf s.md := by
  unfold ddrWordRead
  dsimp only
  split <;> simp [h]

/-! #### Machine/RouteTable -/

@[simp] theorem ask_md (s : State) (a tag n : Nat) : (ask s a tag n).md = s.md := rfl
@[simp] theorem answered_md (s : State) (a tag : Nat) : (answered s a tag).md = s.md := by unfold answered; split <;> rfl

/-! #### Machine/LinkTx -/

@[simp] theorem loopSlot_md (s : State) (d : Nat) : (loopSlot s d).md = s.md := rfl
@[simp] theorem queueMark_md (s : State) (d x : Nat) : (queueMark s d x).md = s.md := rfl

/-! #### Machine/Sig -/

@[simp] theorem buildSig_md (s : State) : (buildSig s).md = s.md := by simp [buildSig]

/-! #### Machine/Schedule -/

@[simp] theorem cowSave_md (s : State) (g : Nat) : (cowSave s g).md = s.md := rfl
@[simp] theorem regionPut_md (s : State) (k : Nat) (v : Half) : (regionPut s k v).md = s.md := rfl
@[simp] theorem clearPoison_md (s : State) (lo n : Nat) : (clearPoison s lo n).md = s.md := rfl
@[simp] theorem ddrWrite_md (s0 s : State) (o : PortOp) : (ddrWrite s0 s o).md = s.md := by simp [ddrWrite]

/-! #### Machine/Hazard -/

@[simp] theorem markerMismatch_modeOf (s : State) (d c : Nat) : modeOf (markerMismatch s d c).md = modeOf s.md := by simp [markerMismatch]
@[simp] theorem releaseMarks_modeOf (s : State) : modeOf (releaseMarks s).md = modeOf s.md := by simp [releaseMarks]
@[simp] theorem fixStop_modeOf (s : State) (dcn : Nat) (k : StopKind) : modeOf (fixStop s dcn k).md = modeOf s.md := by simp [fixStop]
@[simp] theorem stopAt_modeOf (s : State) (low : Nat) (k : StopKind) : modeOf (stopAt s low k).1.md = modeOf s.md := by simp [stopAt]
@[simp] theorem requestHalt_modeOf (s : State) (low : Nat) (k : StopKind) : modeOf (requestHalt s low k).md = modeOf s.md := by simp [requestHalt]
@[simp] theorem storeHaz_md (s : State) (t : Nat) (f : Found) : (storeHaz s t f).md = s.md := by simp [storeHaz]
@[simp] theorem recordHaz_modeOf (t : Nat) (s : State) (f : Found) : modeOf (recordHaz t s f).md = modeOf s.md := by simp [recordHaz]
@[simp] theorem hazards_modeOf (s0 s : State) (i : Image) (t : Nat) : modeOf (hazards s0 s i t).md = modeOf s.md := by simp [hazards]

/-! #### Machine/Recorder -/

@[simp] theorem hostLogPut_md (s : State) (at0 : Nat) (e : LogEntry) : (hostLogPut s at0 e).md = s.md := by simp [hostLogPut]
@[simp] theorem appendEntry_md (s : State) (typ dcn : Nat) (items : List LogItem) : (appendEntry s typ dcn items).md = s.md := by simp [appendEntry]
@[simp] theorem appendHostWrites_md (s : State) (dcn : Nat) (ws : List LogItem) : (appendHostWrites s dcn ws).md = s.md := by simp [appendHostWrites]
@[simp] theorem closeHostWrites_md (s : State) : (closeHostWrites s).md = s.md := by unfold closeHostWrites; split <;> simp
@[simp] theorem logHostWrite_md (s : State) (item : LogItem) (bytes : Nat) : (logHostWrite s item bytes).md = s.md := rfl
@[simp] theorem resumeAt_md (s : State) (t : Nat) : (resumeAt s t).md = s.md := by simp [resumeAt]
@[simp] theorem resumeLogging_md (s : State) : (resumeLogging s).md = s.md := by unfold resumeLogging; split <;> simp
@[simp] theorem closeEntry_md (s : State) : (closeEntry s).md = s.md := by simp [closeEntry]
@[simp] theorem loadInputs_md (s : State) : (loadInputs s).md = s.md := rfl
@[simp] theorem applyHostItem_md (s : State) (x : LogItem) : (applyHostItem s x).md = s.md := congrArg Prod.fst (outsideData_applyHostItem s x)
@[simp] theorem applyHostWrites_md (s : State) : (applyHostWrites s).md = s.md := congrArg Prod.fst (outsideData_applyHostWrites s)
@[simp] theorem setLogErr_md (s : State) (b : Bool) : (setLogErr s b).md = s.md := by simp [setLogErr]

/-! #### Machine/Churn -/

@[simp] theorem setChn_md (s : State) (d : Nat) (c : ChurnDie) : (setChn s d c).md = s.md := rfl
@[simp] theorem orChnStatus_md (s : State) (d bits : Nat) : (orChnStatus s d bits).md = s.md := rfl
@[simp] theorem toggleHandoff_md (s : State) : (toggleHandoff s).md = s.md := by simp [toggleHandoff]
@[simp] theorem applyEnables_md (s : State) (n : Nat) : (applyEnables s n).md = s.md := (cycleView_eq.mp (cycleView_applyEnables s n)).1
@[simp] theorem enginesTick_md (s : State) : (enginesTick s).md = s.md := rfl
@[simp] theorem postResult_md (s : State) (d : Nat) (c : ChurnDie) (ws : List Word) (aborted isFault : Bool) :
    (postResult s d c ws aborted isFault).md = s.md := by simp [postResult]
@[simp] theorem endProgram_md (s : State) (d : Nat) (c : ChurnDie) : (endProgram s d c).md = s.md := by simp [endProgram]
@[simp] theorem budgetStop_md (s : State) (d : Nat) : (budgetStop s d).md = s.md := by
  unfold budgetStop; dsimp only; repeat' split
  all_goals simp
@[simp] theorem churnStop_md (s : State) (d : Nat) : (churnStop s d).md = s.md := by
  unfold churnStop; dsimp only; repeat' split
  all_goals simp
@[simp] theorem engineElse_modeOf (s : State) (d : Nat) (i : Instr) (cost : Nat) : modeOf (engineElse s d i cost).md = modeOf s.md := by
  unfold engineElse; repeat' split
  all_goals simp
@[simp] theorem landed_md (s : State) (d : Nat) (c : ChurnDie) (m : ChurnMach) : (landed s d c m).md = s.md := by simp [landed]

/-! #### Machine/TraceOps -/

@[simp] theorem bufRecord_md (s : State) (u lostBit : Nat) (r : List Word) : (bufRecord s u lostBit r).1.md = s.md := by simp [bufRecord]
@[simp] theorem storeTrc_md (s : State) (u lostBit : Nat) (lostOff : Nat × Nat) (r : List Word) :
    (storeTrc s u lostBit lostOff r).md = s.md := by simp [storeTrc]
@[simp] theorem syncRecord_md (s : State) (u : Nat) : (syncRecord s u).md = s.md := by simp [syncRecord]
@[simp] theorem syncDue_md (s : State) (u : Nat) : (syncDue s u).md = s.md := by simp [syncDue]
@[simp] theorem trcRecord_md (s : State) (u typ addrLo addrHi data : Nat) : (trcRecord s u typ addrLo addrHi data).md = s.md := by simp [trcRecord]
@[simp] theorem decision_md (s : State) (kind ch : Nat) (seq : Word) (detail : Nat) : (decision s kind ch seq detail).md = s.md := by simp [decision]
@[simp] theorem privGap_md (s : State) : (privGap s).md = s.md := by simp [privGap]

/-! #### Machine/Transactor -/

@[simp] theorem setChan_md (s : State) (c : Nat) (ch : Chan) : (setChan s c ch).md = s.md := rfl
@[simp] theorem headNote_md (s : State) (c : Nat) : (headNote s c).md = s.md := by unfold headNote; split <;> simp
@[simp] theorem inNote_md (ch0 : Chan) (s : State) (c : Nat) : (inNote ch0 s c).md = s.md := by unfold inNote; split <;> simp
@[simp] theorem accept_md (s : State) (c : Nat) (ch : Chan) (e : RingEntry) : (accept s c ch e).md = s.md := by simp [accept]
@[simp] theorem stage_md (s : State) (e : Nat) : (stage s e).md = s.md := by
  unfold stage; dsimp only; repeat' split
  all_goals simp
@[simp] theorem noteReady_md (s : State) : (noteReady s).md = s.md := rfl
@[simp] theorem putRows_md (s : State) (ws : List (Nat × Half)) : (putRows s ws).md = s.md := rfl
@[simp] theorem deliverOne_md (r : State × Nat) (c : Nat) : (deliverOne r c).1.md = r.1.md := by
  unfold deliverOne
  dsimp only
  repeat' split
  all_goals simp
@[simp] theorem foldl_deliverOne_md (l : List Nat) (r : State × Nat) : (l.foldl deliverOne r).1.md = r.1.md := by
  induction l generalizing r with
  | nil => rfl
  | cons c l ih => simp [ih]
@[simp] theorem fences_md (s : State) : (fences s).md = s.md := by simp [fences]
@[simp] theorem clearStatus_md (s : State) (opens : List Nat) (done : List Nat) : (clearStatus s opens done).md = s.md := rfl
@[simp] theorem deliverLive_md (s : State) : (deliverLive s).md = s.md := by simp [deliverLive]
@[simp] theorem deliverLog_md (s : State) : (deliverLog s).md = s.md := by
  unfold deliverLog
  dsimp only
  refine (foldl_md _ (fun s x => ?_) _ _).trans (clearStatus_md s _ _)
  split <;> rfl
@[simp] theorem releaseTaken_md (s : State) : (releaseTaken s).md = s.md := by simp [releaseTaken]
@[simp] theorem backPressure_md (s : State) (c : Nat) : (backPressure s c).md = s.md := by unfold backPressure; split <;> simp
@[simp] theorem flushPoint_md (s : State) (c : Nat) : (flushPoint s c).md = s.md := by unfold flushPoint; split <;> simp
@[simp] theorem queueOut_md (s : State) (c : Nat) (ch : Chan) (m : OutMsg) : (queueOut s c ch m).md = s.md := by simp [queueOut]
@[simp] theorem collectOne_md (s0 s : State) (c : Nat) : (collectOne s0 s c).md = s.md := by
  unfold collectOne
  repeat' split
  all_goals simp
@[simp] theorem collect_md (s : State) : (collect s).md = s.md := by simp [collect]
@[simp] theorem closeChan_md (s : State) (c : Nat) (ch0 : Chan) : (closeChan s c ch0).md = s.md := by
  unfold closeChan; dsimp only; repeat' split
  all_goals simp
@[simp] theorem logChange_md (s : State) (c : Nat) (isOpen : Bool) : (logChange s c isOpen).md = s.md := rfl
@[simp] theorem applyChanges_md (s : State) : (applyChanges s).md = s.md := (cycleView_eq.mp (cycleView_applyChanges s)).1
@[simp] theorem recordedChange_md (s : State) (x : LogItem) : (recordedChange s x).md = s.md := by
  unfold recordedChange; dsimp only; repeat' split
  all_goals simp
@[simp] theorem replayChanges_md (s : State) : (replayChanges s).md = s.md := by simp [replayChanges]
@[simp] theorem closeAll_md (s : State) : (closeAll s).md = s.md := by simp [closeAll]
@[simp] theorem loseIn_md (s : State) (c n : Nat) (ch : Chan) (m : InMsg) : (loseIn s c n ch m).md = s.md := by simp [loseIn]
@[simp] theorem loseOut_md (s : State) (c n : Nat) (ch : Chan) (m : OutMsg) : (loseOut s c n ch m).md = s.md := by simp [loseOut]
@[simp] theorem writePacket_md (s : State) (ring : Nat) : (writePacket s ring).md = s.md := by
  unfold writePacket; repeat' split
  all_goals simp
@[simp] theorem flushDone_md (s : State) (c : Nat) : (flushDone s c).md = s.md := by
  unfold flushDone; dsimp only; repeat' split
  all_goals simp

/-! #### Machine/Capture -/

@[simp] theorem setCapDie_md (s : State) (d : Nat) (c : CapDie) : (setCapDie s d c).md = s.md := rfl
@[simp] theorem setCapMode_md (s : State) (m : CapMode) : (setCapMode s m).md = s.md := by simp [setCapMode]
@[simp] theorem driveEvent_md (s : State) (line cause die m : Nat) : (driveEvent s line cause die m).md = s.md := by simp [driveEvent]
@[simp] theorem takeTrigger_md (s : State) (m : Nat) (mine : List (Nat × Nat × Nat)) : (takeTrigger s m mine).md = s.md := by simp [takeTrigger]
@[simp] theorem takeStop_md (s : State) (m : Nat) (mine : List (Nat × Nat × Nat)) : (takeStop s m mine).md = s.md := by simp [takeStop]
@[simp] theorem deliverLine_md (m : Nat) (low : BitVec 4) (mine : List (Nat × Nat × Nat)) (s : State) (line : Nat) :
    (deliverLine m low mine s line).md = s.md := by
  unfold deliverLine; repeat' split
  all_goals simp
@[simp] theorem ruleActs_modeOf (s : State) (d m r : Nat) : modeOf (ruleActs s d m r).md = modeOf s.md := by simp [ruleActs]
@[simp] theorem evalTrigger_modeOf (s : State) (d m : Nat) (prev : List Nat) (ones : List Nat) :
    modeOf (evalTrigger s d m prev ones).md = modeOf s.md := by unfold evalTrigger; split <;> simp
@[simp] theorem commitDie_modeOf (i : Image) (s : State) (d : Nat) : modeOf (commitDie i s d).md = modeOf s.md := by
  unfold commitDie; dsimp only; repeat' split
  all_goals simp
@[simp] theorem captureCommit_modeOf (s : State) (i : Image) : modeOf (captureCommit s i).md = modeOf s.md := by simp [captureCommit]
@[simp] theorem endDie_md (s : State) (d : Nat) : (endDie s d).md = s.md := by unfold endDie; split <;> simp
@[simp] theorem armNow_md (s : State) (dcn : Nat) : (armNow s dcn).md = s.md := by simp [armNow]
@[simp] theorem captureIdle_md (s : State) : (captureIdle s).md = s.md := by simp [captureIdle]
@[simp] theorem closeBlocks_md (s : State) : (closeBlocks s).md = s.md := rfl
@[simp] theorem reachRing_md (s : State) (b : Block) : (reachRing s b).md = s.md := by
  unfold reachRing; repeat' split
  all_goals simp
@[simp] theorem retireOldest_md (s : State) : (retireOldest s).md = s.md := by unfold retireOldest; split <;> simp
@[simp] theorem ringPut_md (s : State) (b : Block) : (ringPut s b).md = s.md := by simp [ringPut]
@[simp] theorem ringFull_md (s : State) : (ringFull s).md = s.md := by simp [ringFull]
@[simp] theorem loseSram_md (s : State) (d : Nat) : (loseSram s d).md = s.md := by unfold loseSram; split <;> simp

/-! #### Machine/Marks -/

@[simp] theorem widthFault_modeOf (s : State) (unit : Nat) (f : FaultInfo) : modeOf (widthFault s unit f).md = modeOf s.md := by simp [widthFault]

/-! #### Machine/Banks -/

@[simp] theorem countAt_md (s : State) (site off : Nat) : (countAt s site off).md = s.md := by simp [countAt]
@[simp] theorem bankWriteEnd_md (s : State) (n : Nat) (b : Bank) : (bankWriteEnd s n b).md = s.md := by unfold bankWriteEnd; split <;> simp
@[simp] theorem bankReadEnd_modeOf (s : State) (n : Nat) : modeOf (bankReadEnd s n).md = modeOf s.md := by
  unfold bankReadEnd; repeat' split
  all_goals simp
@[simp] theorem bankCycle_modeOf (s : State) (n : Nat) : modeOf (bankCycle s n).md = modeOf s.md := by unfold bankCycle; split <;> simp
@[simp] theorem bankEdge_modeOf (s : State) : modeOf (bankEdge s).md = modeOf s.md := by simp [bankEdge]
@[simp] theorem bankDrain_modeOf (s : State) (n : Nat) : modeOf (bankDrain s n).md = modeOf s.md := by unfold bankDrain; split <;> simp
@[simp] theorem bankPower_modeOf (s : State) (n p : Nat) : modeOf (bankPower s n p).md = modeOf s.md := by
  unfold bankPower; dsimp only; repeat' split
  all_goals simp
@[simp] theorem bankPoison_md (s : State) (addr : Nat) : (bankPoison s addr).md = s.md := by unfold bankPoison; split <;> simp

/-! #### Machine/Util -/

@[simp] theorem switchPin_md (s : State) (ins : List Nat) (p : Nat) : (switchPin s ins p).md = s.md := rfl
@[simp] theorem writeMap_md (s : State) (n : Nat) (w : Word) : (writeMap s n w).md = s.md := by simp [writeMap]
@[simp] theorem writeUtilIo_md (s : State) (b : Nat) (w : Word) : (writeUtilIo s b w).md = s.md := rfl
@[simp] theorem utilEdge_md (s : State) : (utilEdge s).md = s.md := rfl

/-! #### Machine/Fabric -/

@[simp] theorem keepPads_md (s : State) : (keepPads s).md = s.md := rfl
@[simp] theorem givePads_md (s : State) (pads : BitVec 192) (floats : BitVec 192) : (givePads s pads floats).md = s.md := by simp [givePads]
@[simp] theorem fabricEvent_md (s : State) (rise live : Bool) : (fabricEvent s rise live).md = s.md := by simp [fabricEvent]
@[simp] theorem fabricSpan_md (s : State) (a b : Nat) (live : Bool) : (fabricSpan s a b live).md = s.md := by simp [fabricSpan]
@[simp] theorem dropEdges_md (s : State) : (dropEdges s).md = s.md := rfl
@[simp] theorem holdPad_md (s : State) (p : Nat) : (holdPad s p).md = s.md := by simp [holdPad]
@[simp] theorem writeFrames_md (s : State) (fs : List FrameRec) : (writeFrames s fs).md = s.md := rfl

/-! #### Machine/Time -/

@[simp] theorem loadBoardTime_md (s : State) : (loadBoardTime s).md = s.md := by unfold loadBoardTime; split <;> simp
@[simp] theorem startUpFailure_md (s : State) (cause status : Nat) : (startUpFailure s cause status).md = s.md := by simp [startUpFailure]
@[simp] theorem checkDeadline_md (s : State) : (checkDeadline s).md = s.md := by simp [checkDeadline]
@[simp] theorem deadlineExpire_md (s : State) : (deadlineExpire s).md = s.md := by simp [deadlineExpire]
@[simp] theorem writeDeadline_md (s : State) (w : Word) : (writeDeadline s w).md = s.md := by simp [writeDeadline]
@[simp] theorem beginTraining_md (s : State) : (beginTraining s).md = s.md := by simp [beginTraining]
@[simp] theorem ctrlEdge_modeOf (s : State) : modeOf (ctrlEdge s).md = modeOf s.md := by simp [ctrlEdge]
@[simp] theorem tickEdges_modeOf (s : State) (live : Bool) : modeOf (tickEdges s live).md = modeOf s.md := by simp [tickEdges]
@[simp] theorem idleEdge_modeOf (s : State) : modeOf (idleEdge s).md = modeOf s.md := by simp [idleEdge]
@[simp] theorem setDom_md (s : State) (b : Bool) (d : TimeDom) : (setDom s b d).md = s.md := rfl
@[simp] theorem servoIncr_md (s : State) : (servoIncr s).md = s.md := rfl
@[simp] theorem selectDom_md (s : State) (b : Bool) : (selectDom s b).md = s.md := by simp [selectDom]
@[simp] theorem pauseServos_md (s : State) : (pauseServos s).md = s.md := by simp [pauseServos]
@[simp] theorem ptpSync_md (s : State) (b : Bool) (off : Int) : (ptpSync s b off).md = s.md := by simp [ptpSync]
@[simp] theorem ptpHoldover_md (s : State) (b : Bool) : (ptpHoldover s b).md = s.md := by simp [ptpHoldover]
@[simp] theorem writeTimeCtrl_md (s : State) (w : Word) : (writeTimeCtrl s w).md = s.md := by simp [writeTimeCtrl]
@[simp] theorem boardSend_md (s : State) : (boardSend s).md = s.md := by simp [boardSend]
@[simp] theorem ppsIn_md (s : State) : (ppsIn s).md = s.md := by simp [ppsIn]
@[simp] theorem ppsOut_md (s : State) : (ppsOut s).md = s.md := by simp [ppsOut]

/-! #### Machine/Sluice -/

@[simp] theorem endWork_md (s : State) (w : HoldWork) : (endWork s w).md = s.md := by unfold endWork; split <;> simp
@[simp] theorem throttle_md (s : State) : (throttle s).md = s.md := by simp [throttle]
@[simp] theorem frozenWork_md (s : State) : (frozenWork s).md = s.md := by unfold frozenWork; split <;> simp
@[simp] theorem slotStart_md (s : State) : (slotStart s).md = s.md := by simp [slotStart]
@[simp] theorem sluiceSample_modeOf (s : State) (low : Bool) : modeOf (sluiceSample s low).md = modeOf s.md := by simp [sluiceSample]
@[simp] theorem sluiceFreeze_md (s : State) : (sluiceFreeze s).md = s.md := by unfold sluiceFreeze; split <;> simp
@[simp] theorem closeStall_md (s : State) (ckp : Bool) : (closeStall s ckp).md = s.md := by simp [closeStall]
@[simp] theorem sluiceReopen_md (s : State) : (sluiceReopen s).md = s.md := by
  unfold sluiceReopen; repeat' split
  all_goals simp
@[simp] theorem sluiceWatchdog_md (s : State) : (sluiceWatchdog s).md = s.md := by simp [sluiceWatchdog]
@[simp] theorem stallStep_modeOf (s : State) : modeOf (stallStep s).md = modeOf s.md := by simp [stallStep]
@[simp] theorem cascadeSample_md (s : State) (low : BitVec 4) : (cascadeSample s low).md = s.md := by simp [cascadeSample]
@[simp] theorem cascadeDelivery_md (s : State) : (cascadeDelivery s).md = s.md := by unfold cascadeDelivery; split <;> simp

/-! #### Machine/Checkpoint -/

@[simp] theorem completeCheckpoint_md (s : State) : (completeCheckpoint s).md = s.md := by
  unfold completeCheckpoint; dsimp only; repeat' split
  all_goals simp
@[simp] theorem forceCheckpoint_md (s : State) : (forceCheckpoint s).md = s.md := by simp [forceCheckpoint]
@[simp] theorem restoreFrom_md (s : State) (c : Checkpoint) : (restoreFrom s c).md = s.md := rfl
@[simp] theorem failRecovery_modeOf (s : State) : modeOf (failRecovery s).md = modeOf s.md := by unfold failRecovery; split <;> simp
@[simp] theorem muteOld_md (s : State) : (muteOld s).md = s.md := rfl
@[simp] theorem recoveryRestore_modeOf (s : State) : modeOf (recoveryRestore s).md = modeOf s.md := by
  unfold recoveryRestore; repeat' split
  all_goals simp
@[simp] theorem renumber_md (s : State) (c : Nat) (isOpen : Bool) : (renumber s c isOpen).md = s.md := by unfold renumber; split <;> simp
@[simp] theorem recoveryEnd_modeOf (s : State) : modeOf (recoveryEnd s).md = modeOf s.md := by unfold recoveryEnd; split <;> simp
@[simp] theorem endReplay_legal (s : State) (m : Mode) : legalMd (modeOf (endReplay s m).md) := by simp [endReplay]

/-! #### Machine/TraceRows -/

@[simp] theorem trcStore_md (s : State) (at0 : Nat) (r : List Word) : (trcStore s at0 r).md = s.md := by
  unfold trcStore; dsimp only; repeat' split
  all_goals simp
@[simp] theorem funnelOne_md (s : State) (r : List Word) : (funnelOne s r).md = s.md := by
  unfold funnelOne; repeat' split
  all_goals simp
@[simp] theorem funnel_md (s : State) (rs : List (List Word)) : (funnel s rs).md = s.md := by simp [funnel]
@[simp] theorem sendBuffer_md (s : State) (u n : Nat) : (sendBuffer s u n).md = s.md := by simp [sendBuffer]
@[simp] theorem flushSources_md (s : State) : (flushSources s).md = s.md := by simp [flushSources]
@[simp] theorem traceRecord_md (s : State) (p : Packet) (u : Nat) : (traceRecord s p u).md = s.md := by simp [traceRecord]
@[simp] theorem funnelMark_md (s : State) (typ : Nat) : (funnelMark s typ).md = s.md := by simp [funnelMark]
@[simp] theorem trcStart_md (s : State) : (trcStart s).md = s.md := by simp [trcStart]
@[simp] theorem trcStop_md (s : State) : (trcStop s).md = s.md := by simp [trcStop]
@[simp] theorem ruleFire_md (s : State) (i : TraceInputs) : (ruleFire s i).md = s.md := by simp [ruleFire]
@[simp] theorem clockGate_md (s : State) (u : Nat) : (clockGate s u).md = s.md := by simp [clockGate]
@[simp] theorem sourceWake_md (s : State) (u : Nat) : (sourceWake s u).md = s.md := by simp [sourceWake]

/-! #### Machine/Startup -/

@[simp] theorem freshState_legal (s : State) : legalMd (modeOf (freshState s).md) := fun _ => ⟨rfl, rfl⟩
@[simp] theorem coldReset_legal (s : State) (st : Straps) : legalMd (modeOf (coldReset s st).md) := freshState_legal s
@[simp] theorem warmReset_legal (s : State) (cause : Nat) : legalMd (modeOf (warmReset s cause).md) := freshState_legal (flushRecords s)
@[simp] theorem warmResetRow_legal (s : State) (cause : Nat) (h : legalMd (modeOf s.md)) :
    legalMd (modeOf (warmResetRow s cause).md) := by simp [h, warmResetRow]
@[simp] theorem cfgDoneLow_legal (s : State) (h : legalMd (modeOf s.md)) : legalMd (modeOf (cfgDoneLow s).md) := by simp [h, cfgDoneLow]
@[simp] theorem endpointReset_md (s : State) : (endpointReset s).md = s.md := by simp [endpointReset]
@[simp] theorem configurationReady_md (s : State) : (configurationReady s).md = s.md := by simp [configurationReady]
@[simp] theorem cfgDoneRelease_md (s : State) : (cfgDoneRelease s).md = s.md := by simp [cfgDoneRelease]
@[simp] theorem cfgDoneReleasedByAll_md (s : State) : (cfgDoneReleasedByAll s).md = s.md := by simp [cfgDoneReleasedByAll]
@[simp] theorem epochPulse_md (s : State) : (epochPulse s).md = s.md := by simp [epochPulse]
@[simp] theorem tickEpoch_md (s : State) : (tickEpoch s).md = s.md := by simp [tickEpoch]
@[simp] theorem loadUtil_md (s : State) (e : Nat × Word) : (loadUtil s e).md = s.md := rfl
@[simp] theorem foundDegraded_md (s : State) (c : Nat × Word) : (foundDegraded s c).md = s.md := by simp [foundDegraded]
@[simp] theorem startupEnd_legal (s : State) (h : legalMd (modeOf s.md)) : legalMd (modeOf (startupEnd s).md) := by simp [h, startupEnd]

/-! #### Machine/Steps -/

@[simp] theorem advance_modeOf (s : State) : modeOf (advance s).md = modeOf s.md := by simp [advance]
@[simp] theorem dropTileReads_md (s : State) (cw : Nat) : (dropTileReads s cw).md = s.md := by unfold dropTileReads; split <;> simp
@[simp] theorem eccError_modeOf (s : State) (e : EccEvent) : modeOf (eccError s e).md = modeOf s.md := by unfold eccError; split <;> simp
@[simp] theorem stepEps_md (s0 s : State) (works : List EpWork) (t : Nat) : (stepEps s0 s works t).md = s.md := rfl
@[simp] theorem stepReads_md (s0 s : State) (i : Image) (t : Nat) : (stepReads s0 s i t).md = s.md := rfl
@[simp] theorem stepClusters_md (s0 s : State) (i : Image) (works : List EpWork) (t : Nat) : (stepClusters s0 s i works t).md = s.md := rfl
@[simp] theorem queueRecord_md (s : State) (d : Nat) (channels : List Nat) : (queueRecord s d channels).md = s.md := by simp [queueRecord]
@[simp] theorem stepNetwork_modeOf (s0 s : State) (i : Image) (works : List EpWork) (t : Nat) :
    modeOf (stepNetwork s0 s i works t).md = modeOf s.md := by
  unfold stepNetwork
  dsimp only
  split <;> simp
@[simp] theorem stepBudget_md (s : State) (ops : List PortOp) (t : Nat) : (stepBudget s ops t).md = s.md := by simp [stepBudget]
@[simp] theorem stepPorts_md (s0 s : State) (i : Image) (t : Nat) : (stepPorts s0 s i t).md = s.md := by simp [stepPorts]
@[simp] theorem stepDeliver_md (s : State) (t : Nat) : (stepDeliver s t).md = s.md := rfl
@[simp] theorem stepDdrChecks_md (s : State) (t : Nat) (refresh : List Nat) : (stepDdrChecks s t refresh).md = s.md := by simp [stepDdrChecks]
@[simp] theorem stepActivity_md (s : State) (i : Image) (t : Nat) : (stepActivity s i t).md = s.md := by simp [stepActivity]
@[simp] theorem stepSecond_md (s : State) (i : Image) (t : Nat) (e : StepEnv) : (stepSecond s i t e).md = s.md := by simp [stepSecond]
@[simp] theorem sendMarkers_md (s : State) : (sendMarkers s).md = s.md := by simp [sendMarkers]
@[simp] theorem runStep_modeOf (s : State) (i : Image) (t : Nat) (e : StepEnv) : modeOf (runStep s i t e).md = modeOf s.md := by simp [runStep]
@[simp] theorem scheduleStep_modeOf (s : State) (e : StepEnv) : modeOf (scheduleStep s e).md = modeOf s.md := by unfold scheduleStep; split <;> simp
@[simp] theorem boundaryClear_md (s : State) : (boundaryClear s).md = s.md := rfl
@[simp] theorem outputTransfer_md (s : State) : (outputTransfer s).md = s.md := by simp [outputTransfer]
@[simp] theorem inputSample_md (s : State) : (inputSample s).md = s.md := by simp [inputSample]
@[simp] theorem inputWrite_md (s : State) (i : Image) : (inputWrite s i).md = s.md := rfl
@[simp] theorem countCross_md (s : State) (ds : List Nat) : (countCross s ds).md = s.md := by simp [countCross]
@[simp] theorem takeLevels_modeOf (s0 : State) (e : BoundEnv) : modeOf (takeLevels s0 e).md = modeOf s0.md := by simp [takeLevels]
@[simp] theorem boundaryCommit_modeOf (s : State) (i : Image) : modeOf (boundaryCommit s i).md = modeOf s.md := by simp [boundaryCommit]
@[simp] theorem boundaryWork_modeOf (s : State) (i : Image) (b : Nat) : modeOf (boundaryWork s i b).md = modeOf s.md := by
  unfold boundaryWork
  split <;> simp
@[simp] theorem cycleBoundaryStep_modeOf (s : State) (e : BoundEnv) : modeOf (cycleBoundaryStep s e).md = modeOf s.md := by
  unfold cycleBoundaryStep
  split
  · split <;> simp
  · rfl
@[simp] theorem endStepping_legal (s : State) (m : Mode) : legalMd (modeOf (endStepping s m).md) := by simp [endStepping]
@[simp] theorem holdStop_modeOf (s : State) : modeOf (holdStop s).md = modeOf s.md := rfl
@[simp] theorem modeChange_legal (s : State) (h : legalMd (modeOf s.md)) : legalMd (modeOf (modeChange s).md) := by simp [h, modeChange]
@[simp] theorem periodicDue_md (s : State) : (periodicDue s).md = s.md := by simp [periodicDue]
@[simp] theorem enterHolds_md (s : State) (n : Nat) : (enterHolds s n).md = s.md := by simp [enterHolds]
@[simp] theorem endChecks_md (s : State) : (endChecks s).md = s.md := by simp [endChecks]
@[simp] theorem cycleEnd_legal (s : State) (h : legalMd (modeOf s.md)) : legalMd (modeOf (cycleEnd s).md) := by
  by_cases hc : (s.seq.epoch && stepping s && s.seq.tick == .bound 16 && !endWaits s) = true
  · simp only [Bool.and_eq_true, beq_iff_eq, Bool.not_eq_true'] at hc
    obtain ⟨⟨⟨he, hs⟩, ht⟩, hw⟩ := hc
    obtain ⟨t, heq, hmd, -⟩ := cycleEnd_parts he hs ht hw
    have htl : legalMd (modeOf t.md) := by rwa [hmd]
    simp [heq, htl]
  · unfold cycleEnd
    rw [if_neg hc]
    exact h
@[simp] theorem stepNExpiry_legal (s : State) (h : legalMd (modeOf s.md)) : legalMd (modeOf (stepNExpiry s).md) := by simp [h, stepNExpiry]
@[simp] theorem replayEnd_legal (s : State) (h : legalMd (modeOf s.md)) : legalMd (modeOf (replayEnd s).md) := by simp [h, replayEnd]
@[simp] theorem periodicCheckpoint_md (s : State) : (periodicCheckpoint s).md = s.md := by simp [periodicCheckpoint]
@[simp] theorem captureEnd_md (s : State) : (captureEnd s).md = s.md := by simp [captureEnd]
@[simp] theorem capAutoCycles_md (s : State) : (capAutoCycles s).md = s.md := by simp [capAutoCycles]
@[simp] theorem capAutoTime_md (s : State) : (capAutoTime s).md = s.md := by simp [capAutoTime]
@[simp] theorem checkpointComplete_md (s : State) : (checkpointComplete s).md = s.md := by simp [checkpointComplete]

/-! #### Machine/RegMap -/

@[simp] theorem readReg_md (s : State) (site b off : Nat) : (readReg s site b off).1.md = s.md := by simp [readReg]
@[simp] theorem readRegs_modeOf (n : Nat) (s : State) (site b off : Nat) : modeOf (readRegs n s site b off).1.md = modeOf s.md := by
  induction n generalizing s off with
  | zero => rfl
  | succ n ih => simp [readRegs, ih]

/-! #### Machine/HostWrite -/

@[simp] theorem hostWrite_md (s : State) (space : Nat) (loc : Word) (at0 : Nat) (vs : List Half) :
    (hostWrite s space loc at0 vs).md = s.md := by simp [hostWrite]
@[simp] theorem hostWriteRegion_md (n : Nat) (s : State) (r at0 : Nat) (vs : List Half) : (hostWriteRegion n s r at0 vs).md = s.md := by
  induction n generalizing s at0 vs with
  | zero => rfl
  | succ n ih => simp [hostWriteRegion, ih]
@[simp] theorem bulkMet_modeOf (s : State) (off : Nat) (w : DdrWordFound) : modeOf (bulkMet s off w).1.md = modeOf s.md := by
  unfold bulkMet
  repeat' split
  all_goals simp
@[simp] theorem bulkRead_modeOf (s : State) (off : Nat) (w : DdrWordFound) : modeOf (bulkRead s off w).md = modeOf s.md := by simp [bulkRead]
@[simp] theorem bulkWrite_md (s : State) (off : Nat) (w : Word) : (bulkWrite s off w).md = s.md := by simp [bulkWrite]

/-! #### Machine/RegWrite -/

@[simp] theorem w1c_md (s : State) (site b off mask : Nat) (w : Word) : (w1c s site b off mask w).md = s.md := rfl
@[simp] theorem putReg_md (s : State) (site b off v : Nat) : (putReg s site b off v).md = s.md := by simp [putReg]
@[simp] theorem writeCapReg_md (s : State) (off : Nat) (w : Word) : (writeCapReg s off w).md = s.md := by unfold writeCapReg; split <;> simp
@[simp] theorem writeTrg_md (s : State) (d off : Nat) (w : Word) : (writeTrg s d off w).md = s.md := by simp [writeTrg]
@[simp] theorem writeChnCtrl_md (s : State) (d : Nat) (w : Word) : (writeChnCtrl s d w).md = s.md := by
  unfold writeChnCtrl; dsimp only; repeat' split
  all_goals simp
@[simp] theorem writeCkp_md (s : State) (off : Nat) (w : Word) : (writeCkp s off w).md = s.md := by
  unfold writeCkp; repeat' split
  all_goals simp
@[simp] theorem writeIocfg_md (s : State) (p : Nat) (w : Word) : (writeIocfg s p w).md = s.md := by simp [writeIocfg]
@[simp] theorem writeScr_md (s : State) (site off : Nat) (w : Word) : (writeScr s site off w).md = s.md := by simp [writeScr]
@[simp] theorem writeTime_md (s : State) (off : Nat) (w : Word) : (writeTime s off w).md = s.md := by unfold writeTime; split <;> simp
@[simp] theorem enableTrc_md (s : State) : (enableTrc s).md = s.md := rfl
@[simp] theorem writeTrcCtrl_md (s : State) (w : Word) : (writeTrcCtrl s w).md = s.md := by simp [writeTrcCtrl]
@[simp] theorem writeTrc_md (s : State) (off : Nat) (w : Word) : (writeTrc s off w).md = s.md := by
  unfold writeTrc; repeat' split
  all_goals simp
@[simp] theorem writeUtil_md (s : State) (off : Nat) (w : Word) : (writeUtil s off w).md = s.md := by simp [writeUtil]
@[simp] theorem writeReg_md (s : State) (site b off : Nat) (w : Word) : (writeReg s site b off w).md = s.md := by unfold writeReg; split <;> simp
@[simp] theorem writeRegs_modeOf (s : State) (site b off : Nat) (ws : List Word) : modeOf (writeRegs s site b off ws).md = modeOf s.md := by
  induction ws generalizing s off with
  | nil => rfl
  | cons w ws ih => simp [writeRegs, ih]
@[simp] theorem readDcnLo_md (s : State) : (readDcnLo s).md = s.md := by simp [readDcnLo]
@[simp] theorem clearIndices_md (s : State) : (clearIndices s).md = s.md := by simp [clearIndices]
@[simp] theorem hostWrites_md (s : State) (f : State → State) (h : (f s).md = s.md) : (hostWrites s f).md = s.md := by simp [hostWrites, h]
@[simp] theorem hostWrites_modeOf (s : State) (f : State → State) (h : modeOf (f s).md = modeOf s.md) :
    modeOf (hostWrites s f).md = modeOf s.md := by simp [hostWrites, h]
@[simp] theorem writeRingCtrl_md (s : State) (w : Word) : (writeRingCtrl s w).md = s.md := by simp [writeRingCtrl]
@[simp] theorem trxDoorbell_md (s : State) (c : Nat) (prod : Word) : (trxDoorbell s c prod).md = s.md := by unfold trxDoorbell; split <;> simp
@[simp] theorem writeMsix_md (s : State) (off : Nat) (w : Word) : (writeMsix s off w).md = s.md := by simp [writeMsix]
@[simp] theorem writeBar0_md (s : State) (off : Nat) (w : Word) : (writeBar0 s off w).md = s.md := by simp [writeBar0]
@[simp] theorem siteWrite_md (s : State) (d : Nat) (f : State → State) (h : (f s).md = s.md) : (siteWrite s d f).md = s.md := by simp [siteWrite, h]
@[simp] theorem siteWrite_modeOf (s : State) (d : Nat) (f : State → State) (h : modeOf (f s).md = modeOf s.md) :
    modeOf (siteWrite s d f).md = modeOf s.md := by simp [siteWrite, h]
@[simp] theorem registerWrite_md (s : State) (a : RegAddr) (w : Word) : (registerWrite s a w).md = s.md := by unfold registerWrite; split <;> simp

/-! #### Machine/Loader -/

@[simp] theorem initialCapture_md (s0 : State) (i : Image) (keep : Bool) : (initialCapture s0 i keep).md = s0.md := by simp [initialCapture]
@[simp] theorem initialCapRegs_modeOf (s : State) (i : Image) : modeOf (initialCapRegs s i).md = modeOf s.md := by
  unfold initialCapRegs
  dsimp only
  split <;> simp
@[simp] theorem flushAll_md (s : State) : (flushAll s).md = s.md := by simp [flushAll]
@[simp] theorem discardChannels_md (s : State) : (discardChannels s).md = s.md := by simp [discardChannels]
@[simp] theorem beginImage_modeOf (s : State) (i : Image) (keepStore keepRegions : Bool) :
    modeOf (beginImage s i keepStore keepRegions).md = modeOf s.md := by simp [beginImage]
@[simp] theorem applyLoad_legal (s : State) (j : LoadJob) (h : legalMd (modeOf s.md)) : legalMd (modeOf (applyLoad s j).md) := by
  simp [applyLoad, h]
@[simp] theorem freeStaging_md (s : State) (j : LoadJob) : (freeStaging s j).md = s.md := by simp [freeStaging]
@[simp] theorem loadComplete_legal (s : State) (u : Option Nat) (h : legalMd (modeOf s.md)) : legalMd (modeOf (loadComplete s u).md) := by
  unfold loadComplete
  dsimp only
  repeat' split
  all_goals simp [h]
@[simp] theorem imageReset_modeOf (s : State) : modeOf (imageReset s).md = modeOf s.md := by unfold imageReset; split <;> simp
@[simp] theorem imageResetDone_md (s : State) : (imageResetDone s).md = s.md := by unfold imageResetDone; split <;> simp
@[simp] theorem imageUnload_legal (s : State) : legalMd (modeOf (imageUnload s).md) := by simp [imageUnload]

/-! #### Machine/Cmd -/

@[simp] theorem mapSession_md (s : State) (id : Word) (f : Session → Session) : (mapSession s id f).md = s.md := rfl
@[simp] theorem sendReply_md (s : State) (p : Path) (r : Reply) : (sendReply s p r).md = s.md := by
  unfold sendReply; repeat' split
  all_goals simp
@[simp] theorem answer_md (s : State) (op : Nat) (c : Cmd) (status : Nat) (ws : List Word) : (answer s op c status ws).md = s.md := by simp [answer]
@[simp] theorem dropDatagram_md (s : State) (off : Nat) : (dropDatagram s off).md = s.md := rfl
@[simp] theorem repeated_md (s : State) (id : Word) (c : Cmd) : (repeated s id c).md = s.md := by
  unfold repeated; repeat' split
  all_goals simp
@[simp] theorem relay_md (s : State) (op : Nat) (c : Cmd) : (relay s op c).md = s.md := by simp [relay]
@[simp] theorem settle_legal (u : State) (op : Nat) (c : Cmd) (r : State × Res) (hu : legalMd (modeOf u.md)) (hr : legalMd (modeOf r.1.md)) :
    legalMd (modeOf (settle u op c r).md) := by
  obtain ⟨t, res⟩ := r
  cases res <;> simp [settle, hu, hr]
@[simp] theorem runCmd_legal (op : Nat) (chk : State → Cmd → Nat) (act : State → Cmd → State × Res) (c : Cmd) (s : State)
    (hs : legalMd (modeOf s.md)) (ha : legalMd (modeOf (act s c).1.md)) : legalMd (modeOf (runCmd op chk act c s).md) := by
  unfold runCmd
  dsimp only
  repeat' split
  all_goals simp [hs, ha]
theorem hostCmd_legal {op : Nat} {chk : State → Cmd → Nat} {act : State → Cmd → State × Res} {c : Cmd} {s : State}
    (hs : legalMd (modeOf s.md)) (ha : ∀ u, legalMd (modeOf u.md) → legalMd (modeOf (act u c).1.md)) :
    legalMd (modeOf (hostCmd op chk act c s).md) := by
  have hu : legalMd (modeOf (takeEntry s c).md) := by simpa using hs
  have := ha _ hu
  unfold hostCmd
  dsimp only
  repeat' split
  all_goals simp [hs, this]

/-! #### Machine/DieOps -/

@[simp] theorem dropFabric_md (s : State) (d : Nat) : (dropFabric s d).md = s.md := by simp [dropFabric]
@[simp] theorem dropEngine_md (s : State) (d : Nat) : (dropEngine s d).md = s.md := rfl
@[simp] theorem dropLinks_md (s : State) (d : Nat) : (dropLinks s d).md = s.md := rfl
@[simp] theorem loseDie_modeOf (s : State) (d cause : Nat) : modeOf (loseDie s d cause).md = modeOf s.md := by simp [loseDie]

/-! #### Machine/RunOps -/

@[simp] theorem clearTotals_md (s : State) : (clearTotals s).md = s.md := by simp [clearTotals]
@[simp] theorem enterRun_legal (s : State) (sub : Sub) (debug : Bool) (n : Nat) (ckp : Bool) :
    legalMd (modeOf (enterRun s sub debug n ckp).md) := by simp [enterRun]
@[simp] theorem startRun_legal (s : State) (sub : Sub) (debug : Bool) (n : Nat) (ckp : Bool) :
    legalMd (modeOf (startRun s sub debug n ckp).md) := by simp [startRun]
@[simp] theorem resumeRun_legal (s : State) (sub : Sub) (n : Nat) (ckp : Bool) : legalMd (modeOf (resumeRun s sub n ckp).md) := by simp [resumeRun]
@[simp] theorem stopHalted_legal (s : State) : legalMd (modeOf (stopHalted s).md) := by simp [stopHalted]
@[simp] theorem startReplay_legal (s : State) (target : Option Nat) (debug : Bool) (h : legalMd (modeOf s.md)) :
    legalMd (modeOf (startReplay s target debug).md) := by
  unfold startReplay; repeat' split
  all_goals simp [h]
@[simp] theorem actRunStart_legal (s : State) (c : Cmd) (h : legalMd (modeOf s.md)) :
    legalMd (modeOf (actRunStart s c).1.md) := by simp [h, actRunStart]
@[simp] theorem actRunHalt_modeOf (s : State) (x : Cmd) : modeOf (actRunHalt s x).1.md = modeOf s.md := by simp [actRunHalt]
@[simp] theorem actRunResume_legal (s : State) (c : Cmd) (h : legalMd (modeOf s.md)) :
    legalMd (modeOf (actRunResume s c).1.md) := by simp [h, actRunResume]
@[simp] theorem actRunStop_legal (s : State) (x : Cmd) (h : legalMd (modeOf s.md)) : legalMd (modeOf (actRunStop s x).1.md) := by simp [h, actRunStop]
@[simp] theorem actRunStatus_md (s : State) (x : Cmd) : (actRunStatus s x).1.md = s.md := rfl

/-! #### Machine/CmdDevice -/

@[simp] theorem actNegotiate_md (s : State) (c : Cmd) : (actNegotiate s c).1.md = s.md := by
  unfold actNegotiate; repeat' split
  all_goals simp
@[simp] theorem actIdentify_md (s : State) (x : Cmd) : (actIdentify s x).1.md = s.md := rfl
@[simp] theorem actRegRead_modeOf (s : State) (c : Cmd) : modeOf (actRegRead s c).1.md = modeOf s.md := by simp [actRegRead]
@[simp] theorem actRegWrite_modeOf (s : State) (c : Cmd) : modeOf (actRegWrite s c).1.md = modeOf s.md := by simp [actRegWrite]
@[simp] theorem actRegModify_md (s : State) (c : Cmd) : (actRegModify s c).1.md = s.md := by simp [actRegModify]
@[simp] theorem actSignature_md (s : State) (c : Cmd) : (actSignature s c).1.md = s.md := rfl
@[simp] theorem actReset_modeOf (s : State) (c : Cmd) : modeOf (actReset s c).1.md = modeOf s.md := by simp [actReset]
@[simp] theorem actPowerCap_md (s : State) (c : Cmd) : (actPowerCap s c).1.md = s.md := by simp [actPowerCap]
@[simp] theorem actEventMask_md (s : State) (c : Cmd) : (actEventMask s c).1.md = s.md := rfl
@[simp] theorem actImageStatus_md (s : State) (x : Cmd) : (actImageStatus s x).1.md = s.md := by
  unfold actImageStatus; repeat' split
  all_goals simp
@[simp] theorem actImageStage_md (s : State) (c : Cmd) : (actImageStage s c).1.md = s.md := by simp [actImageStage]
@[simp] theorem actImageLoad_md (s : State) (c : Cmd) : (actImageLoad s c).1.md = s.md := by simp [actImageLoad]
@[simp] theorem actImageUnload_legal (s : State) (x : Cmd) (h : legalMd (modeOf s.md)) :
    legalMd (modeOf (actImageUnload s x).1.md) := by simp [h, actImageUnload]
@[simp] theorem actImageReset_modeOf (s : State) (x : Cmd) : modeOf (actImageReset s x).1.md = modeOf s.md := by simp [actImageReset]
@[simp] theorem actImageDigest_md (s : State) (x : Cmd) : (actImageDigest s x).1.md = s.md := by unfold actImageDigest; split <;> simp

/-! #### Machine/CmdMemory -/

@[simp] theorem actRead_modeOf (op : Nat) (s : State) (c : Cmd) : modeOf (actRead op s c).1.md = modeOf s.md := by simp [actRead]
@[simp] theorem serveReads_modeOf (s : State) : modeOf (serveReads s).md = modeOf s.md := by simp [serveReads]
@[simp] theorem actRowWrite_md (s : State) (c : Cmd) : (actRowWrite s c).1.md = s.md := by simp [actRowWrite]
@[simp] theorem actTileWrite_md (s : State) (c : Cmd) : (actTileWrite s c).1.md = s.md := by simp [actTileWrite]
@[simp] theorem actRegionWrite_md (s : State) (c : Cmd) : (actRegionWrite s c).1.md = s.md := by simp [actRegionWrite]
@[simp] theorem actDdrInfo_md (s : State) (x : Cmd) : (actDdrInfo s x).1.md = s.md := rfl
@[simp] theorem actDmaRead_md (s : State) (x : Cmd) : (actDmaRead s x).1.md = s.md := by simp [actDmaRead]
@[simp] theorem actDmaWrite_md (s : State) (c : Cmd) : (actDmaWrite s c).1.md = s.md := by simp [actDmaWrite]
@[simp] theorem dmaWord_modeOf (c : Cmd) (r : State × Bool) (f : Nat × DdrWordFound) : modeOf (dmaWord c r f).1.md = modeOf r.1.md := by
  unfold dmaWord
  extract_lets k q
  split
  · rfl
  · simp [q]
@[simp] theorem foldl_dmaWord_modeOf (c : Cmd) (l : List (Nat × DdrWordFound)) (r : State × Bool) :
    modeOf (l.foldl (dmaWord c) r).1.md = modeOf r.1.md := by
  induction l generalizing r with
  | nil => rfl
  | cons f l ih => simp [ih]
@[simp] theorem dmaComplete_modeOf (s : State) (found : List (Nat × DdrWordFound)) : modeOf (dmaComplete s found).md = modeOf s.md := by
  unfold dmaComplete
  dsimp only
  repeat' split
  all_goals simp
@[simp] theorem holdWorkEnd_modeOf (s : State) (w : HoldWork) : modeOf (holdWorkEnd s w).md = modeOf s.md := by
  unfold holdWorkEnd; dsimp only; repeat' split
  all_goals simp

/-! #### Machine/CmdCapture -/

@[simp] theorem actCapInfo_md (s : State) (x : Cmd) : (actCapInfo s x).1.md = s.md := rfl
@[simp] theorem actCapArm_md (s : State) (x : Cmd) : (actCapArm s x).1.md = s.md := by simp [actCapArm]
@[simp] theorem hostCascade_md (s : State) (stop : Bool) : (hostCascade s stop).md = s.md := by simp [hostCascade]
@[simp] theorem actCapTrigger_md (s : State) (x : Cmd) : (actCapTrigger s x).1.md = s.md := by simp [actCapTrigger]
@[simp] theorem actCapStop_md (s : State) (x : Cmd) : (actCapStop s x).1.md = s.md := by simp [actCapStop]
@[simp] theorem actCapRead_md (s : State) (x : Cmd) : (actCapRead s x).1.md = s.md := by simp [actCapRead]
@[simp] theorem blockFault_modeOf (s : State) (b : Block) (found : Bool) : modeOf (blockFault s b found).md = modeOf s.md := by simp [blockFault]
@[simp] theorem capReadComplete_modeOf (s : State) (poisoned : List Nat) : modeOf (capReadComplete s poisoned).md = modeOf s.md := by
  unfold capReadComplete; dsimp only; repeat' split
  all_goals simp
@[simp] theorem actChnInfo_md (s : State) (x : Cmd) : (actChnInfo s x).1.md = s.md := rfl
@[simp] theorem actChnRing_md (s : State) (c : Cmd) : (actChnRing s c).1.md = s.md := rfl
@[simp] theorem actChnMemRead_modeOf (s : State) (c : Cmd) : modeOf (actChnMemRead s c).1.md = modeOf s.md := by
  unfold actChnMemRead; dsimp only; repeat' split
  all_goals simp
@[simp] theorem actChnMemWrite_md (s : State) (c : Cmd) : (actChnMemWrite s c).1.md = s.md := by simp [actChnMemWrite]

/-! #### Machine/CmdCheckpoint -/

@[simp] theorem actCkpInfo_md (s : State) (x : Cmd) : (actCkpInfo s x).1.md = s.md := rfl
@[simp] theorem actCkpTake_md (s : State) (x : Cmd) : (actCkpTake s x).1.md = s.md := by simp [actCkpTake]
@[simp] theorem actReplayStart_legal (s : State) (c : Cmd) (h : legalMd (modeOf s.md)) :
    legalMd (modeOf (actReplayStart s c).1.md) := by simp [h, actReplayStart]
@[simp] theorem actReplayStop_modeOf (s : State) (x : Cmd) : modeOf (actReplayStop s x).1.md = modeOf s.md := by simp [actReplayStop]
@[simp] theorem actCkpExport_md (s : State) (x : Cmd) : (actCkpExport s x).1.md = s.md := by simp [actCkpExport]
@[simp] theorem ckpExportComplete_md (s : State) : (ckpExportComplete s).md = s.md := by
  unfold ckpExportComplete; dsimp only; repeat' split
  all_goals simp
@[simp] theorem actCkpImport_md (s : State) (x : Cmd) : (actCkpImport s x).1.md = s.md := rfl
@[simp] theorem applyImport_md (s0 : State) (e : CkpExport) : (applyImport s0 e).md = s0.md := by simp [applyImport]
@[simp] theorem ckpImportComplete_md (s : State) : (ckpImportComplete s).md = s.md := by
  unfold ckpImportComplete; dsimp only; repeat' split
  all_goals simp
@[simp] theorem actChStatus_md (s : State) (c : Cmd) : (actChStatus s c).1.md = s.md := by unfold actChStatus; split <;> simp
@[simp] theorem actChOpen_md (s : State) (c : Cmd) : (actChOpen s c).1.md = s.md := by unfold actChOpen; split <;> simp
@[simp] theorem actChClose_md (s : State) (c : Cmd) : (actChClose s c).1.md = s.md := by
  unfold actChClose; dsimp only; repeat' split
  all_goals simp
@[simp] theorem actChFlush_md (s : State) (c : Cmd) : (actChFlush s c).1.md = s.md := by unfold actChFlush; split <;> simp
@[simp] theorem actOutRing_md (s : State) (c : Cmd) : (actOutRing s c).1.md = s.md := by simp [actOutRing]

/-! #### Machine/CmdLinks -/

@[simp] theorem actLinkStatus_md (s : State) (c : Cmd) : (actLinkStatus s c).1.md = s.md := rfl
@[simp] theorem actCounters_md (s : State) (c : Cmd) : (actCounters s c).1.md = s.md := by simp [actCounters]
@[simp] theorem withdrawAccessory_md (s : State) : (withdrawAccessory s).md = s.md := by simp [withdrawAccessory]
@[simp] theorem actLinkTrain_md (s : State) (c : Cmd) : (actLinkTrain s c).1.md = s.md := by simp [actLinkTrain]
@[simp] theorem linkMessageOut_md (s : State) (d code : Nat) : (linkMessageOut s d code).md = s.md := by simp [linkMessageOut]
@[simp] theorem loopModule_md (s : State) (n p : Nat) : (loopModule s n p).1.md = s.md := by simp [loopModule]
@[simp] theorem loopBoard_md (s : State) (n p : Nat) : (loopBoard s n p).1.md = s.md := by unfold loopBoard; split <;> simp
@[simp] theorem actLoop_md (s : State) (c : Cmd) : (actLoop s c).1.md = s.md := by simp [actLoop]
@[simp] theorem actTimeGet_md (s : State) (x : Cmd) : (actTimeGet s x).1.md = s.md := rfl
@[simp] theorem actTimeSet_md (s : State) (c : Cmd) : (actTimeSet s c).1.md = s.md := by simp [actTimeSet]
@[simp] theorem actPtp_md (s : State) (c : Cmd) : (actPtp s c).1.md = s.md := rfl
@[simp] theorem actPps_md (s : State) (c : Cmd) : (actPps s c).1.md = s.md := rfl

/-! #### Machine/CmdSecurity -/

@[simp] theorem tickN_md (s : State) (n : Nat) : (tickN s n).md = s.md := rfl
@[simp] theorem verifyFailed_md (s : State) : (verifyFailed s).md = s.md := rfl
@[simp] theorem actCert_md (s : State) (c : Cmd) : (actCert s c).1.md = s.md := rfl
@[simp] theorem actAttest_md (s : State) (x : Cmd) : (actAttest s x).1.md = s.md := rfl
@[simp] theorem attestComplete_md (s : State) : (attestComplete s).md = s.md := by
  unfold attestComplete; dsimp only; repeat' split
  all_goals simp
@[simp] theorem openSession_md (s : State) (c : Cmd) : (openSession s c).1.md = s.md := by simp [openSession]
@[simp] theorem actSession_md (s : State) (c : Cmd) : (actSession s c).1.md = s.md := by unfold actSession; split <;> simp
@[simp] theorem dropClosing_md (s : State) : (dropClosing s).md = s.md := rfl
@[simp] theorem setSlot_md (s : State) (k : Nat) (st : SlotSt) (key : Digest) : (setSlot s k st key).md = s.md := rfl
@[simp] theorem actKeySlot_md (s : State) (c : Cmd) : (actKeySlot s c).1.md = s.md := by
  unfold actKeySlot; dsimp only; repeat' split
  all_goals simp
@[simp] theorem actAuthorise_md (s : State) (c : Cmd) : (actAuthorise s c).1.md = s.md := by simp [actAuthorise]

/-! #### Machine/CmdService -/

@[simp] theorem actSvcStatus_md (s : State) (x : Cmd) : (actSvcStatus s x).1.md = s.md := rfl
@[simp] theorem actServiceEnter_legal (s : State) (x : Cmd) (h : legalMd (modeOf s.md)) :
    legalMd (modeOf (actServiceEnter s x).1.md) := by simp [h, actServiceEnter]
@[simp] theorem switchFirmware_md (s : State) (v : Word) (d : Digest) : (switchFirmware s v d).md = s.md := by simp [switchFirmware]
@[simp] theorem actServiceExit_legal (s : State) (x : Cmd) : legalMd (modeOf (actServiceExit s x).1.md) := by simp [actServiceExit]
@[simp] theorem actFwUpdate_md (s : State) (c : Cmd) : (actFwUpdate s c).1.md = s.md := by
  unfold actFwUpdate; repeat' split
  all_goals simp
@[simp] theorem fwUpdateComplete_md (s : State) (ok : Bool) : (fwUpdateComplete s ok).md = s.md := by unfold fwUpdateComplete; split <;> simp
@[simp] theorem trcRestart_md (s : State) : (trcRestart s).md = s.md := rfl
@[simp] theorem actTraceCtrl_md (s : State) (c : Cmd) : (actTraceCtrl s c).1.md = s.md := by simp [actTraceCtrl]
@[simp] theorem actBankPower_modeOf (s : State) (c : Cmd) : modeOf (actBankPower s c).1.md = modeOf s.md := by
  unfold actBankPower; dsimp only; repeat' split
  all_goals simp
@[simp] theorem actMgmt_md (s : State) (c : Cmd) : (actMgmt s c).1.md = s.md := rfl
@[simp] theorem actDiag_md (s : State) (x : Cmd) : (actDiag s x).1.md = s.md := rfl
@[simp] theorem diagComplete_md (s : State) (status : Nat) (ws : List Word) : (diagComplete s status ws).md = s.md := by simp [diagComplete]

/-! #### Machine/CmdFabric -/

@[simp] theorem actBaseLoad_md (s : State) (c : Cmd) : (actBaseLoad s c).1.md = s.md := by simp [actBaseLoad]
@[simp] theorem configurePins_md (s : State) (cells : List (Nat × Word)) : (configurePins s cells).md = s.md := by simp [configurePins]
@[simp] theorem startPersonality_md (s : State) (b : BasePersonality) : (startPersonality s b).md = s.md := by simp [startPersonality]
@[simp] theorem baseLoadComplete_md (s : State) : (baseLoadComplete s).md = s.md := by unfold baseLoadComplete; split <;> simp
@[simp] theorem actPrLoad_md (s : State) (c : Cmd) : (actPrLoad s c).1.md = s.md := by unfold actPrLoad; split <;> simp
@[simp] theorem endPrLoad_modeOf (s : State) (r : Nat) (p : PartialBits) : modeOf (endPrLoad s r p).1.md = modeOf s.md := by simp [endPrLoad]
@[simp] theorem prLoadComplete_modeOf (s : State) : modeOf (prLoadComplete s).md = modeOf s.md := by
  unfold prLoadComplete; dsimp only; repeat' split
  all_goals simp
@[simp] theorem actFabStatus_md (s : State) (c : Cmd) : (actFabStatus s c).1.md = s.md := rfl

/-! #### Machine/Faults -/

@[simp] theorem takeover_md (s : State) : (takeover s).md = s.md := by simp [takeover]
@[simp] theorem standbyRestart_md (s : State) : (standbyRestart s).md = s.md := by simp [standbyRestart]
@[simp] theorem safeHoldEntry_modeOf (s : State) : modeOf (safeHoldEntry s).md = modeOf s.md := by simp [safeHoldEntry]
@[simp] theorem heartbeat_modeOf (s : State) (b : Bool) : modeOf (heartbeat s b).md = modeOf s.md := by simp [heartbeat]
@[simp] theorem restartTimeout_modeOf (s : State) : modeOf (restartTimeout s).md = modeOf s.md := by simp [restartTimeout]
@[simp] theorem dieControllerRestart_modeOf (s : State) (d : Nat) (ok : Bool) :
    modeOf (dieControllerRestart s d ok).md = modeOf s.md := by simp [dieControllerRestart]
@[simp] theorem engineRestart_modeOf (s : State) (e : Nat) : modeOf (engineRestart s e).md = modeOf s.md := by simp [engineRestart]
@[simp] theorem supplyLoss_modeOf (s : State) (d : Nat) : modeOf (supplyLoss s d).md = modeOf s.md := by simp [supplyLoss]
@[simp] theorem supplyReturn_md (s : State) (d : Nat) : (supplyReturn s d).md = s.md := rfl
@[simp] theorem railLoss_md (s : State) (x : Nat) : (railLoss s x).md = s.md := rfl
@[simp] theorem clockSwitch_modeOf (s : State) (d : Nat) : modeOf (clockSwitch s d).md = modeOf s.md := by simp [clockSwitch]
@[simp] theorem instructionRepair_md (s : State) : (instructionRepair s).md = s.md := by simp [instructionRepair]
@[simp] theorem wearGroup_md (s : State) (gc g : Nat) : (wearGroup s gc g).md = s.md := rfl
@[simp] theorem groupFailure_modeOf (s : State) (gc g : Nat) : modeOf (groupFailure s gc g).md = modeOf s.md := by simp [groupFailure]
@[simp] theorem groupSelfTest_md (s : State) (found : List (Nat × Nat)) : (groupSelfTest s found).md = s.md := by simp [groupSelfTest]
@[simp] theorem ddr5Training_md (s : State) (channels : Nat) (twoDpc identical : Bool) (gb : Nat) :
    (ddr5Training s channels twoDpc identical gb).md = s.md := by simp [ddr5Training]
@[simp] theorem thrRaise_md (s : State) (site c : Nat) : (thrRaise s site c).md = s.md := by simp [thrRaise]
@[simp] theorem thrSet_md (s : State) (site c : Nat) (on off : Bool) : (thrSet s site c on off).md = s.md := by simp [thrSet]
@[simp] theorem compareNeighbours_md (s : State) (x : Nat) : (compareNeighbours s x).md = s.md := by simp [compareNeighbours]
@[simp] theorem railCheck_md (s : State) (t : ThermalReading) : (railCheck s t).md = s.md := by simp [railCheck]
@[simp] theorem thermalSample_md (s : State) (t : ThermalReading) : (thermalSample s t).md = s.md := by simp [thermalSample]
@[simp] theorem packageSample_md (s : State) (p : Nat) : (packageSample s p).md = s.md := by simp [packageSample]
@[simp] theorem burnFloor_md (s : State) : (burnFloor s).md = s.md := by simp [burnFloor]
@[simp] theorem tmrToggle_md (s : State) (k : Nat) : (tmrToggle s k).md = s.md := by simp [tmrToggle]
@[simp] theorem drainLog_md (s : State) (bytes : Nat) : (drainLog s bytes).md = s.md := by simp [drainLog]

/-! #### Machine/Scrub -/

@[simp] theorem dropRead_md (s : State) (r : DdrRead) : (dropRead s r).md = s.md := rfl
@[simp] theorem badResponse_modeOf (s : State) (f : FaultInfo) : modeOf (badResponse s f).md = modeOf s.md := by simp [badResponse]
@[simp] theorem badRead_modeOf (s : State) (r : DdrRead) (o : DdrOutcome) (synd : Nat) :
    modeOf (badRead s r o synd).md = modeOf s.md := by simp [badRead]
@[simp] theorem ddrArrival_modeOf (s : State) (gc port : Nat) (w : DdrWordFound) :
    modeOf (ddrArrival s gc port w).md = modeOf s.md := by unfold ddrArrival; split <;> simp
@[simp] theorem ddrTimeout_modeOf (s : State) (gc port : Nat) : modeOf (ddrTimeout s gc port).md = modeOf s.md := by unfold ddrTimeout; split <;> simp
@[simp] theorem forceNow_md (s : State) : (forceNow s).md = s.md := by simp [forceNow]
@[simp] theorem scrubNext_md (s : State) (site c addr : Nat) : (scrubNext s site c addr).md = s.md := by simp [scrubNext]
@[simp] theorem frameUpset_modeOf (s : State) (f : ScrubFinding) (a : Word) (hit : EccHit) :
    modeOf (frameUpset s f a hit).md = modeOf s.md := by unfold frameUpset; split <;> simp
@[simp] theorem churnError_modeOf (s : State) (f : ScrubFinding) (i : FaultInfo) : modeOf (churnError s f i).md = modeOf s.md := by
  unfold churnError; dsimp only; repeat' split
  all_goals simp
@[simp] theorem spoilEntry_modeOf (s : State) (n : Nat) : modeOf (spoilEntry s n).md = modeOf s.md := by simp [spoilEntry]
@[simp] theorem spoilLoad_md (s : State) : (spoilLoad s).md = s.md := rfl
@[simp] theorem areaPoison_md (s : State) (f : ScrubFinding) : (areaPoison s f).md = s.md := by simp [areaPoison]
@[simp] theorem ddrScrubbed_modeOf (s : State) (f : ScrubFinding) : modeOf (ddrScrubbed s f).md = modeOf s.md := by
  unfold ddrScrubbed; repeat' split
  all_goals simp
@[simp] theorem queueError_modeOf (s : State) (p : ScrubPlace) (i : FaultInfo) : modeOf (queueError s p i).md = modeOf s.md := by
  unfold queueError; repeat' split
  all_goals simp
@[simp] theorem pauseSequencer_md (s : State) (b : Bool) : (pauseSequencer s b).md = s.md := rfl
@[simp] theorem reloadMicrocode_modeOf (s : State) (b : Bool) : modeOf (reloadMicrocode s b).md = modeOf s.md := by simp [reloadMicrocode]
@[simp] theorem scrubError_modeOf (s : State) (f : ScrubFinding) (hit : EccHit) : modeOf (scrubError s f hit).md = modeOf s.md := by
  unfold scrubError; repeat' split
  all_goals simp
@[simp] theorem scrubScanned_md (s : State) (site c : Nat) : (scrubScanned s site c).md = s.md := rfl
@[simp] theorem scrubWord_modeOf (s : State) (f : ScrubFinding) : modeOf (scrubWord s f).md = modeOf s.md := by
  unfold scrubWord; dsimp only; repeat' split
  all_goals simp
@[simp] theorem regionLost_modeOf (s : State) (n region : Nat) : modeOf (regionLost s n region).md = modeOf s.md := by simp [regionLost]
@[simp] theorem bankTest_modeOf (s : State) (n : Nat) (pass : Bool) :
    modeOf (bankTest s n pass).md = modeOf s.md := by unfold bankTest; split <;> simp

/-! #### Machine/Ucie -/

@[simp] theorem setMod_md (s : State) (m : Nat) (u : UcieMod) : (setMod s m u).md = s.md := rfl
@[simp] theorem bumpMod_md (s : State) (m off width n : Nat) : (bumpMod s m off width n).md = s.md := rfl
@[simp] theorem trainDone_md (s : State) (isModule : Bool) (n status : Nat) : (trainDone s isModule n status).md = s.md := by simp [trainDone]
@[simp] theorem refuseAccessory_md (s : State) (cause : Nat) : (refuseAccessory s cause).md = s.md := by simp [refuseAccessory]
@[simp] theorem admissionStep_md (s : State) : (admissionStep s).md = s.md := by unfold admissionStep; split <;> simp
@[simp] theorem accessoryAdmission_md (s : State) : (accessoryAdmission s).md = s.md := by simp [accessoryAdmission]
@[simp] theorem admissionDescriptor_md (s : State) (d : AdmissionDesc) : (admissionDescriptor s d).md = s.md := by simp [admissionDescriptor]
@[simp] theorem accessoryLost_modeOf (s : State) : modeOf (accessoryLost s).md = modeOf s.md := by unfold accessoryLost; split <;> simp
@[simp] theorem moduleDown_modeOf (s : State) (m : Nat) (u : UcieMod) (cause : Nat) :
    modeOf (moduleDown s m u cause).md = modeOf s.md := by simp [moduleDown]
@[simp] theorem ucieStartup_modeOf (s : State) (m : Nat) (t : UcieTraining) :
    modeOf (ucieStartup s m t).md = modeOf s.md := by unfold ucieStartup; split <;> simp
@[simp] theorem recordsMet_modeOf (s : State) (m : Nat) (u : UcieMod) (a : Nat × Nat) (b : Nat × Nat) :
    modeOf (recordsMet s m u a b).md = modeOf s.md := by simp [recordsMet]
@[simp] theorem parameterRecord_modeOf (s : State) (m : Nat) (r : ParamRecord) : modeOf (parameterRecord s m r).md = modeOf s.md := by
  unfold parameterRecord; dsimp only; repeat' split
  all_goals simp
@[simp] theorem moduleLost_modeOf (s : State) (m : Nat) (u : UcieMod) (lane : Nat) :
    modeOf (moduleLost s m u lane).md = modeOf s.md := by simp [moduleLost]
@[simp] theorem laneLost_modeOf (s : State) (m lane : Nat) (tx : Bool) :
    modeOf (laneLost s m lane tx).md = modeOf s.md := by unfold laneLost; split <;> simp
@[simp] theorem ucieLaneFail_modeOf (s : State) (m : Nat) (lane : Option Nat) (tx : Bool) :
    modeOf (ucieLaneFail s m lane tx).md = modeOf s.md := by unfold ucieLaneFail; split <;> simp
@[simp] theorem ucieCrcFail_modeOf (s : State) (m : Nat) (r : UcieRetry) : modeOf (ucieCrcFail s m r).md = modeOf s.md := by
  unfold ucieCrcFail; repeat' split
  all_goals simp
@[simp] theorem setDrift_md (s : State) (d c : Nat) (drift : Int) : (setDrift s d c drift).md = s.md := rfl
@[simp] theorem trackDrift_md (s : State) (d c : Nat) (drift : Int) : (trackDrift s d c drift).md = s.md := by simp [trackDrift]
@[simp] theorem ucieFlit_md (s : State) (m d step : Nat) (drift : Int) : (ucieFlit s m d step drift).md = s.md := by unfold ucieFlit; split <;> simp
@[simp] theorem creditReturn_md (s : State) (unit vc n : Nat) : (creditReturn s unit vc n).md = s.md := by simp [creditReturn]
@[simp] theorem spillwayRelease_md (s : State) (d : Nat) : (spillwayRelease s d).md = s.md := by simp [spillwayRelease]

/-! #### Machine/BoardLinks -/

@[simp] theorem setLink_md (s : State) (d : Nat) (b : BoardLink) : (setLink s d b).md = s.md := rfl
@[simp] theorem bumpBl_md (s : State) (d off width n : Nat) : (bumpBl s d off width n).md = s.md := rfl
@[simp] theorem relayPhase_md (s : State) : (relayPhase s).md = s.md := by simp [relayPhase]
@[simp] theorem linkTrained_md (s : State) (d status : Nat) : (linkTrained s d status).md = s.md := by simp [linkTrained]
@[simp] theorem linkDown_modeOf (s : State) (d : Nat) (b : BoardLink) (cause lane : Nat) :
    modeOf (linkDown s d b cause lane).md = modeOf s.md := by simp [linkDown]
@[simp] theorem signNow_md (s : State) : (signNow s).md = s.md := by simp [signNow]
@[simp] theorem settleCredits_modeOf (s : State) (d : Nat) (fresh ok : Bool) :
    modeOf (settleCredits s d fresh ok).md = modeOf s.md := by simp [settleCredits]
@[simp] theorem placeLink_modeOf (s : State) (d : Nat) (b v : BoardLink) (t : LinkTraining) :
    modeOf (placeLink s d b v t).md = modeOf s.md := by simp [placeLink]
@[simp] theorem linkComesUp_modeOf (s : State) (d : Nat) (b v : BoardLink) (t : LinkTraining) :
    modeOf (linkComesUp s d b v t).md = modeOf s.md := by simp [linkComesUp]
@[simp] theorem boardTraining_modeOf (s : State) (d : Nat) (t : LinkTraining) :
    modeOf (boardTraining s d t).md = modeOf s.md := by unfold boardTraining; split <;> simp
@[simp] theorem boardUnconnected_md (s : State) (d : Nat) : (boardUnconnected s d).md = s.md := by unfold boardUnconnected; split <;> simp
@[simp] theorem recentred_md (s : State) (d c : Nat) : (recentred s d c).md = s.md := by unfold recentred; split <;> simp
@[simp] theorem weirTrained_md (s : State) (d c : Nat) (ms : List (Nat × Nat)) : (weirTrained s d c ms).md = s.md := by simp [weirTrained]
@[simp] theorem retryRequest_md (s : State) : (retryRequest s).md = s.md := by simp [retryRequest]
@[simp] theorem takeRecords_md (s : State) (d : Nat) (rs : List (Nat × Nat)) : (takeRecords s d rs).md = s.md := rfl
@[simp] theorem badFlit_modeOf (s : State) (d : Nat) (b : BoardLink) : modeOf (badFlit s d b).md = modeOf s.md := by simp [badFlit]
@[simp] theorem farLoop_md (s : State) (d : Nat) (on : Bool) : (farLoop s d on).md = s.md := by unfold farLoop; split <;> simp
@[simp] theorem takeNet_md (s : State) (d x : Nat) : (takeNet s d x).md = s.md := by unfold takeNet; split <;> simp
@[simp] theorem takeMark_modeOf (s : State) (d x : Nat) : modeOf (takeMark s d x).md = modeOf s.md := by
  unfold takeMark; dsimp only; repeat' split
  all_goals simp
@[simp] theorem takeTiming_md (s : State) (d x : Nat) : (takeTiming s d x).md = s.md := by unfold takeTiming; split <;> simp
@[simp] theorem takeItem_modeOf (d : Nat) (s : State) (x : Nat) : modeOf (takeItem d s x).md = modeOf s.md := by unfold takeItem; split <;> simp
@[simp] theorem goodFlit_modeOf (s : State) (d : Nat) (b : BoardLink) (f : LinkFlit) (ctl : Nat) (body : FlitBody) :
    modeOf (goodFlit s d b f ctl body).md = modeOf s.md := by simp [goodFlit]
@[simp] theorem retrainWeir_md (s : State) (d : Nat) : (retrainWeir s d).md = s.md := by simp [retrainWeir]
@[simp] theorem laneFailure_modeOf (s : State) (d l : Nat) (tx : Bool) :
    modeOf (laneFailure s d l tx).md = modeOf s.md := by unfold laneFailure; split <;> simp
@[simp] theorem loopFlit_md (s : State) (d : Nat) (b : BoardLink) (f : LinkFlit) : (loopFlit s d b f).md = s.md := rfl
@[simp] theorem boardFlit_modeOf (s : State) (d : Nat) (f : LinkFlit) :
    modeOf (boardFlit s d f).md = modeOf s.md := by unfold boardFlit; split <;> simp
@[simp] theorem nakReceived_md (s : State) (d ack : Nat) (nak : Bool) : (nakReceived s d ack nak).md = s.md := by unfold nakReceived; split <;> simp
@[simp] theorem retryTimeout_md (s : State) (d ageNs : Nat) : (retryTimeout s d ageNs).md = s.md := by unfold retryTimeout; split <;> simp
@[simp] theorem cycleMarker_modeOf (s : State) (d c : Nat) (dcn16 : BitVec 16) (tag : BitVec 10) :
    modeOf (cycleMarker s d c dcn16 tag).md = modeOf s.md := by simp [cycleMarker]
@[simp] theorem boardLaneFail_modeOf (s : State) (d l : Nat) (tx lockLoss : Bool) :
    modeOf (boardLaneFail s d l tx lockLoss).md = modeOf s.md := by unfold boardLaneFail; split <;> simp
@[simp] theorem losLol_modeOf (s : State) (d : Nat) (lol : Bool) (t : Option LinkTraining) : modeOf (losLol s d lol t).md = modeOf s.md := by
  unfold losLol; dsimp only; repeat' split
  all_goals simp
@[simp] theorem sendIdle_md (s : State) (d : Nat) : (sendIdle s d).md = s.md := by unfold sendIdle; split <;> simp
@[simp] theorem idleEntry_md (s : State) (d : Nat) : (idleEntry s d).md = s.md := by unfold idleEntry; split <;> simp
@[simp] theorem idleExit_md (s : State) (d : Nat) (w : IdleWake) : (idleExit s d w).md = s.md := by unfold idleExit; split <;> simp
@[simp] theorem peerDieReset_md (s : State) (d : Nat) : (peerDieReset s d).md = s.md := by unfold peerDieReset; split <;> simp

/-! #### Machine/Packets -/

@[simp] theorem crossLink_md (s : State) (vn : Nat) (ans : Option Nat) (p : Packet) : (crossLink s vn ans p).md = s.md := by simp [crossLink]
theorem packetFate_md {s t : State} {vn : Nat} {ans : Option Nat} {p : Packet} (h : packetFate s vn ans p = .stopped t) : t.md = s.md := by
  unfold packetFate at h
  repeat' split at h
  all_goals cases h
  all_goals simp
@[simp] theorem asking_md (s : State) (p : Packet) (n : Nat) : (asking s p n).md = s.md := by simp [asking]
@[simp] theorem readPacket_modeOf (s : State) (p : Packet) : modeOf (readPacket s p).md = modeOf s.md := by
  unfold readPacket
  dsimp only
  split
  · rfl
  · split
    · next hf => simp [packetFate_md hf]
    · simp
@[simp] theorem postedPacket_modeOf (s : State) (p : Packet) : modeOf (postedPacket s p).md = modeOf s.md := by
  unfold postedPacket
  dsimp only
  split
  · rfl
  · split
    · next hf => simp [packetFate_md hf]
    · simp
@[simp] theorem ackedPacket_modeOf (s : State) (p : Packet) : modeOf (ackedPacket s p).md = modeOf s.md := by
  unfold ackedPacket
  dsimp only
  split
  · rfl
  · split
    · next hf => simp [packetFate_md hf]
    · simp
@[simp] theorem responsePacket_modeOf (s : State) (p : Packet) : modeOf (responsePacket s p).md = modeOf s.md := by
  unfold responsePacket
  extract_lets u v gc
  have hu : u.md = s.md := by simp [u]
  split
  · split
    · split <;> simp [v, hu]
    · simp [v, hu]
  · split
    · next hf => rw [packetFate_md hf, hu]
    · rw [hu]
@[simp] theorem ackPacket_md (s : State) (p : Packet) : (ackPacket s p).md = s.md := by
  unfold ackPacket
  split
  · next hf => simp [packetFate_md hf]
  · rfl
@[simp] theorem ringEntry_md (s : State) (c : Nat) (r : RingRead) : (ringEntry s c r).md = s.md := by unfold ringEntry; split <;> simp
@[simp] theorem partnerSent_md (s : State) (src bits : Nat) : (partnerSent s src bits).md = s.md := by simp [partnerSent]
@[simp] theorem messagePacket_md (s : State) (p : Packet) (c : Nat) (ws : List Word) : (messagePacket s p c ws).md = s.md := by
  unfold messagePacket; repeat' split
  all_goals simp
@[simp] theorem checkFrozen_md (s : State) : (checkFrozen s).md = s.md := by simp [checkFrozen]
theorem takeUnsent_md {s t : State} {d : Nat} {b : Block} (h : takeUnsent s d = some (b, t)) : t.md = s.md := by
  unfold takeUnsent at h
  split at h
  · cases h
  · split at h
    · cases h
    · cases h; rfl
@[simp] theorem wholeBlock_md (s : State) (b : Block) (poison : Bool) : (wholeBlock s b poison).md = s.md := by simp [wholeBlock]
theorem partTravels_md {s t : State} {p : Packet} {pos d : Nat} (h : partTravels s p pos d = some t) : t.md = s.md := by
  unfold partTravels at h
  split at h
  · cases h; rfl
  · split at h
    · split at h
      · cases h; simp
      · cases h
    · cases h
@[simp] theorem partLeaves_md (s : State) (p : Packet) (pos d : Nat) : (partLeaves s p pos d).md = s.md := by simp [partLeaves]
@[simp] theorem blockPart_md (s : State) (p : Packet) (pos d part : Nat) : (blockPart s p pos d part).md = s.md := by
  unfold blockPart
  extract_lets key old
  split
  · simp
  · split
    · rfl
    · split
      · rfl
      · next s1 ht =>
        extract_lets s2 cap s3
        have h2 : s2.md = s.md := by simp [s2, partTravels_md ht]
        split
        · exact h2
        · split
          · split
            · next b u hu =>
              have h4 : u.md = s.md := (takeUnsent_md hu).trans h2
              repeat' split
              all_goals simp [h4]
            · exact h2
          · split <;> simp [s3, h2]
@[simp] theorem bankRingPut_md (s : State) (base bytes off : Nat) (ws : List Word) :
    (bankRingPut s base bytes off ws).md = s.md := by simp [bankRingPut]
@[simp] theorem churnResult_md (s : State) (d : Nat) : (churnResult s d).md = s.md := by
  unfold churnResult; dsimp only; repeat' split
  all_goals simp
@[simp] theorem arrive_modeOf (s : State) (e : Nat × Nat × Packet) : modeOf (arrive s e).md = modeOf s.md := by
  unfold arrive
  split <;> simp
@[simp] theorem noneArrived_md (s : State) : (noneArrived s).md = s.md := rfl
@[simp] theorem takeArrived_modeOf (s : State) : modeOf (takeArrived s).md = modeOf s.md := by simp [takeArrived]
@[simp] theorem cutPackets_md (s : State) (d : Nat) : (cutPackets s d).md = s.md := by unfold cutPackets; split <;> simp

/-! #### Machine/Relay -/

theorem opAction_legal (op : Nat) (s : State) (c : Cmd) (h : legalMd (modeOf s.md)) : legalMd (modeOf ((opAction op).2 s c).1.md) := by
  unfold opAction
  split <;> simp [h]
@[simp] theorem runOpcode_legal (op : Nat) (c : Cmd) (s : State) (h : legalMd (modeOf s.md)) : legalMd (modeOf (runOpcode op c s).md) :=
  hostCmd_legal h fun u hu => opAction_legal op u c hu
@[simp] theorem relayedCommand_legal (s : State) (op : Nat) (c : Cmd) (h : legalMd (modeOf s.md)) :
    legalMd (modeOf (relayedCommand s op c).md) := by unfold relayedCommand; split <;> simp [h]
@[simp] theorem dropRelayed_md (s : State) (p : Relayed → Bool) : (dropRelayed s p).md = s.md := rfl
@[simp] theorem relayedReply_md (s : State) (pos : Nat) (tag : BitVec 16) (status flags : Nat) (dcnLo : Word) (ws : List Word) :
    (relayedReply s pos tag status flags dcnLo ws).md = s.md := by
  unfold relayedReply; dsimp only; repeat' split
  all_goals simp
@[simp] theorem forwardEvent_md (s : State) (e : Event) : (forwardEvent s e).md = s.md := by simp [forwardEvent]
@[simp] theorem peerEvent_md (s : State) (pos code status : Nat) (tag : BitVec 16) (dcnLo : Word) (x : EventData) :
    (peerEvent s pos code status tag dcnLo x).md = s.md := by
  unfold peerEvent; dsimp only; repeat' split
  all_goals simp
@[simp] theorem relayTimeout_md (s : State) (tag : BitVec 16) : (relayTimeout s tag).md = s.md := by
  unfold relayTimeout; dsimp only; repeat' split
  all_goals simp
@[simp] theorem firstExchange_md (s : State) (d : Datagram) : (firstExchange s d).md = s.md := by
  unfold firstExchange
  extract_lets packet c reply st
  have hact := actSession_md s c
  have hreply (u : State) (n : Nat) : (reply u n).md = u.md := rfl
  split
  · exact hreply s st
  · split
    · next heq => rw [heq] at hact; simpa using hact
    · next heq => rw [heq] at hact; exact hact
    · exact hreply s _
    · rfl
@[simp] theorem sessionCommand_legal (s : State) (x : Session) (d : Datagram) (h : legalMd (modeOf s.md)) :
    legalMd (modeOf (sessionCommand s x d).md) := by
  unfold sessionCommand
  extract_lets c
  split
  · exact h
  · exact runOpcode_legal _ _ _ h
@[simp] theorem mgmtDatagram_legal (s : State) (d : Datagram) (h : legalMd (modeOf s.md)) : legalMd (modeOf (mgmtDatagram s d).md) := by
  unfold mgmtDatagram
  repeat' split
  all_goals simp [h]
@[simp] theorem eventPost_md (s : State) (q : EventQueue) : (eventPost s q).md = s.md := by
  unfold eventPost; repeat' split
  all_goals simp

/-! #### Machine/FwControl -/

@[simp] theorem mapPeer_md (s : State) (pos : Nat) (f : Peer → Peer) : (mapPeer s pos f).md = s.md := by simp [mapPeer]
@[simp] theorem joinMarked_md (s : State) : (joinMarked s).md = s.md := by unfold joinMarked; split <;> simp
@[simp] theorem dropPeer_md (s : State) (pos : Nat) : (dropPeer s pos).md = s.md := by simp [dropPeer]
@[simp] theorem cfgHeld_md (s : State) (pos : Nat) (low : Bool) : (cfgHeld s pos low).md = s.md := by simp [cfgHeld]
@[simp] theorem takeBoardTime_md (s : State) (tick sec ns frac : Nat) (incr : Word) :
    (takeBoardTime s tick sec ns frac incr).md = s.md := by simp [takeBoardTime]
@[simp] theorem orderedStart_legal (s : State) (sub : Nat) (debug : Bool) (n : Nat) (ckp : Bool) (h : legalMd (modeOf s.md)) :
    legalMd (modeOf (orderedStart s sub debug n ckp).md) := by simp [h, orderedStart]
@[simp] theorem orderedResume_legal (s : State) (sub n : Nat) (ckp : Bool) (h : legalMd (modeOf s.md)) :
    legalMd (modeOf (orderedResume s sub n ckp).md) := by simp [h, orderedResume]
@[simp] theorem orderedHalt_modeOf (s : State) (dcn : Nat) : modeOf (orderedHalt s dcn).md = modeOf s.md := by simp [orderedHalt]
@[simp] theorem orderedStop_legal (s : State) (dcn : Nat) (h : legalMd (modeOf s.md)) :
    legalMd (modeOf (orderedStop s dcn).md) := by simp [h, orderedStop]
@[simp] theorem orderedCheckpoint_md (s : State) (dcn : Nat) (forced : Bool) :
    (orderedCheckpoint s dcn forced).md = s.md := by simp [orderedCheckpoint]
@[simp] theorem orderedArm_md (s : State) (dcn : Option Nat) (ws : List Word) :
    (orderedArm s dcn ws).md = s.md := by unfold orderedArm; split <;> simp
@[simp] theorem follow_legal (s : State) (f : State → State) (hs : legalMd (modeOf s.md)) (h : legalMd (modeOf (f s).md)) :
    legalMd (modeOf (follow s f).md) := by simp [follow, hs, h]
@[simp] theorem takeReport_md (s : State) : (takeReport s).md = s.md := by simp [takeReport]
@[simp] theorem takeHaltRequest_modeOf (s : State) (dcn : Nat) : modeOf (takeHaltRequest s dcn).md = modeOf s.md := by simp [takeHaltRequest]
@[simp] theorem takeCascade_md (s : State) (stop : Bool) : (takeCascade s stop).md = s.md := by simp [takeCascade]
@[simp] theorem peerDone_md (s : State) (pos dcn : Nat) : (peerDone s pos dcn).md = s.md := by unfold peerDone; split <;> simp
@[simp] theorem takePart_md (s : State) : (takePart s).md = s.md := by simp [takePart]
@[simp] theorem firmwareControl_legal (s : State) (m : FwMsg) (h : legalMd (modeOf s.md)) : legalMd (modeOf (firmwareControl s m).md) := by
  unfold firmwareControl; repeat' split
  all_goals simp [h]

/-! #### Machine/Step -/

@[simp] theorem idleStep_modeOf (s : State) : modeOf (idleStep s).md = modeOf s.md := by simp [idleStep]

/-! ### One step keeps the mode legal (R38, R39) -/

/-- Whatever next state an outcome gives has a legal mode. -/
def nextLegal (o : Host.Outcome State Fault Refusal) : Prop := ∀ t, o = .next t → legalMd (modeOf t.md)

theorem nextLegal_next {s : State} (h : legalMd (modeOf s.md)) : nextLegal (.next s) := fun _ e => Host.Outcome.next.inj e ▸ h

theorem nextLegal_fault (f : Fault) : nextLegal (.fault f) := by simp [nextLegal]

/-- An instruction of a churn engine changes the engine, or stops it. -/
theorem churnRow_legal {s : State} {d : Nat} {i : Instr} {cost : Nat} {f : ChurnMach → ChurnMach} (h : legalMd (modeOf s.md)) :
    nextLegal (churnRow s d i cost f) := by
  unfold churnRow
  split <;> exact nextLegal_next (by simp [h])

theorem churnRowOk_legal {ok : Bool} {s : State} {d : Nat} {i : Instr} {cost : Nat} {f : ChurnMach → ChurnMach} (h : legalMd (modeOf s.md)) :
    nextLegal (churnRowOk ok s d i cost f) := by
  unfold churnRowOk
  split
  · exact nextLegal_fault _
  · exact churnRow_legal h

theorem execHalt_legal {s : State} (d : Nat) (h : legalMd (modeOf s.md)) : nextLegal (execHalt d s) := by
  unfold execHalt
  split <;> exact nextLegal_next (by simp [h])

theorem execOut_legal {s : State} (d : Nat) (n : BitVec 10) (h : legalMd (modeOf s.md)) : nextLegal (execOut d n s) := by
  unfold execOut
  dsimp only
  split <;> exact nextLegal_next (by simp [h])

theorem execRepeatN_legal {s : State} (d : Nat) (n : BitVec 10) (h : legalMd (modeOf s.md)) : nextLegal (execRepeatN d n s) := by
  unfold execRepeatN
  split
  · exact nextLegal_next h
  · dsimp only
    split
    · exact nextLegal_next (by simp [h])
    · split
      · exact nextLegal_fault _
      · split
        · exact nextLegal_fault _
        · exact nextLegal_next (by simp [h])

theorem execChurnWindowClose_legal {s : State} (d : Nat) (h : legalMd (modeOf s.md)) : nextLegal (execChurnWindowClose d s) := by
  unfold execChurnWindowClose
  split <;> exact nextLegal_next (by simp [h])

/-- Every command, on a legal mode, leaves a legal one. -/
theorem exec_legal (i : Instr) {s : State} (h : legalMd (modeOf s.md)) : nextLegal (exec i s) := by
  cases i
  case negotiate | identify | regRead | regWrite | regModify | signatureGet | resetWarm | resetDie | powerCap | eventMask | imageStatus |
    imageStage | imageLoad | imageUnload | imageReset | imageDigest | runStart | runHalt | runResume | runStop | runStatus | rowRead |
    rowWrite | tileRead | tileWrite | regionRead | regionWrite | ddrInfo | regionDmaRead | regionDmaWrite | capInfo | capArm | capTrigger
    | capStop | capRead | chnInfo | chnRing | chnMemRead | chnMemWrite | ckpInfo | ckpTake | replayStart | replayStop | ckpExport |
    ckpImport | chStatus | chOpen | chClose | chFlush | outRing | linkStatus | linkCounters | linkTrain | linkLoop | timeGet | timeSet |
    ptpConfig | ppsConfig | certGet | attest | keySlotInstall | keySlotLock | keySlotRevoke | keySlotReqSigned | authoriseChallenge |
    authorisePresent | svcStatus | serviceEnter | serviceExit | fwUpdate | traceCtrlHost | traceCtrlRestart | bankPower | mgmtConfig |
    diag | baseLoad | prLoad | fabStatus =>
    exact nextLegal_next (hostCmd_legal h fun u hu => by simp [hu])
  case sessionOpen | sessionClose | sessionSubscribe =>
    exact nextLegal_next (hostCmd_legal h fun u hu => by simp [hu])
  case imageLoadComplete | imageResetComplete | regionDmaComplete | capReadComplete | ckpExportComplete | ckpImportComplete |
    flushTakesEffect | attestComplete | fwUpdateComplete | baseLoadComplete | prLoadComplete | plannedHoldWorkEnd | checkpointComplete |
    captureEnd | outboundPacketWrite | logStagingBufferDrain | diagComplete =>
    exact nextLegal_next (unlessHeld_legal _ _ h (by simp [h]))
  case nop | ldi | sethi | add | addi | setsh | clra | suma | sta | ldz | ldk | stk | max | min | getm | jmp =>
    unfold exec; exact churnRow_legal h
  case setp | getp | mac | macs | br =>
    unfold exec; exact churnRowOk_legal h
  case halt d => exact execHalt_legal d h
  case getw => unfold exec execGetw; exact churnRow_legal h
  case out d n => exact execOut_legal d n h
  case repeatN d n => exact execRepeatN_legal d n h
  case churnWindowClose d => exact execChurnWindowClose_legal d h
  case relayTimeout | commandDoorbell | replyRingConsume | eventRingConsume | eventPost | ringEnable | ringDisable | hsbDcnLoRead |
    bulkSelWrite | bulkWindowRead | bulkWindowWrite | trxDoorbell | chnEnable | chnDisable | bootDeadlineWrite | utilMapWrite |
    utilIoWrite | fabIocfgWrite | trcEnable | timePreferWrite | registerWrite | coldReset | warmReset | endpointReset | configurationReady
    | bootDeadlineExpire | cfgDoneRelease | cfgDoneReleasedByAll | cfgDoneLow | epochPulse | tickEpoch | startupEnd | scheduleStep |
    cycleBoundaryStep | cycleEnd | periodicCheckpoint | stepNExpiry | replayEnd | stallStep | sluiceSlotStart | sluiceSample |
    sluiceFreeze | sluiceReopen | sluiceWatchdog | cascadeSample | cascadeDelivery | capAutoCycles | capAutoTime | ddrResponseArrival |
    ddrResponseTimeout | instructionRepair | groupFailure | recoveryRestore | recoveryEnd | dieSupplyLoss | railLoss | clockPathSwitch |
    takeover | standbyRestart | safeHoldEntry | dieControllerRestart | protocolEngineRestart | heartbeat | scrubWord | bankTestRegion |
    thermalSample | packagePowerSample | boardLinkTraining | boardLinkUnconnected | weirTraining | boardFlitReceive | nakReceived |
    retryTimeout | cycleMarkerReceive | linkMessage | boardLaneFail | boardLosLol | boardIdleEntry | boardIdleExit | boardPeerDieReset |
    ucieStartup | ucieParameterRecord | ucieFlitCrcFail | ucieLaneFail | spillwayRelease | accessoryAdmission | admissionDescriptor |
    accessoryModuleLost | read | postedWrite | acknowledgedWrite | transactorMessage | readResponse | writeAcknowledgement |
    captureBlockPart | traceRecord | relayedCommand | relayedReply | event | churnResult | firmwareControl | creditReturn |
    inboundRingEntry | messageStage | mgmtDatagram | ptpSync | ptpHoldover | timeBoardSend | timeFollowerHoldover | ppsInEdge |
    ppsOutPulse | traceRuleFire | sourceClockGate | sourceWake | dieSupplyReturn | ddr5Training | groupSelfTest | controllerRestartTimeout
    | antiRollbackFloorBurn | ucieFlitReceive | tmrToggle =>
    exact nextLegal_next (by simp [h])

/-- Settles O59: at the front of the queue stands a command, which `exec_legal` covers, or none, and then time passes. -/
theorem stepKeepsTheModeLegal : Obligations.StepKeepsTheModeLegal := by
  unfold Obligations.StepKeepsTheModeLegal
  intro s t hs hstep
  unfold step at hstep
  split at hstep
  · exact nextLegal_next (s := idleStep s) (by rwa [idleStep_modeOf]) t hstep
  · next c cs _ => exact exec_legal c (s := { s with pending := cs }) hs t hstep

end Sys2Proof.Machine

namespace Sys2Proof.Machine

/-! ### Commands that passed their checks -/

/-- No check of a list refuses exactly when every status is 0. -/
theorem firstBad_eq_zero {xs : List Nat} : firstBad xs = 0 ↔ ∀ x ∈ xs, x = 0 := by
  induction xs with
  | nil => simp [firstBad]
  | cons y ys ih => by_cases hy : y = 0 <;> simp [firstBad, hy, ih]

/-- The mode check of an accepted command (R362). -/
theorem accepts_mode {op : Nat} {chk : State → Cmd → Nat} {c : Cmd} {s : State} {o : OpSpec} (h : accepts s op chk c = true)
    (ho : opSpec op = some o) : modeStatus s o = 0 := by
  simp only [accepts, Bool.and_eq_true, beq_iff_eq] at h
  obtain ⟨⟨-, hst⟩, -⟩ := h
  rw [statusOf, ho, firstBad_eq_zero] at hst
  simpa [modeStatus, isHalted] using hst (modeStatus (takeEntry s c) o) (by simp)

/-- Taking a command of the ring moves its consumer index, and notes the source served last (R356, R363). -/
theorem takeEntry_pcie {s : State} {c : Cmd} (h : c.path = .pcie) :
    takeEntry s c = { s with io := { s.io with served := some .pcie }, regs := cset regReset s.regs (bkey 0x1020) (reg s (bkey 0x1020) + 1) } := by
  simp [takeEntry, h, setReg, reg]

/-! ### Stops at an effective DCN (R41, R373) -/

@[simp] theorem fixStop_frame (s : State) (d : Nat) (k : StopKind) :
    (fixStop s d k).md.mode = s.md.mode ∧ (fixStop s d k).md.sub = s.md.sub ∧ (fixStop s d k).md.debug = s.md.debug
    ∧ (fixStop s d k).md.safeHold = s.md.safeHold ∧ (fixStop s d k).seq = s.seq ∧ (fixStop s d k).ds = s.ds ∧ (fixStop s d k).img = s.img
    ∧ (fixStop s d k).ckp = s.ckp ∧ (fixStop s d k).haz = s.haz ∧ (fixStop s d k).io = s.io ∧ (fixStop s d k).regs = s.regs
    ∧ (fixStop s d k).straps = s.straps := by
  unfold fixStop; split <;> simp

/-- The stop stands among those fixed. -/
theorem mem_fixStop (s : State) (d : Nat) (k : StopKind) : ⟨d, k⟩ ∈ (fixStop s d k).md.stops := by
  unfold fixStop
  split
  · next h => simpa using h
  · simp

/-- A stop that the lead chooses is fixed at the DCN answered, and nothing else of the run changes. -/
theorem stopAt_frame (s : State) (low : Nat) (k : StopKind) :
    ⟨(stopAt s low k).2, k⟩ ∈ (stopAt s low k).1.md.stops ∧ (stopAt s low k).1.md.mode = s.md.mode ∧ (stopAt s low k).1.md.sub = s.md.sub
    ∧ (stopAt s low k).1.md.safeHold = s.md.safeHold ∧ (stopAt s low k).1.ds = s.ds ∧ (stopAt s low k).1.seq = s.seq
    ∧ (stopAt s low k).1.ckp = s.ckp ∧ (stopAt s low k).1.io = s.io := by
  unfold stopAt
  extract_lets pick d u
  dsimp only
  split <;> simp [u, mem_fixStop]

/-- The lead's choice lies in the window, and a stop fixed earlier is taken only between the lowest DCN and that choice (R41, R373). -/
theorem stopAt_range (s : State) (low : Nat) (k : StopKind) :
    low ≤ (stopAt s low k).2 ∧ (stopAt s low k).2 ≤ max low (s.seq.dcn + dcnWindow s) := by
  have hchoice : chooseDcn s ≤ s.seq.dcn + dcnWindow s := by
    exact Nat.add_le_add_left (Nat.lt_succ_iff.mp (Nat.mod_lt _ (Nat.succ_pos (dcnWindow s)))) _
  have hpick : max low (chooseDcn s) ≤ max low (s.seq.dcn + dcnWindow s) := max_le_max_left low hchoice
  unfold stopAt
  dsimp only
  split
  · next f _ =>
    split
    · next hf =>
      simp only [Bool.and_eq_true, decide_eq_true_eq] at hf
      exact ⟨hf.1, hf.2.trans hpick⟩
    · exact ⟨le_max_left _ _, hpick⟩
  · exact ⟨le_max_left _ _, hpick⟩

/-- A command whose action is a stop at the lead's choice answers that DCN. -/
theorem hostCmd_stopAt {op : Nat} {chk : State → Cmd → Nat} {act : State → Cmd → State × Res} {c : Cmd} {s : State} {k : StopKind}
    (h : accepts s op chk c = true)
    (ha : let u := takeEntry s c; act u c = ((stopAt u (stopLow u) k).1, .ok (dwords (stopAt u (stopLow u) k).2))) :
    ∃ t e d, Host.Outcome.next (hostCmd op chk act c s) = (.next t : Host.Outcome State Fault Refusal) ∧ replied e op c 0 (dwords d) t
      ∧ stopLow s ≤ d ∧ d ≤ max (stopLow s) (s.seq.dcn + dcnWindow s) ∧ ⟨d, k⟩ ∈ e.md.stops ∧ e.md.mode = s.md.mode
      ∧ e.md.sub = s.md.sub ∧ e.ds = s.ds ∧ e.seq = s.seq ∧ e.ckp = s.ckp := by
  obtain ⟨hsafe, hstop⟩ := accepts_live h
  have hlow : stopLow (takeEntry s c) = stopLow s := by simp [stopLow]
  have hwin : dcnWindow (takeEntry s c) = dcnWindow s := by rw [takeEntry_pcie (accepts_pcie h)]; rfl
  dsimp only at ha
  rw [hlow] at ha
  obtain ⟨hmem, hmode, hsub, hsh, hds, hseq, hckp, hio⟩ := stopAt_frame (takeEntry s c) (stopLow s) k
  obtain ⟨hge, hle⟩ := stopAt_range (takeEntry s c) (stopLow s) k
  refine ⟨_, _, _, rfl, hostCmd_ok h ha (by simp [hsh, hsafe]) (by simp [hio, hstop]), hge, ?_, hmem, ?_, ?_, ?_, ?_, ?_⟩
  · simpa [hwin] using hle
  all_goals simp [*]

/-- A stop of a board that stands: LOADED, with no stop left (R39). -/
theorem stopHalted_frame (s : State) :
    (stopHalted s).md.mode = .loaded ∧ (stopHalted s).md.stops = [] ∧ (stopHalted s).md.safeHold = s.md.safeHold
    ∧ (stopHalted s).seq = { s.seq with tick := .idle } ∧ (stopHalted s).ds = s.ds := by
  simp [stopHalted, setMode]

/-- Settles O17: the three stops at the lead's choice by one lemma, then HALTED, then RUN_STATUS. -/
theorem haltAndStopFixAnEffectiveDcn : Obligations.HaltAndStopFixAnEffectiveDcn := by
  unfold Obligations.HaltAndStopFixAnEffectiveDcn
  intro s c
  have hhalt : isHalted (takeEntry s c) = isHalted s := by simp [isHalted]
  refine ⟨fun h hh => ?halt, fun h hh => ?stop, fun h => ?replayStop, fun h hh => ?haltHalted, fun h hh => ?stopHalted, fun h => ?status⟩
  case halt => exact hostCmd_stopAt h (by simp [actRunHalt, hhalt, hh])
  case stop => exact hostCmd_stopAt h (by simp [actRunStop, hhalt, hh])
  case replayStop =>
    have hmode : s.md.mode = .replay := by
      have := accepts_mode h rfl
      simpa [modeStatus] using this
    obtain ⟨t, e, d, ht, hr, hge, hle, hmem, hm, -, hds, hseq, hckp⟩ := hostCmd_stopAt (act := actReplayStop) h rfl
    exact ⟨t, e, d, ht, hr, hge, hle, hmem, hm.trans hmode, hds, hseq, hckp⟩
  case haltHalted =>
    obtain ⟨hsafe, hstop⟩ := accepts_live h
    exact ⟨_, rfl, hostCmd_ok h (by simp [actRunHalt, hhalt, hh, lastDcn]) (by simp [hsafe]) (by simp [hstop])⟩
  case stopHalted =>
    obtain ⟨hsafe, hstop⟩ := accepts_live h
    have hact : actRunStop (takeEntry s c) c = (stopHalted (sendFw (takeEntry s c) (.orderStop (lastDcn (takeEntry s c)))), .ok (dwords (lastDcn (takeEntry s c)))) := by
      simp [actRunStop, hhalt, hh]
    obtain ⟨hm, hst, hsh, hseq, hds⟩ := stopHalted_frame (sendFw (takeEntry s c) (.orderStop (lastDcn (takeEntry s c))))
    refine ⟨_, rfl, ?_⟩
    rw [hostCmd_accepts h, hact]
    simp [settle, accepts_pcie h, hsh, hsafe, hm, hst, hseq, hds]
  case status =>
    obtain ⟨hsafe, hstop⟩ := accepts_live h
    have hmode : hsbMode (takeEntry s c) = hsbMode s := by rw [takeEntry_pcie (accepts_pcie h)]; rfl
    exact ⟨_, rfl, hostCmd_ok h (by simp [actRunStatus, hmode]) (by simp [hsafe]) (by simp [hstop])⟩

end Sys2Proof.Machine

namespace Sys2Proof.Machine

/-! ### The registers of BAR0 (R351) -/

/-- A register of a site is no register of BAR0. -/
theorem bkey_ne_rkey {x d b o : Nat} (hx : x < 2 ^ 20) (hb : 0 < b) (hb' : b < 256) (ho : o < 2 ^ 20) : bkey x ≠ rkey d b o := by
  unfold bkey rkey
  omega

/-- The registers of BAR0 as they read. -/
def bar0 (s : State) (x : Fin (2 ^ 20)) : Word := reg s (bkey x)

theorem bar0_setReg (s : State) {d b o : Nat} (w : Word) (hb : 0 < b) (hb' : b < 256) (ho : o < 2 ^ 20) :
    bar0 (setReg s (rkey d b o) w) = bar0 s :=
  funext fun x => reg_setReg_other s _ _ w (bkey_ne_rkey x.isLt hb hb' ho)

theorem bar0_bump (s : State) {d b o : Nat} (w n : Nat) (hb : 0 < b) (hb' : b < 256) (ho : o < 2 ^ 20) :
    bar0 (bump s (rkey d b o) w n) = bar0 s := bar0_setReg s _ hb hb' ho

theorem bar0_wakeLinks (s : State) : bar0 (wakeLinks s) = bar0 s := by
  refine foldl_keeps bar0 _ (fun s e => ?_) s.bl s
  split
  · exact bar0_bump s 32 1 (by decide) (by decide) (by decide)
  · rfl

theorem bar0_setMode (s : State) (m : Mode) (sub : Sub) (d : Bool) : bar0 (setMode s m sub d) = bar0 s := by
  unfold setMode
  dsimp only
  split
  · rfl
  · exact bar0_wakeLinks _

theorem bar0_modeEvent (s : State) (n : Nat) : bar0 (modeEvent s n) = bar0 s := by
  funext x
  simp [bar0, reg]

theorem bar0_startHold_checkpoint (s : State) : bar0 (startHold s [.checkpoint]) = bar0 s := by
  have hcount : bar0 ([7].foldl countReq s) = bar0 s := bar0_bump s 16 1 (by decide) (by decide) (by decide)
  unfold startHold
  dsimp only
  split
  · exact hcount
  · refine Eq.trans ?_ hcount
    exact (bar0_setReg _ _ (by decide) (by decide) (by decide)).trans (bar0_setReg _ _ (by decide) (by decide) (by decide))

theorem bar0_startCheckpoint (s : State) : bar0 (startCheckpoint s false) = bar0 s := by
  have hmarker : bar0 (writeCkpMarker (closeBlocks s) s.seq.dcn) = bar0 (closeBlocks s) :=
    eq_of_withoutLog bar0 (fun _ => rfl) (withoutLog_writeCkpMarker _ _)
  exact (bar0_startHold_checkpoint _).trans hmarker

/-! ### The start of a run (R39, R40, R295, R372) -/

@[simp] theorem startHold_img (s : State) (ws : List HoldWork) : (startHold s ws).img = s.img := by
  have hcount : ((ws.map workCode).eraseDups.foldl countReq s).img = s.img := foldl_keeps (·.img) _ (by simp) _ s
  unfold startHold
  dsimp only
  split <;> simp [hcount]

@[simp] theorem startCheckpoint_img (s : State) : (startCheckpoint s false).img = s.img := by
  have hmarker : (writeCkpMarker (closeBlocks s) s.seq.dcn).img = (closeBlocks s).img :=
    eq_of_withoutLog (·.img) (fun _ => rfl) (withoutLog_writeCkpMarker _ _)
  exact (startHold_img _ _).trans hmarker

/-- The recorder's resumption leaves what a start looks at. -/
@[simp] theorem resumeLogging_frame (s : State) :
    (resumeLogging s).md = s.md ∧ (resumeLogging s).seq = s.seq ∧ (resumeLogging s).ds = s.ds ∧ (resumeLogging s).img = s.img
    ∧ (resumeLogging s).haz = s.haz ∧ (resumeLogging s).ckp.busy = s.ckp.busy ∧ bar0 (resumeLogging s) = bar0 s := by
  have keeps {α : Type} (P : State → α) (hP : ∀ u, P (withoutLog u) = P u) : P (resumeLogging s) = P s :=
    eq_of_withoutLog P hP (withoutLog_resumeLogging s)
  exact ⟨keeps (·.md) (fun _ => rfl), keeps (·.seq) (fun _ => rfl), keeps (·.ds) (fun _ => rfl), keeps (·.img) (fun _ => rfl),
    keeps (·.haz) (fun _ => rfl), keeps (·.ckp.busy) (fun _ => rfl), keeps bar0 (fun _ => rfl)⟩

/-- The state in which a start changes the mode: its stop fixed, its tick due. -/
def startPoint (s : State) (sub : Sub) (n : Nat) : State :=
  let s := if sub == .halted then s else resumeLogging s
  let s := { s with
    md := { s.md with stops := [] }, seq := { s.seq with tick := if sub == .halted then .idle else .step 0 }
    haz := { s.haz with haltPending := false } }
  if sub == .stepN then fixStop s (s.seq.dcn + n - 1) .stepN else s

theorem enterRun_eq (s : State) (sub : Sub) (debug : Bool) (n : Nat) (ckp : Bool) :
    enterRun s sub debug n ckp
      = (fun u => if ckp then startCheckpoint u false else u)
          (modeEvent (setMode (startPoint s sub n) .run sub debug) (startPoint s sub n).seq.dcn) := rfl

theorem bar0_fixStop (s : State) (d : Nat) (k : StopKind) : bar0 (fixStop s d k) = bar0 s := by
  unfold fixStop; split <;> rfl

theorem bar0_startPoint (s : State) (sub : Sub) (n : Nat) : bar0 (startPoint s sub n) = bar0 s := by
  obtain ⟨-, -, -, -, -, -, hbar⟩ := resumeLogging_frame s
  cases sub with
  | free => exact hbar
  | stepN =>
    simp only [startPoint, beq_self_eq_true, if_true, bar0_fixStop]
    exact hbar
  | halted => rfl

/-- The stop of STEP-N is the only one, and what the device runs on is unchanged but for the tick (R39, R372). -/
theorem startPoint_frame (s : State) (sub : Sub) (n : Nat) :
    (startPoint s sub n).md = { s.md with stops := if sub = .stepN then [⟨s.seq.dcn + n - 1, .stepN⟩] else [] }
    ∧ (startPoint s sub n).seq = { s.seq with tick := if sub = .halted then .idle else .step 0 } ∧ (startPoint s sub n).ds = s.ds
    ∧ (startPoint s sub n).img = s.img ∧ (startPoint s sub n).haz.first = s.haz.first ∧ (startPoint s sub n).ckp.busy = s.ckp.busy := by
  cases sub <;> simp [startPoint, fixStop]

/-- What a device runs on after a start (R38, R39, R295). -/
theorem enterRun_frame (s : State) (sub : Sub) (debug : Bool) (n : Nat) (ckp : Bool) :
    let u := enterRun s sub debug n ckp
    u.md = { mode := .run, sub := sub, debug := debug, safeHold := s.md.safeHold, stops := if sub = .stepN then [⟨s.seq.dcn + n - 1, .stepN⟩] else [] }
    ∧ u.seq = { s.seq with tick := if sub = .halted then .idle else .step 0 } ∧ u.ds = s.ds ∧ u.img = s.img ∧ u.haz.first = s.haz.first
    ∧ bar0 u = bar0 s
    ∧ (ckp = true → ∃ k, u.ckp.busy = some k ∧ k.dcn = s.seq.dcn ∧ k.rows = s.ds.rows ∧ k.tiles = s.ds.tiles)
    ∧ (ckp = false → u.ckp.busy = s.ckp.busy) := by
  have hbar := bar0_startPoint s sub n
  obtain ⟨hmd, hseq, hds, himg, hfirst, hbusy⟩ := startPoint_frame s sub n
  rw [enterRun_eq]
  generalize startPoint s sub n = p at *
  have hdcn : p.seq.dcn = s.seq.dcn := by rw [hseq]
  have hmode : (setMode p .run sub debug).md = { p.md with mode := .run, sub := sub, debug := debug } := by simp [setMode]
  have hp : bar0 (modeEvent (setMode p .run sub debug) s.seq.dcn) = bar0 s := (bar0_modeEvent _ _).trans ((bar0_setMode _ _ _ _).trans hbar)
  cases ckp with
  | false => simp [hmode, hmd, hseq, hds, himg, hfirst, hbusy, hp]
  | true =>
    obtain ⟨k, hk, hkdcn, hrows, htiles, -⟩ := startCheckpoint_busy (modeEvent (setMode p .run sub debug) s.seq.dcn) false
    simp [hdcn] at hkdcn hrows htiles
    simp [hmode, hmd, hseq, hds, himg, hfirst, bar0_startCheckpoint, hp, hk, hkdcn, hrows, htiles]

/-! ### The reply of a command in the ring (R356) -/

/-- A reply stands at the index that RPLR_PROD had. -/
theorem lookup_writeReply (s : State) (r : Reply) :
    lookup (writeReply s r).io.replies ((reg s (bkey 0x103C)).toNat % 2 ^ (reg s (bkey 0x1038)).toNat) = some r := by
  simp only [writeReply, signal, finishDisable]
  split <;> split <;> simp [writeBack, setReg]

/-- Taking a command of the ring changes RPLR_PROD and the ring's size as little as any register but its consumer index. -/
theorem reg_takeEntry {s : State} {c : Cmd} (h : c.path = .pcie) {k : Nat} (hk : k ≠ bkey 0x1020) : reg (takeEntry s c) k = reg s k := by
  simp [takeEntry_pcie h, reg, cget_cset, hk]

/-- An accepted command whose action is done answers it: the state is the action's, but for the registers and the host side, and the reply has
status 0 and its words. -/
theorem hostCmd_done {op : Nat} {chk : State → Cmd → Nat} {act : State → Cmd → State × Res} {c : Cmd} {s e : State} {ws : List Word}
    (h : accepts s op chk c = true) (ha : act (takeEntry s c) c = (e, .ok ws)) (hsafe : e.md.safeHold = none) (hbar : bar0 e = bar0 (takeEntry s c)) :
    let t := hostCmd op chk act c s
    t.md = e.md ∧ t.seq = e.seq ∧ t.ds = e.ds ∧ t.img = e.img ∧ t.haz = e.haz ∧ t.ckp = e.ckp
    ∧ ∃ r, lookup t.io.replies ((reg s (bkey 0x103C)).toNat % 2 ^ (reg s (bkey 0x1038)).toNat) = some r
        ∧ r.status = 0 ∧ r.tag = c.tag ∧ r.results = ws := by
  have hp := accepts_pcie h
  have hreg (x : Fin (2 ^ 20)) (hx : bkey x ≠ bkey 0x1020) : reg e (bkey x) = reg s (bkey x) :=
    (congrFun hbar x).trans (reg_takeEntry hp hx)
  have hprod := hreg ⟨0x103C, by decide⟩ (by decide)
  have hsize := hreg ⟨0x1038, by decide⟩ (by decide)
  rw [hostCmd_accepts h, ha]
  simp only [settle, answer_pcie hp hsafe]
  refine ⟨by simp, by simp, by simp, by simp, by simp, by simp, mkReply e op c 0 0 ws, ?_, rfl, rfl, rfl⟩
  rw [← hprod, ← hsize]
  exact lookup_writeReply e _

/-- The parameters of an accepted start name a sub-state that it takes (R372). -/
theorem runPars_sub {subs : List Nat} {n : Nat} {c : Cmd} (h : runPars subs n c = 0) : fld (cPar c 0) 1 0 ∈ subs := by
  unfold runPars at h
  split at h
  · cases h
  · split at h
    · cases h
    · next hs => simpa using hs

theorem subOf_eq_stepN (n : Nat) : subOf n = .stepN ↔ n = 1 := by
  by_cases h1 : n = 1 <;> by_cases h2 : n = 2 <;> simp [subOf, h1, h2]

theorem subOf_eq_halted (n : Nat) : subOf n = .halted ↔ n = 2 := by
  by_cases h1 : n = 1 <;> by_cases h2 : n = 2 <;> simp_all [subOf]

/-- What RUN_START clears before it enters RUN: what counts from a start (R156, R218). -/
def startClear (s : State) : State :=
  let s := clearTotals s
  { s with haz := { s.haz with first := none, seq := 0 }, seq := { s.seq with recent := [] }, net := { s.net with marksIn := [] } }

theorem startClear_frame (s : State) :
    (startClear s).md = s.md ∧ (startClear s).seq = { s.seq with recent := [] } ∧ (startClear s).ds = s.ds ∧ (startClear s).img = s.img
    ∧ (startClear s).haz.first = none ∧ (startClear s).ckp = s.ckp ∧ bar0 (startClear s) = bar0 s := by
  unfold startClear clearTotals
  split <;> exact ⟨rfl, rfl, rfl, rfl, rfl, rfl, rfl⟩

/-- What a device runs on after RUN_START. -/
theorem startRun_frame (s : State) (sub : Sub) (debug : Bool) (n : Nat) (ckp : Bool) :
    let u := startRun s sub debug n ckp
    u.md = { mode := .run, sub := sub, debug := debug, safeHold := s.md.safeHold, stops := if sub = .stepN then [⟨s.seq.dcn + n - 1, .stepN⟩] else [] }
    ∧ u.seq.dcn = s.seq.dcn ∧ u.seq.tick = (if sub = .halted then .idle else .step 0) ∧ u.ds = s.ds ∧ u.img = s.img ∧ u.haz.first = none
    ∧ bar0 u = bar0 s
    ∧ (ckp = true → ∃ k, u.ckp.busy = some k ∧ k.dcn = s.seq.dcn ∧ k.rows = s.ds.rows ∧ k.tiles = s.ds.tiles)
    ∧ (ckp = false → u.ckp.busy = s.ckp.busy) := by
  obtain ⟨cmd, cseq, cds, cimg, cfirst, cckp, cbar⟩ := startClear_frame s
  obtain ⟨hmd, hseq, hds, himg, hfirst, hbar, hbusy, hkeep⟩ := enterRun_frame (startClear s) sub debug n ckp
  rw [show startRun s sub debug n ckp = enterRun (startClear s) sub debug n ckp from rfl]
  simp only [cmd, cseq, cds, cimg, cfirst, cckp, cbar] at hmd hseq hds himg hfirst hbar hbusy hkeep
  exact ⟨hmd, by rw [hseq], by rw [hseq], hds, himg, hfirst, hbar, hbusy, hkeep⟩

/-- Settles O16: both commands enter RUN by `enterRun`, RUN_START after clearing what counts from a start. -/
theorem runStartAndResumeEnterRun : Obligations.RunStartAndResumeEnterRun := by
  unfold Obligations.RunStartAndResumeEnterRun
  refine fun s c => ⟨fun h hbars hstale hpeers himages hdcns => ?start, fun h hrec => ?resume⟩
  case start =>
    obtain ⟨hsafe, -⟩ := accepts_live h
    have hu := takeEntry_pcie (s := s) (accepts_pcie h)
    have hbars' : startBars (takeEntry s c) = 0 := by rw [hu]; exact hbars
    have himages' : imagesMatch (takeEntry s c) = true := by rw [hu]; exact himages
    have hneeds : needsStartCkp (takeEntry s c) = needsStartCkp s := by rw [hu]; rfl
    obtain ⟨hmd, hdcn, htick, hds, himg, hfirst, hbar, hbusy, hkeep⟩ := startRun_frame
      (sendFw (takeEntry s c) (.orderRunStart (fld (cPar c 0) 1 0) (bitOf (cPar c 0) 2) (cPar64 c 1) (needsStartCkp s)))
      (subOf (fld (cPar c 0) 1 0)) (bitOf (cPar c 0) 2) (cPar64 c 1) (needsStartCkp s)
    have hact : actRunStart (takeEntry s c) c
        = (startRun (sendFw (takeEntry s c) (.orderRunStart (fld (cPar c 0) 1 0) (bitOf (cPar c 0) 2) (cPar64 c 1) (needsStartCkp s)))
            (subOf (fld (cPar c 0) 1 0)) (bitOf (cPar c 0) 2) (cPar64 c 1) (needsStartCkp s), .ok (dwords s.seq.dcn)) := by
      simp [actRunStart, hbars', himages', hneeds, hstale, hpeers, hdcns]
    obtain ⟨tmd, tseq, tds, timg, thaz, tckp, treply⟩ := hostCmd_done h hact (by simp [hmd, hsafe]) hbar
    refine ⟨_, rfl, ?_⟩
    rw [tmd, tseq, tds, timg, thaz, tckp]
    refine ⟨?_, ?_, ?_, ?_, ?_, ?_, fun hn => ?_, fun hn => ?_, hfirst, ?_, ?_, treply⟩
    · rw [hmd]
    · rw [hmd]
    · rw [hmd]
    · simp [hdcn]
    · simp [htick, subOf_eq_halted]
    · simp [hmd, subOf_eq_stepN]
    · simpa using hbusy hn
    · simpa using hkeep hn
    · simp [hds]
    · simp [himg]
  case resume =>
    obtain ⟨hsafe, -⟩ := accepts_live h
    have hsub : fld (cPar c 0) 1 0 ≠ 2 := by
      have hmem := runPars_sub (accepts_chk h)
      simp only [List.mem_cons, List.not_mem_nil, or_false] at hmem
      omega
    obtain ⟨hmd, hseq, hds, himg, -, hbar, -⟩ := enterRun_frame
      (sendFw (takeEntry s c) (.orderResume (fld (cPar c 0) 1 0) (cPar64 c 1) (needsResumeCkp (takeEntry s c))))
      (subOf (fld (cPar c 0) 1 0)) s.md.debug (cPar64 c 1) (needsResumeCkp (takeEntry s c))
    have hact : actRunResume (takeEntry s c) c
        = (enterRun (sendFw (takeEntry s c) (.orderResume (fld (cPar c 0) 1 0) (cPar64 c 1) (needsResumeCkp (takeEntry s c))))
            (subOf (fld (cPar c 0) 1 0)) s.md.debug (cPar64 c 1) (needsResumeCkp (takeEntry s c)), .ok (dwords s.seq.dcn)) := by
      simp [actRunResume, hrec, resumeRun]
    obtain ⟨tmd, tseq, tds, timg, -⟩ := hostCmd_done h hact (by simp [hmd, hsafe]) hbar
    refine ⟨_, rfl, ?_⟩
    simp [tmd, tseq, tds, timg, hmd, hseq, hds, himg, subOf_eq_stepN, subOf_eq_halted, hsub]

end Sys2Proof.Machine

namespace Sys2Proof.Machine
/-! ### Service mode and the firmware commands (R39, R546 to R551)

What the trace of privileged code and a firmware switch leave unchanged, and what a refusal leaves. -/

@[simp] theorem storeTrc_frame (s : State) (u lostBit : Nat) (lostOff : Nat × Nat) (r : List Word) :
    (storeTrc s u lostBit lostOff r).md = s.md ∧ (storeTrc s u lostBit lostOff r).ds = s.ds
    ∧ (storeTrc s u lostBit lostOff r).ctl = s.ctl ∧ (storeTrc s u lostBit lostOff r).io = s.io := by
  have hbuf : (bufRecord s u lostBit r).1 = { s with trc := (bufRecord s u lostBit r).1.trc } := by
    unfold bufRecord; dsimp only; split <;> rfl
  unfold storeTrc
  dsimp only
  split
  · rw [hbuf]; exact ⟨rfl, rfl, rfl, rfl⟩
  · rw [hbuf]; simp

@[simp] theorem syncDue_frame (s : State) (u : Nat) :
    (syncDue s u).md = s.md ∧ (syncDue s u).ds = s.ds ∧ (syncDue s u).ctl = s.ctl ∧ (syncDue s u).io = s.io := by
  unfold syncDue
  split <;> simp [syncRecord]

@[simp] theorem trcRecord_frame (s : State) (u typ addrLo addrHi data : Nat) :
    (trcRecord s u typ addrLo addrHi data).md = s.md ∧ (trcRecord s u typ addrLo addrHi data).ds = s.ds
    ∧ (trcRecord s u typ addrLo addrHi data).ctl = s.ctl ∧ (trcRecord s u typ addrLo addrHi data).io = s.io := by
  unfold trcRecord
  split <;> simp

/-- Privileged code leaves a trace and nothing else (R574). -/
@[simp] theorem privGap_frame (s : State) :
    (privGap s).md = s.md ∧ (privGap s).ds = s.ds ∧ (privGap s).ctl = s.ctl ∧ (privGap s).io = s.io := by
  unfold privGap
  dsimp only
  split <;> simp

@[simp] theorem pauseServos_frame (s : State) :
    (pauseServos s).md = s.md ∧ (pauseServos s).ds = s.ds ∧ (pauseServos s).img = s.img ∧ (pauseServos s).ctl = s.ctl
    ∧ (pauseServos s).io = s.io := by
  unfold pauseServos
  split <;> exact ⟨rfl, rfl, rfl, rfl, rfl⟩

/-- A firmware switch makes the standby active and runs the version given on both controllers (R549). -/
@[simp] theorem switchFirmware_frame (s : State) (v : Word) (d : Digest) :
    (switchFirmware s v d).md = s.md ∧ (switchFirmware s v d).ds = s.ds ∧ (switchFirmware s v d).img = s.img
    ∧ (switchFirmware s v d).ctl = { s.ctl with activeB := !s.ctl.activeB, fwA := v, fwB := v, fw := v, fwDigest := d, order := 0 }
    ∧ (switchFirmware s v d).io = s.io := by
  simp [switchFirmware]

@[simp] theorem setMode_run (s : State) (m : Mode) (sub : Sub) (debug : Bool) :
    (setMode s m sub debug).md.mode = m ∧ (setMode s m sub debug).md.safeHold = s.md.safeHold := by
  unfold setMode
  dsimp only
  split <;> simp

/-- A refused command changes nothing but the host side and the registers, and its reply has the status. -/
theorem hostCmd_refuse {op : Nat} {chk : State → Cmd → Nat} {act : State → Cmd → State × Res} {c : Cmd} {s e : State} {st : Nat}
    (h : accepts s op chk c = true) (ha : act (takeEntry s c) c = (e, .refuse st)) :
    let t := hostCmd op chk act c s
    t = { s with regs := t.regs, io := t.io }
    ∧ ∃ r, lookup t.io.replies ((reg s (bkey 0x103C)).toNat % 2 ^ (reg s (bkey 0x1038)).toNat) = some r ∧ r.status = st := by
  have hp := accepts_pcie h
  intro t
  have ht : t = writeReply (takeEntry s c) (mkReply (takeEntry s c) op c st 0 []) := by
    show hostCmd op chk act c s = _
    rw [hostCmd_accepts h, ha]
    exact answer_pcie hp (by simpa using (accepts_live h).1)
  have hlook := lookup_writeReply (takeEntry s c) (mkReply (takeEntry s c) op c st 0 [])
  rw [← ht, reg_takeEntry hp (by decide), reg_takeEntry hp (by decide)] at hlook
  refine ⟨?_, _, hlook, rfl⟩
  rw [ht, takeEntry_pcie hp]
  simp only [writeReply, signal, finishDisable]
  split <;> split <;> rfl

/-- The first five checks of a package read the anti-rollback floor and the device's size. -/
theorem packageCheck_takeEntry {s : State} {c : Cmd} (h : c.path = .pcie) (b : BasePersonality) (n : Nat) :
    packageCheck (takeEntry s c) b n = packageCheck s b n := by
  rw [takeEntry_pcie h]; rfl

/-- FW_UPDATE's action on a package that passes: the package is being written, in order 1 (R549). -/
theorem actFwUpdate_accept {s : State} {c : Cmd} {b : BasePersonality} (hb : packageOf c = some b) (hu : s.ctl.update = none)
    (hr : s.ckp.recovery = none) (hk : packageCheck s b (cPar64 c 3) = 0)
    (hm : bitOf b.fwVersion.toNat 31 = true ↔ s.md.mode = .service) :
    actFwUpdate s c = ({ privGap s with ctl := { (privGap s).ctl with update := some b, order := 1 } }, .accept) := by
  have hmode : bitOf b.fwVersion.toNat 31 = (s.md.mode == .service) := by
    rw [Bool.eq_iff_iff]; simpa using hm
  unfold actFwUpdate
  simp [hb, hu, hr, hk, hmode]

/-- A good end of an update with both controllers up runs the package's version. -/
theorem fwUpdateComplete_good {s : State} {b : BasePersonality} (hb : s.ctl.update = some b) (ha : s.ctl.aFailed = false)
    (hf : s.ctl.bFailed = false) :
    let t := fwUpdateComplete s true
    t.ctl = { s.ctl with
        update := none, activeB := !s.ctl.activeB, fwA := b.fwVersion, fwB := b.fwVersion, fw := b.fwVersion, fwDigest := b.fwDigest, order := 0
        prod := if bitOf b.fwVersion.toNat 31 then s.ctl.prod else b.fwVersion
        prodDigest := if bitOf b.fwVersion.toNat 31 then s.ctl.prodDigest else b.fwDigest }
    ∧ t.ds = s.ds ∧ t.md = s.md := by
  by_cases hv : bitOf b.fwVersion.toNat 31 = true <;> simp [fwUpdateComplete, hb, ha, hf, hv]

/-- A bad end of an update leaves the running firmware. -/
theorem fwUpdateComplete_bad {s : State} {b : BasePersonality} (hb : s.ctl.update = some b) :
    let t := fwUpdateComplete s false
    t.ctl = { s.ctl with update := none, order := 0 } ∧ t.ds = s.ds ∧ t.md = s.md := by
  simp [fwUpdateComplete, hb]

/-- The end of an update ends the wait of every FW_UPDATE. -/
theorem fwUpdateComplete_waiting {s : State} {b : BasePersonality} (hb : s.ctl.update = some b) (ok : Bool) :
    (fwUpdateComplete s ok).io.waiting.all (fun w => w.opcode != 0x0B03) = true := by
  simp only [fwUpdateComplete, hb]
  split <;> exact completeAll_waiting _ _ _ _

/-- What an ended command answers when its action only changed the mode and posted the mode's event. -/
theorem hostCmd_modeEvent {op : Nat} {chk : State → Cmd → Nat} {act : State → Cmd → State × Res} {c : Cmd} {s e : State} {m : Mode} {d : Nat}
    (h : accepts s op chk c = true) (ha : act (takeEntry s c) c = (modeEvent (setMode e m .free false) d, .ok []))
    (hsafe : e.md.safeHold = none) :
    let t := hostCmd op chk act c s
    t.md.mode = m ∧ t.ds = e.ds ∧ t.img = e.img ∧ t.ctl = e.ctl ∧ t.seq = e.seq := by
  intro t
  have ht : t = writeReply (modeEvent (setMode e m .free false) d) (mkReply (modeEvent (setMode e m .free false) d) op c 0 0 []) := by
    show hostCmd op chk act c s = _
    rw [hostCmd_accepts h, ha]
    exact answer_pcie (accepts_pcie h) (by simpa using hsafe)
  rw [ht]
  simp

/-- Settles O39, a command at a time: each action's effect, and the reply that the host's side gives it. -/
theorem serviceModeAndFirmwareCommands : Obligations.ServiceModeAndFirmwareCommands := by
  unfold Obligations.ServiceModeAndFirmwareCommands
  intro s c
  refine ⟨?status, ?enter, ?refused, ?exit, ?update, ?held, ?good, ?bad⟩
  case status =>
    intro h
    refine ⟨_, rfl, ?_⟩
    have hw : [hsbCtrl s, s.ctl.fw, standbyFw s]
        = [hsbCtrl (takeEntry s c), (takeEntry s c).ctl.fw, standbyFw (takeEntry s c)] := by simp [hsbCtrl, standbyFw]
    rw [hw]
    exact hostCmd_ok h rfl (by simpa using (accepts_live h).1) (by simpa using (accepts_live h).2)
  case enter =>
    intro h hl ha
    have hact : actServiceEnter (takeEntry s c) c = (modeEvent (setMode (takeEntry s c) .service .free false) s.seq.dcn, .ok []) := by
      simp [actServiceEnter, hl, takeEntry_sec (accepts_pcie h), ha]
    refine ⟨_, rfl, ?_⟩
    simpa using hostCmd_modeEvent h hact (by simpa using (accepts_live h).1)
  case refused =>
    intro h hl ha
    have hact : actServiceEnter (takeEntry s c) c = (takeEntry s c, .refuse 0x0402) := by simp [actServiceEnter, hl, takeEntry_sec (accepts_pcie h), ha]
    obtain ⟨ht, r, hr, hst⟩ := hostCmd_refuse h hact
    exact ⟨_, r, rfl, ht, hr, hst⟩
  case exit =>
    intro h
    have hsafe := (accepts_live h).1
    refine ⟨_, rfl, ?_⟩
    by_cases hf : s.ctl.fw = s.ctl.prod
    · have hact : actServiceExit (takeEntry s c) c = (modeEvent (setMode (takeEntry s c) .standby .free false) s.seq.dcn, .ok []) := by
        simp [actServiceExit, hf]
      obtain ⟨hm, hds, himg, hctl, -⟩ := hostCmd_modeEvent h hact (by simpa using hsafe)
      refine ⟨hm, ?_, ?_, ?_, ?_⟩ <;> simp [hds, himg, hctl, hf]
    · have hact : actServiceExit (takeEntry s c) c = (modeEvent (setMode (switchFirmware (takeEntry s c) s.ctl.prod s.ctl.prodDigest)
          .standby .free false) (switchFirmware (takeEntry s c) s.ctl.prod s.ctl.prodDigest).seq.dcn, .ok []) := by
        simp [actServiceExit, hf]
      obtain ⟨hm, hds, himg, hctl, -⟩ := hostCmd_modeEvent h hact (by simpa using hsafe)
      refine ⟨hm, ?_, ?_, ?_, ?_⟩ <;> simp [hds, himg, hctl]
  case update =>
    intro b h hb hu hr hk hm hroom
    have hp := accepts_pcie h
    have hact := actFwUpdate_accept (s := takeEntry s c) hb (by simpa using hu) (by simpa using hr)
      ((packageCheck_takeEntry hp b _).trans hk) (by simpa using hm)
    obtain ⟨-, -, -, ht⟩ := hostCmd_accept h hroom hact (by simpa using (accepts_live h).1) (by simpa using (accepts_live h).2)
    refine ⟨_, rfl, ?_⟩
    rw [ht]
    simp [nowWaiting]
  case held =>
    intro ok hs
    exact congrArg _ (if_pos hs)
  case good =>
    intro b hs hb ha hf
    obtain ⟨hctl, hds, hmd⟩ := fwUpdateComplete_good hb ha hf
    refine ⟨fwUpdateComplete s true, ?_, ?_⟩
    · exact congrArg _ (if_neg (by simp [inSafeHold, hs]))
    · simp [hctl, hds, fwUpdateComplete_waiting hb]
  case bad =>
    intro b hs hb
    obtain ⟨hctl, hds, hmd⟩ := fwUpdateComplete_bad hb
    refine ⟨fwUpdateComplete s false, ?_, hctl, fwUpdateComplete_waiting hb false, hds, hmd⟩
    exact congrArg _ (if_neg (by simp [inSafeHold, hs]))
end Sys2Proof.Machine

namespace Sys2Proof.Machine
/-! ### Firmware control packets (R41, R42, R196, R243, R292, R310, R563)

What each packet does outside SAFE HOLD, a lemma per operation it calls. -/

@[simp] theorem fixStop_eq (s : State) (d : Nat) (k : StopKind) :
    { s with md := { s.md with stops := (fixStop s d k).md.stops } } = fixStop s d k := by
  unfold fixStop
  split <;> rfl

/-- The lead takes no order. -/
@[simp] theorem follow_lead {s : State} (h : isLead s = true) (f : State → State) : follow s f = s := if_pos h

@[simp] theorem follow_follower {s : State} (h : isLead s = false) (f : State → State) : follow s f = f s := by simp [follow, h]

theorem orderedHalt_steps {s : State} (hrun : s.md.mode = .run) (hsub : s.md.sub ≠ .halted) (n : Nat) :
    orderedHalt s n = fixStop s n .halt := by
  simp [orderedHalt, inReplay, isHalted, hrun, hsub]

theorem orderedStop_steps {s : State} (hrun : s.md.mode = .run) (hsub : s.md.sub ≠ .halted) (n : Nat) :
    orderedStop s n = fixStop s n .runStop := by
  simp [orderedStop, isHalted, hrun, hsub]

@[simp] theorem setCapMode_frame (s : State) (m : CapMode) :
    (setCapMode s m).cap = { s.cap with mode := m } ∧ (setCapMode s m).ds = s.ds ∧ (setCapMode s m).md = s.md := by
  unfold setCapMode
  split
  next h => rw [← beq_iff_eq.mp h]; exact ⟨rfl, rfl, rfl⟩
  next => simp

/-- What another position reports is kept for that position, whether it was known or not, and for no other. -/
theorem mapPeer_peers {s : State} {n : Nat} (f : Peer → Peer) (hn : n ≠ posOf s) (h16 : n < 16) (hpos : ∀ p, p.pos = n → (f p).pos = n) :
    (∃ p ∈ (mapPeer s n f).peers, p.pos = n) ∧ (∀ p ∈ (mapPeer s n f).peers, p.pos = n → ∃ q, p = f q)
    ∧ (∀ p ∈ s.peers, p.pos ≠ n → p ∈ (mapPeer s n f).peers) ∧ mapPeer s n f = { s with peers := (mapPeer s n f).peers } := by
  unfold mapPeer
  rw [if_neg (by simp [hn, h16])]
  split
  next known =>
    obtain ⟨q, hq, hqn⟩ : ∃ q ∈ s.peers, q.pos = n := by simpa using known
    refine ⟨⟨f q, List.mem_map.mpr ⟨q, hq, if_pos (beq_iff_eq.mpr hqn)⟩, hpos q hqn⟩, fun p hp hpn => ?_, fun p hp hpn => ?_, rfl⟩
    · obtain ⟨q, -, rfl⟩ := List.mem_map.mp hp
      split at hpn
      next hq => exact ⟨q, if_pos hq⟩
      next hq => exact absurd (beq_iff_eq.mpr hpn) hq
    · exact List.mem_map.mpr ⟨p, hp, if_neg (by simpa using hpn)⟩
  next unknown =>
    have hnone : ∀ p ∈ s.peers, p.pos ≠ n := by simpa using unknown
    refine ⟨⟨f (newPeer n), by simp, hpos _ rfl⟩, fun p hp hpn => ?_, fun p hp _ => List.mem_append_left _ hp, rfl⟩
    rcases List.mem_append.mp hp with hp | hp
    · exact absurd hpn (hnone p hp)
    · exact ⟨newPeer n, List.mem_singleton.mp hp⟩

@[simp] theorem joinMarked_frame (s : State) :
    (joinMarked s).peers = s.peers ∧ (joinMarked s).ds = s.ds ∧ (joinMarked s).md = s.md := by
  unfold joinMarked
  split <;> exact ⟨rfl, rfl, rfl⟩

/-- A position that is gone is no peer. -/
theorem dropPeer_frame (s : State) (n : Nat) :
    (dropPeer s n).peers = s.peers.filter (fun p => p.pos != n) ∧ (dropPeer s n).ds = s.ds ∧ (dropPeer s n).md = s.md := by
  simp [dropPeer]

/-- Outside SAFE HOLD the row's next state is the packet's effect. -/
theorem exec_firmwareControl {s t : State} {m : FwMsg} (h : firmwareControl s m = t) : exec (.firmwareControl m) s = .next t := by
  subst h; rfl

/-- A packet that is an order of the lead changes nothing on the lead. -/
theorem exec_order_lead {s : State} {m : FwMsg} {f : State → State} (hl : isLead s = true)
    (hm : firmwareControl s m = if inSafeHold s then s else follow s f) : exec (.firmwareControl m) s = .next s :=
  exec_firmwareControl (by rw [hm, follow_lead hl, ite_self])

/-- Settles O50, a packet at a time. -/
theorem ordersAndReportsOfOtherControllers : Obligations.OrdersAndReportsOfOtherControllers := by
  unfold Obligations.OrdersAndReportsOfOtherControllers
  refine fun s n => ⟨?held, ?lead, ?stops, ?start, ?frozen, ?time, ?recovery, ?status, ?gone, ?complete⟩
  case held =>
    intro m hs
    exact exec_firmwareControl (if_pos (Option.isSome_iff_ne_none.mpr hs))
  case lead =>
    intro hl
    exact ⟨exec_order_lead hl rfl, exec_order_lead hl rfl, exec_order_lead hl rfl, fun a b => exec_order_lead hl rfl, exec_order_lead hl rfl,
      exec_order_lead hl rfl⟩
  all_goals
    have acts (hs : s.md.safeHold = none) : ¬ inSafeHold s = true := by simp [inSafeHold, hs]
  case stops =>
    intro hs hl hrun hsub
    refine ⟨⟨_, exec_firmwareControl ?_, mem_fixStop s n .halt, (fixStop_eq s n .halt).symm⟩,
      ⟨_, exec_firmwareControl ?_, mem_fixStop s n .runStop, (fixStop_eq s n .runStop).symm⟩⟩
    · simp [firmwareControl, acts hs, hl, orderedHalt_steps hrun hsub]
    · simp [firmwareControl, acts hs, hl, orderedStop_steps hrun hsub]
  case start =>
    intro i hs hl hmode hi hr
    obtain ⟨hmd, hdcn, htick, hds, -⟩ := startRun_frame s .free false n false
    refine ⟨startRun s .free false n false, exec_firmwareControl ?_, ?_⟩
    · simp [firmwareControl, acts hs, hl, orderedStart, hmode, hi, hr, subOf]
    · simp [hmd, hdcn, htick, hds]
  case frozen =>
    intro hs hl hc
    refine ⟨setCapMode s .frozen, exec_firmwareControl ?_, setCapMode_frame s .frozen⟩
    simp [firmwareControl, acts hs, hl, hc]
  case time =>
    intro sec ns fr incr hs hl ht
    refine exec_firmwareControl ?_
    simp [firmwareControl, acts hs, hl, takeBoardTime, ht]
  case recovery =>
    intro hs hr
    refine ⟨joinRecovery s, _, exec_firmwareControl ?_, rfl, rfl, rfl, rfl⟩
    simp [firmwareControl, acts hs, hr]
  case status =>
    intro part mode dcn sid dep disc sig ckp imp sh le busy stale wrote named hs hn h16
    obtain ⟨hsome, hval, hkeep, heq⟩ := mapPeer_peers (fun p => { p with
      part := part, mode := mode, dcn := dcn, setId := sid, depth := dep, discipline := disc, sigDigest := sig, ckpDcn := ckp, imported := imp
      share := sh, logEnd := le, busy := busy, stale := stale, wrote := wrote, named := named }) hn h16 (fun _ h => h)
    refine ⟨_, exec_firmwareControl (if_neg (acts hs)), hsome, fun p hp hpn => ?_, hkeep, heq⟩
    obtain ⟨q, rfl⟩ := hval p hp hpn
    exact ⟨rfl, rfl, rfl, rfl, rfl, rfl, rfl, rfl, rfl, rfl, rfl, rfl, rfl⟩
  case gone =>
    intro hs
    obtain ⟨hp, hds, hmd⟩ := dropPeer_frame s n
    refine ⟨_, exec_firmwareControl (if_neg (acts hs)), ?_, ?_, hds, hmd⟩ <;> simp [hp]
    exact fun p hm hn => ⟨hm, hn⟩
  case complete =>
    intro c pos hs hb hd
    refine exec_firmwareControl ?_
    simp [firmwareControl, acts hs, peerDone, hb, hd]
end Sys2Proof.Machine

namespace Sys2Proof.Machine
/-! ### Supplies, clocks, temperature and power (R36, R37, R406, R465, R617 to R625) -/

/-! #### A fault of class FATAL holds the device -/

theorem enterSafeHold_held (s : State) (c : Nat) : (enterSafeHold s c).md.safeHold ≠ none := by
  unfold enterSafeHold
  split
  next h => exact Option.isSome_iff_ne_none.mp h
  next => simp

theorem fault_fatal_held (s : State) (f : FaultInfo) (h : f.cls = 5) : (fault s f).md.safeHold ≠ none := by
  have hrec : (recordOf s f).cls = 5 := h
  simp only [fault, makeRecord, hrec, beq_self_eq_true, if_true]
  exact enterSafeHold_held _ _

/-- A single fault below FATAL changes no mode. -/
theorem singleFault_below_fatal (s : State) (code : Nat) (f : FaultInfo) (h : f.cls ≠ 5) : (singleFault s code f).md = s.md := by
  unfold singleFault unitFault
  split
  · exact (fault_below_fatal s { f with source := code } h).1
  · simp [startRepair, noteOverlap]

/-! #### The loss of a die -/

theorem cget_filter_out {α : Type} (f : Nat → α) (p : Nat → Bool) {k : Nat} (hk : p k = false) (m : Cells α) :
    cget f (m.filter (fun e => p e.1)) k = f k := by
  induction m with
  | nil => rfl
  | cons e m ih =>
    rw [List.filter_cons]
    split
    next hp =>
      have hne : e.1 ≠ k := fun h => by simp [h, hk] at hp
      simpa [cget, hne] using ih
    next => exact ih

@[simp] theorem sendMgmt_spill (s : State) (id : Word) (m : Reply ⊕ Event) : (sendMgmt s id m).net.spill = s.net.spill := by
  unfold sendMgmt; split <;> rfl

@[simp] theorem copyEvent_spill (s : State) (e : Event) : (copyEvent s e).net.spill = s.net.spill := by
  unfold copyEvent
  split
  · rfl
  · exact foldl_keeps (·.net.spill) _ (fun _ _ => sendMgmt_spill _ _ _) _ _

@[simp] theorem postCompletion_spill (s : State) (w : Waiting) (st : Nat) (ws : List Word) :
    (postCompletion s w st ws).net.spill = s.net.spill := by
  unfold postCompletion
  split
  · rfl
  · split <;> simp [queueEvent, tickEvent]

@[simp] theorem completeWhere_spill (s : State) (p : Waiting → Bool) (st : Nat) (ws : List Word) :
    (completeWhere s p st ws).net.spill = s.net.spill := by
  unfold completeWhere; exact foldl_keeps (·.net.spill) _ (by simp) _ _

/-- A recovery asked for where none is in progress holds the stall of code 13, counted by the I/O die, and changes no mode. -/
theorem needRecovery_asks {s : State} (h : s.ckp.recovery = none) (f : FaultInfo) :
    (needRecovery s f).slu.held.contains (13, 0) = true ∧ (needRecovery s f).md = s.md ∧ (needRecovery s f).net.spill = s.net.spill
    ∧ ∀ k, k ≠ rkey 15 0x02 0x0B4 → reg (needRecovery s f) k = reg s k := by
  have hheld (u : State) : (holdReq u 13 0).slu.held.contains (13, 0) = true ∧ (holdReq u 13 0).md = u.md ∧ (holdReq u 13 0).net = u.net
      ∧ ∀ k, k ≠ rkey 15 0x02 0x0B4 → reg (holdReq u 13 0) k = reg u k := by
    unfold holdReq
    split
    next hc => exact ⟨hc, rfl, rfl, fun _ _ => rfl⟩
    next => exact ⟨by simp, by simp, by simp, fun k hk => reg_setReg_other _ _ _ _ hk⟩
  have hbegin (u : State) : (beginRecovery u).net.spill = u.net.spill := by
    unfold beginRecovery; split <;> rfl
  obtain ⟨ha, hm, hn, hr⟩ := hheld (pendFault s { f with cls := 3, source := 13 })
  simp only [needRecovery, h, Option.isSome_none, Bool.false_eq_true, if_false]
  split
  · exact ⟨ha, hm.trans (by simp), by rw [hn]; simp, fun k hk => (hr k hk).trans (by simp [reg])⟩
  · exact ⟨by simpa using ha, by simp, by rw [hbegin, hn]; simp, fun k hk => by simpa [reg] using (hr k hk).trans (by simp [reg])⟩

@[simp] theorem loseSram_frame (s : State) (d : Nat) :
    (loseSram s d).md = s.md ∧ (loseSram s d).ds = s.ds ∧ (loseSram s d).pwr = s.pwr ∧ (loseSram s d).net = s.net ∧ (loseSram s d).ucie = s.ucie
    ∧ (loseSram s d).ckp = s.ckp ∧ (loseSram s d).regs = s.regs := by
  unfold loseSram
  split <;> exact ⟨rfl, rfl, rfl, rfl, rfl, rfl, rfl⟩

/-- A die as its reset leaves it, before the recovery is asked for. -/
def resetDie (s : State) (d : Nat) : State :=
  let s := dropEngine (dropFabric (dropLinks s d) d) d
  loseSram (buildRoutes { s with
    regs := s.regs.filter (fun e => !dieRegister d e.1)
    err := { s.err with scrub := s.err.scrub.filter (fun e => e.1 / 16 != d) }
    pwr := { s.pwr with seen := s.pwr.seen.filter (fun x => x != d), railUs := del s.pwr.railUs d }
    trc := { s.trc with bufs := del s.trc.bufs (d + 2) } }) d

theorem resetDie_frame (s : State) (d : Nat) :
    let u := resetDie s d
    u.md = s.md ∧ u.ds = s.ds ∧ u.ckp = s.ckp
    ∧ u.pwr = { s.pwr with seen := s.pwr.seen.filter (fun x => x != d), railUs := del s.pwr.railUs d }
    ∧ u.net.spill = ins s.net.spill d ∧ u.ucie = (dropLinks s d).ucie ∧ u.regs = s.regs.filter (fun e => !dieRegister d e.1) := by
  simp [resetDie, buildRoutes, dropEngine, dropFabric, dropLinks]

/-- The modules of the die are in training. -/
theorem dropLinks_ucie (s : State) (d : Nat) : ∀ e ∈ (dropLinks s d).ucie, (dieModules s d).contains e.1 = true → e.2.st = 2 := by
  intro e he hc
  obtain ⟨x, -, rfl⟩ := List.mem_map.mp he
  simp only at hc ⊢
  rw [if_pos hc]

/-- The loss of a die: its reset, and the recovery that the board needs (R310, R406, R465). -/
theorem loseDie_frame {s : State} (hr : s.ckp.recovery = none) {d : Nat} (hd : d < 8) (cause : Nat) :
    let t := loseDie s d cause
    t.pwr = { s.pwr with seen := s.pwr.seen.filter (fun x => x != d), railUs := del s.pwr.railUs d }
    ∧ t.net.spill = ins s.net.spill d ∧ (∀ e ∈ t.ucie, (dieModules s d).contains e.1 = true → e.2.st = 2)
    ∧ (∀ k, dieRegister d k = true → reg t k = regReset k)
    ∧ t.slu.held.contains (13, 0) = true ∧ t.ds = s.ds ∧ t.md = s.md := by
  obtain ⟨hmd, hds, hckp, hpwr, hspill, hucie, hregs⟩ := resetDie_frame s d
  rw [show loseDie s d cause = needRecovery (resetDie s d) { cls := 3, cause := cause, unit := siteLoc d } from rfl]
  obtain ⟨hheld, hmd', hspill', hreg⟩ := needRecovery_asks (s := resetDie s d) (by rw [hckp, hr]) { cls := 3, cause := cause, unit := siteLoc d }
  refine ⟨by simp [hpwr], by rw [hspill', hspill], ?_, fun k hk => ?_, hheld, by simp [hds], by rw [hmd', hmd]⟩
  · simpa [hucie] using dropLinks_ucie s d
  · have hio : k ≠ rkey 15 0x02 0x0B4 := by
      rintro rfl
      simp only [dieRegister, rkey, Bool.and_eq_true, beq_iff_eq] at hk
      omega
    rw [hreg k hio, reg, hregs]
    exact cget_filter_out regReset (fun x => !dieRegister d x) (by simp [hk]) s.regs

/-! #### Requests of code 5 -/

/-- Registers that raising a request of code 5 counts in: of a site, and of the I/O die. -/
def thrCounter (k : Nat) : Prop := k % 2 ^ 20 = 0x814 ∨ k % 2 ^ 20 = 0x094

theorem thrRaise_held {s : State} {x c : Nat} (h : s.slu.held.contains (5, thrUnit x c) = true) : thrRaise s x c = s := if_pos h

theorem thrRaise_new {s : State} {x c : Nat} (h : s.slu.held.contains (5, thrUnit x c) = false) :
    thrRaise s x c = { s with
      regs := (countReq (bump s (rkey x 0x10 0x814) 16 1) 5).regs
      slu := { s.slu with held := s.slu.held ++ [(5, thrUnit x c)], unseen := s.slu.unseen ++ [(5, thrUnit x c)] } } := by
  have hb : ((bump s (rkey x 0x10 0x814) 16 1).slu.held.contains (5, thrUnit x c)) = false := h
  simp only [thrRaise, holdReq, h, hb, Bool.false_eq_true, if_false]
  rfl

/-- Raising or dropping requests of code 5 changes the requests and their counts alone. -/
theorem thrSet_frame (s : State) (x c : Nat) (on off : Bool) :
    let t := thrSet s x c on off
    t = { s with regs := t.regs, slu := { s.slu with held := t.slu.held, unseen := t.slu.unseen, pulses := t.slu.pulses } }
    ∧ ∀ k, ¬ thrCounter k → reg t k = reg s k := by
  unfold thrSet
  split
  · cases h : s.slu.held.contains (5, thrUnit x c) with
    | true => rw [thrRaise_held h]; exact ⟨rfl, fun _ _ => rfl⟩
    | false =>
      rw [thrRaise_new h]
      refine ⟨rfl, fun k hk => ?_⟩
      have h1 : k ≠ rkey x 0x10 0x814 := by rintro rfl; exact hk (.inl (by simp only [rkey]; omega))
      have h2 : k ≠ rkey 15 0x02 0x094 := by rintro rfl; exact hk (.inr (by decide))
      exact (reg_setReg_other _ _ _ _ h2).trans (reg_setReg_other _ _ _ _ h1)
  · split <;> exact ⟨rfl, fun _ _ => rfl⟩

theorem thrSet_on (s : State) (x c : Nat) (off : Bool) : (thrSet s x c true off).slu.held.contains (5, thrUnit x c) = true := by
  simp only [thrSet, if_true]
  cases h : s.slu.held.contains (5, thrUnit x c) with
  | true => rw [thrRaise_held h, h]
  | false => rw [thrRaise_new h]; simp

theorem thrSet_off (s : State) (x c : Nat) : (thrSet s x c false true).slu.held.contains (5, thrUnit x c) = false := by
  simp [thrSet, dropReq]

theorem thrSet_other (s : State) (x c : Nat) (on off : Bool) {u : Nat} (hu : u ≠ thrUnit x c) :
    (thrSet s x c on off).slu.held.contains (5, u) = s.slu.held.contains (5, u) := by
  unfold thrSet
  split
  · cases h : s.slu.held.contains (5, thrUnit x c) with
    | true => rw [thrRaise_held h]
    | false => rw [thrRaise_new h]; simp [hu]
  · split
    · simp [dropReq, hu]
    · rfl

/-! #### A thermal sample -/

/-- From s to t nothing but the sensors' state, the requests of code 5 and their counts has changed, and no request of the temperature itself
(condition 0 of a site). -/
structure KeepsHeat (s t : State) : Prop where
  frame : t = { s with regs := t.regs, slu := { s.slu with held := t.slu.held, unseen := t.slu.unseen, pulses := t.slu.pulses }, pwr := t.pwr }
  reg : ∀ k, ¬ thrCounter k → reg t k = reg s k
  heat : ∀ x, t.slu.held.contains (5, thrUnit x 0) = s.slu.held.contains (5, thrUnit x 0)

theorem KeepsHeat.refl (s : State) : KeepsHeat s s := ⟨rfl, fun _ _ => rfl, fun _ => rfl⟩

theorem KeepsHeat.trans {s t u : State} (h : KeepsHeat s t) (h' : KeepsHeat t u) : KeepsHeat s u :=
  ⟨by rw [h'.frame, h.frame], fun k hk => (h'.reg k hk).trans (h.reg k hk), fun x => (h'.heat x).trans (h.heat x)⟩

theorem keepsHeat_thrSet (s : State) {x c : Nat} (hc : 0 < c) (hc8 : c < 8) (on off : Bool) : KeepsHeat s (thrSet s x c on off) where
  frame := by rw [(thrSet_frame s x c on off).1]
  reg := (thrSet_frame s x c on off).2
  heat y := thrSet_other s x c on off (by simp only [thrUnit]; omega)

theorem keepsHeat_pwr (s : State) (p : PwrState) : KeepsHeat s { s with pwr := p } := ⟨rfl, fun _ _ => rfl, fun _ => rfl⟩

theorem keepsHeat_railCheck (s : State) (r : ThermalReading) : KeepsHeat s (railCheck s r) := by
  have hon (u : State) : KeepsHeat u (thrRaise u r.site 2) := keepsHeat_thrSet u (by decide) (by decide) true false
  have hoff (u : State) : KeepsHeat u (dropReq u 5 (thrUnit r.site 2)) := keepsHeat_thrSet u (by decide) (by decide) false true
  unfold railCheck
  split
  · exact .refl s
  · split
    · dsimp only
      split
      · exact (keepsHeat_pwr s _).trans (hon _)
      · exact keepsHeat_pwr s _
    · dsimp only
      split
      · exact (keepsHeat_pwr s _).trans (hoff _)
      · exact keepsHeat_pwr s _

theorem keepsHeat_compareNeighbours (s : State) (x : Nat) : KeepsHeat s (compareNeighbours s x) :=
  (keepsHeat_thrSet s (by decide) (by decide) _ _).trans (keepsHeat_thrSet _ (by decide) (by decide) _ _)

theorem keepsHeat_compareAll (l : List Nat) (s : State) : KeepsHeat s (l.foldl compareNeighbours s) := by
  induction l generalizing s with
  | nil => exact .refl s
  | cons x l ih => exact (keepsHeat_compareNeighbours s x).trans (ih _)

/-- The state once the readings of a site have been shown (R619). -/
def sensed (s : State) (r : ThermalReading) : State :=
  let k (off : Nat) : Nat := rkey r.site 0x10 off
  let tj := unsgn 12 (clampS 12 r.temp)
  let old := (reg s (k 0x810)).toNat
  let s := setReg s (k 0x804) (BitVec.ofNat 32 tj)
  let s := setReg s (k 0x808) (packW [(0, 12, r.vcc), (16, 12, r.vcs)])
  let s := setReg s (k 0x80C) (packW [(0, 16, r.power), (16, 16, (reg s (k 0x80C)).toNat / 2 ^ 16)])
  let s := if old == 0 || sgn 12 old < r.temp then setReg s (k 0x810) (BitVec.ofNat 32 tj) else s
  let s := { s with pwr := { s.pwr with seen := ins s.pwr.seen r.site } }
  if 880 ≤ r.temp then setReg s (k 0x800) 64 else s

/-- The trip bit of a site. -/
def tripped (s : State) (site : Nat) : Bool := bitOf (reg s (rkey site 0x10 0x800)).toNat 6

/-- The request of a site's temperature after a sample (R620). -/
def heatSet (s : State) (r : ThermalReading) : State :=
  thrSet s r.site 0 (tripped s r.site || decide (760 ≤ r.temp)) (decide (r.temp ≤ 736))

theorem thermalSample_eq {s : State} {r : ThermalReading} (hs : hasSensors s r.site = true) (hl : s.pwr.lost.contains r.site = false) :
    thermalSample s r = (r.site :: neighbours (railCheck (heatSet (sensed s r) r) r) r.site).foldl compareNeighbours
      (railCheck (heatSet (sensed s r) r) r) := by
  unfold thermalSample
  rw [if_neg (by simp only [hs, hl]; decide)]
  rfl

theorem sensed_frame (s : State) (r : ThermalReading) :
    let t := sensed s r
    t = { s with regs := t.regs, pwr := t.pwr }
    ∧ reg t (rkey r.site 0x10 0x804) = BitVec.ofNat 32 (unsgn 12 (clampS 12 r.temp))
    ∧ reg t (rkey r.site 0x10 0x800) = (if 880 ≤ r.temp then 64 else reg s (rkey r.site 0x10 0x800)) := by
  unfold sensed
  dsimp only
  refine ⟨?_, ?_, ?_⟩
  · split <;> split <;> rfl
  · split <;> split <;> simp [reg, setReg, cget_cset, rkey]
  · split <;> split <;> simp [reg, setReg, cget_cset, rkey]

/-- What a sample of a site with sensors does (R619, R620). -/
theorem thermalSample_heat {s : State} {r : ThermalReading} (hs : hasSensors s r.site = true) (hl : s.pwr.lost.contains r.site = false) :
    let t := thermalSample s r
    t = { s with regs := t.regs, slu := { s.slu with held := t.slu.held, unseen := t.slu.unseen, pulses := t.slu.pulses }, pwr := t.pwr }
    ∧ (∀ k, ¬ thrCounter k → reg t k = reg (sensed s r) k)
    ∧ t.slu.held.contains (5, 8 * r.site) = (heatSet (sensed s r) r).slu.held.contains (5, 8 * r.site) := by
  obtain ⟨hsens, -, -⟩ := sensed_frame s r
  obtain ⟨hheat, hregs⟩ := thrSet_frame (sensed s r) r.site 0 (tripped (sensed s r) r.site || decide (760 ≤ r.temp)) (decide (r.temp ≤ 736))
  have hkeep := (keepsHeat_railCheck (heatSet (sensed s r) r) r).trans
    (keepsHeat_compareAll (r.site :: neighbours (railCheck (heatSet (sensed s r) r) r) r.site) _)
  rw [← thermalSample_eq hs hl] at hkeep
  refine ⟨?_, fun k hk => (hkeep.reg k hk).trans (hregs k hk), hkeep.heat r.site⟩
  have hheat' : heatSet (sensed s r) r = _ := hheat
  rw [hkeep.frame, hheat', hsens]

theorem heatSet_on {s : State} {r : ThermalReading} (h : 760 ≤ r.temp) : (heatSet s r).slu.held.contains (5, 8 * r.site) = true := by
  unfold heatSet
  rw [show (tripped s r.site || decide (760 ≤ r.temp)) = true by simp [h]]
  exact thrSet_on s r.site 0 _

theorem heatSet_off {s : State} {r : ThermalReading} (h : r.temp ≤ 736) (ht : tripped s r.site = false) :
    (heatSet s r).slu.held.contains (5, 8 * r.site) = false := by
  unfold heatSet
  rw [show (tripped s r.site || decide (760 ≤ r.temp)) = false by simp only [ht, Bool.false_or, decide_eq_false_iff_not]; omega, decide_eq_true h]
  exact thrSet_off s r.site 0

/-! #### Package power -/

theorem wfld_packW_halves (a b : Nat) :
    wfld (packW [(0, 16, a), (16, 16, b)]) 31 16 = b % 2 ^ 16 ∧ wfld (packW [(0, 16, a), (16, 16, b)]) 15 0 = a % 2 ^ 16 := by
  have ha : a % 2 ^ 16 < 2 ^ 16 := Nat.mod_lt _ (by decide)
  have hb : b % 2 ^ 16 < 2 ^ 16 := Nat.mod_lt _ (by decide)
  have hsum : (packW [(0, 16, a), (16, 16, b)]).toNat = b % 2 ^ 16 * 2 ^ 16 + a % 2 ^ 16 := by
    have hor : a % 2 ^ 16 ||| (b % 2 ^ 16) <<< 16 = (b % 2 ^ 16) <<< 16 + a % 2 ^ 16 := by
      rw [Nat.or_comm, Nat.shiftLeft_add_eq_or_of_lt ha]
    have hw : packW [(0, 16, a), (16, 16, b)] = BitVec.ofNat 32 (a % 2 ^ 16 ||| (b % 2 ^ 16) <<< 16) := by
      simp [packW, BitVec.ofNat_or]
    rw [hw, hor, Nat.shiftLeft_eq, BitVec.toNat_ofNat]
    exact Nat.mod_eq_of_lt (by omega)
  simp only [wfld, fld, hsum, Nat.shiftRight_eq_div_pow]
  omega

/-- Settles O52, a row at a time. -/
theorem suppliesClocksAndSensors : Obligations.SuppliesClocksAndSensors := by
  unfold Obligations.SuppliesClocksAndSensors
  refine fun s d hrec => ⟨fun hd hl => ?loss, rfl, rfl, fun u hd hc hm hu => ?first, fun hd hc => ?second, fun r hs hl => ?thermal, fun p => ?power⟩
  case loss =>
    have hact : supplyLoss s d = loseDie { s with pwr := { s.pwr with lost := ins s.pwr.lost d } } d 0x0802 :=
      if_neg (by simp only [hl]; simpa using hd)
    have h8 : d < 8 := lt_of_lt_of_le hd (by unfold nDies; split <;> decide)
    exact ⟨_, congrArg Host.Outcome.next hact, loseDie_frame (s := { s with pwr := { s.pwr with lost := ins s.pwr.lost d } }) hrec h8 0x0802⟩
  case first =>
    have hlive : s.ucie.any (fun e => e.1 == clockModule s d && (e.2.st == 3 || e.2.st == 4)) = true :=
      List.any_eq_true.mpr ⟨_, hm, by simpa using hu⟩
    have hact : clockSwitch s d = singleFault { s with pwr := { s.pwr with clk := ins s.pwr.clk d } } 11 { cls := 3, cause := 0x0501, unit := siteLoc d } := by
      rw [clockSwitch, if_neg (by omega), if_neg (by simp only [hc, hlive]; decide)]
    refine ⟨_, congrArg Host.Outcome.next hact, by simp, ?_, by simp, ?_⟩
    · exact unitFault_asks { s with pwr := { s.pwr with clk := ins s.pwr.clk d } } 11 0 _
    · exact singleFault_below_fatal _ _ _ (show 3 ≠ 5 by decide)
  case second =>
    have hact : clockSwitch s d = fault s { cls := 5, cause := 0x0502, unit := siteLoc d, flags := 16 } := by
      rw [clockSwitch, if_neg (by omega), if_pos (by simp only [hc, Bool.true_or])]
    exact ⟨_, congrArg Host.Outcome.next hact, fault_fatal_held _ _ rfl, by simp, by simp⟩
  case thermal =>
    obtain ⟨hframe, hreg, hheld⟩ := thermalSample_heat hs hl
    obtain ⟨-, htj, htrip⟩ := sensed_frame s r
    have shown (off : Nat) (h : off = 0x800 ∨ off = 0x804) : ¬ thrCounter (rkey r.site 0x10 off) := by
      simp only [thrCounter, rkey]; omega
    refine ⟨thermalSample s r, rfl, (hreg _ (shown _ (.inr rfl))).trans htj, fun h => hheld.trans (heatSet_on h), fun h ht => ?_, fun h => ?_, hframe⟩
    · refine hheld.trans (heatSet_off h ?_)
      rw [tripped, htrip, if_neg (by omega), ht]
    · rw [hreg _ (shown _ (.inl rfl)), htrip, if_pos h]
      decide
  case power =>
    let k := rkey 15 0x10 0x80C
    let u := setReg s k (packW [(0, 16, (reg s k).toNat % 2 ^ 16), (16, 16, p)])
    obtain ⟨hframe, hreg⟩ := thrSet_frame u 15 4 (decide (7000 < p)) (decide (p < 6800))
    have hk : reg (packageSample s p) k = packW [(0, 16, (reg s k).toNat % 2 ^ 16), (16, 16, p)] :=
      (hreg k (by simp only [k, thrCounter, rkey]; omega)).trans (reg_setReg_same _ _ _)
    obtain ⟨hhi, hlo⟩ := wfld_packW_halves ((reg s k).toNat % 2 ^ 16) p
    refine ⟨packageSample s p, rfl, by rw [hk, hhi], ?_, fun h => ?_, fun h => ?_, ?_⟩
    · rw [hk, hlo]
      simp [wfld, fld, k]
    · have hon : packageSample s p = thrSet u 15 4 true (decide (p < 6800)) := by rw [← decide_eq_true h]; rfl
      rw [hon]
      exact thrSet_on u 15 4 _
    · have hoff : packageSample s p = thrSet u 15 4 false true := by
        rw [← decide_eq_true h, ← decide_eq_false (show ¬ 7000 < p by omega)]; rfl
      rw [hoff]
      exact thrSet_off u 15 4
    · exact hframe
end Sys2Proof.Machine

namespace Sys2Proof.Machine
/-! ### The samples of boundary step B4 (R389, R392 to R394)

A target pin that the board leaves floating reads as its pull gives it (R392), and the input edge samples that level. The level the board
last gave the pin, which `pads` keeps, may be another one. -/

/-- The header of an image of depth 512 for one device. -/
def pulledHeader : ImageHeader := {
  magic := 0, fmtMajor := 1, fmtMinor := 0, hdrBytes := 0, flags := 0, imageBytes := 4096, setId := 0, depth := 512, devicePos := 0, devices := 1
  actQuota := 1, secTable := 0, sigDigest := 0, bodyDigest := 0, stepShare := [], vn2 := [], reserved := none }

/-- An image whose one port-cell map entry makes target pin 0 a direct input pin (KIND 2), into bit 0 of row 0. -/
def pulledImage : Image := {
  hdr := pulledHeader, table := [], measured := 0, gap := none, sig := [], ep := [], grp := [], clu := [], badCheck := [], cluPad := [], inPort := [], egress := []
  desc := [], bmapHead := { count := 0, reserved := false }, bmap := [], rows := [], tiles := [], regions := [], regionInit := [], probes := []
  capture := none, churn := [], cellHead := { count := 1, reserved := false }, portCells := [{ loc := 0, w1 := 2 }]
  chanHead := { count := 0, reserved := false }, channels := [], marks := [], fresh := [], customer := none }

/-- A device with that image in RUN at B4 of a live cycle, whose strap pulls floating pins up. -/
def pulledState : State := { State.reset with
  straps := { State.reset.straps with pull := 1 }
  md := { State.reset.md with mode := .run }
  seq := { State.reset.seq with epoch := true, tick := .bound 4 }
  slu := { State.reset.slu with bootLow := false }
  img := { State.resetImg with resident := some pulledImage } }

/-- The board leaves target pin 0 floating and gives every other one the level 0. -/
def pulledEnv : BoundEnv := { pads := 0, util := 0, ecc := [], floats := 1 }

theorem pulledState_at_B4 :
    canTick pulledState (.bound 4) = true ∧ fromLog pulledState = false ∧ pinDriven pulledState 0 = false := by decide +kernel

/-- The FABRIC edge of the tick has sampled pin 0: the sample is its pull, the board's level 0. -/
theorem pulledState_samples_pull :
    let u := cycleBoundaryStep pulledState pulledEnv
    u.fab.logic.inDue = false ∧ bitOf u.fab.first.toNat 0 = true ∧ bitOf u.fab.pads.toNat 0 = false := by decide +kernel

/-- Refutes O22: its clause on B4 equates the first sample of every pin that the device does not drive with the level the board gives, also
of one that the board leaves floating, whose sample is its pull (R392): `pulledState`, with the levels of `pulledEnv`. -/
theorem not_cycleBoundaryStepsClearAndSample : ¬ Obligations.CycleBoundaryStepsClearAndSample := by
  unfold Obligations.CycleBoundaryStepsClearAndSample
  intro h
  obtain ⟨htick, hlive, hpin⟩ := pulledState_at_B4
  obtain ⟨hdue, hfirst, hpad⟩ := pulledState_samples_pull
  obtain ⟨u, hu, -, -, -, -, -, -, -, hB4, -⟩ := h pulledState pulledImage 4 pulledEnv rfl rfl (by decide) htick
  obtain rfl : cycleBoundaryStep pulledState pulledEnv = u := Host.Outcome.next.inj hu
  obtain ⟨-, -, hsample⟩ := hB4 rfl hlive
  rcases hsample with hstill | hsampled
  · simp [hdue] at hstill
  · simpa [hfirst, hpad] using hsampled 0 (by decide) hpin
end Sys2Proof.Machine

namespace Sys2Proof.Machine

/-! ### Reads of design memory from the host (R94, R142, R184, R185) -/

@[simp] theorem modeSteps_takeEntry (s : State) (c : Cmd) : modeSteps (takeEntry s c) = modeSteps s := by simp [modeSteps]

/-- The values of a read are those of the design memories, which taking a command leaves alone. -/
theorem readValues_takeEntry (s : State) (c d : Cmd) (op : Nat) : readValues (takeEntry s c) op d = readValues s op d := by
  simp [readValues, regionPoisoned, regionWords]

/-- A read whose values are at hand, on a board that does not step, replies with them and changes nothing. -/
theorem hostCmd_read_now {op : Nat} {chk : State → Cmd → Nat} {c : Cmd} {s : State} {ws : List Word} (h : accepts s op chk c = true)
    (hm : modeSteps s = false) (hr : (op == 0x0304 && s.img.resetting) = false) (hv : readValues s op c = (0, ws)) :
    replied (takeEntry s c) op c 0 ws (hostCmd op chk (actRead op) c s) := by
  obtain ⟨hsafe, hstop⟩ := accepts_live h
  have hact : actRead op (takeEntry s c) c = (takeEntry s c, .ok ws) := by
    simp [actRead, hm, readValues_takeEntry, hv, hr]
  exact hostCmd_ok h hact (by simp [hsafe]) (by simp [hstop])

/-- A planned hold for host access is agreed by the lead; another device has one agreed, or asks for it (R94, R142). -/
theorem agreeHold_agreed (s : State) (w : HoldWork) :
    (isLead s = true → (agreeHold s w).slu.agreed.any (fun a => a.2 == some w) = true)
    ∧ (isLead s = false → s.slu.agreed.any (fun a => a.2 == some w) = true ∨ (agreeHold s w).net.fwOut.head? = some (.holdRequest (posOf s))) := by
  unfold agreeHold
  split
  · next ha => exact ⟨fun _ => ha, fun _ => .inl ha⟩
  · split
    · next hl => exact ⟨fun _ => by simp [fixHold], fun hf => by simp [hl] at hf⟩
    · next hl => exact ⟨fun ht => absurd ht hl, fun _ => .inr (by simp [sendFw])⟩

/-- A read while the board steps is kept without an answer, and waits for a planned hold. -/
theorem hostCmd_read_kept {op : Nat} {chk : State → Cmd → Nat} {c : Cmd} {s : State} (h : accepts s op chk c = true)
    (hm : modeSteps s = true) (hr : (op == 0x0304 && s.img.resetting) = false) :
    let t := hostCmd op chk (actRead op) c s
    t.io.deferred = s.io.deferred ++ [waitingOf op c] ∧ t.io.replies = s.io.replies
    ∧ (isLead s = true → t.slu.agreed.any (fun a => a.2 == some .hostAccess) = true)
    ∧ (isLead s = false → s.slu.agreed.any (fun a => a.2 == some .hostAccess) = true ∨ t.net.fwOut.head? = some (.holdRequest (posOf s)))
    ∧ t.ds = s.ds ∧ t.md = s.md ∧ t.seq = s.seq := by
  have hact : actRead op (takeEntry s c) c = (takeEntry s c, .defer) := by simp [actRead, hm, hr]
  rw [hostCmd_accepts h, hact]
  obtain ⟨hlead, hother⟩ := agreeHold_agreed
    { takeEntry s c with io := { (takeEntry s c).io with deferred := (takeEntry s c).io.deferred ++ [waitingOf op c] } } .hostAccess
  simp only [settle]
  refine ⟨by simp, by simp [takeEntry_pcie (accepts_pcie h)], ?_, ?_, by simp, by simp, by simp⟩
  · simpa [isLead] using hlead
  · simpa [isLead, posOf] using hother

/-! ### The end of a hold's work (R142) -/

/-- What serving a kept read leaves alone. -/
def servedView (s : State) : List Waiting × ModeState × SluState × DataState := (s.io.deferred, s.md, s.slu, s.ds)

@[simp] theorem storeErr_io_deferred (s : State) (r : ErrRec) : (storeErr s r).io.deferred = s.io.deferred := by
  unfold storeErr
  split_ifs <;> simp [tickEvent]

@[simp] theorem addRecord_io_deferred (s : State) (r : ErrRec) (b : Bool) : (addRecord s r b).io.deferred = s.io.deferred := by
  unfold addRecord
  dsimp only
  repeat' split
  all_goals simp

/-- A fault below FATAL leaves the kept reads, the mode, the sluice and the design state alone. -/
theorem servedView_fault (s : State) (f : FaultInfo) (h : f.cls ≠ 5) : servedView (fault s f) = servedView s := by
  obtain ⟨hmd, -, hslu, -⟩ := fault_below_fatal s f h
  have hdef : (fault s f).io.deferred = s.io.deferred := by simp [fault, makeRecord, recordOf, h, noteOverlap]
  simp [servedView, hmd, hslu, hdef]

theorem servedView_sendReply (s : State) (p : Path) (r : Reply) : servedView (sendReply s p r) = servedView s := by
  unfold sendReply
  split
  · rfl
  · cases p <;> simp [servedView]

/-- Serving the kept reads empties their list, and leaves the mode, the sluice and the design state alone. -/
theorem serveReads_frame (s : State) :
    (serveReads s).io.deferred = [] ∧ (serveReads s).md = s.md ∧ (serveReads s).slu = s.slu ∧ (serveReads s).ds = s.ds := by
  have h : servedView (serveReads s) = servedView { s with io := { s.io with deferred := [] } } := by
    refine foldl_keeps servedView _ (fun u w => ?_) s.io.deferred _
    dsimp only
    split
    · rfl
    · rw [servedView_sendReply]
      split
      · exact servedView_fault _ _ (show 2 ≠ 5 by decide)
      · rfl
  simpa [servedView] using h

/-- Settles O18: the three reads by one lemma for a board that stands and one for a board that steps; then the hold's end and DDR_INFO. -/
theorem readsOfDesignMemoryAnswerOrWait : Obligations.ReadsOfDesignMemoryAnswerOrWait := by
  unfold Obligations.ReadsOfDesignMemoryAnswerOrWait
  intro s c
  refine ⟨fun h hm => ⟨_, rfl, hostCmd_read_now h hm rfl rfl⟩, fun h hm => ⟨_, rfl, hostCmd_read_now h hm rfl rfl⟩, fun h hm hr hp => ?region,
    fun i op chk hi h hm => ?kept, fun k hsafe hk hw => ?work, fun h => ?info⟩
  case region => exact ⟨_, rfl, hostCmd_read_now h hm (by simp [hr]) (by simp [readValues, hr, hp])⟩
  case kept =>
    obtain ⟨rfl, rfl, rfl⟩ | ⟨rfl, rfl, rfl⟩ | ⟨rfl, rfl, rfl, hr⟩ := hi
    · exact ⟨_, rfl, hostCmd_read_kept h hm rfl⟩
    · exact ⟨_, rfl, hostCmd_read_kept h hm rfl⟩
    · exact ⟨_, rfl, hostCmd_read_kept h hm (by simp [hr])⟩
  case work =>
    obtain ⟨hdef, hmd, hslu, hds⟩ := serveReads_frame s
    have hwork : holdWorkEnd s .hostAccess = { serveReads s with slu := { (serveReads s).slu with
        hold := some { k with work := k.work.filter (fun x => x != .hostAccess) } } } := by
      simp [holdWorkEnd, hk, hw, endWork, hslu]
    refine ⟨holdWorkEnd s .hostAccess, congrArg Host.Outcome.next (if_neg (by simp [inSafeHold, hsafe])), ?_⟩
    rw [hwork]
    exact ⟨hdef, ⟨_, rfl, by simp, fun w hin hne => by simp [hin, hne]⟩, hds, hmd⟩
  case info =>
    obtain ⟨hsafe, hstop⟩ := accepts_live h
    have hreg : reg (takeEntry s c) (rkey 15 0x03 0) = reg s (rkey 15 0x03 0) := reg_takeEntry (accepts_pcie h) (by decide)
    exact ⟨_, rfl, hostCmd_ok h (by simp [actDdrInfo, regValue, sv, hreg]) (by simp [hsafe]) (by simp [hstop])⟩

end Sys2Proof.Machine

namespace Sys2Proof.Machine

/-! ### A run of values in a memory -/

/-- Values from a key on, as the entries of a memory. -/
def cellsFrom (b : Nat) (vs : List Half) : List (Nat × Half) := (List.range vs.length).map (fun j => (b + j, vs.getD j 0))

theorem wrAll_eq_foldl {n : Nat} (es : List (Nat × BitVec n)) (m : Cells (BitVec n)) : wrAll m es = es.foldl (fun m e => wr m e.1 e.2) m := by
  induction es generalizing m with
  | nil => rfl
  | cons e es ih => exact ih _

/-- A run of n keys written from b on reads as written, and every other key as before. -/
theorem rd_wrAll_run (m : Cells Half) (f : Nat → Half) (b n k : Nat) :
    rd (wrAll m ((List.range n).map (fun j => (b + j, f j)))) k = if b ≤ k ∧ k < b + n then f (k - b) else rd m k := by
  rw [wrAll_eq_foldl]
  induction n with
  | zero => simp
  | succ n ih =>
    rw [List.range_succ, List.map_append, List.foldl_append]
    simp only [List.map_cons, List.map_nil, List.foldl_cons, List.foldl_nil, rd_wr, ih]
    by_cases hk : k = b + n
    · simp [hk]
    · rw [if_neg hk]
      exact if_congr (by omega) rfl rfl

theorem rd_wrAll_cellsFrom (m : Cells Half) (b : Nat) (vs : List Half) (k : Nat) :
    rd (wrAll m (cellsFrom b vs)) k = if b ≤ k ∧ k < b + vs.length then vs.getD (k - b) 0 else rd m k :=
  rd_wrAll_run m (fun j => vs.getD j 0) b vs.length k

/-! ### The item of a host write (R298, R300) -/

/-- The item of KIND 0x05 that a host write logs. -/
def hostItem (space : Nat) (loc : Word) (at0 : Nat) (vs : List Half) : LogItem :=
  { kind := 5, index := 0, payload := packW [(0, 2, space), (16, 16, vs.length)] :: loc :: lo32 at0 :: packHalves vs }

@[simp] theorem unpackHalves_length (ws : List Word) (n : Nat) : (unpackHalves ws n).length = n := by simp [unpackHalves]

/-- Packed values are found again, each in its half of its word. -/
theorem half_packHalves (vs : List Half) (j : Nat) (hj : j < vs.length) :
    BitVec.ofNat 16 ((nth 0 (packHalves vs) (j / 2)).toNat >>> (16 * (j % 2))) = vs.getD j 0 := by
  induction vs using packHalves.induct generalizing j with
  | case1 a b r ih =>
    have ha := a.isLt
    have hb := b.isLt
    match j with
    | 0 =>
      apply BitVec.eq_of_toNat_eq
      simp [packHalves, nth]
      omega
    | 1 =>
      apply BitVec.eq_of_toNat_eq
      simp [packHalves, nth, Nat.shiftRight_eq_div_pow]
      omega
    | j + 2 =>
      have hdiv : (j + 2) / 2 = j / 2 + 1 := by omega
      have hmod : (j + 2) % 2 = j % 2 := by omega
      rw [hdiv, hmod]
      exact ih j (by simpa using hj)
  | case2 a =>
    obtain rfl : j = 0 := by simpa using hj
    apply BitVec.eq_of_toNat_eq
    have ha := a.isLt
    simp [packHalves, nth]
    omega
  | case3 => simp at hj

theorem rd_wrAll_unpacked (m : Cells Half) (b : Nat) (ws : List Word) (n k : Nat) :
    rd (wrAll m (cellsFrom b (unpackHalves ws n))) k = if b ≤ k ∧ k < b + n then (unpackHalves ws n).getD (k - b) 0 else rd m k := by
  rw [rd_wrAll_cellsFrom, unpackHalves_length]

/-- The first word of an item gives its space and its number of values. -/
theorem hostItem_head {space n : Nat} (hs : space < 4) (hn : n < 2 ^ 16) :
    fld (packW [(0, 2, space), (16, 16, n)]).toNat 1 0 = space ∧ fld (packW [(0, 2, space), (16, 16, n)]).toNat 31 16 = n := by
  have hsum : (packW [(0, 2, space), (16, 16, n)]).toNat = n * 2 ^ 16 + space := by
    have hor : space ||| n <<< 16 = n <<< 16 + space := by
      rw [Nat.or_comm, Nat.shiftLeft_add_eq_or_of_lt (by omega)]
    have hw : packW [(0, 2, space), (16, 16, n)] = BitVec.ofNat 32 (space ||| n <<< 16) := by
      simp [packW, BitVec.ofNat_or, Nat.mod_eq_of_lt hs, Nat.mod_eq_of_lt (show n < 65536 from hn)]
    rw [hw, hor, Nat.shiftLeft_eq, BitVec.toNat_ofNat]
    exact Nat.mod_eq_of_lt (by omega)
  simp only [fld, hsum, Nat.shiftRight_eq_div_pow]
  omega

/-- The values that an item gives back are those it was made of. -/
theorem hostItem_values (space : Nat) (loc : Word) (at0 : Nat) (vs : List Half) :
    (List.range vs.length).map (fun j => (j, BitVec.ofNat 16 ((par (hostItem space loc at0 vs).payload (3 + j / 2)) >>> (16 * (j % 2)))))
      = (List.range vs.length).map (fun j => (j, vs.getD j 0)) := by
  refine List.map_congr_left fun j hj => ?_
  rw [Nat.add_comm 3]
  exact congrArg (Prod.mk j) (half_packHalves vs j (List.mem_range.mp hj))

theorem applyHostItem_rows (s : State) (loc : Word) (at0 : Nat) {vs : List Half} (hn : vs.length < 2 ^ 16) :
    applyHostItem s (hostItem 0 loc at0 vs) = { s with ds := { s.ds with rows := wrAll s.ds.rows (cellsFrom (4096 * locGg loc + locRow loc) vs) } } := by
  obtain ⟨hspace, hcount⟩ := hostItem_head (space := 0) (by decide) hn
  have hvs := hostItem_values 0 loc at0 vs
  simp only [hostItem] at hvs
  simp only [applyHostItem, hostItem, par, nth] at hvs ⊢
  simp only [hspace, hcount, hvs, cellsFrom, List.map_map]
  rfl

theorem applyHostItem_tiles (s : State) (loc : Word) {at0 : Nat} (ha : at0 < 2 ^ 32) {vs : List Half} (hn : vs.length < 2 ^ 16) :
    applyHostItem s (hostItem 1 loc at0 vs) = { s with ds := { s.ds with tiles := wrAll s.ds.tiles (cellsFrom (2 ^ 20 * locGc loc + at0) vs) } } := by
  obtain ⟨hspace, hcount⟩ := hostItem_head (space := 1) (by decide) hn
  have hvs := hostItem_values 1 loc at0 vs
  have hat : (lo32 at0).toNat = at0 := by simpa [lo32] using ha
  simp only [hostItem] at hvs
  simp only [applyHostItem, hostItem, par, nth] at hvs ⊢
  simp only [hspace, hcount, hvs, hat, cellsFrom, List.map_map]
  rfl

/-- Region words written one after another. -/
theorem foldl_regionPut_ds (b : Nat) (vs : List (Nat × Half)) (s : State) :
    (vs.foldl (fun s v => regionPut s (b + v.1) v.2) s).ds
      = { s.ds with regions := wrAll s.ds.regions (vs.map (fun v => (b + v.1, v.2))) } := by
  induction vs generalizing s with
  | nil => rfl
  | cons v vs ih => rw [List.foldl_cons, ih]; rfl

theorem applyHostItem_regions (s : State) (loc : Word) {at0 : Nat} (ha : at0 < 2 ^ 32) {vs : List Half} (hn : vs.length < 2 ^ 16) :
    ∃ p, (applyHostItem s (hostItem 2 loc at0 vs)).ds
      = { s.ds with regions := wrAll s.ds.regions (cellsFrom (2 ^ 32 * loc.toNat + at0) vs), poison := p } := by
  obtain ⟨hspace, hcount⟩ := hostItem_head (space := 2) (by decide) hn
  have hvs := hostItem_values 2 loc at0 vs
  have hat : (lo32 at0).toNat = at0 := by simpa [lo32] using ha
  simp only [hostItem] at hvs
  simp only [applyHostItem, hostItem, par, nth] at hvs ⊢
  simp only [hspace, hcount, hvs, hat, clearPoison, foldl_regionPut_ds, cellsFrom, List.map_map]
  exact ⟨_, rfl⟩

/-! ### Host writes (R93, R95, R96, R184, R186, R293, R300) -/

/-- What a host write leaves alone beside the log and the design data, and the bytes counted since the last checkpoint. -/
def hostView (s : State) : ModeState × SeqState × Cells Word × Nat := (s.md, s.seq, s.regs, s.ckp.hostBytes)

theorem hostView_applyHostItem (s : State) (x : LogItem) : hostView (applyHostItem s x) = hostView s := by
  unfold applyHostItem
  dsimp only
  split
  · rfl
  · rfl
  · exact foldl_keeps hostView _ (fun s (v : Nat × Half) => show hostView (regionPut s _ v.2) = hostView s from rfl) _ s

theorem hostWrite_frame (s : State) (space : Nat) (loc : Word) (at0 : Nat) (vs : List Half) :
    let t := hostWrite s space loc at0 vs
    t.md = s.md ∧ t.seq = s.seq ∧ t.regs = s.regs ∧ t.ckp.hostBytes = s.ckp.hostBytes + 2 * vs.length := by
  have hview : hostView (if recoverySteps s then s else applyHostItem s (hostItem space loc at0 vs)) = hostView s := by
    split
    · rfl
    · exact hostView_applyHostItem s _
  simp only [hostView, Prod.mk.injEq] at hview
  obtain ⟨hmd, hseq, hregs, hbytes⟩ := hview
  exact ⟨hmd, hseq, hregs, congrArg (· + 2 * vs.length) hbytes⟩

/-- Outside a recovery the design data are as the item gives them. -/
theorem hostWrite_ds {s : State} (hr : recoverySteps s = false) (space : Nat) (loc : Word) (at0 : Nat) (vs : List Half) :
    (hostWrite s space loc at0 vs).ds = (applyHostItem s (hostItem space loc at0 vs)).ds := by
  simp only [hostWrite, hr]
  rfl

/-- While a recovery steps they stay as they are. -/
theorem hostWrite_ds_recovery {s : State} (hr : recoverySteps s = true) (space : Nat) (loc : Word) (at0 : Nat) (vs : List Half) :
    (hostWrite s space loc at0 vs).ds = s.ds := by
  simp only [hostWrite, hr]
  rfl

@[simp] theorem recoverySteps_takeEntry (s : State) (c : Cmd) : recoverySteps (takeEntry s c) = recoverySteps s := by simp [recoverySteps]

theorem stepping_false {s : State} (h : stepping s = false) : recoverySteps s = false ∧ modeSteps s = false := by
  simpa [stepping] using h

/-- An accepted host write replies 0x0000; its bytes are counted, and the mode and the sequencer stay. -/
theorem hostCmd_write {op : Nat} {chk : State → Cmd → Nat} {act : State → Cmd → State × Res} {c : Cmd} {s : State} {space : Nat} {loc : Word}
    {at0 : Nat} {vs : List Half} (h : accepts s op chk c = true)
    (ha : act (takeEntry s c) c = (hostWrite (takeEntry s c) space loc at0 vs, .ok [])) :
    let t := hostCmd op chk act c s
    t.ds = (hostWrite (takeEntry s c) space loc at0 vs).ds ∧ t.seq = s.seq ∧ t.md = s.md ∧ t.ckp.hostBytes = s.ckp.hostBytes + 2 * vs.length
    ∧ ∃ r, lookup t.io.replies ((reg s (bkey 0x103C)).toNat % 2 ^ (reg s (bkey 0x1038)).toNat) = some r ∧ r.status = 0 := by
  obtain ⟨hsafe, -⟩ := accepts_live h
  obtain ⟨wmd, wseq, wregs, wbytes⟩ := hostWrite_frame (takeEntry s c) space loc at0 vs
  have hbar : bar0 (hostWrite (takeEntry s c) space loc at0 vs) = bar0 (takeEntry s c) := by
    funext x
    simp only [bar0, reg, wregs]
  obtain ⟨hmd, hseq, hds, -, -, hckp, r, hr, hst, -⟩ := hostCmd_done h ha (by simp [hsafe]) hbar
  refine ⟨hds, by simp [hseq, wseq], by simp [hmd], by simp [hckp, wbytes], r, hr, hst⟩

theorem modeSteps_iff {s : State} : modeSteps s = true ↔ s.md.mode = .run ∧ s.md.sub ≠ .halted ∨ s.md.mode = .replay := by
  cases h : s.md.mode <;> simp [modeSteps, h]

/-- The parameters of an accepted ROW_WRITE, TILE_WRITE and REGION_WRITE name no more values than one packet holds. -/
theorem chkRows_count {top : Nat} {s : State} {c : Cmd} (h : chkRows top s c = 0) : cPar c 1 ≤ top := by
  unfold chkRows at h
  dsimp only at h
  split_ifs at h with hloc hbad
  all_goals
    simp only [Bool.or_eq_true, decide_eq_true_eq, not_or] at hbad
    omega

theorem chkTiles_range {top : Nat} {s : State} {c : Cmd} (h : chkTiles top s c = 0) : cPar c 2 ≤ top ∧ cPar c 1 + cPar c 2 ≤ 2 ^ 20 := by
  unfold chkTiles at h
  dsimp only at h
  split_ifs at h with hloc hbad
  simp only [Bool.or_eq_true, decide_eq_true_eq, not_or] at hbad
  omega

theorem chkRegion_count {top : Nat} {s : State} {c : Cmd} (h : chkRegion top s c = 0) : cPar c 2 ≤ top := by
  unfold chkRegion at h
  split at h
  · cases h
  · split_ifs at h with hbad
    simp only [Bool.or_eq_true, decide_eq_true_eq, not_or] at hbad
    omega

/-- A write of design memory that passes every check but that of its modes, in a mode that steps, is answered 0x0205 (R362, check 6). -/
theorem hostCmd_write_stepping {op : Nat} {chk : State → Cmd → Nat} {act : State → Cmd → State × Res} {c : Cmd} {s : State}
    (hop : op = 0x0301 ∨ op = 0x0303 ∨ op = 0x0305) (hp : c.path = .pcie) (ht : canTake s c = true) (hh : headerStatus op c = 0)
    (hn : negotiateStatus (takeEntry s c) op c = 0) (hpos : cPos c = posOf s) (hsite : cSite c < 9 ∨ cSite c = 15)
    (hchk : chk (takeEntry s c) c = 0) (hm : modeSteps s = true) :
    let t := hostCmd op chk act c s
    t.ds = s.ds ∧ t.ckp = s.ckp ∧ t.seq = s.seq
    ∧ ∃ r, lookup t.io.replies ((reg s (bkey 0x103C)).toNat % 2 ^ (reg s (bkey 0x1038)).toNat) = some r ∧ r.status = 0x0205 := by
  have hsafe : s.md.safeHold = none := by
    simp only [canTake, inSafeHold, Bool.and_eq_true, Bool.not_eq_true'] at ht
    simpa using ht.1.1.1.1
  have hst : statusOf (takeEntry s c) op chk c = 0x0205 := by
    obtain ⟨o, ho, hmodes, hwrite, hlead, hdie⟩ :
        ∃ o, opSpec op = some o ∧ o.modes = [.loaded] ∧ o.write = true ∧ o.lead = false ∧ o.die = false := by
      obtain rfl | rfl | rfl := hop <;> exact ⟨_, rfl, rfl, rfl, rfl, rfl⟩
    have hmode : modeStatus (takeEntry s c) o = 0x0205 := by
      obtain ⟨hrun, hsub⟩ | hrep := modeSteps_iff.mp hm
      · simp [modeStatus, isHalted, hmodes, hwrite, hrun, hsub]
      · simp [modeStatus, isHalted, hmodes, hwrite, hrep]
    have htarget : targetStatus (takeEntry s c) o op c = 0 := by
      have h6 : op ≠ 0x0006 := by omega
      have hgap : ¬(9 ≤ cSite c ∧ cSite c < 15) := by omega
      simp [targetStatus, hdie, h6, hgap]
    have hfam : familyIn s.md.mode (op / 256) = true := by
      have h3 : op / 256 = 3 := by omega
      obtain ⟨hrun, -⟩ | hrep := modeSteps_iff.mp hm <;> simp [familyIn, *]
    simp [statusOf, ho, firstBad, hfam, hlead, htarget, pathStatus, hp, hchk, hmode]
  have hrun : hostCmd op chk act c s = writeReply (takeEntry s c) (mkReply (takeEntry s c) op c 0x0205 0 []) := by
    have hpos' : cPos c = posOf (takeEntry s c) := by simpa [posOf] using hpos
    simp [hostCmd, ht, hp, firstBad, hh, hn, hpos', runCmd, hst, hsafe]
  have hlook := lookup_writeReply (takeEntry s c) (mkReply (takeEntry s c) op c 0x0205 0 [])
  rw [reg_takeEntry hp (by decide), reg_takeEntry hp (by decide)] at hlook
  rw [hrun]
  exact ⟨by simp, by simp, by simp, _, hlook, rfl⟩

/-- Settles O19: the three writes by one lemma and the memory that each names; then the write during a recovery and the refusal while stepping. -/
theorem writesOfDesignMemoryStoreExactlyTheirWords : Obligations.WritesOfDesignMemoryStoreExactlyTheirWords := by
  unfold Obligations.WritesOfDesignMemoryStoreExactlyTheirWords
  intro s c
  refine ⟨fun h hs => ?row, fun h hs => ?tile, fun h hs hreset h0 h1 => ?region, fun h hr => ?recovery,
    fun i op chk hi hp ht hh hn hpos hsite hchk hm => ?stepping⟩
  case row =>
    obtain ⟨hrec, hmode⟩ := stepping_false hs
    have hcount := chkRows_count (accepts_chk h)
    obtain ⟨hds, hseq, hmd, hbytes, -⟩ := hostCmd_write (act := actRowWrite) h (if_neg (by simp [hmode]))
    rw [hostWrite_ds (by simpa using hrec), applyHostItem_rows _ _ _ (by simp; omega)] at hds
    refine ⟨_, rfl, ?_⟩
    rw [hds, show (takeEntry s c).ds = s.ds by simp]
    exact ⟨rd_wrAll_unpacked s.ds.rows _ _ _, rfl, hseq, hmd, by simpa using hbytes⟩
  case tile =>
    obtain ⟨hrec, hmode⟩ := stepping_false hs
    obtain ⟨hcount, hrange⟩ := chkTiles_range (accepts_chk h)
    obtain ⟨hds, hseq, hmd, hbytes, -⟩ := hostCmd_write (act := actTileWrite) h (if_neg (by simp [hmode]))
    rw [hostWrite_ds (by simpa using hrec), applyHostItem_tiles _ _ (by omega) (by simp; omega)] at hds
    refine ⟨_, rfl, ?_⟩
    rw [hds, show (takeEntry s c).ds = s.ds by simp]
    exact ⟨rd_wrAll_unpacked s.ds.tiles _ _ _, rfl, hseq, hmd, by simpa using hbytes⟩
  case region =>
    obtain ⟨hrec, hmode⟩ := stepping_false hs
    have hcount := chkRegion_count (accepts_chk h)
    have hact : actRegionWrite (takeEntry s c) c = (hostWrite (takeEntry s c) 2 (BitVec.ofNat 32 (cPar c 0)) (cPar c 1)
        (unpackHalves (cWords c 3 (c.nParams - 3)) (cPar c 2)), .ok []) := by
      simp [actRegionWrite, hreset, hmode]
    obtain ⟨hds, hseq, hmd, hbytes, -⟩ := hostCmd_write h hact
    obtain ⟨p, hp⟩ := applyHostItem_regions (takeEntry s c) (BitVec.ofNat 32 (cPar c 0)) h1
      (vs := unpackHalves (cWords c 3 (c.nParams - 3)) (cPar c 2)) (by simp; omega)
    rw [hostWrite_ds (by simpa using hrec), hp, BitVec.toNat_ofNat, Nat.mod_eq_of_lt h0] at hds
    refine ⟨_, rfl, ?_⟩
    rw [hds, show (takeEntry s c).ds = s.ds by simp]
    exact ⟨rd_wrAll_unpacked s.ds.regions _ _ _, rfl, hseq, hmd, by simpa using hbytes⟩
  case recovery =>
    have hmode : modeSteps s = false := by
      have hst := accepts_mode h rfl
      by_contra hm
      obtain ⟨hrun, hsub⟩ | hrep := modeSteps_iff.mp (by simpa using hm)
      · simp [modeStatus, isHalted, hrun, hsub] at hst
      · simp [modeStatus, isHalted, hrep] at hst
    obtain ⟨hds, hseq, hmd, hbytes, hreply⟩ := hostCmd_write (act := actRowWrite) h (if_neg (by simp [hmode]))
    rw [hostWrite_ds_recovery (by simpa using hr)] at hds
    exact ⟨_, rfl, by simpa using hds, hseq, hmd, by simpa using hbytes, hreply⟩
  case stepping =>
    obtain ⟨rfl, rfl, rfl⟩ | ⟨rfl, rfl, rfl⟩ | ⟨rfl, rfl, rfl⟩ := hi <;>
      exact ⟨_, rfl, hostCmd_write_stepping (by decide) hp ht hh hn hpos hsite hchk hm⟩

end Sys2Proof.Machine

namespace Sys2Proof.Machine

/-! ### What a STEP tick leaves alone beside the schedule (R5, R34, R98) -/

/-- The design data, the image and the sequencer. -/
def tickView (s : State) : DataState × ImgState × SeqState := (s.ds, s.img, s.seq)

theorem tickView_eq {s t : State} : tickView s = tickView t ↔ s.ds = t.ds ∧ s.img = t.img ∧ s.seq = t.seq := by simp [tickView]

theorem tickView_fabricEvent (s : State) (rise live : Bool) : tickView (fabricEvent s rise live) = tickView s := by
  unfold fabricEvent
  dsimp only
  split <;> split <;> rfl

theorem tickView_fabricSpan (s : State) (a b : Nat) (live : Bool) : tickView (fabricSpan s a b live) = tickView s :=
  foldl_keeps tickView _ (fun _ _ => tickView_fabricEvent _ _ _) _ s

theorem tickView_bankWriteEnd (s : State) (n : Nat) (b : Bank) : tickView (bankWriteEnd s n b) = tickView s := by
  unfold bankWriteEnd
  dsimp only
  repeat' split
  all_goals simp [tickView]

theorem tickView_bankReadEnd (s : State) (n : Nat) : tickView (bankReadEnd s n) = tickView s := by
  unfold bankReadEnd
  dsimp only
  repeat' split
  all_goals simp [tickView]

theorem tickView_bankEdge (s : State) : tickView (bankEdge s) = tickView s := by
  refine foldl_keeps tickView _ (fun u n => ?_) _ s
  unfold bankCycle
  split
  · rfl
  · split
    · rfl
    · rw [tickView_bankReadEnd, tickView_bankWriteEnd]

theorem tickView_beginTraining (s : State) : tickView (beginTraining s) = tickView s := by
  unfold beginTraining
  split <;> rfl

theorem tickView_checkDeadline (s : State) : tickView (checkDeadline s) = tickView s := by
  unfold checkDeadline startUpFailure
  repeat' split
  all_goals simp [tickView]

theorem tickView_loadBoardTime (s : State) : tickView (loadBoardTime s) = tickView s := by
  unfold loadBoardTime
  repeat' split
  all_goals simp [tickView]

theorem tickView_ctrlEdge (s : State) : tickView (ctrlEdge s) = tickView s := by
  have hedge (u : State) : tickView (utilEdge (bankEdge (beginTraining u))) = tickView u :=
    (tickView_bankEdge _).trans (tickView_beginTraining u)
  unfold ctrlEdge
  dsimp only
  rw [hedge, ← tickView_loadBoardTime s]
  split
  · exact tickView_checkDeadline _
  · rfl

/-- A tick passes: it is counted, and the time since the last CTRL edge moves on. -/
theorem advance_frame (s : State) :
    (advance s).ds = s.ds ∧ (advance s).img = s.img ∧ (advance s).seq.tick = s.seq.tick ∧ (advance s).seq.dcn = s.seq.dcn
    ∧ (advance s).seq.ticks = s.seq.ticks + 1 := by
  let u : State := { s with seq := { s.seq with ticks := s.seq.ticks + 1 } }
  let v : State := fabricSpan (linksSpan u (tickUnits u)) u.seq.ctl (u.seq.ctl + tickUnits u) true
  have hv : tickView v = tickView u := (tickView_fabricSpan _ _ _ _).trans (by simp [tickView])
  have hedges : tickView (tickEdges u true) = tickView { v with seq := { v.seq with ctl := (u.seq.ctl + tickUnits u) % 80 } } := by
    unfold tickEdges
    dsimp only
    split
    · exact tickView_ctrlEdge _
    · rfl
  obtain ⟨vds, vimg, vseq⟩ := tickView_eq.mp hv
  obtain ⟨eds, eimg, eseq⟩ := tickView_eq.mp hedges
  have hseq : (advance s).seq = { v.seq with ctl := (u.seq.ctl + tickUnits u) % 80 } := eseq
  rw [hseq, vseq]
  exact ⟨eds.trans vds, eimg.trans vimg, rfl, rfl, rfl⟩

/-! ### What the detector and the markers leave alone (R129, R217) -/

theorem tickView_needRecovery (s : State) (f : FaultInfo) : tickView (needRecovery s f) = tickView s := by simp [tickView]

/-- Markers that leave their weirs change nothing that an EP or a route of the step network goes by. -/
@[simp] theorem releaseMarks_frame (s : State) :
    (releaseMarks s).ds = s.ds ∧ (releaseMarks s).img = s.img ∧ (releaseMarks s).seq = s.seq ∧ (releaseMarks s).phys = s.phys
    ∧ (releaseMarks s).straps = s.straps ∧ (releaseMarks s).ident = s.ident ∧ (releaseMarks s).ucie = s.ucie := by
  unfold releaseMarks
  refine ⟨?_, ?_, ?_, ?_, ?_, ?_, ?_⟩
  all_goals exact foldl_keeps _ _ (fun _ _ => by simp [markerMismatch]) _ _

@[simp] theorem nDies_releaseMarks (s : State) : nDies (releaseMarks s) = nDies s := by simp [nDies]

@[simp] theorem ringPair_releaseMarks (s : State) (a b : Nat) : ringPair (releaseMarks s) a b = ringPair s a b := by
  simp [ringPair, ringNeighbours, modOf]

@[simp] theorem unitsBelow_releaseMarks (s : State) (i : Image) (d c : Nat) : unitsBelow (releaseMarks s) i d c = unitsBelow s i d c := by
  induction c with
  | zero => rfl
  | succ c ih => simp [unitsBelow, ih]

@[simp] theorem ingressBit_releaseMarks (s : State) (d c ch t : Nat) : ingressBit (releaseMarks s) d c ch t = ingressBit s d c ch t := by
  simp [ingressBit, weirAt, channelHere, recvModule, weirShort, minMargin, gradeEff]

theorem epWorks_releaseMarks (s : State) (i : Image) (t : Nat) : epWorks (releaseMarks s) i t = epWorks s i t := by
  simp [epWorks, epResult, opIndex, candidate, portOut, inPortsAfter, inPortBit, sentBits]

theorem tickView_stopAt (s : State) (low : Nat) (k : StopKind) : tickView (stopAt s low k).1 = tickView s := by
  unfold stopAt
  extract_lets pick d u
  dsimp only
  split <;> simp [tickView, u]

theorem tickView_requestHalt (s : State) (low : Nat) (k : StopKind) : tickView (requestHalt s low k) = tickView s := by
  unfold requestHalt
  split
  · exact tickView_stopAt s _ k
  · simp [tickView]

theorem tickView_storeHaz (s : State) (t : Nat) (f : Found) : tickView (storeHaz s t f) = tickView s := by
  unfold storeHaz
  dsimp only
  repeat' split
  all_goals simp [tickView]

theorem tickView_recordHaz (t : Nat) (s : State) (f : Found) : tickView (recordHaz t s f) = tickView s := by
  unfold recordHaz
  dsimp only
  split
  · rw [tickView_requestHalt]
    exact (tickView_storeHaz _ t f).trans (by simp [tickView])
  · exact (tickView_storeHaz _ t f).trans (by simp [tickView])

theorem tickView_hazards (s0 s : State) (i : Image) (t : Nat) : tickView (hazards s0 s i t) = tickView s := by
  unfold hazards
  split
  · exact foldl_keeps tickView _ (fun _ _ => tickView_recordHaz _ _ _) _ _
  · rfl

/-! ### Where a step stands, and the design data that it reads or writes -/

/-- The image, and the sequencer's place. -/
def placeView (s : State) : ImgState × Nat × Nat := (s.img, s.seq.dcn, s.seq.ticks)

/-- The memories of a step: EP results, toggle counters, rows, tiles and regions. -/
def memView (s : State) : Cells Half × Cells Half × Cells Half × Cells Half × Cells Half :=
  (s.ds.epRes, s.ds.toggles, s.ds.rows, s.ds.tiles, s.ds.regions)

theorem placeView_of_tickView {s t : State} (h : tickView s = tickView t) : placeView s = placeView t := by
  obtain ⟨-, himg, hseq⟩ := tickView_eq.mp h
  simp [placeView, himg, hseq]

theorem memView_of_tickView {s t : State} (h : tickView s = tickView t) : memView s = memView t := by
  simp [memView, (tickView_eq.mp h).1]

theorem sendMarkers_frame (s : State) : (sendMarkers s).ds = s.ds ∧ placeView (sendMarkers s) = placeView s := by
  have hmark (u : State) (d : Nat) :
      tickView (if (markerUnits u d).contains (32 + d) then queueMark u d (itemMarker u.seq.dcn u.seq.ticks) else u) = tickView u := by
    split
    · simp [tickView, queueMark]
    · rfl
  have hmarks := foldl_keeps tickView _ hmark (diesOf s) s
  have hplace := placeView_of_tickView hmarks
  exact ⟨(tickView_eq.mp hmarks).1, hplace⟩

/-- An error that a step meets: the words that wait for repair and the tile reads are all of the design data that it changes (R65, R85, R514). -/
theorem eccError_frame (s : State) (e : EccEvent) : placeView (eccError s e) = placeView s ∧ memView (eccError s e) = memView s := by
  have hword (u : State) (st : StoreKind) (k : Nat) (f : FaultInfo) : memView (wordFault u st k f) = memView u := by
    unfold wordFault
    repeat' split
    all_goals simp [memView]
  have hdrop (u : State) (cw : Nat) : placeView (dropTileReads u cw) = placeView u ∧ memView (dropTileReads u cw) = memView u := by
    unfold dropTileReads
    split <;> exact ⟨rfl, rfl⟩
  have hneed (u : State) (f : FaultInfo) : placeView (needRecovery u f) = placeView u ∧ memView (needRecovery u f) = memView u :=
    ⟨placeView_of_tickView (tickView_needRecovery u f), memView_of_tickView (tickView_needRecovery u f)⟩
  unfold eccError
  dsimp only
  split
  · simp [placeView, memView]
  · split
    · split
      · simp [placeView, memView]
      · exact ⟨by simp [placeView], (hword _ _ _ _).trans (by simp [memView])⟩
    · rw [(hneed _ _).1, (hneed _ _).2]
      split
      · rw [(hdrop _ _).1, (hdrop _ _).2]
        simp [placeView, memView]
      · simp [placeView, memView]

/-- The step network of step t: its records, its weirs, and nothing else of the design data. -/
theorem stepNetwork_frame (s0 s : State) (i : Image) (works : List EpWork) (t : Nat) :
    ∃ ws, (stepNetwork s0 s i works t).ds = { s.ds with weirs := ws } ∧ placeView (stepNetwork s0 s i works t) = placeView s := by
  let outs := (cluAt i t).map (fun c => (c.1, outBits works c.1 c.2))
  let u : State := { s with ds := { s.ds with weirs := s.ds.weirs.filter (fun r => t < r.due) ++ sendRecords s0 i outs t } }
  have hrecords : tickView ((boardRecords s0 i outs t).foldl (fun s r => queueRecord s r.1 r.2) u) = tickView u := by
    refine foldl_keeps tickView _ (fun v r => ?_) _ u
    unfold queueRecord
    split_ifs <;> simp [tickView]
  have hall : tickView (stepNetwork s0 s i works t) = tickView u := by
    unfold stepNetwork
    dsimp only
    split
    · exact hrecords
    · exact (tickView_needRecovery _ _).trans hrecords
  have hplace := placeView_of_tickView hall
  exact ⟨_, (tickView_eq.mp hall).1, hplace⟩

/-- Everything of step t before the ports: markers, hazards, results, read ports, lines and the step network. -/
def stepLogic (s : State) (i : Image) (t : Nat) : State :=
  let s0 := releaseMarks s
  let s1 := if t == 0 then sendMarkers s0 else s0
  let works := epWorks s0 i t
  stepNetwork s0 (stepClusters s0 (stepReads s0 (stepEps s0 (hazards s0 s1 i t) works t) i t) i works t) i works t

/-- What the responses, the activity, the second sample and the errors do to the step. -/
def stepRest (s0 s : State) (i : Image) (t : Nat) (e : StepEnv) : State :=
  (e.ecc.filter (eccMet s0 i t)).foldl eccError (stepSecond (stepActivity (stepDdrChecks s t e.refresh) i t) i t e)

/-- The ports of step t are through, and no read has landed yet. -/
def stepPorted (s : State) (i : Image) (t : Nat) : State := stepPorts (releaseMarks s) (stepLogic s i t) i t

theorem runStep_eq (s : State) (i : Image) (t : Nat) (e : StepEnv) :
    runStep s i t e = stepRest (releaseMarks s) (stepDeliver (stepPorted s i t) t) i t e := rfl

theorem stepLogic_frame (s : State) (i : Image) (t : Nat) :
    let u := stepLogic s i t
    let works := epWorks s i t
    placeView u = placeView s
    ∧ memView u = (works.foldl loadRes s.ds.epRes, works.foldl (countToggle s.ds.rows t) s.ds.toggles,
        works.foldl (fun m e => writeEp m t e) s.ds.rows, s.ds.tiles, s.ds.regions)
    ∧ u.ds.tileReads = s.ds.tileReads ∧ u.ds.ddr = s.ds.ddr := by
  let s0 := releaseMarks s
  let s1 := if t == 0 then sendMarkers s0 else s0
  have hs1 : s1.ds = s.ds ∧ placeView s1 = placeView s := by
    have hs0 : placeView s0 = placeView s := by simp [placeView, s0]
    simp only [s1]
    split
    · exact ⟨(sendMarkers_frame s0).1.trans (by simp [s0]), (sendMarkers_frame s0).2.trans hs0⟩
    · exact ⟨by simp [s0], hs0⟩
  have hhaz := tickView_hazards s0 s1 i t
  have hds : (hazards s0 s1 i t).ds = s.ds := (tickView_eq.mp hhaz).1.trans hs1.1
  have hplace : placeView (hazards s0 s1 i t) = placeView s := (placeView_of_tickView hhaz).trans hs1.2
  obtain ⟨ws, hnet, hnetPlace⟩ := stepNetwork_frame s0
    (stepClusters s0 (stepReads s0 (stepEps s0 (hazards s0 s1 i t) (epWorks s0 i t) t) i t) i (epWorks s0 i t) t) i (epWorks s0 i t) t
  have hlogic : (stepLogic s i t).ds = _ := hnet
  refine ⟨hnetPlace.trans hplace, ?_, ?_, ?_⟩
  · simp only [memView, hlogic, stepClusters, stepReads, stepEps, hds, s0, epWorks_releaseMarks, releaseMarks_frame]
  · simp only [hlogic, stepClusters, stepReads, stepEps, hds]
  · simp only [hlogic, stepClusters, stepReads, stepEps, hds]

theorem stepRest_frame (s0 s : State) (i : Image) (t : Nat) (e : StepEnv) :
    placeView (stepRest s0 s i t e) = placeView s ∧ memView (stepRest s0 s i t e) = memView s := by
  have hchecks : tickView (stepDdrChecks s t e.refresh) = tickView s := by
    unfold stepDdrChecks
    exact (foldl_keeps tickView _ (fun _ _ => by simp [tickView]) _ _).trans (foldl_keeps tickView _ (fun _ _ => by simp [tickView]) _ s)
  have hact (u : State) : placeView (stepActivity u i t) = placeView u ∧ memView (stepActivity u i t) = memView u := by
    unfold stepActivity
    split <;> exact ⟨rfl, rfl⟩
  have hsecond (u : State) : tickView (stepSecond u i t e) = tickView u := by
    unfold stepSecond givePads
    dsimp only
    repeat' split
    all_goals rfl
  refine ⟨(foldl_keeps placeView _ (fun u x => (eccError_frame u x).1) _ _).trans ?_,
    (foldl_keeps memView _ (fun u x => (eccError_frame u x).2) _ _).trans ?_⟩
  · rw [placeView_of_tickView (hsecond _), (hact _).1, placeView_of_tickView hchecks]
  · rw [memView_of_tickView (hsecond _), (hact _).2, memView_of_tickView hchecks]

/-! ### Ports and reads that land (R157 to R176) -/

/-- What the writes of a step's ports leave alone: all but the regions, the issue budget and the COW areas. -/
def portView (s : State) : (ImgState × Nat × Nat) × DataState :=
  (placeView s, { s.ds with regions := [], budget := [], overrun := false })

theorem portView_fields {s t : State} (h : portView s = portView t) :
    placeView s = placeView t ∧ s.ds.epRes = t.ds.epRes ∧ s.ds.toggles = t.ds.toggles ∧ s.ds.rows = t.ds.rows ∧ s.ds.tiles = t.ds.tiles
    ∧ s.ds.tileReads = t.ds.tileReads ∧ s.ds.ddr = t.ds.ddr := by
  simp only [portView, Prod.mk.injEq, DataState.mk.injEq] at h
  obtain ⟨hplace, hrows, hres, -, -, -, htog, htiles, -, -, -, htr, -, hddr, -⟩ := h
  exact ⟨hplace, hres, htog, hrows, htiles, htr, hddr⟩

theorem portView_ddrWrite (s0 s : State) (o : PortOp) : portView (ddrWrite s0 s o) = portView s := by
  unfold ddrWrite
  split <;> rfl

theorem portView_stepBudget (s : State) (ops : List PortOp) (t : Nat) :
    portView (stepBudget s ops t) = portView s ∧ (stepBudget s ops t).ds.regions = s.ds.regions := by
  unfold stepBudget
  dsimp only
  split <;> simp [portView, placeView]

/-- The operations of step t on the ports of a kind, none of them double booked. -/
def portOpsOf (s0 : State) (i : Image) (t kind : Nat) : List PortOp :=
  ((portOps i t).filter (fun o => !doubleBooked s0 o)).filter (fun o => dKind o.d == kind)

/-- The tiles, and the reads on their way, after the ports of step t. -/
def portsDone (s0 : State) (d : DataState) (i : Image) (t : Nat) : DataState :=
  { d with
    tiles := ((portOpsOf s0 i t 0).filter (fun o => o.op == 2)).foldl (tileWrite s0) d.tiles
    tileReads := d.tileReads ++ ((portOpsOf s0 i t 0).filter (fun o => o.op == 1)).map (fun o => startTileRead s0 o t)
    tileBusy := ((portOpsOf s0 i t 0).filter (fun o => o.op == 2)).map (fun o => 4 * o.gc + o.port)
    ddr := d.ddr ++ ((portOpsOf s0 i t 1).filter (fun o => o.op == 1)).map (fun o => startDdrRead s0 o t) }

theorem stepPorts_frame (s0 s : State) (i : Image) (t : Nat) :
    portView (stepPorts s0 s i t) = portView { s with ds := portsDone s0 s.ds i t }
    ∧ ((portOpsOf s0 i t 1).filter (fun o => o.op == 2) = [] → (stepPorts s0 s i t).ds.regions = s.ds.regions) := by
  have hmax (u : State) (b o v : Nat) : portView (maxIo u b o v) = portView u ∧ (maxIo u b o v).ds = u.ds := by simp [portView, placeView]
  unfold stepPorts
  constructor
  · rw [(hmax _ _ _ _).1, (portView_stepBudget _ _ _).1, foldl_keeps portView _ (portView_ddrWrite s0)]
    simp [portView, placeView, portsDone, portOpsOf]
  · intro hnone
    rw [(hmax _ _ _ _).2, (portView_stepBudget _ _ _).2]
    simp only [portOpsOf] at hnone
    rw [hnone]
    simp

/-- Only row t of a group is written at step t, by EPs and by reads that land (R62, R162, R172). -/
theorem rd_writeEp_other {t k : Nat} (h : k % 4096 ≠ t % 4096) (m : Cells Half) (e : EpWork) : rd (writeEp m t e) k = rd m k := by
  unfold writeEp
  split
  · exact (rd_wr _ _ _ _).trans (if_neg (by omega))
  · rfl

theorem rd_deliverRead_other {t k : Nat} (h : k % 4096 ≠ t % 4096) (m : Cells Half) (gg b w : Nat) (v : Half) :
    rd (deliverRead m t gg b w v) k = rd m k :=
  (rd_wr _ _ _ _).trans (if_neg (by omega))

theorem rd_foldl_other {α : Type} {k : Nat} (f : Cells Half → α → Cells Half) (h : ∀ m x, rd (f m x) k = rd m k) (l : List α) (m : Cells Half) :
    rd (l.foldl f m) k = rd m k := by
  induction l generalizing m with
  | nil => rfl
  | cons x l ih => exact (ih _).trans (h m x)

/-! ### A whole step -/

theorem placeView_stepDeliver (s : State) (t : Nat) : placeView (stepDeliver s t) = placeView s := rfl

theorem stepPorted_frame (s : State) (i : Image) (t : Nat) :
    let u := stepPorted s i t
    placeView u = placeView s ∧ u.ds.epRes = (epWorks s i t).foldl loadRes s.ds.epRes
    ∧ u.ds.toggles = (epWorks s i t).foldl (countToggle s.ds.rows t) s.ds.toggles
    ∧ u.ds.rows = (epWorks s i t).foldl (fun m e => writeEp m t e) s.ds.rows
    ∧ u.ds.tiles = (portsDone (releaseMarks s) s.ds i t).tiles ∧ u.ds.tileReads = (portsDone (releaseMarks s) s.ds i t).tileReads
    ∧ u.ds.ddr = (portsDone (releaseMarks s) s.ds i t).ddr
    ∧ ((portOpsOf (releaseMarks s) i t 1).filter (fun o => o.op == 2) = [] → u.ds.regions = s.ds.regions) := by
  unfold stepPorted
  obtain ⟨hplace, hmem, htr, hddr⟩ := stepLogic_frame s i t
  obtain ⟨hports, hregions⟩ := stepPorts_frame (releaseMarks s) (stepLogic s i t) i t
  simp only [memView, Prod.mk.injEq] at hmem
  obtain ⟨hres, htog, hrows, htiles, hreg⟩ := hmem
  obtain ⟨pplace, pres, ptog, prows, ptiles, ptr, pddr⟩ := portView_fields hports
  refine ⟨pplace.trans hplace, pres.trans hres, ptog.trans htog, prows.trans hrows, ptiles.trans ?_, ptr.trans ?_, pddr.trans ?_,
    fun h => (hregions h).trans hreg⟩
  · simp only [portsDone, htiles]
  · simp only [portsDone, htr]
  · simp only [portsDone, hddr]

/-- No port writes at a step without a write operation. -/
theorem portOpsOf_no_write {i : Image} {t : Nat} (h : (portOps i t).all (fun o => o.op != 2) = true) (s0 : State) (kind : Nat) :
    (portOpsOf s0 i t kind).filter (fun o => o.op == 2) = [] := by
  refine List.filter_eq_nil_iff.mpr fun o ho => ?_
  have hmem : o ∈ portOps i t := List.mem_of_mem_filter (List.mem_of_mem_filter ho)
  simpa using List.all_eq_true.mp h o hmem

/-- A tile read lands two steps after its own, so none of step t's lands at t (R162). -/
theorem portsDone_no_tile_landing {d : DataState} {t : Nat} (h : d.tileReads.any (fun r => r.due == t) = false) (s0 : State) (i : Image) :
    (portsDone s0 d i t).tileReads.filter (fun r => r.due == t) = [] := by
  refine List.filter_eq_nil_iff.mpr fun r hr => ?_
  obtain hold | hnew := List.mem_append.mp hr
  · simpa using List.any_eq_false.mp h r hold
  · obtain ⟨o, -, rfl⟩ := List.mem_map.mp hnew
    simp [startTileRead]

/-- A DDR read lands its lead after its issue, so none of step t's lands at t unless its lead is 0 (R172). -/
theorem portsDone_no_ddr_landing {d : DataState} {i : Image} {t : Nat} (h : d.ddr.any (fun r => r.issue + r.lead == t) = false)
    (hlead : (portOps i t).all (fun o => dKind o.d == 0 || dLead o.d != 0) = true) (s0 : State) :
    (portsDone s0 d i t).ddr.filter (fun r => r.issue + r.lead == t) = [] := by
  refine List.filter_eq_nil_iff.mpr fun r hr => ?_
  obtain hold | hnew := List.mem_append.mp hr
  · simpa using List.any_eq_false.mp h r hold
  · obtain ⟨o, ho, rfl⟩ := List.mem_map.mp hnew
    obtain ⟨hin, hkind⟩ := List.mem_filter.mp (List.mem_of_mem_filter ho)
    have hne := List.all_eq_true.mp hlead o (List.mem_of_mem_filter hin)
    simp only [beq_iff_eq] at hkind
    simpa [startDdrRead, hkind] using hne

/-- What step t leaves of the place and of the memories. -/
theorem runStep_frame (s : State) (i : Image) (t : Nat) (e : StepEnv) :
    placeView (runStep s i t e) = placeView s ∧ memView (runStep s i t e) = memView (stepDeliver (stepPorted s i t) t) := by
  rw [runStep_eq]
  obtain ⟨hplace, hmem⟩ := stepRest_frame (releaseMarks s) (stepDeliver (stepPorted s i t) t) i t e
  rw [placeView_stepDeliver, (stepPorted_frame s i t).1] at hplace
  exact ⟨hplace, hmem⟩

/-- The state in which step t of s has run, s1, stands at the step after it. -/
def toNext (s s1 : State) (i : Image) (t : Nat) : State :=
  { s1 with seq := { s1.seq with
    tick := if t + 1 < i.hdr.depth then .step (t + 1) else .bound 0
    degrade := s1.seq.marked.contains t, recent := ((s.seq.ticks % 1024, t) :: s1.seq.recent).take 256 } }

theorem scheduleStep_ready {s : State} {i : Image} {t : Nat} (h : stepReady s i t) (e : StepEnv) :
    scheduleStep s e = advance (toNext s (runStep s i t e) i t) := by
  obtain ⟨himg, htick, hcan, hblocked⟩ := h
  simp only [scheduleStep, htick, himg, hcan, hblocked, toNext]
  rfl

theorem advance_toNext (s s1 : State) (i : Image) (t : Nat) :
    let u := advance (toNext s s1 i t)
    u.seq.tick = (if t + 1 < i.hdr.depth then .step (t + 1) else .bound 0) ∧ placeView u = (s1.img, s1.seq.dcn, s1.seq.ticks + 1)
    ∧ memView u = memView s1 := by
  obtain ⟨hds, himg, htick, hdcn, hticks⟩ := advance_frame (toNext s s1 i t)
  refine ⟨htick, ?_, ?_⟩
  · simp only [placeView, himg, hdcn, hticks]
    rfl
  · simp only [memView, hds]
    rfl

/-- Settles O21: the place and the memories that the step leaves, then the reads that land and the writes of the ports. -/
theorem aScheduleStepRunsEveryProcessorOnce : Obligations.AScheduleStepRunsEveryProcessorOnce := by
  unfold Obligations.AScheduleStepRunsEveryProcessorOnce
  intro s i t e h
  obtain ⟨htick, hplace, hmem⟩ := advance_toNext s (runStep s i t e) i t
  rw [← scheduleStep_ready h e] at htick hplace hmem
  obtain ⟨rplace, rmem⟩ := runStep_frame s i t e
  replace hmem := hmem.trans rmem
  obtain ⟨-, hres, htog, hrows, htiles, htr, hddr, hregions⟩ := stepPorted_frame s i t
  simp only [placeView, Prod.mk.injEq] at hplace rplace
  simp only [memView, stepDeliver, hres, htog, hrows, htr, hddr, Prod.mk.injEq] at hmem
  obtain ⟨himg, hdcn, hticks⟩ := hplace
  obtain ⟨rimg, rdcn, rticks⟩ := rplace
  obtain ⟨mres, mtog, mrows, mtiles, mregions⟩ := hmem
  refine ⟨scheduleStep s e, rfl, htick, hticks.trans (congrArg (· + 1) rticks), hdcn.trans rdcn, congrArg Prod.fst (scheduleStep_modeOf s e),
    himg.trans rimg, mres, mtog, fun k hk => ?others, fun ht hd hl => ?landing,
    fun hw => ⟨mtiles.trans (htiles.trans ?tiles), mregions.trans (hregions ?regions)⟩⟩
  case others =>
    rw [mrows]
    exact (rd_foldl_other _ (fun _ _ => rd_deliverRead_other hk _ _ _ _ _) _ _).trans
      ((rd_foldl_other _ (fun _ _ => rd_deliverRead_other hk _ _ _ _ _) _ _).trans (rd_foldl_other _ (rd_writeEp_other hk) _ _))
  case landing =>
    rw [mrows, portsDone_no_tile_landing ht, portsDone_no_ddr_landing hd hl]
    rfl
  case tiles =>
    rw [portsDone, portOpsOf_no_write hw]
    rfl
  case regions => exact portOpsOf_no_write hw _ 1

end Sys2Proof.Machine

namespace Sys2Proof.Machine

/-! ### Before the endpoint answers (R413, R426) -/

/-- A device that ignores its PCIe balls, or is not configuration-ready, answers no access over PCI Express. -/
theorem pcieOpen_shut {s : State} (h : s.straps.boot = true ∨ s.boot.ready = false) : pcieOpen s = false := by
  obtain h | h := h <;> simp [pcieOpen, h]

theorem canTake_pcie_shut {s : State} (h : pcieOpen s = false) {c : Cmd} (hc : c.path = .pcie) : canTake s c = false := by
  simp [canTake, hc, ringWork, ringsOn, h]

theorem writeBar0_shut {s : State} (h : pcieOpen s = false) (off : Nat) (w : Word) : writeBar0 s off w = s := by
  simp [writeBar0, hostWrites, hostOpen, h]

theorem bulkWrite_shut {s : State} (h : pcieOpen s = false) (off : Nat) (w : Word) : bulkWrite s off w = s := by
  simp [bulkWrite, hostOpen, h]

/-! ### The weirs at the epoch (R120, R424) -/

/-- A board link whose weir is trained anew. -/
def weirAnew (b : BoardLink) : BoardLink := { b with timing := [], tx := { b.tx with timing := 1024 } }

/-- At the epoch the weir of a die's link trains, where the link is up. -/
def startWeir (s : State) (d : Nat) : State := if (linkOf s d).any linkUp then trainWeir s d else s

theorem lookup_map_value {α : Type} (f : Nat → α → α) (m : List (Nat × α)) (k : Nat) :
    lookup (m.map (fun e => (e.1, f e.1 e.2))) k = (lookup m k).map (f k) := by
  induction m with
  | nil => rfl
  | cons e m ih =>
    obtain ⟨k', v⟩ := e
    simp only [List.map_cons, lookup]
    split
    next h => simp [h]
    next => exact ih

theorem markWeir_bl (s : State) (d : Nat) :
    (markWeir s d).bl = s.bl.map (fun e => (e.1, if e.1 = d ∧ e.2.version = 3 ∧ s.seq.epoch = true then weirAnew e.2 else e.2)) := by
  refine List.map_congr_left fun e _ => ?_
  simp only [Bool.and_eq_true, beq_iff_eq, and_assoc]
  split <;> rfl

theorem linkOf_trainWeir (s : State) (d x : Nat) :
    linkOf (trainWeir s d) x = (linkOf s x).map (fun b => if x = d ∧ b.version = 3 ∧ s.seq.epoch = true then weirAnew b else b) :=
  (congrArg (lookup · x) (markWeir_bl s d)).trans
    (lookup_map_value (fun k b => if k = d ∧ b.version = 3 ∧ s.seq.epoch = true then weirAnew b else b) s.bl x)

theorem startWeir_frame (s : State) (d : Nat) :
    startWeir s d = { s with bl := (startWeir s d).bl, phys := (startWeir s d).phys }
    ∧ (startWeir s d).bl.map (·.1) = s.bl.map (·.1) ∧ ∀ e ∈ (startWeir s d).phys, e ∈ s.phys := by
  unfold startWeir
  split
  · refine ⟨rfl, ?_, fun e he => List.mem_of_mem_filter he⟩
    rw [show (trainWeir s d).bl = (markWeir s d).bl from rfl, markWeir_bl, List.map_map]
    rfl
  · exact ⟨rfl, rfl, fun _ he => he⟩

theorem linkOf_startWeir {s : State} (he : s.seq.epoch = true) (d x : Nat) :
    linkOf (startWeir s d) x = (linkOf s x).map (fun b => if x = d ∧ linkUp b = true ∧ b.version = 3 then weirAnew b else b) := by
  unfold startWeir
  split
  next hup =>
    rw [linkOf_trainWeir]
    cases hb : linkOf s x with
    | none => rfl
    | some b =>
      have hlink : x = d → linkUp b = true := fun hx => by simpa [← hx, hb] using hup
      by_cases hx : x = d <;> simp [hx, he, hlink]
  next hdown =>
    cases hb : linkOf s x with
    | none => rfl
    | some b =>
      have hlink : x = d → linkUp b = false := fun hx => by simpa [← hx, hb] using hdown
      by_cases hx : x = d <;> simp [hx, hlink]

theorem startWeirs_frame (l : List Nat) (s : State) :
    l.foldl startWeir s = { s with bl := (l.foldl startWeir s).bl, phys := (l.foldl startWeir s).phys }
    ∧ (l.foldl startWeir s).bl.map (·.1) = s.bl.map (·.1) ∧ ∀ e ∈ (l.foldl startWeir s).phys, e ∈ s.phys := by
  have hrest := foldl_keeps (fun u : State => { u with bl := [], phys := [] }) startWeir (fun u d => by rw [(startWeir_frame u d).1]) l s
  refine ⟨congrArg (fun u : State => { u with bl := (l.foldl startWeir s).bl, phys := (l.foldl startWeir s).phys }) hrest,
    foldl_keeps (fun u : State => u.bl.map (·.1)) startWeir (fun u d => (startWeir_frame u d).2.1) l s, ?_⟩
  clear hrest
  induction l generalizing s with
  | nil => exact fun _ he => he
  | cons d l ih => exact fun e he => (startWeir_frame s d).2.2 e (ih _ e he)

/-- Of the dies of a list the links that are up, at version 3, have their weirs trained anew, and no other link changes. -/
theorem linkOf_startWeirs (l : List Nat) {s : State} (he : s.seq.epoch = true) (x : Nat) :
    linkOf (l.foldl startWeir s) x = (linkOf s x).map (fun b => if x ∈ l ∧ linkUp b = true ∧ b.version = 3 then weirAnew b else b) := by
  induction l generalizing s with
  | nil => cases h : linkOf s x <;> simp [h]
  | cons d l ih =>
    have he' : (startWeir s d).seq.epoch = true := by rw [(startWeir_frame s d).1]; exact he
    rw [List.foldl_cons, ih he', linkOf_startWeir he, Option.map_map]
    congr 1
    funext b
    have hup : linkUp (weirAnew b) = linkUp b := rfl
    have hver : (weirAnew b).version = b.version := rfl
    have hagain : weirAnew (weirAnew b) = weirAnew b := rfl
    by_cases hb : linkUp b = true ∧ b.version = 3
    · by_cases hx : x = d <;> simp [hx, hb, hup, hver, hagain]
    · simp [hb]

theorem tickEpoch_pulsed {s : State} (hp : s.boot.phase = 5) (hpulse : s.boot.pulsed = true) (he : s.seq.epoch = false) :
    tickEpoch s = (diesOf s).foldl startWeir { s with seq := { s.seq with epoch := true, ticks := 0, frac := 0, ctl := 0 } } := by
  simp only [tickEpoch, hp, hpulse, he]
  rfl

/-! ### The release of CFG_DONE (R195, R196, R420) -/

theorem liveSig_boot (s : State) (b : BootState) : liveSig { s with boot := b } = liveSig s := rfl

/-- Building the signature keeps it, and what it tells the other devices waits in the network. -/
theorem buildSig_frame (s : State) : buildSig s = { s with ctl := { s.ctl with sig := liveSig s }, net := (buildSig s).net } := by
  unfold buildSig
  dsimp only
  split <;> rfl

/-- Settles O4: the lines one after another; at the epoch by what the weirs of the links become, and the release by its conditions. -/
theorem startUpLinesAndCfgDone : Obligations.StartUpLinesAndCfgDone := by
  unfold Obligations.StartUpLinesAndCfgDone
  refine ⟨fun s => ⟨fun hb hr => ?ready, fun h => ?shut, fun hr hp => ?released, fun hp he => ?pulse, fun hp hpulse he => ?epoch⟩,
    fun s => ⟨fun hp ha hm hd hu hl hadm => ?release, fun h => ?held⟩⟩
  case ready => exact congrArg Host.Outcome.next (by simp [configurationReady, hb, hr])
  case shut =>
    have hshut := pcieOpen_shut h
    exact ⟨fun c hc => canTake_pcie_shut hshut hc,
      fun off w => ⟨congrArg Host.Outcome.next (bulkWrite_shut hshut off w), congrArg Host.Outcome.next (writeBar0_shut hshut _ _)⟩,
      fun n => congrArg Host.Outcome.next (writeBar0_shut hshut _ n)⟩
  case released => exact congrArg Host.Outcome.next (by simp [cfgDoneReleasedByAll, hr, hp])
  case pulse => exact congrArg Host.Outcome.next (by simp [epochPulse, hp, he])
  case epoch =>
    let s' : State := { s with seq := { s.seq with epoch := true, ticks := 0, frac := 0, ctl := 0 } }
    obtain ⟨hrest, hkeys, hphys⟩ := startWeirs_frame (diesOf s) s'
    have hseq : ((diesOf s).foldl startWeir s').seq = s'.seq := by rw [hrest]
    refine ⟨_, congrArg Host.Outcome.next (tickEpoch_pulsed hp hpulse he), hseq, by rw [hseq]; exact hrest, hkeys, fun d b hb => ?_, hphys⟩
    have hlink := linkOf_startWeirs (diesOf s) (s := s') rfl d
    rw [show linkOf s' d = some b from hb, Option.map_some] at hlink
    by_cases h : d ∈ diesOf s ∧ linkUp b = true ∧ b.version = 3
    · rw [if_pos h] at hlink
      exact ⟨_, hlink, rfl, fun _ _ _ => ⟨rfl, rfl⟩, fun hdown => absurd h.2.1 (by simp [hdown])⟩
    · rw [if_neg h] at hlink
      exact ⟨_, hlink, rfl, fun hd hup hv => absurd ⟨hd, hup, hv⟩ h, fun _ => rfl⟩
  case release =>
    have hrel : cfgDoneRelease s = buildSig { s with boot := { s.boot with released := true, phase := 4 } } := by
      simp [cfgDoneRelease, hp, ha, hm, hd, hu, hl, hadm]
    refine ⟨_, congrArg Host.Outcome.next (hrel.trans (buildSig_frame _)), rfl, ?_, rfl⟩
    rw [liveSig_boot]
  case held =>
    refine congrArg Host.Outcome.next (if_neg ?_)
    simp only [Bool.and_eq_true, beq_iff_eq]
    rintro ⟨⟨⟨⟨⟨⟨hp, ha⟩, hm⟩, hd⟩, hu⟩, hl⟩, hadm⟩
    simp [hp, ha, hm, hd, hu, hl, hadm] at h

end Sys2Proof.Machine

namespace Sys2Proof.Machine

/-! ### What the edges of a STEP tick leave alone (R5, R131) -/

/-- The mode, the sluice, capture, the churn engines, the checkpoints and the transactors. -/
def standView (s : State) := (s.md, s.slu, s.cap, s.chn, s.ckp, s.trx)

theorem standView_fabricSpan (s : State) (a b : Nat) (live : Bool) : standView (fabricSpan s a b live) = standView s := by
  refine foldl_keeps standView _ (fun u j => ?_) _ s
  unfold fabricEvent
  dsimp only
  split <;> split <;> rfl

theorem standView_bankEdge (s : State) : standView (bankEdge s) = standView s := by
  refine foldl_keeps standView _ (fun u n => ?_) _ s
  unfold bankCycle
  split
  · rfl
  · split
    · rfl
    · have hread (v : State) : standView (bankReadEnd v n) = standView v := by
        unfold bankReadEnd
        dsimp only
        repeat' split
        all_goals simp [standView, fault_below_fatal]
      rw [hread]
      unfold bankWriteEnd
      dsimp only
      repeat' split
      all_goals simp [standView]

theorem standView_ctrlEdge (s : State) : standView (ctrlEdge s) = standView s := by
  have htrain (u : State) : standView (beginTraining u) = standView u := by
    unfold beginTraining
    split <;> rfl
  have hedge (u : State) : standView (utilEdge (bankEdge (beginTraining u))) = standView u := (standView_bankEdge _).trans (htrain u)
  have hload : standView (loadBoardTime s) = standView s := by
    unfold loadBoardTime
    repeat' split
    all_goals simp [standView]
  have hdeadline (u : State) : standView (checkDeadline u) = standView u := by
    unfold checkDeadline startUpFailure
    repeat' split
    all_goals simp [standView]
  unfold ctrlEdge
  dsimp only
  rw [hedge, ← hload]
  split
  · exact hdeadline _
  · rfl

/-- The edges of a tick move on the time since the last CTRL edge, and change neither the design nor what stands still with it. -/
theorem tickEdges_frame (s : State) (live : Bool) :
    tickView (tickEdges s live) = (s.ds, s.img, { s.seq with ctl := (s.seq.ctl + tickUnits s) % 80 })
    ∧ standView (tickEdges s live) = standView s := by
  let v : State := fabricSpan (linksSpan s (tickUnits s)) s.seq.ctl (s.seq.ctl + tickUnits s) live
  have htick : tickView v = tickView s := (tickView_fabricSpan _ _ _ _).trans (by simp [tickView])
  have hstand : standView v = standView s := (standView_fabricSpan _ _ _ _).trans (by simp [standView])
  obtain ⟨hds, himg, hseq⟩ := tickView_eq.mp htick
  let w : State := { v with seq := { v.seq with ctl := (s.seq.ctl + tickUnits s) % 80 } }
  have hw : tickView w = (s.ds, s.img, { s.seq with ctl := (s.seq.ctl + tickUnits s) % 80 }) := by
    simp only [tickView, w, hds, himg, hseq]
  have hedges : tickEdges s live = if 80 ≤ s.seq.ctl + tickUnits s then ctrlEdge w else w := rfl
  rw [hedges]
  split
  · exact ⟨(tickView_ctrlEdge w).trans hw, (standView_ctrlEdge w).trans hstand⟩
  · exact ⟨hw, hstand⟩

/-! ### Stall steps (R126, R131, R132, R155) -/

/-- The registers after a stall step is counted under each of its codes. -/
def stallRegs (s : State) : Cells Word := ((stallCodes s).foldl (fun s c => bumpIo s 0x02 (0x040 + 4 * c) 32 1) s).regs

/-- A stall step as it is counted and attributed, before the edges of its tick. -/
def stallCounted (s : State) : State :=
  { s with
    regs := stallRegs s
    slu := { s.slu with len := s.slu.len + 1, cyc := s.slu.cyc + 1, total := (s.slu.total + 1) % 2 ^ 64 }
    seq := { s.seq with ticks := s.seq.ticks + 1 } }

theorem stallCodes_count (s : State) : (stallCodes s).foldl (fun s c => bumpIo s 0x02 (0x040 + 4 * c) 32 1) s = { s with regs := stallRegs s } :=
  congrArg (fun u : State => { u with regs := stallRegs s })
    (foldl_keeps (fun u : State => { u with regs := [] }) (fun s c => bumpIo s 0x02 (0x040 + 4 * c) 32 1) (fun _ _ => rfl) (stallCodes s) s)

theorem stallStep_frozen {s : State} (hs : stepping s = true) (he : s.seq.epoch = true) (ht : s.seq.tick ≠ .bound 16) (hf : frozen s = true) :
    stallStep s = tickEdges (stallCounted s) false := by
  simp [stallStep, stallCounted, stallCodes_count, hs, he, ht, hf]

theorem stallStep_degrade {s : State} (hs : stepping s = true) (he : s.seq.epoch = true) (ht : s.seq.tick ≠ .bound 16) (hf : frozen s = false)
    (hd : s.seq.degrade = true) :
    stallStep s = tickEdges { s with seq := { s.seq with degrade := false, ticks := s.seq.ticks + 1 } } false := by
  simp [stallStep, hs, he, ht, hf, hd]

/-! ### Records that a repair's end makes (R531, R535, R545) -/

@[simp] theorem storeErr_repairs (s : State) (r : ErrRec) :
    (storeErr s r).err.repairs = s.err.repairs ∧ (storeErr s r).err.seq = s.err.seq := by
  unfold storeErr
  split_ifs <;> simp

@[simp] theorem addRecord_repairs (s : State) (r : ErrRec) (b : Bool) :
    (addRecord s r b).err.repairs = s.err.repairs ∧ (addRecord s r b).err.seq = s.err.seq + 1 := by
  have hcount : (countFault s r.cls).err = { s.err with seq := s.err.seq + 1 } := by simp [countFault]
  unfold addRecord
  dsimp only
  repeat' split
  all_goals simp [hcount]

/-- REPLACE_REQ_N is asserted (R545). -/
def replaceAsked (s : State) : Bool := bitOf (ioReg s 0x14 0x008) 0

theorem ioReg_setIo_other (s : State) {b o b' o' : Nat} (v : Nat) (h : rkey 15 b' o' ≠ rkey 15 b o) : ioReg (setIo s b o v) b' o' = ioReg s b' o' :=
  congrArg BitVec.toNat (reg_setReg_other s _ _ _ h)

theorem ioReg_congr {s t : State} (h : t.regs = s.regs) (b o : Nat) : ioReg t b o = ioReg s b o := by simp [ioReg, reg, h]

theorem replaceAsked_assertReplace (s : State) (cause : Nat) : replaceAsked (assertReplace s cause) = true := by
  unfold assertReplace
  split
  next h => exact h
  next => simp [replaceAsked, bitOf]; omega

theorem replaceAsked_congr {s t : State} (h : t.regs = s.regs) : replaceAsked t = replaceAsked s := by simp [replaceAsked, ioReg_congr h]

theorem replaceAsked_countFault (s : State) (cls : Nat) : replaceAsked (countFault s cls) = replaceAsked s := by
  have hother : rkey 15 0x14 0x008 ≠ rkey 15 0x14 (0x010 + 4 * (cls - 1)) := by simp [rkey]; omega
  exact congrArg (bitOf · 0) (congrArg BitVec.toNat (reg_setReg_other s _ _ _ hother))

theorem replaceAsked_maxIo (s : State) (v : Nat) : replaceAsked (maxIo s 0x14 0x024 v) = replaceAsked s := by
  unfold maxIo
  split
  · exact congrArg (bitOf · 0) (ioReg_setIo_other s v (by decide))
  · rfl

/-- A record of DEGRADED asks for replacement, and no record takes the request back. -/
theorem replaceAsked_addRecord {s : State} {r : ErrRec} (b : Bool) (h : replaceAsked s = true ∨ r.cls = 4) : replaceAsked (addRecord s r b) = true := by
  have hask {u : State} (hu : replaceAsked u = replaceAsked s) :
      replaceAsked (if asksReplace r.cls r.cause b = true then assertReplace u r.cause else u) = true := by
    split
    · exact replaceAsked_assertReplace u r.cause
    next hno => exact hu.trans (h.resolve_right fun h4 => hno (by simp [asksReplace, h4]))
  have hmax {u : State} (v : Nat) (hu : replaceAsked u = true) :
      replaceAsked (if (r.cls == 3 || r.cls == 4) = true then maxIo u 0x14 0x024 v else u) = true := by
    split
    · rwa [replaceAsked_maxIo]
    · exact hu
  unfold addRecord
  dsimp only
  split
  next hoff =>
    rw [replaceAsked_countFault]
    exact h.resolve_right fun h4 => by simp [h4] at hoff
  next => exact hmax _ (hask ((replaceAsked_congr (by simp)).trans (replaceAsked_countFault s r.cls)))

theorem replaceAsked_addAll (us : Nat) (l : List ErrRec) {s : State} (h : replaceAsked s = true ∨ ∃ e ∈ l, e.cls = 4) :
    replaceAsked (l.foldl (fun u e => addRecord u { e with stallUs := us } false) s) = true := by
  induction l generalizing s with
  | nil => simpa using h
  | cons e l ih =>
    refine ih ?_
    obtain h | ⟨x, hx, h4⟩ := h
    · exact .inl (replaceAsked_addRecord false (.inl h))
    · obtain rfl | hx := List.mem_cons.mp hx
      · exact .inl (replaceAsked_addRecord false (.inr h4))
      · exact .inr ⟨x, hx, h4⟩

theorem addAll_repairs (us : Nat) (l : List ErrRec) (s : State) :
    (l.foldl (fun u e => addRecord u { e with stallUs := us } false) s).err.repairs = s.err.repairs
    ∧ (l.foldl (fun u e => addRecord u { e with stallUs := us } false) s).err.seq = s.err.seq + l.length := by
  induction l generalizing s with
  | nil => exact ⟨rfl, rfl⟩
  | cons e l ih =>
    obtain ⟨hrep, hseq⟩ := ih (addRecord s { e with stallUs := us } false)
    obtain ⟨erep, eseq⟩ := addRecord_repairs s { e with stallUs := us } false
    exact ⟨hrep.trans erep, hseq.trans (by rw [eseq, List.length_cons]; omega)⟩

/-! ### The end of a repair (R86, R127, R531) -/

/-- The word that a repair rewrites is right. -/
def wordRight (s : State) (r : Repair) : State :=
  match r.word with
  | some w => { s with ds := { s.ds with faulty := s.ds.faulty.filter (fun x => x != w) } }
  | none => s

/-- The end of a repair makes its records. -/
def repairRecords (s : State) (r : Repair) : State :=
  r.recs.foldl (fun u e => addRecord u { e with stallUs := slotsUs s r.driven } false) (wordRight s r)

theorem wordRight_frame (s : State) (r : Repair) :
    wordRight s r = { s with ds := { s.ds with faulty := (wordRight s r).ds.faulty } } ∧ (∀ x ∈ (wordRight s r).ds.faulty, x ∈ s.ds.faulty)
    ∧ ∀ w, r.word = some w → w ∉ (wordRight s r).ds.faulty := by
  unfold wordRight
  split
  next w hw => simp +contextual [hw]
  next hw => simp [hw]

theorem remark_seq (s : State) : (remark s).seq = { s.seq with marked := (remark s).seq.marked } := by
  unfold remark
  split
  · rfl
  · dsimp only
    split <;> simp

/-- After its records the end of a repair only moves the stall that a takeover's record keeps, the restarts, and the marked steps. -/
theorem endRepair_cases (s : State) (r : Repair) :
    ∃ u : State, u = { repairRecords s r with err := { (repairRecords s r).err with pending := u.err.pending }, trx := u.trx }
      ∧ (endRepair s r = u ∨ endRepair s r = remark u) := by
  unfold endRepair
  dsimp only
  split
  · refine ⟨_, ?_, .inr rfl⟩
    split <;> rfl
  · refine ⟨_, ?_, .inl rfl⟩
    split <;> rfl

theorem endRepair_records (s : State) (r : Repair) :
    (endRepair s r).err.repairs = (repairRecords s r).err.repairs ∧ (endRepair s r).err.seq = (repairRecords s r).err.seq
    ∧ (endRepair s r).regs = (repairRecords s r).regs ∧ (endRepair s r).ds = (repairRecords s r).ds
    ∧ (endRepair s r).seq = { (repairRecords s r).seq with marked := (endRepair s r).seq.marked } := by
  obtain ⟨u, hu, he⟩ := endRepair_cases s r
  have herr : u.err = { (repairRecords s r).err with pending := u.err.pending } := by rw [hu]
  have hseq : u.seq = (repairRecords s r).seq := by rw [hu]
  have hregs : u.regs = (repairRecords s r).regs := by rw [hu]
  have hds : u.ds = (repairRecords s r).ds := by rw [hu]
  obtain he | he := he
  · rw [he, herr, hseq, hregs, hds]
    exact ⟨rfl, rfl, rfl, rfl, rfl⟩
  · have hrem : (remark u).err = u.err ∧ (remark u).regs = u.regs ∧ (remark u).ds = u.ds := by simp
    obtain ⟨rerr, rregs, rds⟩ := hrem
    rw [he, rerr, rregs, rds, remark_seq, herr, hseq, hregs, hds]
    exact ⟨rfl, rfl, rfl, rfl, rfl⟩

/-- A repair ends: the others stay, its word is right, each of its failures has its record, and one of DEGRADED asks for replacement. -/
theorem endRepair_done (s : State) (r : Repair) :
    (endRepair s r).err.repairs = s.err.repairs ∧ (endRepair s r).err.seq = s.err.seq + r.recs.length
    ∧ (∀ w, r.word = some w → w ∉ (endRepair s r).ds.faulty) ∧ ((∃ e ∈ r.recs, e.cls = 4) → replaceAsked (endRepair s r) = true) := by
  obtain ⟨hrep, hnum, hregs, hds, -⟩ := endRepair_records s r
  obtain ⟨arep, anum⟩ := addAll_repairs (slotsUs s r.driven) r.recs (wordRight s r)
  obtain ⟨hw, -, hword⟩ := wordRight_frame s r
  have herr : (wordRight s r).err = s.err := by rw [hw]
  have hads : (repairRecords s r).ds = (wordRight s r).ds := by simp [repairRecords, addAll_frame]
  refine ⟨hrep.trans (arep.trans (by rw [herr])), hnum.trans (anum.trans (by rw [herr])), fun w h => ?_, fun h => ?_⟩
  · rw [hds, hads]
    exact hword w h
  · rw [replaceAsked_congr hregs]
    exact replaceAsked_addAll _ _ (.inr h)

/-- The end of a repair leaves the design data but its faulty words, and the sequencers but the marked steps. -/
theorem endRepair_leaves (s : State) (r : Repair) :
    (endRepair s r).ds = { s.ds with faulty := (endRepair s r).ds.faulty } ∧ (∀ x ∈ (endRepair s r).ds.faulty, x ∈ s.ds.faulty)
    ∧ (endRepair s r).seq = { s.seq with marked := (endRepair s r).seq.marked } := by
  obtain ⟨-, -, -, hds, hseq⟩ := endRepair_records s r
  obtain ⟨hw, hsub, -⟩ := wordRight_frame s r
  have hwds : (wordRight s r).ds = { s.ds with faulty := (wordRight s r).ds.faulty } := congrArg State.ds hw
  have hwseq : (wordRight s r).seq = s.seq := by rw [hw]
  have hads : (repairRecords s r).ds = (wordRight s r).ds := by simp [repairRecords, addAll_frame]
  have haseq : (repairRecords s r).seq = (wordRight s r).seq := by simp [repairRecords, addAll_frame]
  rw [hseq, hds, hads, haseq, hwseq]
  exact ⟨hwds, hsub, rfl⟩

/-! ### A slot passes (R531, R532) -/

/-- A repair whose request has driven one slot more. -/
def slotDriven (r : Repair) : Repair := { r with driven := r.driven + 1 }

/-- Every repair's request has driven the slot. -/
def repairsDriven (s : State) : State := { s with err := { s.err with repairs := s.err.repairs.map slotDriven } }

/-- The first repair in line comes to have `left` slots to go. -/
def repairLeft (s : State) (r : Repair) (rs : List Repair) (left : Option Nat) : State :=
  { s with err := { s.err with repairs := { slotDriven r with left := left } :: rs.map slotDriven } }

/-- Where the board does not stand, in SAFE HOLD, and where a row is to end the first repair, the requests only drive the slot. -/
theorem passRepairs_waits {s : State} (h : frozen s = false ∨ s.md.safeHold.isSome = true ∨ ∀ r, s.err.repairs.head? = some r → r.left = none) :
    passRepairs s = repairsDriven s := by
  by_cases hstand : frozen s = true ∧ s.md.safeHold = none
  · refine (if_neg (show ¬(!frozen s || inSafeHold s) = true by simp [hstand, inSafeHold])).trans ?_
    cases hr : s.err.repairs with
    | nil => simp [hr, repairsDriven]
    | cons r rs =>
      have hleft : r.left = none := by simpa [hstand, hr] using h
      simp [hr, hleft, repairsDriven, slotDriven]
  · exact if_pos (show (!frozen s || inSafeHold s) = true by
      cases hf : frozen s <;> simp_all [inSafeHold, Option.isSome_iff_ne_none])

/-- Where the board stands, outside SAFE HOLD, a repair with slots to go that is first in line goes on, or ends. -/
theorem passRepairs_goesOn {s : State} {r : Repair} {rs : List Repair} {n : Nat} (hf : frozen s = true) (hs : s.md.safeHold = none)
    (hr : s.err.repairs = r :: rs) (hl : r.left = some n) :
    (r.code = 10 → passRepairs s = { repairLeft s r rs none with bl := (passRepairs s).bl })
    ∧ (r.code ≠ 10 → 1 < n → passRepairs s = { repairLeft s r rs (some (n - 1)) with bl := (passRepairs s).bl, phys := (passRepairs s).phys })
    ∧ (r.code ≠ 10 → n ≤ 1 → passRepairs s = endRepair { s with err := { s.err with repairs := rs.map slotDriven } } (slotDriven r)) := by
  have hpass : passRepairs s = if r.code == 10 then
        (match repairWeir (slotDriven r) with | some d => markWeir (repairLeft s r rs none) d | none => repairLeft s r rs none)
      else if 1 < n then
        (match repairWeir (slotDriven r) with
        | some d => if n == weirSlots + 1 then trainWeir (repairLeft s r rs (some (n - 1))) d else repairLeft s r rs (some (n - 1))
        | none => repairLeft s r rs (some (n - 1)))
      else endRepair { s with err := { s.err with repairs := rs.map slotDriven } } (slotDriven r) := by
    refine (if_neg (show ¬(!frozen s || inSafeHold s) = true by simp [hf, hs, inSafeHold])).trans ?_
    simp only [hr, hl, List.map_cons]
    rfl
  rw [hpass]
  refine ⟨fun h10 => ?_, fun h10 hn => ?_, fun h10 hn => ?_⟩
  · rw [if_pos (by simp [h10])]
    split <;> rfl
  · rw [if_neg (by simp [h10]), if_pos hn]
    split
    · split <;> rfl
    · rfl
  · rw [if_neg (by simp [h10]), if_neg (by omega)]

theorem passRepairs_leaves (s : State) :
    (passRepairs s).ds = { s.ds with faulty := (passRepairs s).ds.faulty } ∧ (∀ x ∈ (passRepairs s).ds.faulty, x ∈ s.ds.faulty)
    ∧ (passRepairs s).seq = { s.seq with marked := (passRepairs s).seq.marked } := by
  by_cases hw : frozen s = false ∨ s.md.safeHold.isSome = true ∨ ∀ r, s.err.repairs.head? = some r → r.left = none
  · rw [passRepairs_waits hw]
    exact ⟨rfl, fun _ h => h, rfl⟩
  · simp only [not_or, Bool.not_eq_false, Bool.not_eq_true, Option.isSome_eq_false_iff, Option.isNone_iff_eq_none, not_forall] at hw
    obtain ⟨hf, hs, r, hhead, hleft⟩ := hw
    obtain ⟨rs, hr⟩ := List.head?_eq_some_iff.mp hhead
    obtain ⟨n, hl⟩ := Option.ne_none_iff_exists'.mp hleft
    obtain ⟨hten, hmore, hlast⟩ := passRepairs_goesOn hf hs hr hl
    by_cases h10 : r.code = 10
    · rw [hten h10]
      exact ⟨rfl, fun _ h => h, rfl⟩
    · by_cases hn : 1 < n
      · rw [hmore h10 hn]
        exact ⟨rfl, fun _ h => h, rfl⟩
      · rw [hlast h10 (by omega)]
        exact endRepair_leaves _ _

theorem frozen_passRepairs (s : State) : frozen (passRepairs s) = frozen s := by
  have hseq := (passRepairs_leaves s).2.2
  have hslu : (passRepairs s).slu = s.slu := by simp
  rw [frozen, slotBack, slotOf, hslu, hseq]
  rfl

/-! ### What the board's freeze lets begin (R294, R310) -/

theorem beginRecovery_rest (s : State) :
    beginRecovery s = { s with ckp := { s.ckp with recovery := (beginRecovery s).ckp.recovery }, net := (beginRecovery s).net } := by
  unfold beginRecovery
  split <;> rfl

/-- A recovery to the DCN held begins where none is in progress. -/
theorem beginRecovery_begins {s : State} (h : s.ckp.recovery = none) :
    ∃ q, (beginRecovery s).ckp.recovery = some q ∧ q.f = s.seq.dcn ∧ q.stepping = false := by
  have hb : beginRecovery s = sendFw (joinRecovery s) (.orderRecovery s.seq.dcn) := if_neg (by simp [h])
  exact ⟨_, congrArg (fun u : State => u.ckp.recovery) hb, rfl, rfl⟩

/-- The lead fixes a forced checkpoint that is wanted, at the DCN held (R294). -/
def fixForced (s : State) : State :=
  if s.ckp.wantForced && isLead s then
    let u := dropReq { s with ckp := { s.ckp with wantForced := false, forcedAt := some s.seq.dcn } } 7 0
    sendFw { u with slu := { u.slu with agreed := u.slu.agreed ++ [(s.seq.dcn, some .checkpoint)] } } (.orderCheckpoint s.seq.dcn true)
  else s

theorem fixForced_rest (s : State) :
    fixForced s = { s with
      ckp := { s.ckp with wantForced := (fixForced s).ckp.wantForced, forcedAt := (fixForced s).ckp.forcedAt }, net := (fixForced s).net
      slu := { s.slu with
        held := (fixForced s).slu.held, unseen := (fixForced s).slu.unseen, pulses := (fixForced s).slu.pulses, agreed := (fixForced s).slu.agreed } } := by
  unfold fixForced
  split <;> rfl

theorem fixForced_lead {s : State} (hw : s.ckp.wantForced = true) (hl : isLead s = true) :
    (fixForced s).ckp.forcedAt = some s.seq.dcn ∧ (s.seq.dcn, some .checkpoint) ∈ (fixForced s).slu.agreed ∧ (7, 0) ∉ (fixForced s).slu.held := by
  unfold fixForced
  rw [if_pos (by simp [hw, hl])]
  simp [dropReq]

theorem frozenWork_low {s : State} {r : SlotRec} (hr : slotBack s = some r) (hlow : r.low = true) (hs : stepping s = true) :
    frozenWork s = fixForced (if r.srcs.contains 13 then beginRecovery s else s) := by
  simp only [frozenWork, hr, hlow, hs]
  rfl

theorem frozenWork_moving {s : State} (h : ∀ r, slotBack s = some r → r.low = true → stepping s = false) : frozenWork s = s := by
  unfold frozenWork
  split
  · rfl
  next r hr => exact if_pos (by cases hl : r.low <;> simp [h r hr, hl])

/-- Without a slot driven for a recovery, and without a forced checkpoint wanted, nothing begins. -/
theorem frozenWork_nothing {s : State} (h : s.ckp.wantForced = false ∧ ∀ r, slotBack s = some r → r.low = true → 13 ∉ r.srcs) :
    frozenWork s = s := by
  obtain ⟨hforced, hsrcs⟩ := h
  by_cases hlow : ∃ r, slotBack s = some r ∧ r.low = true ∧ stepping s = true
  · obtain ⟨r, hr, hlow, hs⟩ := hlow
    rw [frozenWork_low hr hlow hs, if_neg (by simpa using hsrcs r hr hlow)]
    exact if_neg (by simp [hforced])
  · exact frozenWork_moving (by simpa using hlow)

/-- What the board's freeze lets begin changes recovery and forced checkpoint, the held requests and the agreed holds, and what the others are told. -/
theorem frozenWork_rest (s : State) :
    frozenWork s = { s with
      ckp := (frozenWork s).ckp, net := (frozenWork s).net
      slu := { s.slu with
        held := (frozenWork s).slu.held, unseen := (frozenWork s).slu.unseen, pulses := (frozenWork s).slu.pulses, agreed := (frozenWork s).slu.agreed } } := by
  by_cases hlow : ∃ r, slotBack s = some r ∧ r.low = true ∧ stepping s = true
  · obtain ⟨r, hr, hlow, hs⟩ := hlow
    rw [frozenWork_low hr hlow hs]
    split
    · rw [fixForced_rest, beginRecovery_rest]
    · rw [fixForced_rest]
  · rw [frozenWork_moving (by simpa using hlow)]

/-- In a slot under which the board stands, and that this device drove for a recovery, the recovery begins; and the lead fixes a forced
checkpoint that is wanted. -/
theorem frozenWork_begins {s : State} {r : SlotRec} (hr : slotBack s = some r) (hlow : r.low = true) (hs : stepping s = true) :
    (13 ∈ r.srcs → s.ckp.recovery = none → ∃ q, (frozenWork s).ckp.recovery = some q ∧ q.f = s.seq.dcn ∧ q.stepping = false)
    ∧ (s.ckp.wantForced = true → isLead s = true →
      (frozenWork s).ckp.forcedAt = some s.seq.dcn ∧ (s.seq.dcn, some .checkpoint) ∈ (frozenWork s).slu.agreed ∧ (7, 0) ∉ (frozenWork s).slu.held) := by
  rw [frozenWork_low hr hlow hs]
  refine ⟨fun h13 hnone => ?_, fun hw hl => ?_⟩
  · obtain ⟨q, hq, hf, hst⟩ := beginRecovery_begins hnone
    refine ⟨q, ?_, hf, hst⟩
    rw [fixForced_rest, if_pos (by simpa using h13)]
    exact hq
  · split
    · rw [beginRecovery_rest]
      exact fixForced_lead hw hl
    · exact fixForced_lead hw hl

/-! ### The start of a slot (R135, R249) -/

/-- The device as a slot finds it: the quadrants' activity is counted anew, and no throttle is on. -/
def slotFound (s : State) : State := { s with ds := { s.ds with slotAct := [] }, pwr := { s.pwr with throttled := false } }

theorem throttle_free {s : State} (h : slotDiscipline s = false) : throttle s = slotFound s := by
  simp [throttle, slotFound, h]

/-- The device as it enters a slot, in a stall with what the freeze lets begin. -/
def slotEntered (s : State) : State := if s.slu.stalled then frozenWork (slotFound s) else slotFound s

/-- The line is driven for the slot, and the events of the CASCADE lines with it. -/
def slotDriving (s : State) (k : Nat) : State :=
  { s with
    slu := { s.slu with
      slot := some k, own := !(driveSrcs s k).isEmpty, ownSrcs := driveSrcs s k, unseen := []
      pulses := s.slu.pulses.filterMap (fun p => if 1 < p.2 then some (p.1, p.2 - 1) else none) }
    casc := { s.casc with
      driving := if inRecovery s || s.pwr.disabled then [] else s.casc.drive, drive := if inRecovery s then s.casc.drive else []
      slotDcn := ((k, s.seq.dcn) :: s.casc.slotDcn).take 16 } }

theorem slotStart_new {s : State} (hn : slotNew s = true) (hd : slotDiscipline s = false) :
    slotStart s = passRepairs (slotDriving (slotEntered s) (slotOf s)) := by
  simp only [slotStart, hn, throttle_free hd]
  rfl

theorem slotEntered_frame (s : State) :
    (slotEntered s).err = s.err ∧ (slotEntered s).md = s.md ∧ (slotEntered s).ds = { s.ds with slotAct := [] }
    ∧ (slotEntered s).slu.hold = s.slu.hold := by
  unfold slotEntered
  split
  · rw [frozenWork_rest]
    exact ⟨rfl, rfl, rfl, rfl⟩
  · exact ⟨rfl, rfl, rfl, rfl⟩

/-- A slot start keeps the mode, the hold and the samples, and the design data but their activity and their faulty words. -/
theorem slotStart_leaves {s : State} (hn : slotNew s = true) (hd : slotDiscipline s = false) :
    (slotStart s).slu = (slotDriving (slotEntered s) (slotOf s)).slu ∧ (slotStart s).ckp = (slotEntered s).ckp ∧ (slotStart s).md = s.md
    ∧ (slotStart s).ds = { s.ds with slotAct := [], faulty := (slotStart s).ds.faulty } ∧ (∀ x ∈ (slotStart s).ds.faulty, x ∈ s.ds.faulty)
    ∧ frozen (slotStart s) = frozen (slotDriving (slotEntered s) (slotOf s)) := by
  obtain ⟨hds, hsub, -⟩ := passRepairs_leaves (slotDriving (slotEntered s) (slotOf s))
  obtain ⟨-, hmd, hfound, -⟩ := slotEntered_frame s
  rw [show (slotDriving (slotEntered s) (slotOf s)).ds = { s.ds with slotAct := [] } from hfound] at hds hsub
  rw [slotStart_new hn hd]
  exact ⟨by simp, by simp [slotDriving], by simp [slotDriving, hmd], hds, hsub, frozen_passRepairs _⟩

/-! ### Samples of the line (R133, R139) -/

/-- The line as a slot's sample shows it. -/
def lineSampled (s : State) (low : Bool) : State :=
  { s with slu := { s.slu with
      line := !low, wdog := s.slu.wdog && low
      hist := ({ k := slotOf s, low := low, srcs := if low then s.slu.ownSrcs.filter (fun c => c != 15) else [] } :: s.slu.hist).take 9 } }

/-- A device that drives low and samples high (R139). -/
def lineFault : FaultInfo := { cls := 5, cause := 0x0803, unit := siteLoc 15 }

theorem lineSampled_hist (s : State) (low : Bool) :
    (∃ r rs, (lineSampled s low).slu.hist = r :: rs ∧ r.k = slotOf s ∧ r.low = low) ∧ (lineSampled s low).slu.hist.length ≤ 9 :=
  ⟨⟨_, _, rfl, rfl, rfl⟩, by simp [lineSampled]⟩

theorem sluiceSample_sampled {s : State} (h : canSample s = true) (low : Bool) :
    sluiceSample s low = if s.slu.own && !low then fault (orIo (lineSampled s low) 0x02 0x000 32) lineFault else lineSampled s low := by
  simp only [sluiceSample, h]
  rfl

theorem enterSafeHold_line (s : State) (c : Nat) : (enterSafeHold s c).slu.line = s.slu.line ∧ (enterSafeHold s c).slu.hist = s.slu.hist := by
  unfold enterSafeHold holdReq
  dsimp only
  split
  · exact ⟨rfl, rfl⟩
  · split <;> simp

/-- A fault leaves the level and the samples of the line. -/
theorem fault_line (s : State) (f : FaultInfo) : (fault s f).slu.line = s.slu.line ∧ (fault s f).slu.hist = s.slu.hist := by
  unfold fault makeRecord
  split
  · obtain ⟨hline, hhist⟩ := enterSafeHold_line (postErrors 64 (addRecord (flushRecords (noteOverlap s)) (recordOf s f) f.noReplace)) (recordOf s f).cause
    rw [hline, hhist]
    simp
  · simp

/-- A line fault is FATAL: the device holds, with the samples, the design data and the mode as they were. -/
theorem lineFault_frame (u : State) :
    (fault (orIo u 0x02 0x000 32) lineFault).slu.line = u.slu.line ∧ (fault (orIo u 0x02 0x000 32) lineFault).slu.hist = u.slu.hist
    ∧ (fault (orIo u 0x02 0x000 32) lineFault).md.safeHold.isSome = true ∧ (fault (orIo u 0x02 0x000 32) lineFault).ds = u.ds
    ∧ (fault (orIo u 0x02 0x000 32) lineFault).md.mode = u.md.mode := by
  obtain ⟨hline, hhist⟩ := fault_line (orIo u 0x02 0x000 32) lineFault
  have hmode := congrArg Prod.fst (fault_runMode (orIo u 0x02 0x000 32) lineFault)
  simp only [orIo_frame, runMode] at hline hhist hmode
  exact ⟨hline, hhist, Option.isSome_iff_ne_none.mpr (fault_fatal_held _ _ rfl), by simp, hmode⟩

/-! ### The start and the end of a stall (R134, R291) -/

/-- A stall begins at the DCN held. -/
def stallFrom (s : State) : State :=
  { setIo (setIo s 0x02 0x80018 (s.seq.dcn % 2 ^ 32)) 0x02 0x8001C (s.seq.dcn / 2 ^ 32) with slu := { s.slu with stalled := true, len := 0 } }

theorem sluiceFreeze_low {s : State} {r : SlotRec} (hr : slotBack s = some r) (hlow : r.low = true) (hst : s.slu.stalled = false) :
    sluiceFreeze s = stallFrom (frozenWork s) := by
  simp only [sluiceFreeze, hr, hlow, hst]
  rfl

theorem closeStall_frame (s : State) (ckp : Bool) :
    (closeStall s ckp).slu = { s.slu with stalled := false } ∧ (closeStall s ckp).ds = s.ds ∧ (closeStall s ckp).md = s.md
    ∧ (closeStall s ckp).seq = s.seq ∧ ioReg (closeStall s ckp) 0x02 0x014 = min s.slu.len (2 ^ 32 - 1) := by
  have hlast : ioReg (setIo s 0x02 0x014 (satAdd 32 s.slu.len 0)) 0x02 0x014 = min s.slu.len (2 ^ 32 - 1) := by
    rw [ioReg_setIo_same]
    simp only [satAdd]
    omega
  unfold closeStall
  dsimp only
  split
  · exact ⟨rfl, rfl, rfl, rfl, (ioReg_setIo_other _ _ (by decide)).trans hlast⟩
  · exact ⟨rfl, rfl, rfl, rfl, hlast⟩

/-- Eight slots after a high one a stall ends, once the work of its planned hold is done. -/
theorem sluiceReopen_high {s : State} {r : SlotRec} (hr : slotBack s = some r) (hhigh : r.low = false) (hst : s.slu.stalled = true)
    (hdone : ∀ h, s.slu.hold = some h → h.s0 < r.k ∧ h.work = [] ∧ s.seq.dcn ∉ s.ckp.due) :
    ∃ ckp, sluiceReopen s = closeStall { s with slu := { s.slu with hold := none } } ckp := by
  cases hh : s.slu.hold with
  | none =>
    have hs : ({ s with slu := { s.slu with hold := none } } : State) = s := by rw [← hh]
    refine ⟨false, ?_⟩
    rw [hs]
    simp [sluiceReopen, hr, hhigh, hst, hh]
  | some h =>
    obtain ⟨hs0, hwork, hdue⟩ := hdone h hh
    exact ⟨h.ckp, by simp [sluiceReopen, hr, hhigh, hst, hh, hs0, hwork, hdue]⟩

/-! ### The watchdog (R140) -/

/-- The watchdog has expired while the line stays low. -/
def watchdogExpired (s : State) : State := orIo { s with slu := { s.slu with wdog := true } } 0x02 0x000 64

theorem watchdogExpired_flag (s : State) : bitOf (ioReg (watchdogExpired s) 0x02 0) 6 = true := by
  rw [watchdogExpired, orIo, ioReg_setIo_same, bitOf, Nat.testBit_mod_two_pow, Nat.testBit_or]
  simp [show Nat.testBit 64 6 = true by decide]

theorem sluiceWatchdog_expires {s : State} (hl : s.slu.line = false) (hw : ioReg s 0x02 0x010 ≠ 0) (hwd : s.slu.wdog = false) :
    sluiceWatchdog s = queueEvent (watchdogExpired s) 5 0 0 [sluStatus (watchdogExpired s)] :=
  if_neg (by simp [hl, hw, hwd])

theorem queueEvent_mem (s : State) (c st : Nat) (t : BitVec 16) (p : List Word) : ∃ e ∈ (queueEvent s c st t p).io.queue, e.code = c := by
  simp only [queueEvent, copyEvent_frame]
  exact ⟨_, List.mem_append_right _ List.mem_cons_self, rfl⟩

/-- Settles O24: a stall step by its count and the edges of its tick, a slot start by what its freeze lets begin and by the passage of its repairs,
then the line's rows one after another. -/
theorem stallStepsAndSluiceSlots : Obligations.StallStepsAndSluiceSlots := by
  unfold Obligations.StallStepsAndSluiceSlots
  refine ⟨fun s hs he => ⟨fun hf ht => ?frozen, fun hf hd ht => ?degrade, fun hf hd => ?moving, fun ht => ?cycleEnd⟩,
    fun s => ⟨fun hn hd h => ?slot, fun r hn hd hr hlow hst hs => ?stall, fun r rs hn hd hr => ?repairs, fun low hc => ?sample,
      fun r hr hlow hst => ?freeze, fun r hr hhigh hst hh => ?reopen, fun hline hw hwd => ?watchdog⟩⟩
  case frozen =>
    obtain ⟨htick, hstand⟩ := tickEdges_frame (stallCounted s) false
    simp only [tickView, standView, Prod.mk.injEq] at htick hstand
    obtain ⟨hds, himg, hseq⟩ := htick
    obtain ⟨hmd, hslu, hcap, hchn, hckp, htrx⟩ := hstand
    refine ⟨_, congrArg Host.Outcome.next (stallStep_frozen hs he ht hf), ?_⟩
    rw [hds, hmd, hslu, hcap, hchn, hckp, htrx, hseq]
    exact ⟨rfl, rfl, rfl, rfl, rfl, rfl, rfl, rfl, rfl, rfl, rfl, rfl, rfl⟩
  case degrade =>
    obtain ⟨htick, hstand⟩ := tickEdges_frame { s with seq := { s.seq with degrade := false, ticks := s.seq.ticks + 1 } } false
    simp only [tickView, standView, Prod.mk.injEq] at htick hstand
    obtain ⟨hds, -, hseq⟩ := htick
    obtain ⟨hmd, hslu, -⟩ := hstand
    refine ⟨_, congrArg Host.Outcome.next (stallStep_degrade hs he ht hf hd), ?_⟩
    rw [hds, hmd, hslu, hseq]
    exact ⟨rfl, rfl, rfl, rfl, rfl, rfl, rfl⟩
  case moving => exact congrArg Host.Outcome.next (by simp [stallStep, hf, hd])
  case cycleEnd => exact congrArg Host.Outcome.next (by simp [stallStep, ht])
  case slot =>
    obtain ⟨hslu, -, hmd, hds, hsub, -⟩ := slotStart_leaves hn hd
    have hin : slotEntered s = slotFound s := by
      unfold slotEntered
      split
      next hst => exact frozenWork_nothing (s := slotFound s) (h hst)
      next => rfl
    rw [hin] at hslu
    refine ⟨_, rfl, ?_⟩
    rw [hslu]
    exact ⟨rfl, rfl, rfl, rfl, rfl, hmd, hds, hsub⟩
  case stall =>
    obtain ⟨hslu, hckp, hmd, -⟩ := slotStart_leaves hn hd
    have hin : slotEntered s = frozenWork (slotFound s) := if_pos hst
    obtain ⟨hrec, hforced⟩ := frozenWork_begins (s := slotFound s) hr hlow hs
    obtain ⟨-, -, -, hhold⟩ := slotEntered_frame s
    refine ⟨_, rfl, hmd, ?_⟩
    rw [hslu, hckp, hin]
    exact ⟨hin ▸ hhold, hrec, hforced⟩
  case repairs =>
    obtain ⟨-, -, -, -, -, hfroz⟩ := slotStart_leaves hn hd
    generalize hv : slotDriving (slotEntered s) (slotOf s) = v at hfroz
    have herr : v.err = s.err := hv ▸ (slotEntered_frame s).1
    have hmd : v.md = s.md := hv ▸ (slotEntered_frame s).2.1
    have hrv : v.err.repairs = r :: rs := herr ▸ hr
    refine ⟨_, rfl, ?_⟩
    rw [hfroz, slotStart_new hn hd, hv]
    refine ⟨fun h => ?_, fun n hf hs hl => ?_⟩
    · rw [passRepairs_waits (by simpa [hrv, hmd] using h)]
      simp only [repairsDriven, herr, hr]
      rfl
    · obtain ⟨hten, hmore, hlast⟩ := passRepairs_goesOn hf (hmd ▸ hs) hrv hl
      refine ⟨fun h10 => ?_, fun h10 hn => ?_, fun h10 hn => ?_⟩
      · rw [hten h10, ← herr]
        rfl
      · rw [hmore h10 hn, ← herr]
        rfl
      · obtain ⟨hrep, hseq, hword, hask⟩ := endRepair_done { v with err := { v.err with repairs := rs.map slotDriven } } (slotDriven r)
        rw [hlast h10 hn]
        exact ⟨hrep, hseq.trans (by rw [← herr]; rfl), hword, hask⟩
  case sample =>
    refine ⟨_, congrArg Host.Outcome.next (sluiceSample_sampled hc low), ?_⟩
    obtain ⟨hnew, hlen⟩ := lineSampled_hist s low
    split
    next hf =>
      have hfalse : s.slu.own = true ∧ low = false := by simpa using hf
      obtain ⟨hline, hhist, hheld, hds, hmode⟩ := lineFault_frame (lineSampled s low)
      rw [hline, hhist, hds, hmode]
      exact ⟨rfl, hnew, hlen, fun h => by simp [hfalse] at h, fun _ _ => hheld, rfl, rfl⟩
    next hf =>
      refine ⟨rfl, hnew, hlen, fun _ => ⟨rfl, rfl⟩, fun hown hlow => ?_, rfl, rfl⟩
      simp [hown, hlow] at hf
  case freeze =>
    refine ⟨_, congrArg Host.Outcome.next (sluiceFreeze_low hr hlow hst), rfl, rfl, ?_, ?_, ?_, fun h13 hs => ?_, fun hw hs => ?_⟩
    · exact (congrArg State.ds (frozenWork_rest s) :)
    · exact frozenWork_md s
    · exact (congrArg State.seq (frozenWork_rest s) :)
    · exact (frozenWork_begins hr hlow hs).1 h13
    · exact (frozenWork_begins hr hlow hs).2 hw
  case reopen =>
    obtain ⟨ckp, hu⟩ := sluiceReopen_high hr hhigh hst hh
    obtain ⟨hslu, hds, hmd, hseq, hlast⟩ := closeStall_frame { s with slu := { s.slu with hold := none } } ckp
    refine ⟨_, congrArg Host.Outcome.next hu, ?_, ?_, hds, hmd, hseq, hlast⟩ <;> rw [hslu]
  case watchdog =>
    refine ⟨_, congrArg Host.Outcome.next (sluiceWatchdog_expires hline hw hwd), ?_, queueEvent_mem _ _ _ _ _, ?_, ?_, ?_⟩
    · rw [ioReg_congr (s := watchdogExpired s) (by simp)]
      exact watchdogExpired_flag s
    all_goals simp [watchdogExpired]

end Sys2Proof.Machine

namespace Sys2Proof.Machine

/-! ### A long host write of region words (R184, R186, R300) -/

/-- What a host write leaves alone beside the design data and the log. -/
def writeView (s : State) : ModeState × SeqState × IoState × Option Recovery := (s.md, s.seq, s.io, s.ckp.recovery)

theorem writeView_applyHostItem (s : State) (x : LogItem) : writeView (applyHostItem s x) = writeView s := by
  unfold applyHostItem
  dsimp only
  split
  · rfl
  · rfl
  · exact foldl_keeps writeView _ (fun s (v : Nat × Half) => show writeView (regionPut s _ v.2) = writeView s from rfl) _ s

theorem writeView_hostWrite (s : State) (space : Nat) (loc : Word) (at0 : Nat) (vs : List Half) :
    writeView (hostWrite s space loc at0 vs) = writeView s := by
  have hview : writeView (if recoverySteps s then s else applyHostItem s (hostItem space loc at0 vs)) = writeView s := by
    split
    · rfl
    · exact writeView_applyHostItem s _
  exact hview

theorem writeView_hostWriteRegion (n : Nat) (s : State) (r at0 : Nat) (vs : List Half) :
    writeView (hostWriteRegion n s r at0 vs) = writeView s := by
  induction n generalizing s at0 vs with
  | zero => rfl
  | succ n ih =>
    unfold hostWriteRegion
    split
    · rfl
    · rw [ih, writeView_hostWrite]

theorem recoverySteps_congr {s t : State} (h : writeView t = writeView s) : recoverySteps t = recoverySteps s := by
  simp only [writeView, Prod.mk.injEq] at h
  obtain ⟨-, hseq, -, hrec⟩ := h
  simp [recoverySteps, hseq, hrec]

/-- A first run of m values and the run of the rest behind it are one run. -/
theorem getD_take_drop (m b k : Nat) (vs : List Half) (old : Half) (hm : m ≤ vs.length) :
    (if b + m ≤ k ∧ k < b + m + (vs.drop m).length then (vs.drop m).getD (k - (b + m)) 0
      else if b ≤ k ∧ k < b + (vs.take m).length then (vs.take m).getD (k - b) 0 else old)
    = if b ≤ k ∧ k < b + vs.length then vs.getD (k - b) 0 else old := by
  simp only [List.getD_eq_getElem?_getD, List.getElem?_drop, List.getElem?_take, List.length_drop, List.length_take]
  by_cases hrest : b + m ≤ k
  · have hidx : m + (k - (b + m)) = k - b := by omega
    rw [hidx]
    by_cases hk : k < b + vs.length
    · rw [if_pos (by omega), if_pos (by omega)]
    · rw [if_neg (by omega), if_neg (by omega), if_neg (by omega)]
  · rw [if_neg (by omega)]
    by_cases hb : b ≤ k
    · rw [if_pos (by omega), if_pos (by omega), if_pos (by omega)]
    · rw [if_neg (by omega), if_neg (by omega)]

/-- Granules of region words written one after another: each word has its value, and every other word stays. -/
theorem hostWriteRegion_ds (n : Nat) {s : State} (hrec : recoverySteps s = false) {r : Nat} (hr : r < 2 ^ 32) {at0 : Nat} {vs : List Half}
    (hlen : vs.length = 2048 * n) (hend : at0 + 2048 * n ≤ 2 ^ 32) :
    ∃ m p, (hostWriteRegion n s r at0 vs).ds = { s.ds with regions := m, poison := p }
      ∧ ∀ k, rd m k = if 2 ^ 32 * r + at0 ≤ k ∧ k < 2 ^ 32 * r + at0 + vs.length then vs.getD (k - (2 ^ 32 * r + at0)) 0 else rd s.ds.regions k := by
  induction n generalizing s at0 vs with
  | zero =>
    refine ⟨s.ds.regions, s.ds.poison, rfl, fun k => ?_⟩
    rw [if_neg (by omega)]
  | succ n ih =>
    have hne : vs.isEmpty = false := by cases vs with
      | nil => simp at hlen
      | cons v vs => rfl
    have hfull : 2048 ≤ vs.length := hlen ▸ Nat.le_mul_of_pos_right 2048 n.succ_pos
    have htake : (vs.take 2048).length = 2048 := List.length_take_of_le hfull
    have hloc : (lo32 r).toNat = r := by simpa [lo32] using hr
    obtain ⟨p, hp⟩ := applyHostItem_regions s (lo32 r) (at0 := at0) (by omega) (vs := vs.take 2048) (by omega)
    rw [← hostWrite_ds hrec, hloc] at hp
    have hrec' : recoverySteps (hostWrite s 2 (lo32 r) at0 (vs.take 2048)) = false := by
      rw [recoverySteps_congr (writeView_hostWrite _ _ _ _ _), hrec]
    obtain ⟨m, q, hds, hrd⟩ := ih hrec' (vs := vs.drop 2048) (at0 := at0 + 2048) (by simp; omega) (by omega)
    refine ⟨m, q, ?_, fun k => ?_⟩
    · simp only [hostWriteRegion, hne, Bool.false_eq_true, if_false, hds, hp]
    · rw [hrd, hp]
      simp only [rd_wrAll_cellsFrom, ← Nat.add_assoc]
      exact getD_take_drop 2048 (2 ^ 32 * r + at0) k vs _ hfull

/-- The parameters of an accepted region transfer name whole granules. -/
theorem chkRegionDma_granules {s : State} {c : Cmd} (h : chkRegionDma s c = 0) : cPar c 5 % 4096 = 0 := by
  unfold chkRegionDma at h
  split at h
  · cases h
  · dsimp only at h
    split_ifs at h with hbad
    simp only [Bool.or_eq_true, bne_iff_ne, ne_eq, not_or, Decidable.not_not] at hbad
    exact hbad.1.1.1

theorem cPar_lt (c : Cmd) (i : Nat) : cPar c i < 2 ^ 32 := by
  unfold cPar
  split
  · exact (nth 0 c.params i).isLt
  · decide

/-- What REGION_DMA_WRITE does as it is accepted. -/
def transferWritten (s : State) (c : Cmd) (ws : List Word) : State :=
  clearPoison (hostWriteRegion (cPar c 5 / 4096) s (cPar c 0) (cPar64 c 1) (unpackHalves ws (cPar c 5 / 2))) (2 ^ 32 * cPar c 0 + cPar64 c 1)
    (cPar c 5 / 2)

theorem transferWritten_view (s : State) (c : Cmd) (ws : List Word) : writeView (transferWritten s c ws) = writeView s :=
  writeView_hostWriteRegion _ s _ _ _

theorem transferWritten_ds {s : State} {c : Cmd} {ws : List Word} (hrec : recoverySteps s = false) (hn : cPar c 5 % 4096 = 0)
    (hend : cPar64 c 1 + cPar c 5 / 2 ≤ 2 ^ 32) :
    let t := transferWritten s c ws
    t.ds = { s.ds with regions := t.ds.regions, poison := t.ds.poison }
    ∧ ∀ k, rd t.ds.regions k =
      if 2 ^ 32 * cPar c 0 + cPar64 c 1 ≤ k ∧ k < 2 ^ 32 * cPar c 0 + cPar64 c 1 + cPar c 5 / 2 then
        (unpackHalves ws (cPar c 5 / 2)).getD (k - (2 ^ 32 * cPar c 0 + cPar64 c 1)) 0 else rd s.ds.regions k := by
  obtain ⟨m, p, hds, hrd⟩ := hostWriteRegion_ds (cPar c 5 / 4096) hrec (cPar_lt c 0) (at0 := cPar64 c 1)
    (vs := unpackHalves ws (cPar c 5 / 2)) (by rw [unpackHalves_length]; omega) (by omega)
  rw [unpackHalves_length] at hrd
  simp only [transferWritten, clearPoison, hds, hrd, implies_true, and_self]

/-! ### The words of a transfer that a read brings (R511, R513, R514) -/

/-- What a word of a transfer leaves alone. -/
def transferView (s : State) :=
  ((s.io.waiting, s.io.dma), (s.md, s.seq, s.img, s.ident), (s.ds.rows, s.ds.tiles))

@[simp] theorem storeErr_io_waiting (s : State) (r : ErrRec) :
    (storeErr s r).io.waiting = s.io.waiting ∧ (storeErr s r).io.dma = s.io.dma := by
  unfold storeErr
  split_ifs <;> simp [tickEvent]

@[simp] theorem addRecord_io_waiting (s : State) (r : ErrRec) (b : Bool) :
    (addRecord s r b).io.waiting = s.io.waiting ∧ (addRecord s r b).io.dma = s.io.dma := by
  unfold addRecord
  dsimp only
  repeat' split
  all_goals simp

theorem transferView_fault (s : State) (f : FaultInfo) (h : f.cls ≠ 5) : transferView (fault s f) = transferView s := by
  obtain ⟨hmd, -, -, -⟩ := fault_below_fatal s f h
  have hio : (fault s f).io.waiting = s.io.waiting ∧ (fault s f).io.dma = s.io.dma := by simp [fault, makeRecord, recordOf, h, noteOverlap]
  simp [transferView, hmd, hio]

/-- The place of a region word in DDR5 is a matter of the image and the part. -/
theorem ddrWordAddr_congr {s t : State} (himg : t.img = s.img) (hid : t.ident = s.ident) (key : Nat) : ddrWordAddr t key = ddrWordAddr s key := by
  have hsizes : areaSizes t = areaSizes s := by simp only [areaSizes, storeBytes, himg, hid]
  simp only [ddrWordAddr, ddrAddr, areaBase, hsizes, himg]

theorem transferView_poisonWord (k : Nat) (s : State) : transferView (poisonWord s k) = transferView s := rfl

/-- A word that comes for a read for the host leaves the transfers and the mode, if what becomes of a lost word does. -/
theorem transferView_ddrWordRead {spoil : State → State} (hspoil : ∀ u, transferView (spoil u) = transferView u) (s : State) (addr : Nat)
    (w : DdrWordFound) : transferView (ddrWordRead s spoil addr w).1 = transferView s := by
  have hcount (u : State) (site cls : Nat) (unc : Bool) : transferView (countEcc u site cls unc) = transferView u := by simp [transferView]
  have hwrong (u : State) (k : Nat) : transferView (bump16Hi u k) = transferView u := by simp [transferView]
  unfold ddrWordRead ddrLost
  dsimp only
  split
  · rfl
  · rw [transferView_fault _ _ (show 1 ≠ 5 by decide), hcount]
  · rw [transferView_fault _ _ (show 2 ≠ 5 by decide), hwrong]
  · rw [transferView_fault _ _ (show 2 ≠ 5 by decide), hcount, hspoil]

/-- It is delivered when it is good or corrected. -/
theorem ddrWordRead_delivered (s : State) (spoil : State → State) (addr : Nat) (w : DdrWordFound) :
    (ddrWordRead s spoil addr w).2 = true
      ↔ ddrOutcome (ddrSyndrome addr w.synd w.wrong) = .good ∨ ddrOutcome (ddrSyndrome addr w.synd w.wrong) = .corrected := by
  unfold ddrWordRead
  dsimp only
  cases ddrOutcome (ddrSyndrome addr w.synd w.wrong) <;> simp

/-- It changes design data only when it is lost. -/
theorem ddrWordRead_ds {s : State} {addr : Nat} {w : DdrWordFound} (h : ddrOutcome (ddrSyndrome addr w.synd w.wrong) ≠ .uncorrectable)
    (h' : ddrOutcome (ddrSyndrome addr w.synd w.wrong) ≠ .poisoned) (spoil : State → State) : (ddrWordRead s spoil addr w).1.ds = s.ds := by
  unfold ddrWordRead
  dsimp only
  cases ho : ddrOutcome (ddrSyndrome addr w.synd w.wrong) <;> simp_all

/-- Key of a DDR5 word of a transfer, and what its read brings. -/
def transferKey (c : Cmd) (f : Nat × DdrWordFound) : Nat := 2 ^ 32 * cPar c 0 + (cPar64 c 1 / 4 + f.1) * 4
def transferOutcome (s : State) (c : Cmd) (f : Nat × DdrWordFound) : DdrOutcome :=
  ddrOutcome (ddrSyndrome (ddrWordAddr s (transferKey c f)) f.2.synd f.2.wrong)
/-- The word is one of the transfer and holds no poison. -/
def transferWithin (s : State) (c : Cmd) (f : Nat × DdrWordFound) : Prop :=
  4 * f.1 < cPar c 5 / 2 ∧ s.ds.poison.contains (transferKey c f / 4) = false

theorem dmaWord_outside {c : Cmd} {r : State × Bool} {f : Nat × DdrWordFound} (h : ¬ transferWithin r.1 c f) : dmaWord c r f = r := by
  refine if_pos ?_
  rw [Bool.or_eq_true, decide_eq_true_eq]
  by_contra hno
  obtain ⟨hlo, hpoison⟩ := not_or.mp hno
  exact h ⟨by omega, by simpa [transferKey] using hpoison⟩

theorem dmaWord_within {c : Cmd} {r : State × Bool} {f : Nat × DdrWordFound} (h : transferWithin r.1 c f) :
    dmaWord c r f = ((ddrWordRead r.1 (fun s => poisonWord s (transferKey c f)) (ddrWordAddr r.1 (transferKey c f)) f.2).1,
      r.2 && (ddrWordRead r.1 (fun s => poisonWord s (transferKey c f)) (ddrWordAddr r.1 (transferKey c f)) f.2).2) := by
  obtain ⟨hlt, hpoison⟩ := h
  refine if_neg ?_
  rw [Bool.or_eq_true, decide_eq_true_eq]
  rintro (hle | hp)
  · omega
  · exact Bool.noConfusion (hp.symm.trans hpoison)

theorem transferView_dmaWord (c : Cmd) (r : State × Bool) (f : Nat × DdrWordFound) : transferView (dmaWord c r f).1 = transferView r.1 := by
  by_cases h : transferWithin r.1 c f
  · rw [dmaWord_within h]
    exact transferView_ddrWordRead (transferView_poisonWord (transferKey c f)) r.1 _ f.2
  · rw [dmaWord_outside h]

theorem transferOutcome_congr {s t : State} (h : transferView t = transferView s) (c : Cmd) (f : Nat × DdrWordFound) :
    transferOutcome t c f = transferOutcome s c f := by
  simp only [transferView, Prod.mk.injEq] at h
  obtain ⟨-, ⟨-, -, himg, hid⟩, -⟩ := h
  simp only [transferOutcome, ddrWordAddr_congr himg hid]

theorem transferOutcome_dmaWord (c : Cmd) (r : State × Bool) (f g : Nat × DdrWordFound) :
    transferOutcome (dmaWord c r f).1 c g = transferOutcome r.1 c g := transferOutcome_congr (transferView_dmaWord c r f) c g

theorem transferWithin_congr {s t : State} (h : t.ds = s.ds) (c : Cmd) (f : Nat × DdrWordFound) : transferWithin t c f ↔ transferWithin s c f := by
  simp only [transferWithin, h]

/-- A word that is not lost leaves the design data. -/
theorem dmaWord_ds {c : Cmd} {r : State × Bool} {f : Nat × DdrWordFound}
    (h : transferWithin r.1 c f → transferOutcome r.1 c f ≠ .uncorrectable ∧ transferOutcome r.1 c f ≠ .poisoned) :
    (dmaWord c r f).1.ds = r.1.ds := by
  by_cases hw : transferWithin r.1 c f
  · rw [dmaWord_within hw]
    exact ddrWordRead_ds (h hw).1 (h hw).2 _
  · rw [dmaWord_outside hw]

/-- The transfer goes on after a word that is good or corrected, or is none that it reads. -/
theorem dmaWord_delivered {c : Cmd} {r : State × Bool} {f : Nat × DdrWordFound}
    (h : transferWithin r.1 c f → transferOutcome r.1 c f = .good ∨ transferOutcome r.1 c f = .corrected) : (dmaWord c r f).2 = r.2 := by
  by_cases hw : transferWithin r.1 c f
  · rw [dmaWord_within hw, (ddrWordRead_delivered _ _ _ _).mpr (h hw), Bool.and_true]
  · rw [dmaWord_outside hw]

/-- It has failed after any other word. -/
theorem dmaWord_failed {c : Cmd} {r : State × Bool} {f : Nat × DdrWordFound}
    (h : r.2 = false ∨ transferWithin r.1 c f ∧ transferOutcome r.1 c f ≠ .good ∧ transferOutcome r.1 c f ≠ .corrected) :
    (dmaWord c r f).2 = false := by
  by_cases hw : transferWithin r.1 c f
  · rw [dmaWord_within hw, Bool.and_eq_false_iff]
    refine h.imp_right fun ⟨_, hg, hc⟩ => ?_
    rw [← Bool.not_eq_true, ddrWordRead_delivered]
    exact not_or.mpr ⟨hg, hc⟩
  · rw [dmaWord_outside hw]
    exact h.resolve_right fun hbad => hw hbad.1

/-! #### All the words of a transfer -/

theorem transferView_dmaWords (c : Cmd) (l : List (Nat × DdrWordFound)) (r : State × Bool) :
    transferView (l.foldl (dmaWord c) r).1 = transferView r.1 := by
  induction l generalizing r with
  | nil => rfl
  | cons f l ih => rw [List.foldl_cons, ih, transferView_dmaWord]

theorem dmaWords_failed (c : Cmd) (l : List (Nat × DdrWordFound)) {r : State × Bool} (h : r.2 = false) : (l.foldl (dmaWord c) r).2 = false := by
  induction l generalizing r with
  | nil => exact h
  | cons f l ih => exact ih (dmaWord_failed (.inl h))

theorem dmaWords_good {c : Cmd} {l : List (Nat × DdrWordFound)} {r : State × Bool}
    (h : ∀ f ∈ l, transferOutcome r.1 c f = .good ∨ transferOutcome r.1 c f = .corrected) :
    (l.foldl (dmaWord c) r).1.ds = r.1.ds ∧ (l.foldl (dmaWord c) r).2 = r.2 := by
  induction l generalizing r with
  | nil => exact ⟨rfl, rfl⟩
  | cons f l ih =>
    have hf := h f List.mem_cons_self
    obtain ⟨hds, hok⟩ := ih (r := dmaWord c r f) fun g hg => by
      rw [transferOutcome_dmaWord]
      exact h g (List.mem_cons_of_mem f hg)
    refine ⟨hds.trans (dmaWord_ds fun _ => ?_), hok.trans (dmaWord_delivered fun _ => hf)⟩
    obtain hf | hf := hf <;> simp [hf]

theorem dmaWords_ds {c : Cmd} {l : List (Nat × DdrWordFound)} {r : State × Bool}
    (h : ∀ f ∈ l, transferWithin r.1 c f → transferOutcome r.1 c f ≠ .uncorrectable ∧ transferOutcome r.1 c f ≠ .poisoned) :
    (l.foldl (dmaWord c) r).1.ds = r.1.ds := by
  induction l generalizing r with
  | nil => rfl
  | cons f l ih =>
    have hds := dmaWord_ds (h f List.mem_cons_self)
    refine (ih (r := dmaWord c r f) fun g hg hw => ?_).trans hds
    rw [transferOutcome_dmaWord]
    exact h g (List.mem_cons_of_mem f hg) ((transferWithin_congr hds c g).mp hw)

/-- One bad word fails the transfer: an earlier word leaves what it holds, or has failed the transfer itself. -/
theorem dmaWords_bad {c : Cmd} {l : List (Nat × DdrWordFound)} {r : State × Bool}
    (h : ∃ f ∈ l, transferWithin r.1 c f ∧ transferOutcome r.1 c f ≠ .good ∧ transferOutcome r.1 c f ≠ .corrected) :
    (l.foldl (dmaWord c) r).2 = false := by
  induction l generalizing r with
  | nil => obtain ⟨f, hf, -⟩ := h; cases hf
  | cons x l ih =>
    by_cases hx : transferWithin r.1 c x ∧ transferOutcome r.1 c x ≠ .good ∧ transferOutcome r.1 c x ≠ .corrected
    · exact dmaWords_failed c l (dmaWord_failed (.inr hx))
    · have hds : (dmaWord c r x).1.ds = r.1.ds := dmaWord_ds fun hw =>
        ⟨fun ho => hx ⟨hw, by simp [ho]⟩, fun ho => hx ⟨hw, by simp [ho]⟩⟩
      obtain ⟨f, hf, hw, hbad⟩ := h
      obtain rfl | hf := List.mem_cons.mp hf
      · exact absurd ⟨hw, hbad⟩ hx
      · refine ih ⟨f, hf, (transferWithin_congr hds c f).mpr hw, ?_⟩
        rwa [transferOutcome_dmaWord]

/-! ### The end of a transfer (R185, R358) -/

theorem length_dropFirst {α : Type} {p : α → Bool} {l : List α} {a : α} (h : l.find? p = some a) : (dropFirst p l).length + 1 = l.length := by
  induction l with
  | nil => cases h
  | cons x l ih =>
    by_cases hx : p x = true
    · simp [dropFirst, hx]
    · rw [List.find?_cons_of_neg hx] at h
      simp [dropFirst, hx, ih h]

@[simp] theorem postCompletion_dma (s : State) (w : Waiting) (st : Nat) (ws : List Word) : (postCompletion s w st ws).io.dma = s.io.dma := by
  unfold postCompletion
  split
  · rfl
  · split <;> simp [queueEvent, tickEvent]

theorem completeFirst_io {s : State} {p : Waiting → Bool} {w : Waiting} (h : firstWaiting s p = some w) (st : Nat) (ws : List Word) :
    (completeFirst s p st ws).io.waiting.length + 1 = s.io.waiting.length ∧ (completeFirst s p st ws).io.dma = s.io.dma := by
  simpa [completeFirst, h] using length_dropFirst h

/-- A read of the oldest transfer begins: poison among its words is reported, and fails it. -/
def transferBegun (s : State) (c : Cmd) : State × Bool :=
  if regionPoisoned s (cPar c 0) (cPar64 c 1) (cPar c 5 / 2) then
    (ddrPoisonRead s (poisonAddr s (cPar c 0) (cPar64 c 1) (cPar c 5 / 2)) 0 0, false)
  else (s, true)

/-- All its words have come, and whether every one was delivered. -/
def transferRead (s : State) (c : Cmd) (found : List (Nat × DdrWordFound)) : State × Bool := found.foldl (dmaWord c) (transferBegun s c)

theorem transferBegun_leaves (s : State) (c : Cmd) :
    transferView (transferBegun s c).1 = transferView s ∧ (transferBegun s c).1.ds = s.ds := by
  unfold transferBegun
  split
  · exact ⟨transferView_fault _ _ (show 2 ≠ 5 by decide), by simp [ddrPoisonRead]⟩
  · exact ⟨rfl, rfl⟩

theorem transferView_read (s : State) (c : Cmd) (found : List (Nat × DdrWordFound)) : transferView (transferRead s c found).1 = transferView s :=
  (transferView_dmaWords c found _).trans (transferBegun_leaves s c).1

/-- A delivered read puts its words into host memory; in each case the transfer completes. -/
theorem dmaComplete_read {s : State} {w : Waiting} (hw : firstWaiting s isDma = some w) (ho : w.opcode = 0x0307)
    (found : List (Nat × DdrWordFound)) :
    dmaComplete s found =
      let u := (transferRead s w.cmd found).1
      if (transferRead s w.cmd found).2 then
        completeFirst { u with io := { u.io with
          dma := put u.io.dma (cPar64 w.cmd 3) (packHalves (regionWords u (cPar w.cmd 0) (cPar64 w.cmd 1) (cPar w.cmd 5 / 2))) } } isDma 0 []
      else completeFirst u isDma 0x0502 [] := by
  have hread : (w.opcode == 0x0308) = false := by rw [ho]; rfl
  cases hp : regionPoisoned s (cPar w.cmd 0) (cPar64 w.cmd 1) (cPar w.cmd 5 / 2) with
  | false => cases hok : (found.foldl (dmaWord w.cmd) (s, true)).2 <;> simp [dmaComplete, hw, hread, transferRead, transferBegun, hp, hok]
  | true => simp [dmaComplete, hw, hread, transferRead, transferBegun, hp, dmaWords_failed]

/-- However the words of a read came, the transfer waits no longer, and what is not its own stays. -/
theorem completed_leaves {s u : State} {w : Waiting} (hw : firstWaiting s isDma = some w) (hu : u.io.waiting = s.io.waiting) (st : Nat) :
    (completeFirst u isDma st []).io.waiting.length + 1 = s.io.waiting.length ∧ (completeFirst u isDma st []).io.dma = u.io.dma := by
  have hwu : firstWaiting u isDma = some w := by rwa [firstWaiting, hu]
  rw [← hu]
  exact completeFirst_io hwu st []

theorem dmaComplete_delivered {s : State} {w : Waiting} (hw : firstWaiting s isDma = some w) (ho : w.opcode = 0x0307)
    {found : List (Nat × DdrWordFound)} (hp : regionPoisoned s (cPar w.cmd 0) (cPar64 w.cmd 1) (cPar w.cmd 5 / 2) = false)
    (hgood : ∀ f ∈ found, transferOutcome s w.cmd f = .good ∨ transferOutcome s w.cmd f = .corrected) :
    let t := dmaComplete s found
    t.io.waiting.length + 1 = s.io.waiting.length ∧ t.ds = s.ds ∧ t.md = s.md ∧ t.seq = s.seq
    ∧ t.io.dma = put s.io.dma (cPar64 w.cmd 3) (packHalves (regionWords s (cPar w.cmd 0) (cPar64 w.cmd 1) (cPar w.cmd 5 / 2))) := by
  have hbegun : transferBegun s w.cmd = (s, true) := if_neg (by simp [hp])
  obtain ⟨hds, hok⟩ : (transferRead s w.cmd found).1.ds = s.ds ∧ (transferRead s w.cmd found).2 = true := by
    rw [transferRead, hbegun]
    exact dmaWords_good hgood
  have hview := transferView_read s w.cmd found
  simp only [transferView, Prod.mk.injEq] at hview
  obtain ⟨⟨hwait, hdma⟩, ⟨hmd, hseq, -⟩, -⟩ := hview
  rw [dmaComplete_read hw ho, if_pos hok]
  generalize (transferRead s w.cmd found).1 = u at hds hwait hdma hmd hseq ⊢
  have hwords : regionWords u (cPar w.cmd 0) (cPar64 w.cmd 1) (cPar w.cmd 5 / 2) = regionWords s (cPar w.cmd 0) (cPar64 w.cmd 1) (cPar w.cmd 5 / 2) := by
    simp only [regionWords, hds]
  rw [hwords, hdma]
  obtain ⟨hcount, hdone⟩ := completed_leaves (u := { u with io := { u.io with
    dma := put s.io.dma (cPar64 w.cmd 3) (packHalves (regionWords s (cPar w.cmd 0) (cPar64 w.cmd 1) (cPar w.cmd 5 / 2))) } }) hw hwait 0
  exact ⟨hcount, by simp [hds], by simp [hmd], by simp [hseq], hdone⟩

theorem dmaComplete_failed {s : State} {w : Waiting} (hw : firstWaiting s isDma = some w) (ho : w.opcode = 0x0307)
    {found : List (Nat × DdrWordFound)}
    (hbad : regionPoisoned s (cPar w.cmd 0) (cPar64 w.cmd 1) (cPar w.cmd 5 / 2) = true
      ∨ ∃ f ∈ found, transferWithin s w.cmd f ∧ transferOutcome s w.cmd f ≠ .good ∧ transferOutcome s w.cmd f ≠ .corrected) :
    let t := dmaComplete s found
    t.io.waiting.length + 1 = s.io.waiting.length ∧ t.io.dma = s.io.dma ∧ t.ds.rows = s.ds.rows ∧ t.ds.tiles = s.ds.tiles ∧ t.md = s.md
    ∧ t.seq = s.seq
    ∧ ((∀ f ∈ found, transferWithin s w.cmd f → transferOutcome s w.cmd f ≠ .uncorrectable ∧ transferOutcome s w.cmd f ≠ .poisoned) → t.ds = s.ds) := by
  obtain ⟨hbview, hbds⟩ := transferBegun_leaves s w.cmd
  have hfail : (transferRead s w.cmd found).2 = false := by
    obtain hp | ⟨f, hf, hwith, hout⟩ := hbad
    · exact dmaWords_failed _ _ (by simp [transferBegun, hp])
    · refine dmaWords_bad ⟨f, hf, (transferWithin_congr hbds _ _).mpr hwith, ?_⟩
      rwa [transferOutcome_congr hbview]
  have hds (h : ∀ f ∈ found, transferWithin s w.cmd f → transferOutcome s w.cmd f ≠ .uncorrectable ∧ transferOutcome s w.cmd f ≠ .poisoned) :
      (transferRead s w.cmd found).1.ds = s.ds := by
    refine (dmaWords_ds fun f hf hwith => ?_).trans hbds
    rw [transferOutcome_congr hbview]
    exact h f hf ((transferWithin_congr hbds _ _).mp hwith)
  have hview := transferView_read s w.cmd found
  simp only [transferView, Prod.mk.injEq] at hview
  obtain ⟨⟨hwait, hdma⟩, ⟨hmd, hseq, -⟩, hrows, htiles⟩ := hview
  rw [dmaComplete_read hw ho, if_neg (by simp [hfail])]
  obtain ⟨hcount, hdone⟩ := completed_leaves hw hwait 0x0502
  exact ⟨hcount, hdone.trans hdma, by simp [hrows], by simp [htiles], by simp [hmd], by simp [hseq], fun h => by simp [hds h]⟩

/-- Settles O20: the two commands by what acceptance does; the completion by what the words of the read brought. -/
theorem regionTransfersBetweenHostAndRegions : Obligations.RegionTransfersBetweenHostAndRegions := by
  unfold Obligations.RegionTransfersBetweenHostAndRegions
  intro s c
  refine ⟨fun h hs hreset hroom => ?read, fun ws h hs hreset hroom hdata hend => ?write, fun found hheld => ?held, fun w hlive hw ho =>
    ⟨fun found hp hgood => ?delivered, fun found hbad => ?failed⟩⟩
  case read =>
    obtain ⟨hsafe, hstop⟩ := accepts_live h
    obtain ⟨-, hmode⟩ := stepping_false hs
    exact ⟨_, rfl, hostCmd_accept h hroom (by simp [actDmaRead, hreset, hmode]) (by simp [hsafe]) (by simp [hstop])⟩
  case write =>
    obtain ⟨hsafe, hstop⟩ := accepts_live h
    obtain ⟨hrec, hmode⟩ := stepping_false hs
    have hact : actDmaWrite (takeEntry s c) c = (transferWritten (takeEntry s c) c ws, .accept) := by
      simp [actDmaWrite, transferWritten, hreset, hmode, hdata]
    have hview := transferWritten_view (takeEntry s c) c ws
    obtain ⟨hds, hrd⟩ := transferWritten_ds (s := takeEntry s c) (ws := ws) (by simpa using hrec) (chkRegionDma_granules (accepts_chk h)) hend
    simp only [writeView, Prod.mk.injEq] at hview
    obtain ⟨hmd, hseq, hio, -⟩ := hview
    obtain ⟨-, -, -, ht⟩ := hostCmd_accept h hroom hact (by simp [hmd, hsafe]) (by simp [hio, hstop])
    have hfinal : (hostCmd 0x0308 chkRegionDma actDmaWrite c s).ds = (transferWritten (takeEntry s c) c ws).ds := by rw [ht]; rfl
    refine ⟨_, rfl, ?_, ?_, ?_, ?_, fun k => ?_⟩
    · rw [ht]; simp [nowWaiting, hio]
    · rw [hfinal, hds]; simp
    · rw [ht]; simp [nowWaiting, hmd]
    · rw [ht]; simp [nowWaiting, hseq]
    · rw [hfinal, hrd]; simp
  case held => exact congrArg Host.Outcome.next (if_pos hheld)
  case delivered =>
    obtain ⟨hcount, hds, hmd, hseq, hdma⟩ := dmaComplete_delivered hw ho hp hgood
    refine ⟨dmaComplete s found, congrArg Host.Outcome.next (if_neg (by simp [inSafeHold, hlive])), hcount, hds, hmd, hseq, ?_⟩
    rw [hdma]
    exact ⟨lookup_put_same _ _ _, fun a ha => lookup_put_other _ _ _ _ ha⟩
  case failed =>
    exact ⟨dmaComplete s found, congrArg Host.Outcome.next (if_neg (by simp [inSafeHold, hlive])), dmaComplete_failed hw ho hbad⟩

end Sys2Proof.Machine

namespace Sys2Proof.Machine

/-! ### Registers that a fault leaves (R526, R535, R538, R545) -/

/-- A saturating count reads what it counts to. -/
theorem reg_bump_same (s : State) (k : Nat) {w : Nat} (hw : w ≤ 32) (d : Nat) :
    (reg (bump s k w d) k).toNat = satAdd w (reg s k).toNat d := by
  have hpow : 2 ^ w ≤ 2 ^ 32 := Nat.pow_le_pow_right (by decide) hw
  rw [bump, reg_setReg_same, BitVec.toNat_ofNat]
  refine Nat.mod_eq_of_lt (lt_of_lt_of_le ?_ hpow)
  have : 0 < 2 ^ w := Nat.two_pow_pos w
  unfold satAdd
  omega

theorem reg_bump_other (s : State) {k x : Nat} (w d : Nat) (h : x ≠ k) : reg (bump s k w d) x = reg s x := reg_setReg_other s _ _ _ h

theorem reg_maxIo_other (s : State) {b o x : Nat} (v : Nat) (h : x ≠ rkey 15 b o) : reg (maxIo s b o v) x = reg s x := by
  unfold maxIo
  split
  · exact reg_setReg_other s _ _ _ h
  · rfl

theorem reg_assertReplace (s : State) (c : Nat) {k : Nat} (h : k ≠ rkey 15 0x14 0x008) : reg (assertReplace s c) k = reg s k := by
  unfold assertReplace
  split
  · rfl
  · exact reg_setReg_other s _ _ _ h

/-- A record writes registers of the I/O die's fault block alone. -/
theorem reg_addRecord (s : State) (r : ErrRec) (b : Bool) {k : Nat} (h : k < rkey 15 0x14 0) : reg (addRecord s r b) k = reg s k := by
  have hblock (o : Nat) : k ≠ rkey 15 0x14 o := by simp only [rkey] at h ⊢; omega
  have hcount : reg (countFault s r.cls) k = reg s k := reg_bump_other s _ _ (hblock _)
  have hstored (u : State) (hu : u.regs = (countFault s r.cls).regs) (c : Prop) [Decidable c] (cause : Nat) :
      reg (if c then assertReplace u cause else u) k = reg s k := by
    have : reg u k = reg s k := by rw [reg, hu]; exact hcount
    split
    · rw [reg_assertReplace u cause (hblock _), this]
    · exact this
  unfold addRecord
  dsimp only
  split
  · exact hcount
  · split
    · rw [reg_maxIo_other _ _ (hblock _)]
      exact hstored _ (by simp) _ _
    · exact hstored _ (by simp) _ _

theorem reg_flushRecords (s : State) {k : Nat} (h : k < rkey 15 0x14 0) : reg (flushRecords s) k = reg s k :=
  foldl_keeps (fun u => reg u k) _ (fun u _ => reg_addRecord u _ _ h) _ _

theorem reg_writeEvent (s : State) (e : Event) {k : Nat} (h : k ≠ bkey 0x105C) : reg (writeEvent s e) k = reg s k := by
  simp [writeEvent, reg, setReg, cget_cset, h]

theorem reg_postErrors (n : Nat) (s : State) {k : Nat} (h : k < rkey 15 0x14 0) : reg (postErrors n s) k = reg s k := by
  have hring : k ≠ bkey 0x105C := by simp only [rkey, bkey] at h ⊢; omega
  induction n generalizing s with
  | zero => rfl
  | succ n ih =>
    rw [postErrors, ih]
    unfold postError
    split
    · rfl
    · split
      · exact reg_writeEvent _ _ hring
      · rfl

theorem reg_holdReq (s : State) {c u k : Nat} (h : k ≠ rkey 15 0x02 (0x080 + 4 * c)) : reg (holdReq s c u) k = reg s k := by
  unfold holdReq
  split
  · rfl
  · exact reg_bump_other s _ _ h

/-- A fault of any class writes the I/O die's fault block, the event ring's index and the count of requests under code 14. -/
theorem reg_fault (s : State) (f : FaultInfo) {k : Nat} (h : k < rkey 15 0x14 0) (h14 : k ≠ rkey 15 0x02 0x0B8) : reg (fault s f) k = reg s k := by
  have hheld (u : State) (c : Nat) : reg (enterSafeHold u c) k = reg u k := by
    unfold enterSafeHold
    split
    · rfl
    · exact reg_holdReq _ h14
  have hnote : reg (noteOverlap s) k = reg s k := rfl
  unfold fault makeRecord
  split
  · rw [hheld, reg_postErrors _ _ h, reg_addRecord _ _ _ h, reg_flushRecords _ h, hnote]
  · rw [reg_addRecord _ _ _ h, hnote]

/-! ### Responses of DDR reads (R180, R182, R515) -/

/-- A bad response asks for a recovery where none is in progress, and not again at the DCN that the last one replayed to. -/
theorem badResponse_asks {s : State} (h : s.ckp.recovery = none) (hd : s.ckp.badDcn ≠ some s.seq.dcn) (f : FaultInfo) :
    (badResponse s f).slu.held.contains (13, 0) = true ∧ (badResponse s f).md = s.md := by
  rw [badResponse, if_neg (by simp [hd])]
  obtain ⟨hheld, hmd, -, -⟩ := needRecovery_asks h f
  exact ⟨hheld, hmd⟩

theorem badResponse_fatal {s : State} (h : s.ckp.recovery = none) (hd : s.ckp.badDcn = some s.seq.dcn) (f : FaultInfo) :
    (badResponse s f).md.safeHold ≠ none := by
  rw [badResponse, if_pos (by simp [h, hd])]
  exact fault_fatal_held _ _ rfl

@[simp] theorem badResponse_ds (s : State) (f : FaultInfo) : (badResponse s f).ds = s.ds := by
  unfold badResponse
  split <;> simp

theorem reg_badResponse {s : State} (h : s.ckp.recovery = none) (f : FaultInfo) {k : Nat} (hlo : rkey 15 0x03 0 ≤ k) (hhi : k < rkey 15 0x14 0) :
    reg (badResponse s f) k = reg s k := by
  have hsluice (o : Nat) (ho : o < 0x100) : k ≠ rkey 15 0x02 o := by simp only [rkey] at hlo ⊢; omega
  unfold badResponse
  split
  · exact reg_fault s _ hhi (hsluice _ (by decide))
  · obtain ⟨-, -, -, hreg⟩ := needRecovery_asks h f
    exact hreg k (hsluice _ (by decide))

/-- The latency of a response is noted. -/
def arrivalNoted (s : State) (r : DdrRead) : State := maxIo s 0x03 0x010 (min (s.seq.ticks - r.tick) (2 ^ 16 - 1))

/-- A response that brings the word: the read has arrived, and asks for no stall. -/
def readArrived (s : State) (r : DdrRead) : State :=
  let u := arrivalNoted s r
  dropReq { u with ds := { u.ds with ddr := u.ds.ddr.map (fun x => if x == r then { x with arrived := true } else x) } } 0 (ddrUnit r)

/-- The record of a word that the code corrected. -/
def correctedInfo (s : State) (gc : Nat) (r : DdrRead) (y : BitVec 16) : FaultInfo :=
  { ddrInfo 1 0x0101 0 (mkLoc gc 0 0 0) (ddrWordAddr s r.key) with syndrome := some y.toNat }

theorem arrivalNoted_frame (s : State) (r : DdrRead) :
    (arrivalNoted s r).ds = s.ds ∧ (arrivalNoted s r).md = s.md ∧ (arrivalNoted s r).ckp = s.ckp ∧ (arrivalNoted s r).seq = s.seq
    ∧ (arrivalNoted s r).img = s.img ∧ (arrivalNoted s r).ident = s.ident := by
  simp [arrivalNoted]

theorem readArrived_frame (s : State) (r : DdrRead) :
    (readArrived s r).ds = { s.ds with ddr := s.ds.ddr.map (fun x => if x == r then { x with arrived := true } else x) }
    ∧ (readArrived s r).slu.held.contains (0, ddrUnit r) = false ∧ (readArrived s r).md = s.md
    ∧ reg (readArrived s r) (rkey 15 0x13 0x1EC) = reg s (rkey 15 0x13 0x1EC) :=
  ⟨by simp [readArrived, arrivalNoted], by simp [readArrived, dropReq], by simp [readArrived, arrivalNoted], reg_maxIo_other s _ (by decide)⟩

/-- What a response does, by what came for a word that held no poison. -/
theorem ddrArrival_eq {s : State} {gc port : Nat} {r : DdrRead} (hr : waitingRead s gc port = some r)
    (hp : s.ds.poison.contains (r.key / 4) = false) (w : DdrWordFound) :
    let y := ddrSyndrome (ddrWordAddr s r.key) w.synd w.wrong
    ddrArrival s gc port w =
      if ddrOutcome y = .good then readArrived s r
      else if ddrOutcome y = .corrected then fault (countEcc (readArrived s r) 15 7 false) (correctedInfo (readArrived s r) gc r y)
      else badRead (arrivalNoted s r) r (ddrOutcome y) y.toNat := by
  obtain ⟨hds, -, -, -, himg, hid⟩ := arrivalNoted_frame s r
  have hshape : ddrArrival s gc port w =
      let y := if (arrivalNoted s r).ds.poison.contains (r.key / 4) then BitVec.ofNat 16 0xFFFF
        else ddrSyndrome (ddrWordAddr (arrivalNoted s r) r.key) w.synd w.wrong
      let o := ddrOutcome y
      if o == .good || o == .corrected then
        if o == .corrected then fault (countEcc (readArrived s r) 15 7 false) (correctedInfo (readArrived s r) gc r y) else readArrived s r
      else badRead (arrivalNoted s r) r o y.toNat := by
    unfold ddrArrival
    rw [hr]
    rfl
  rw [hshape, hds, hp, ddrWordAddr_congr himg hid]
  simp only [Bool.false_eq_true, if_false]
  cases ddrOutcome (ddrSyndrome (ddrWordAddr s r.key) w.synd w.wrong) <;> rfl

/-- A response that is good or corrected arrives; a corrected one is counted. -/
theorem ddrArrival_delivers {s : State} {gc port : Nat} {r : DdrRead} (hr : waitingRead s gc port = some r)
    (hp : s.ds.poison.contains (r.key / 4) = false) {w : DdrWordFound} {o : DdrOutcome}
    (ho : ddrOutcome (ddrSyndrome (ddrWordAddr s r.key) w.synd w.wrong) = o) (hgood : o = .good ∨ o = .corrected) :
    let t := ddrArrival s gc port w
    t.ds = { s.ds with ddr := s.ds.ddr.map (fun x => if x == r then { x with arrived := true } else x) }
    ∧ t.slu.held.contains (0, ddrUnit r) = false ∧ t.md = s.md
    ∧ (reg t (rkey 15 0x13 0x1EC)).toNat
      = if o = .good then (reg s (rkey 15 0x13 0x1EC)).toNat else satAdd 32 (reg s (rkey 15 0x13 0x1EC)).toNat 1 := by
  obtain ⟨hds, hheld, hmd, hreg⟩ := readArrived_frame s r
  obtain rfl | rfl := hgood
  · rw [ddrArrival_eq hr hp, ho, if_pos rfl]
    exact ⟨hds, hheld, hmd, congrArg BitVec.toNat hreg⟩
  · rw [ddrArrival_eq hr hp, ho, if_neg (by decide), if_pos rfl]
    obtain ⟨fmd, -, fslu, -⟩ := fault_below_fatal (countEcc (readArrived s r) 15 7 false)
      (correctedInfo (readArrived s r) gc r (ddrSyndrome (ddrWordAddr s r.key) w.synd w.wrong)) (show 1 ≠ 5 by decide)
    refine ⟨by simp [hds], by rw [fslu]; simpa using hheld, by simp [fmd, hmd], ?_⟩
    rw [reg_fault _ _ (by decide) (by decide), if_neg (by decide), ← hreg]
    exact reg_bump_same _ _ (Nat.le_refl 32) 1

/-- An uncorrectable word becomes poison before the response is handled. -/
def readLost (s : State) (r : DdrRead) : State := countEcc (poisonWord (dropRead (arrivalNoted s r) r) r.key) 15 7 true

theorem readLost_frame (s : State) (r : DdrRead) :
    (readLost s r).ds = { s.ds with ddr := s.ds.ddr.filter (fun x => x != r), regions := (readLost s r).ds.regions, poison := ins s.ds.poison (r.key / 4) }
    ∧ (readLost s r).md = s.md ∧ (readLost s r).ckp = s.ckp ∧ (readLost s r).seq = s.seq := by
  obtain ⟨hds, hmd, hckp, hseq, -⟩ := arrivalNoted_frame s r
  simp [readLost, poisonWord, dropRead, hds, hmd, hckp, hseq]

/-- The four region words of the DDR5 word read 0. -/
theorem rd_readLost (s : State) (r : DdrRead) (k : Nat) :
    rd (readLost s r).ds.regions k = if k / 4 = r.key / 4 then 0 else rd s.ds.regions k := by
  obtain ⟨hds, -⟩ := arrivalNoted_frame s r
  have hregions : (readLost s r).ds.regions = wrAll s.ds.regions ((List.range 4).map (fun j => (r.key / 4 * 4 + j, 0))) := by
    simp [readLost, poisonWord, dropRead, hds]
  rw [hregions, rd_wrAll_run s.ds.regions (fun _ => 0)]
  exact if_congr (by omega) rfl rfl

theorem badRead_uncorrectable (s : State) (r : DdrRead) (y : Nat) :
    ∃ f, badRead (arrivalNoted s r) r .uncorrectable y
      = if granuleSaved (readLost s r) r.key then badResponse (readLost s r) f else fault (readLost s r) { f with cls := 5, flags := f.flags ||| 16, source := 13 } :=
  ⟨_, rfl⟩

/-- An uncorrectable response ends its read, poisons its word, and is mended by a recovery or FATAL. -/
theorem ddrArrival_loses {s : State} {gc port : Nat} {r : DdrRead} (hrec : s.ckp.recovery = none) (hr : waitingRead s gc port = some r)
    (hp : s.ds.poison.contains (r.key / 4) = false) {w : DdrWordFound}
    (ho : ddrOutcome (ddrSyndrome (ddrWordAddr s r.key) w.synd w.wrong) = .uncorrectable) :
    let t := ddrArrival s gc port w
    t.ds = (readLost s r).ds
    ∧ (granuleSaved s r.key = true → s.ckp.badDcn ≠ some s.seq.dcn → t.slu.held.contains (13, 0) = true ∧ t.md = s.md)
    ∧ (granuleSaved s r.key = false ∨ s.ckp.badDcn = some s.seq.dcn → t.md.safeHold ≠ none) := by
  obtain ⟨-, hmd, hckp, hseq⟩ := readLost_frame s r
  obtain ⟨f, hf⟩ := badRead_uncorrectable s r (ddrSyndrome (ddrWordAddr s r.key) w.synd w.wrong).toNat
  have hsaved : granuleSaved (readLost s r) r.key = granuleSaved s r.key := by simp [granuleSaved, hckp]
  have hrec' : (readLost s r).ckp.recovery = none := by rw [hckp, hrec]
  rw [ddrArrival_eq hr hp, ho, if_neg (by decide), if_neg (by decide), hf, hsaved]
  cases granuleSaved s r.key with
  | true =>
    rw [if_pos rfl]
    refine ⟨by simp, fun _ hd => ?_, fun hd => badResponse_fatal hrec' (by rw [hckp, hseq]; simpa using hd) f⟩
    obtain ⟨hheld, hkeeps⟩ := badResponse_asks hrec' (by rw [hckp, hseq]; exact hd) f
    exact ⟨hheld, hkeeps.trans hmd⟩
  | false =>
    rw [if_neg (by decide)]
    exact ⟨by simp, fun h => absurd h (by decide), fun _ => fault_fatal_held _ _ rfl⟩

/-- A response that does not come ends its read, is counted, and is mended by a recovery or FATAL. -/
theorem ddrTimeout_drops {s : State} {gc port : Nat} {r : DdrRead} (hrec : s.ckp.recovery = none) (hr : waitingRead s gc port = some r) :
    let t := ddrTimeout s gc port
    ioReg t 0x03 0x01C = satAdd 16 (ioReg s 0x03 0x01C) 1
    ∧ t.ds = { s.ds with ddr := s.ds.ddr.filter (fun x => x != r) }
    ∧ (s.ckp.badDcn ≠ some s.seq.dcn → t.slu.held.contains (13, 0) = true ∧ t.md = s.md)
    ∧ (s.ckp.badDcn = some s.seq.dcn → t.md.safeHold ≠ none) := by
  obtain ⟨f, hf⟩ : ∃ f, ddrTimeout s gc port = badResponse (bumpIo (dropRead s r) 0x03 0x01C 16 1) f := by
    unfold ddrTimeout
    rw [hr]
    exact ⟨_, rfl⟩
  have hrec' : (bumpIo (dropRead s r) 0x03 0x01C 16 1).ckp.recovery = none := by simpa [dropRead] using hrec
  rw [hf]
  refine ⟨?_, by simp [dropRead], fun hd => ?_, fun hd => badResponse_fatal hrec' (by simpa [dropRead] using hd) f⟩
  · rw [ioReg, reg_badResponse hrec' f (by simp [rkey]) (by simp [rkey])]
    exact reg_bump_same (dropRead s r) (rkey 15 0x03 0x01C) (by decide) 1
  · obtain ⟨hheld, hmd⟩ := badResponse_asks hrec' (by simpa [dropRead] using hd) f
    exact ⟨hheld, hmd.trans (by simp [dropRead])⟩

/-! ### Instruction repair (R86, R532) -/

/-- Repairs that end one after another leave the line, the design data but their words, and every word that was right. -/
theorem foldl_endRepair (l : List Repair) (s : State) :
    (l.foldl endRepair s).err.repairs = s.err.repairs ∧ s.err.seq ≤ (l.foldl endRepair s).err.seq
    ∧ (l.foldl endRepair s).ds = { s.ds with faulty := (l.foldl endRepair s).ds.faulty }
    ∧ ∀ x ∈ (l.foldl endRepair s).ds.faulty, x ∈ s.ds.faulty := by
  induction l generalizing s with
  | nil => exact ⟨rfl, Nat.le_refl _, rfl, fun _ h => h⟩
  | cons r l ih =>
    obtain ⟨hrep, hseq, hds, hsub⟩ := ih (endRepair s r)
    obtain ⟨erep, eseq, -, -⟩ := endRepair_done s r
    obtain ⟨eds, esub, -⟩ := endRepair_leaves s r
    refine ⟨hrep.trans erep, by rw [List.foldl_cons]; omega, ?_, fun x hx => esub x (hsub x hx)⟩
    rw [List.foldl_cons, hds, eds]

theorem endRepairs_none {s : State} {p : Repair → Bool} (h : ∀ r, s.err.repairs.head? = some r → p r = false) : endRepairs s p = s := by
  obtain ⟨htake, hdrop⟩ : s.err.repairs.takeWhile p = [] ∧ s.err.repairs.dropWhile p = s.err.repairs := by
    cases hrs : s.err.repairs with
    | nil => exact ⟨rfl, rfl⟩
    | cons r rs =>
      have hr : p r = false := h r (by rw [hrs]; rfl)
      simp [hr]
  rw [endRepairs, htake, hdrop]
  rfl

theorem instructionRepair_waits {s : State}
    (h : (∀ r, s.err.repairs.head? = some r → r.word = none) ∨ frozen s = false ∨ s.md.safeHold.isSome = true) : instructionRepair s = s := by
  by_cases hgo : (frozen s && !inSafeHold s) = true
  · rw [instructionRepair, if_pos hgo]
    obtain h | h | h := h
    · exact endRepairs_none fun r hr => by rw [h r hr]; rfl
    · simp [h] at hgo
    · simp [inSafeHold, h] at hgo
  · exact if_neg hgo

theorem instructionRepair_mends {s : State} {r : Repair} {rs : List Repair} {w : StoreKind × Nat} (hline : s.err.repairs = r :: rs)
    (hw : r.word = some w) (hf : frozen s = true) (hs : s.md.safeHold = none) :
    let t := instructionRepair s
    t.err.repairs = rs.dropWhile (fun x => x.word.isSome) ∧ s.err.seq + r.recs.length ≤ t.err.seq ∧ w ∉ t.ds.faulty
    ∧ (∀ x ∈ t.ds.faulty, x ∈ s.ds.faulty) ∧ t.ds = { s.ds with faulty := t.ds.faulty } ∧ t.md = s.md := by
  obtain ⟨u, hu, hrepair⟩ : ∃ u : State, u = { s with err := { s.err with repairs := rs.dropWhile (fun x => x.word.isSome) } }
      ∧ instructionRepair s = (rs.takeWhile (fun x => x.word.isSome)).foldl endRepair (endRepair u r) := by
    refine ⟨_, rfl, ?_⟩
    rw [instructionRepair, if_pos (by simp [hf, inSafeHold, hs])]
    simp [endRepairs, hline, hw]
  have hmd : (instructionRepair s).md = s.md := by rw [instructionRepair]; split <;> simp
  obtain ⟨erep, eseq, eword, -⟩ := endRepair_done u r
  obtain ⟨eds, esub, -⟩ := endRepair_leaves u r
  obtain ⟨hrep, hseq, hds, hsub⟩ := foldl_endRepair (rs.takeWhile (fun x => x.word.isSome)) (endRepair u r)
  rw [← hrepair] at hrep hseq hds hsub
  have huerr : u.err.repairs = rs.dropWhile (fun x => x.word.isSome) ∧ u.err.seq = s.err.seq ∧ u.ds = s.ds := by rw [hu]; exact ⟨rfl, rfl, rfl⟩
  obtain ⟨hurep, huseq, huds⟩ := huerr
  refine ⟨hrep.trans (erep.trans hurep), by omega, fun hin => eword w hw (hsub w hin), fun x hx => ?_, ?_, hmd⟩
  · rw [← huds]
    exact esub x (hsub x hx)
  · rw [hds, eds, huds]

/-! ### Failed groups (R89, R91) -/

/-- The failure of a group that was good, by what else has failed in its cluster. -/
theorem groupFailure_new {s : State} {gc n : Nat} (hd : gc / 64 < nDies s) (hn : n ≤ 32) (hfs : (failedGroups s gc).contains n = false)
    (hw : s.ident.worn.contains (gc, n) = false) :
    groupFailure s gc n =
      let u := wearGroup s gc n
      if failedGroups s gc ≠ [] then fault u { cls := 5, cause := 0x0602, unit := mkLoc gc (if n == 32 then nth 0 (failedGroups s gc) 0 else n) 0 0, flags := 16 }
      else if n = 32 then { u with ds := { u.ds with failed := put u.ds.failed gc [n] } }
      else if s.md.mode = .run ∨ s.md.mode = .replay then
        needRecovery { u with ds := { u.ds with failed := put u.ds.failed gc [n] } } { cls := 3, cause := 0x0601, unit := mkLoc gc n 0 0 }
      else u := by
  have hguard : (nDies s ≤ gc / 64 || 32 < n || (failedGroups s gc).contains n || s.ident.worn.contains (gc, n)) = false := by
    simp only [hfs, hw, Bool.or_false, Bool.or_eq_false_iff, decide_eq_false_iff_not]
    omega
  unfold groupFailure
  dsimp only
  rw [hguard]
  simp [wearGroup]

/-! ### Scrubbers (R510, R512, R516, R520) -/

theorem scrubUnit_none {site c : Nat} (h5 : c ≠ 5) (h6 : c ≠ 6) : scrubUnit site c = none := by simp [scrubUnit, h5, h6]

theorem scrubUnit_pos {site c n : Nat} (h : scrubUnit site c = some n) : 0 < n := by
  unfold scrubUnit at h
  split_ifs at h <;> obtain rfl := Option.some.inj h <;> omega

theorem nextWord_end {s : State} {site c a : Nat} (h : scrubWords s site c ≤ a) : nextWord s site c a = none := if_pos h

theorem nextWord_plain {s : State} {site c a : Nat} (h : a < scrubWords s site c) (h5 : c ≠ 5) (h6 : c ≠ 6) : nextWord s site c a = some a := by
  rw [nextWord, if_neg (by omega), scrubUnit_none h5 h6]

/-- The pass comes to no word before the one that it stands at, and to none of a unit that it skips. -/
theorem nextWord_unit {s : State} {site c a x n : Nat} (h : nextWord s site c a = some x) (hn : scrubUnit site c = some n) :
    a ≤ x ∧ unitSkipped s site c (x / n) = false := by
  have hpos := scrubUnit_pos hn
  unfold nextWord at h
  rw [hn] at h
  split at h
  · cases h
  · dsimp only at h
    split at h
    next hgo =>
      obtain rfl := Option.some.inj h
      exact ⟨Nat.le_refl a, by simpa using hgo⟩
    next =>
      obtain ⟨u, hu, rfl⟩ := Option.map_eq_some_iff.mp h
      have hfound := List.find?_some hu
      simp only [Bool.and_eq_true, decide_eq_true_eq, Bool.not_eq_true'] at hfound
      obtain ⟨hlt, hskip⟩ := hfound
      rw [Nat.mul_div_cancel u hpos]
      exact ⟨((Nat.div_lt_iff_lt_mul hpos).mp hlt).le, hskip⟩

/-- The register that shows where a pass stands, after a word. -/
theorem reg_scrubNext (s : State) (site c addr : Nat) :
    reg (scrubNext s site c addr) (rkey site 0x13 (0x104 + 32 * c)) = BitVec.ofNat 32
      (if c == 7 then (nextWord s site c (addr + 1)).getD 0 / 64 else (nextWord s site c (addr + 1)).getD ((nextWord s site c 0).getD 0)) := by
  have hkey : rkey site 0x13 (0x100 + 32 * c + 4) = rkey site 0x13 (0x104 + 32 * c) := by simp only [rkey]; omega
  have hpass : rkey site 0x13 (0x104 + 32 * c) ≠ rkey site 0x13 (0x100 + 32 * c + 8) := by simp only [rkey]; omega
  unfold scrubNext
  dsimp only
  rw [hkey]
  split
  · rw [reg_bump_other _ _ _ hpass, reg_setReg_same]
  · rw [reg_setReg_same]

/-- A word has been read: the pass moves on, and the scanner's account. -/
def scrubPassed (s : State) (f : ScrubFinding) : State := scrubScanned (scrubNext s f.site f.cls f.addr) f.site f.cls

theorem scrubPassed_eq (s : State) (f : ScrubFinding) :
    scrubPassed s f = { s with regs := (scrubNext s f.site f.cls f.addr).regs, err := { s.err with scrub := (scrubPassed s f).err.scrub } } := by
  unfold scrubPassed scrubScanned scrubNext
  dsimp only
  split <;> rfl

theorem reg_scrubPassed (s : State) (f : ScrubFinding) (k : Nat) : reg (scrubPassed s f) k = reg (scrubNext s f.site f.cls f.addr) k := rfl

theorem scrubPassed_leaves (s : State) (f : ScrubFinding) :
    let u := scrubPassed s f
    u.md = s.md ∧ u.seq = s.seq ∧ u.slu = s.slu ∧ u.ds = s.ds ∧ u.ckp = s.ckp ∧ u.chn = s.chn ∧ u.banks = s.banks ∧ u.img = s.img ∧ u.cap = s.cap
    ∧ u.straps = s.straps ∧ u.ident = s.ident ∧ u.err.repairs = s.err.repairs := by
  dsimp only
  rw [scrubPassed_eq]
  exact ⟨rfl, rfl, rfl, rfl, rfl, rfl, rfl, rfl, rfl, rfl, rfl, rfl⟩

/-- What the decoder reports does not depend on where the pass stands. -/
theorem foundHit_scrubPassed (s : State) (f : ScrubFinding) : foundHit (scrubPassed s f) f = foundHit s f := by
  obtain ⟨-, -, -, hds, -, hchn, hbanks, himg, hcap, -⟩ := scrubPassed_leaves s f
  have hpoison : meetsPoison (scrubPassed s f) f = meetsPoison s f := by simp [meetsPoison, chnOf, bankPoisoned, hds, hchn, hbanks, himg, hcap]
  simp [foundHit, hpoison]

/-- The conditions under which a scrubber reads the word of a finding. -/
def scrubReads (s : State) (f : ScrubFinding) : Prop :=
  scrubbersRun s = true ∧ scrubHere f.site f.cls = true ∧ (f.site < 8 → f.site < nDies s) ∧ placeOk s f = true

theorem scrubWord_skips {s : State} {f : ScrubFinding} (hv : f.vote = false) (hm : f.micro = none) (hskip : scrubSkips s f = true) :
    scrubWord s f = s := by
  unfold scrubWord
  split
  · rfl
  · simp [hv, hm, hskip]

/-- A word that is read: the pass moves on, and what the decoder reports is handled. -/
theorem scrubWord_reads {s : State} {f : ScrubFinding} (hv : f.vote = false) (hm : f.micro = none) (h : scrubReads s f) (hskip : scrubSkips s f = false) :
    (foundHit s f = none → scrubWord s f = scrubPassed s f)
    ∧ ∀ e, foundHit s f = some e → scrubWord s f = scrubError (scrubPassed s f) f e := by
  obtain ⟨hrun, hhere, hdie, hplace⟩ := h
  have hguard : (!scrubbersRun s || !placeOk s f || !scrubHere f.site f.cls || (f.site < 8 && nDies s ≤ f.site)) = false := by
    simp only [hrun, hplace, hhere, Bool.not_true, Bool.false_or, Bool.and_eq_false_iff, decide_eq_false_iff_not]
    omega
  have hfound := foundHit_scrubPassed s f
  unfold scrubPassed at hfound ⊢
  unfold scrubWord
  rw [if_neg (by rw [hguard]; decide)]
  exact ⟨fun h => by simp [hv, hm, hskip, hfound, h], fun e h => by simp [hv, hm, hskip, hfound, h]⟩

/-- A corrected word of the stores and of the churn memories is counted and recorded. -/
theorem scrubError_corrected {f : ScrubFinding} (h : f.cls ≤ 4) (s : State) :
    ∃ i : FaultInfo, i.cls = 1 ∧ scrubError s f .corrected = fault (countEcc s f.site f.cls false) i := by
  have h7 : wrongAddr f = false := by simp [wrongAddr]; omega
  unfold scrubError
  simp only [h7]
  split
  case h_1 => omega
  case h_2 => exact ⟨_, rfl, rfl⟩
  all_goals contradiction

/-- An uncorrectable word of the rows or the tiles needs a recovery. -/
theorem scrubError_design {f : ScrubFinding} (h : f.cls = 1 ∨ f.cls = 2) (s : State) :
    ∃ i, scrubError s f .uncorrectable = needRecovery (countEcc s f.site f.cls true) i := by
  have h7 : wrongAddr f = false := by simp [wrongAddr]; omega
  have hpoison : meetsPoison s f = false := by obtain h | h := h <;> simp [meetsPoison, h]
  unfold scrubError
  simp only [h7, hpoison]
  split
  case h_2 => contradiction
  case h_9 => exact ⟨_, rfl⟩
  all_goals omega

/-- An uncorrectable instruction word goes into repair. -/
theorem scrubError_instruction {f : ScrubFinding} {st : StoreKind} {key : Nat} (h : f.cls = 0) (hplace : f.place = .instr st key) (s : State) :
    ∃ i, scrubError s f .uncorrectable = wordFault (countEcc s f.site f.cls true) st key i := by
  obtain ⟨cls, site, addr, place, hit, synd, wrong, vote, micro⟩ := f
  obtain rfl : cls = 0 := h
  obtain rfl : place = .instr st key := hplace
  exact ⟨_, rfl⟩

/-- A second error of a word in repair is FATAL. -/
theorem wordFault_again {s : State} {st : StoreKind} {key : Nat} (h : s.ds.faulty.contains (st, key) = true) (f : FaultInfo) :
    (wordFault s st key f).md.safeHold ≠ none ∧ (wordFault s st key f).ds = s.ds := by
  rw [wordFault, if_pos h]
  exact ⟨fault_fatal_held _ _ rfl, by simp⟩

/-- A word that was right goes into repair under code 8, where slots run and the device is not in SAFE HOLD. -/
theorem wordFault_first {s : State} {st : StoreKind} {key : Nat} (h : s.ds.faulty.contains (st, key) = false) (f : FaultInfo) :
    asksRepair s (wordFault s st key f) 8 ∧ (wordFault s st key f).md = s.md
    ∧ (slotsRun s = true → s.md.safeHold = none → (wordFault s st key f).ds = { s.ds with faulty := s.ds.faulty ++ [(st, key)] }) := by
  rw [wordFault, if_neg (by rw [h]; decide)]
  by_cases hoff : (!slotsRun s || inSafeHold s) = true
  · have hno : slotsRun s = true → s.md.safeHold ≠ none := fun hrun hlive => by simp [hrun, inSafeHold, hlive] at hoff
    rw [if_pos hoff]
    exact ⟨fun hrun hlive => absurd hlive (hno hrun), (fault_below_fatal s _ (show 3 ≠ 5 by decide)).1, fun hrun hlive => absurd hlive (hno hrun)⟩
  · rw [if_neg hoff]
    refine ⟨?_, by simp, fun _ _ => by simp⟩
    generalize hrepair : ({
      code := 8, unit := 0, left := some (boundSlots s), driven := 0, word := some (st, key)
      recs := [recordOf s { f with cls := 3, source := 8 }] } : Repair) = r
    have hcode : r.code = 8 := by rw [← hrepair]
    obtain ⟨rs, hline, hlen⟩ := startRepair_repairs { s with ds := { s.ds with faulty := s.ds.faulty ++ [(st, key)] } } r
    rw [← hcode]
    refine asksRepair_of (by rw [hline]; simp) (by rw [hline]; simp [hlen]) fun n hn => ?_
    obtain rfl : boundSlots s = n := by rw [← hrepair] at hn; exact Option.some.inj hn
    have := repairSlots_range s
    omega

/-- What a repair is asked of is a matter of the mode, the sluice, the line of repairs, and the grade. -/
theorem asksRepair_congr {s u t : State} (hmd : u.md = s.md) (hseq : u.seq = s.seq) (hslu : u.slu = s.slu) (hline : u.err.repairs = s.err.repairs)
    (hstraps : u.straps = s.straps) (hid : u.ident = s.ident) (code : Nat) : asksRepair u t code ↔ asksRepair s t code := by
  simp [asksRepair, slotsRun, usTicks, gradeEff, hmd, hseq, hslu, hline, hstraps, hid]

/-! ### Test of the service banks (R524, R525) -/

theorem bankPoisoned_iff {s : State} {x : Nat} : bankPoisoned s x = true ↔ ∃ b, s.banks[x / 2 ^ 21]? = some b ∧ x % 2 ^ 21 ∈ b.poison := by
  unfold bankPoisoned
  split
  next b hb =>
    rw [List.contains_iff_mem, hb]
    exact ⟨fun h => ⟨b, rfl, h⟩, fun ⟨c, hc, h⟩ => Option.some.inj hc ▸ h⟩
  next hb =>
    rw [hb]
    exact ⟨fun h => absurd h (by decide), fun ⟨_, hc, _⟩ => nomatch hc⟩

/-- A bank's word that becomes poison holds it, and every word that held poison still does. -/
theorem bankPoisoned_bankPoison {s : State} {a x : Nat} (hbank : x / 2 ^ 21 < s.banks.length) (h : x = a ∨ bankPoisoned s x = true) :
    bankPoisoned (bankPoison s a) x = true := by
  unfold bankPoison
  split
  next b hb =>
    rw [bankPoisoned_iff] at h ⊢
    by_cases hsame : x / 2 ^ 21 = a / 2 ^ 21
    · refine ⟨{ b with words := wr b.words (a % 2 ^ 21) 0, poison := ins b.poison (a % 2 ^ 21) }, ?_, (mem_ins _ _ _).mpr ?_⟩
      · rw [hsame] at hbank ⊢
        exact List.getElem?_set_self hbank
      · refine h.imp (fun hx => by rw [hx]) fun ⟨c, hc, hp⟩ => ?_
        rw [hsame, hb] at hc
        rwa [Option.some.inj hc]
    · obtain ⟨c, hc, hp⟩ := h.resolve_left fun hx => hsame (by rw [hx])
      exact ⟨c, (List.getElem?_set_ne (Ne.symm hsame)).trans hc, hp⟩
  next hb =>
    refine h.resolve_left fun hx => ?_
    rw [hx, ← not_le] at hbank
    exact hbank (List.getElem?_eq_none_iff.mp hb)

theorem length_bankPoison (s : State) (a : Nat) : (bankPoison s a).banks.length = s.banks.length := by
  unfold bankPoison
  split <;> simp

theorem bankPoison_ds (s : State) (a : Nat) : (bankPoison s a).ds = s.ds := by
  unfold bankPoison
  split <;> rfl

theorem foldl_bankPoison {l : List Nat} {s : State} {base x : Nat} (hbank : x / 2 ^ 21 < s.banks.length)
    (h : (∃ k ∈ l, x = base + k) ∨ bankPoisoned s x = true) : bankPoisoned (l.foldl (fun u k => bankPoison u (base + k)) s) x = true := by
  induction l generalizing s with
  | nil => simpa using h
  | cons k l ih =>
    refine ih (by rwa [length_bankPoison]) ?_
    obtain ⟨j, hj, hx⟩ | h := h
    · obtain rfl | hj := List.mem_cons.mp hj
      · exact .inr (bankPoisoned_bankPoison hbank (.inl hx))
      · exact .inl ⟨j, hj, hx⟩
    · exact .inr (bankPoisoned_bankPoison hbank (.inr h))

/-- A region without a spare and without a place in the save buffer: its 512 words are poison. -/
theorem regionLost_poisons {s : State} {n region : Nat} (hn : n < s.banks.length) (hregion : region < 4096) :
    (regionLost s n region).ds = s.ds ∧ (regionLost s n region).md = s.md
    ∧ ∀ k, k < 512 → bankPoisoned (regionLost s n region) (2 ^ 21 * n + 512 * region + k) = true := by
  have hds := foldl_keeps (·.ds) _ (fun u k => bankPoison_ds u (2 ^ 21 * n + 512 * region + k)) (List.range 512) (countEcc s 15 6 true)
  have hmd := foldl_keeps (·.md) _ (fun u k => bankPoison_md u (2 ^ 21 * n + 512 * region + k)) (List.range 512) (countEcc s 15 6 true)
  refine ⟨?_, ?_, fun k hk => ?_⟩
  · simpa [regionLost] using hds
  · exact (fault_below_fatal _ _ (show 2 ≠ 5 by decide)).1.trans hmd
  · have hx : (2 ^ 21 * n + 512 * region + k) / 2 ^ 21 = n := by omega
    have hfold := foldl_bankPoison (l := List.range 512) (s := countEcc s 15 6 true) (base := 2 ^ 21 * n + 512 * region)
      (x := 2 ^ 21 * n + 512 * region + k) (by rw [hx]; simpa using hn) (.inl ⟨k, List.mem_range.mpr hk, rfl⟩)
    simpa [regionLost, bankPoisoned] using hfold

/-- A bank that is tested, on, and not stopped: what its tester does with the region that it stands at. -/
theorem bankTest_runs {s : State} {n : Nat} {b : Bank} (hb : s.banks[n]? = some b) (ht : bitOf (ioReg s 0x13 (0x400 + 16 * n)) 2 = true)
    (hp : b.power = 0) (hrun : b.stopped = false) :
    bankTest s n true = { s with banks := s.banks.set n { b with region := (b.region + 1) % 4096 } }
    ∧ let u := bump16Hi s (rkey 15 0x13 (0x404 + 16 * n))
      ∃ i : FaultInfo, i.cls = 3 ∧ bankTest s n false =
        if b.used < 4 then
          fault { u with banks := u.banks.set n { b with region := (b.region + 1) % 4096, used := b.used + 1, spares := b.spares ++ [b.region] } } i
        else
          fault { u with banks := u.banks.set n { b with region := (b.region + 1) % 4096, pinned := true, saved := some b.region, stopped := true } }
            { i with cls := 4 } := by
  refine ⟨by simp [bankTest, hb, ht, hp, hrun], { cls := 3, cause := 0x0106, unit := siteLoc 15, memClass := 6, address := 2 ^ 21 * n + 512 * b.region }, rfl, ?_⟩
  simp [bankTest, hb, ht, hp, hrun]

theorem bankTest_stopped {s : State} {n : Nat} {b : Bank} (hb : s.banks[n]? = some b) (ht : bitOf (ioReg s 0x13 (0x400 + 16 * n)) 2 = true)
    (hp : b.power = 0) (hstop : b.stopped = true) :
    bankTest s n true = s ∧ bankTest s n false = regionLost (bump16Hi s (rkey 15 0x13 (0x404 + 16 * n))) n b.region := by
  simp [bankTest, hb, ht, hp, hstop]

/-- A fault of class DEGRADED asks for replacement. -/
theorem replaceAsked_fault (s : State) {f : FaultInfo} (h : f.cls = 4) : replaceAsked (fault s f) = true := by
  have hrec : (recordOf s f).cls = 4 := h
  have hcls : ((recordOf s f).cls == 5) = false := by rw [hrec]; rfl
  rw [fault, makeRecord, hcls]
  exact replaceAsked_addRecord _ (.inr hrec)

theorem bankTest_fails {s : State} {n : Nat} {b : Bank} (hb : s.banks[n]? = some b) (ht : bitOf (ioReg s 0x13 (0x400 + 16 * n)) 2 = true)
    (hp : b.power = 0) (hrun : b.stopped = false) :
    let b' := { b with region := (b.region + 1) % 4096 }
    let t := bankTest s n false
    t.ds = s.ds ∧ t.md = s.md
    ∧ t.banks = s.banks.set n (if b.used < 4 then { b' with used := b.used + 1, spares := b.spares ++ [b.region] }
        else { b' with pinned := true, saved := some b.region, stopped := true })
    ∧ (4 ≤ b.used → bitOf (ioReg t 0x14 0x008) 0 = true) := by
  obtain ⟨-, i, hi, htest⟩ := bankTest_runs hb ht hp hrun
  rw [htest]
  dsimp only
  by_cases hused : b.used < 4
  · rw [if_pos hused, if_pos hused]
    exact ⟨by simp, (fault_below_fatal _ i (by omega)).1.trans (by simp), by simp, fun h => by omega⟩
  · rw [if_neg hused, if_neg hused]
    exact ⟨by simp, (fault_below_fatal _ { i with cls := 4 } (show 4 ≠ 5 by decide)).1.trans (by simp), by simp, fun _ => replaceAsked_fault _ rfl⟩

/-! ### The words that a scrubber reads -/

/-- Where the pass stands after a word without an error. -/
theorem scrubPassed_position (s : State) (f : ScrubFinding) :
    let at' := reg (scrubPassed s f) (rkey f.site 0x13 (0x104 + 32 * f.cls))
    (scrubWords s f.site f.cls ≤ f.addr + 1 → f.cls ≠ 5 → f.cls ≠ 6 → at' = 0)
    ∧ (f.addr + 1 < scrubWords s f.site f.cls → f.cls ≠ 5 → f.cls ≠ 6 → f.cls ≠ 7 → at' = lo32 (f.addr + 1))
    ∧ ∀ a n, f.cls = 5 ∨ f.cls = 6 → nextWord s f.site f.cls (f.addr + 1) = some a → scrubUnit f.site f.cls = some n →
      at' = lo32 a ∧ f.addr < a ∧ unitSkipped s f.site f.cls (a / n) = false := by
  dsimp only
  rw [reg_scrubPassed, reg_scrubNext]
  refine ⟨fun hend h5 h6 => ?_, fun hmore h5 h6 h7 => ?_, fun a n hc ha hn => ?_⟩
  · have hfirst : (nextWord s f.site f.cls 0).getD 0 = 0 := by
      by_cases h0 : scrubWords s f.site f.cls = 0
      · rw [nextWord_end (by omega)]; rfl
      · rw [nextWord_plain (by omega) h5 h6]; rfl
    rw [nextWord_end hend, Option.getD_none, Option.getD_none, hfirst]
    simp
  · rw [nextWord_plain hmore h5 h6, if_neg (by simpa using h7)]
    rfl
  · obtain ⟨hle, hskip⟩ := nextWord_unit ha hn
    rw [ha, if_neg (by simp; omega)]
    exact ⟨rfl, by omega, hskip⟩

/-- A corrected word of the stores and of the churn memories is counted, and changes nothing of the design. -/
theorem scrubWord_corrects {s : State} {f : ScrubFinding} (hc : f.cls ≤ 4) (hhere : scrubHere f.site f.cls = true)
    (h : scrubWord s f = scrubError (scrubPassed s f) f .corrected) :
    let t := scrubWord s f
    t.ds = s.ds ∧ t.md = s.md ∧ t.chn = s.chn
    ∧ (reg t (rkey f.site 0x13 (0x10C + 32 * f.cls))).toNat = satAdd 32 (reg s (rkey f.site 0x13 (0x10C + 32 * f.cls))).toNat 1 := by
  obtain ⟨hmd, -, -, hds, -, hchn, -⟩ := scrubPassed_leaves s f
  obtain ⟨i, hi, herr⟩ := scrubError_corrected hc (scrubPassed s f)
  have hsite : f.site < 8 := by
    unfold scrubHere at hhere
    split at hhere <;> simp at hhere <;> omega
  have hkey : rkey f.site 0x13 (0x100 + 32 * f.cls + 0x0C) = rkey f.site 0x13 (0x10C + 32 * f.cls) := by simp only [rkey]; omega
  have hpass : reg (scrubPassed s f) (rkey f.site 0x13 (0x10C + 32 * f.cls)) = reg s (rkey f.site 0x13 (0x10C + 32 * f.cls)) := by
    have hpos : rkey f.site 0x13 (0x10C + 32 * f.cls) ≠ rkey f.site 0x13 (0x100 + 32 * f.cls + 4) := by simp only [rkey]; omega
    have hcount : rkey f.site 0x13 (0x10C + 32 * f.cls) ≠ rkey f.site 0x13 (0x100 + 32 * f.cls + 8) := by simp only [rkey]; omega
    rw [reg_scrubPassed]
    unfold scrubNext
    dsimp only
    split
    · rw [reg_bump_other _ _ _ hcount, reg_setReg_other _ _ _ _ hpos]
    · rw [reg_setReg_other _ _ _ _ hpos]
  rw [h, herr]
  refine ⟨by simp [hds], (fault_below_fatal _ i (by omega)).1.trans (by simp [hmd]), by simp [hchn], ?_⟩
  rw [reg_fault _ _ (by simp only [rkey]; omega) (by simp only [rkey]; omega), ← hpass, ← hkey]
  exact reg_bump_same _ _ (Nat.le_refl 32) 1

/-- Settles O51: responses and their absence, instruction repair, failed groups, the scrubbers by class, and the banks' tester. -/
theorem errorsOfDesignMemoryAreMendedOrFatal : Obligations.ErrorsOfDesignMemoryAreMendedOrFatal := by
  unfold Obligations.ErrorsOfDesignMemoryAreMendedOrFatal
  intro s gc port n hrec
  refine ⟨fun r y w hr hp ho => ⟨_, rfl, ddrArrival_delivers (w := ⟨y, w⟩) hr hp rfl ho⟩, fun r y w hr hp ho => ?lost, fun r hr => ⟨_, rfl, ddrTimeout_drops hrec hr⟩,
    fun r rs w hline hw hf hs => ⟨_, rfl, instructionRepair_mends hline hw hf hs⟩,
    fun h => congrArg Host.Outcome.next (instructionRepair_waits h), fun hm hd hn hfs hw => ?replaced, fun hm hd hn hfs hnew hw => ?second,
    fun hd hfs hw => ?spare, fun f hv hm hskip => congrArg Host.Outcome.next (scrubWord_skips hv hm hskip),
    fun f hv hm hrun hhere hdie hplace hskip => ?scrubbed, fun b hb ht hrun hp => ?tested, fun b hb ht hstop hp hn hregion => ?stopped⟩
  case lost =>
    obtain ⟨hds, hmend, hfatal⟩ := ddrArrival_loses (w := ⟨y, w⟩) hrec hr hp ho
    obtain ⟨hlost, -⟩ := readLost_frame s r
    refine ⟨_, rfl, ?_, fun k => ?_, hmend, hfatal⟩
    · rw [hds]; exact hlost
    · rw [hds]; exact rd_readLost s r k
  case replaced =>
    have hgo : groupFailure s gc n = needRecovery { wearGroup s gc n with ds := { s.ds with failed := put s.ds.failed gc [n] } }
        { cls := 3, cause := 0x0601, unit := mkLoc gc n 0 0 } := by
      rw [groupFailure_new hd (by omega) (by simp [hfs]) hw]
      simp [hfs, show n ≠ 32 by omega, hm, wearGroup]
    refine ⟨groupFailure s gc n, rfl, ?_⟩
    rw [hgo]
    obtain ⟨hheld, hmd, -⟩ := needRecovery_asks (s := { wearGroup s gc n with ds := { s.ds with failed := put s.ds.failed gc [n] } }) hrec
      { cls := 3, cause := 0x0601, unit := mkLoc gc n 0 0 }
    exact ⟨by simp [wearGroup], by simp, hheld, hmd⟩
  case second =>
    refine ⟨groupFailure s gc n, rfl, ?_⟩
    rw [groupFailure_new hd (by omega) hnew hw]
    dsimp only
    rw [if_pos hfs]
    exact ⟨by simp [wearGroup], fault_fatal_held _ _ rfl⟩
  case spare =>
    refine congrArg Host.Outcome.next ?_
    rw [groupFailure_new hd (Nat.le_refl 32) (by simp [hfs]) hw]
    simp [hfs, wearGroup]
  case scrubbed =>
    obtain ⟨hclean, herr⟩ := scrubWord_reads hv hm ⟨hrun, hhere, hdie, hplace⟩ hskip
    obtain ⟨hmd, hseq, hslu, hds, hckp, -, -, -, -, hstraps, hid, hline⟩ := scrubPassed_leaves s f
    refine ⟨fun hnone => ?clean, fun hc hhit => ⟨_, rfl, scrubWord_corrects hc hhere (herr _ hhit)⟩, fun hc hhit => ?design,
      fun st key hc hpl hhit => ?instruction⟩
    case clean =>
      refine ⟨scrubWord s f, rfl, ?_⟩
      rw [hclean hnone]
      exact ⟨scrubPassed_eq s f, scrubPassed_position s f⟩
    case design =>
      obtain ⟨i, hi⟩ := scrubError_design hc (scrubPassed s f)
      obtain ⟨hheld, hkeeps, -⟩ := needRecovery_asks (s := countEcc (scrubPassed s f) f.site f.cls true) (by simpa [hckp] using hrec) i
      refine ⟨scrubWord s f, rfl, ?_⟩
      rw [herr _ hhit, hi]
      exact ⟨hheld, by simp [hds], hkeeps.trans (by simp [hmd])⟩
    case instruction =>
      obtain ⟨i, hi⟩ := scrubError_instruction hc hpl (scrubPassed s f)
      have hfaulty : (countEcc (scrubPassed s f) f.site f.cls true).ds = s.ds := by simp [hds]
      have hrepair (t : State) := asksRepair_congr (t := t) (u := countEcc (scrubPassed s f) f.site f.cls true) (s := s) (by simp [hmd]) (by simp [hseq])
        (by simp [hslu]) (by simp [hline]) (by simp [hstraps]) (by simp [hid]) 8
      refine ⟨scrubWord s f, rfl, ?_⟩
      rw [herr _ hhit, hi, ← hfaulty]
      refine ⟨(wordFault_again · i), fun hnew => ?_⟩
      obtain ⟨hask, hkeeps, hword⟩ := wordFault_first hnew i
      refine ⟨(hrepair _).mp hask, hkeeps.trans (by simp [hmd]), fun hslots hlive => hword ?_ ?_⟩
      · simpa [slotsRun, hseq, hslu] using hslots
      · simpa [hmd] using hlive
  case tested =>
    exact ⟨congrArg Host.Outcome.next (bankTest_runs hb ht hp hrun).1, _, rfl, bankTest_fails hb ht hp hrun⟩
  case stopped =>
    obtain ⟨hpass, hfail⟩ := bankTest_stopped hb ht hp hstop
    have hlen : n < s.banks.length := (List.getElem?_eq_some_iff.mp hb).1
    obtain ⟨hds, hmd, hpoison⟩ := regionLost_poisons (s := bump16Hi s (rkey 15 0x13 (0x404 + 16 * n))) (n := n) (by simpa using hlen) hregion
    refine ⟨congrArg Host.Outcome.next hpass, bankTest s n false, rfl, ?_⟩
    rw [hfail]
    exact ⟨hds.trans (by simp), hmd.trans (by simp), hpoison⟩

end Sys2Proof.Machine

namespace Sys2Proof.Machine

/-! ### The load of an image: its command (R208, R370) -/

/-- The load that IMAGE_LOAD begins, with the image that the host gives. -/
def loadAsked (s : State) (c : Cmd) (i : Image) : LoadJob :=
  { image := i, bytes := cPar64 c 4, slots := secSlots s, staged := cPar c 0 == 1, logMb := logSetting s, cowGb := ioReg s 0x08 0x014, check := 0 }

theorem loadAsked_takeEntry {s : State} {c : Cmd} (h : c.path = .pcie) (i : Image) : loadAsked (takeEntry s c) c i = loadAsked s c i := by
  have hcheckpoint (off : Fin (2 ^ 20)) : ioReg (takeEntry s c) 0x08 off = ioReg s 0x08 off :=
    congrArg BitVec.toNat (reg_takeEntry h (by have := off.isLt; simp only [rkey, bkey]; omega))
  have hslots : secSlots (takeEntry s c) = secSlots s := by simp [secSlots, slotOf?, takeEntry_sec h]
  have hlog : logSetting (takeEntry s c) = logSetting s := by
    simp only [logSetting, hcheckpoint ⟨0, by decide⟩, hcheckpoint ⟨0x01C, by decide⟩]
  simp only [loadAsked, hslots, hlog, hcheckpoint ⟨0x014, by decide⟩]

/-- IMAGE_LOAD begins the load where no other work of images goes on, the staging area that it names is there, and LOADED has room. -/
theorem actImageLoad_begins {s : State} {c : Cmd} {i : Image} (hload : s.img.loading = none) (hreset : s.img.resetting = false)
    (hdata : c.data = .image i) (hstage : cPar c 0 = 1 → s.img.stageBytes.isSome = true)
    (hroom : s.md.mode = .loaded → (if cPar c 0 = 0 then besideStaging s (cPar64 c 4) else cPar64 c 4) ≤ 4096 * s.img.free) :
    actImageLoad s c = ({ s with img := { s.img with loading := some (loadAsked s c i) } }, .accept) := by
  have hidle : imageBusy s = false := by simp [imageBusy, hload, hreset]
  have harea : (cPar c 0 == 1 && s.img.stageBytes.isNone) = false := by
    by_cases h : cPar c 0 = 1
    · simpa [h, Option.isSome_iff_ne_none] using hstage h
    · simp [h]
  have hfits : noStagingRoom s (if cPar c 0 == 0 then besideStaging s (cPar64 c 4) else cPar64 c 4) = false := by
    by_cases h : s.md.mode = .loaded
    · simpa [noStagingRoom, h] using hroom h
    · simp [noStagingRoom, h]
  simp only [actImageLoad, hidle, harea, hfits, hdata, Bool.false_eq_true, if_false, loadAsked]

/-- An accepted command that begins work of images: it waits, and nothing but the images, the registers and the host side changes. -/
theorem hostCmd_accept_img {op : Nat} {chk : State → Cmd → Nat} {act : State → Cmd → State × Res} {c : Cmd} {s : State} {m : ImgState}
    (h : accepts s op chk c = true) (hroom : s.io.waiting.length < 64)
    (ha : act (takeEntry s c) c = ({ takeEntry s c with img := m }, .accept)) :
    let t := hostCmd op chk act c s
    t.img = m ∧ t.io.waiting = s.io.waiting ++ [waitingOf op c] ∧ t = { s with regs := t.regs, img := t.img, io := t.io } := by
  obtain ⟨hsafe, hstop⟩ := accepts_live h
  obtain ⟨-, -, -, ht⟩ := hostCmd_accept h hroom ha (by simp [hsafe]) (by simp [hstop])
  dsimp only
  rw [ht]
  refine ⟨rfl, by simp [nowWaiting], ?_⟩
  simp [nowWaiting, takeEntry_pcie (accepts_pcie h)]

/-! ### The load of an image: its end (R209 to R211) -/

/-- Decryption in place is of the section bytes: the initial contents are as the image gives them. -/
@[simp] theorem decryptImage_contents (i : Image) : (decryptImage i).rows = i.rows ∧ (decryptImage i).tiles = i.tiles := by
  unfold decryptImage
  split
  · split <;> simp
  · simp

@[simp] theorem setCapMode_seq_img (s : State) (m : CapMode) : (setCapMode s m).seq = s.seq ∧ (setCapMode s m).img = s.img := by
  unfold setCapMode
  split <;> simp

@[simp] theorem initialCapture_frame (s : State) (i : Image) (keep : Bool) :
    (initialCapture s i keep).seq = s.seq ∧ (initialCapture s i keep).ds = s.ds ∧ (initialCapture s i keep).img = s.img := by
  cases keep <;> simp [initialCapture, captureIdle]

/-- The state with no register written. -/
def withoutRegs (s : State) : State := { s with regs := [] }

/-- The image's capture section sets registers alone (R261). -/
theorem withoutRegs_initialCapRegs (s : State) (i : Image) : withoutRegs (initialCapRegs s i) = withoutRegs s := by
  have hput (u : State) (site b off v : Nat) : withoutRegs (putReg u site b off v) = withoutRegs u := rfl
  unfold initialCapRegs
  dsimp only
  split
  · rfl
  · exact (foldl_keeps withoutRegs _ (fun _ _ => hput ..) _ _).trans (foldl_keeps withoutRegs _ (fun _ _ => hput ..) _ _)

@[simp] theorem initialCapRegs_frame (s : State) (i : Image) :
    (initialCapRegs s i).md = s.md ∧ (initialCapRegs s i).seq = s.seq ∧ (initialCapRegs s i).ds = s.ds ∧ (initialCapRegs s i).img = s.img := by
  have h := withoutRegs_initialCapRegs s i
  simp only [withoutRegs, State.mk.injEq] at h
  simp [h]

/-- The design begins at DCN 0 with the image's initial contents; no stop is left, and the images stay. -/
theorem beginImage_begins (s : State) (i : Image) (keepStore keepRegions : Bool) :
    let t := beginImage s i keepStore keepRegions
    t.md = { s.md with stops := [] } ∧ t.seq.dcn = 0 ∧ t.ds = initialData s i keepRegions ∧ t.img = s.img := by
  have hsent (u : State) (m : FwMsg) (hmd : u.md = { s.md with stops := [] }) (hdcn : u.seq.dcn = 0) (hds : u.ds = initialData s i keepRegions)
      (himg : u.img = s.img) : let t := if u.peers.isEmpty then u else sendFw u m
      t.md = { s.md with stops := [] } ∧ t.seq.dcn = 0 ∧ t.ds = initialData s i keepRegions ∧ t.img = s.img := by
    dsimp only
    split <;> simp [hmd, hdcn, hds, himg]
  exact hsent _ _ (by simp) (by simp) (by simp) (by simp)

/-- A load whose checks have passed: with its image resident and its areas set aside the design begins, and STANDBY ends. -/
theorem applyLoad_eq (s : State) (j : LoadJob) :
    ∃ (u : State) (keep : Bool) (t : State), t = remark (initialCapRegs (beginImage u j.image keep keep) j.image)
      ∧ applyLoad s j = (if t.md.mode == .standby then modeEvent (setMode t .loaded .free false) 0 else t)
      ∧ u.md = s.md ∧ u.img.resident = some j.image ∧ u.img.loading = none := by
  unfold applyLoad
  generalize areasFor s j = areas
  obtain ⟨sp, lg, cow⟩ := areas
  exact ⟨_, keepsCheckpoint s j.image, _, rfl, rfl, discardChannels_md s, rfl, rfl⟩

/-- The image is resident, its rows and tiles hold their initial contents at DCN 0, and STANDBY becomes LOADED (R211). -/
theorem applyLoad_loads (s : State) (j : LoadJob) :
    let t := applyLoad s j
    t.img.resident = some j.image ∧ t.img.loading = none ∧ t.seq.dcn = 0 ∧ t.ds.rows = wrAll [] j.image.rows
    ∧ t.ds.tiles = wrAll [] j.image.tiles ∧ t.md.mode = (if s.md.mode = .standby then .loaded else s.md.mode) := by
  obtain ⟨u, keep, t, rfl, h, hu, hres, hnone⟩ := applyLoad_eq s j
  obtain ⟨hmd, hdcn, hds, himg⟩ := beginImage_begins u j.image keep keep
  have hseq (v : State) : (remark v).seq.dcn = v.seq.dcn := by rw [remark_seq]
  by_cases hmode : s.md.mode = .standby <;>
    simp [h, hmd, hu, hmode, hseq, hdcn, hds, himg, hres, hnone, initialData]

/-- A freed staging area changes neither what is resident or loading, nor the design (R210). -/
@[simp] theorem freeStaging_frame (s : State) (j : LoadJob) :
    (freeStaging s j).img.resident = s.img.resident ∧ (freeStaging s j).img.loading = s.img.loading ∧ (freeStaging s j).seq = s.seq
    ∧ (freeStaging s j).ds = s.ds ∧ (freeStaging s j).cap = s.cap ∧ (freeStaging s j).ckp = s.ckp ∧ (freeStaging s j).trx = s.trx := by
  unfold freeStaging
  split <;> simp

theorem loadComplete_passed {s : State} {j : LoadJob} {un : Option Nat} (hload : s.img.loading = some j)
    (hpass : runChecks s j (if j.spoiled then some (max 1 j.check) else un) 14 1 = none) :
    loadComplete s un
      = completeAll (freeStaging (applyLoad s { j with image := decryptImage j.image }) j) 0x0102 0 (List.replicate 8 0) := by
  simp only [loadComplete, hload, hpass]

/-- What a failed load leaves of the device (R210). -/
def failedView (s : State) : (Option Image × ModeState × SeqState) × DataState × CapState × CkpState × TrxState :=
  ((s.img.resident, s.md, s.seq), s.ds, s.cap, s.ckp, s.trx)

/-- An uncorrectable word of the staged copy is counted and recorded; it is no reason for SAFE HOLD (R514). -/
theorem failedView_ddrLost (s : State) (flags : Nat) (synd : Option Nat) (addr d1 d2 : Nat) :
    failedView (ddrLost s id flags synd addr d1 d2) = failedView s := by
  simp [failedView, ddrLost, ddrInfo, fault_below_fatal]

/-- A failed load is counted where that is due; then its staging area is freed and its command completes with the report (R210, R213). -/
theorem loadComplete_failed {s : State} {j : LoadJob} {un : Option Nat} {r : Nat × List Word} (hload : s.img.loading = some j)
    (hfail : runChecks s j (if j.spoiled then some (max 1 j.check) else un) 14 1 = some r) :
    ∃ u, failedView u = failedView s ∧
      loadComplete s un = completeAll { freeStaging u j with img := { (freeStaging u j).img with loading := none } } 0x0102 r.1 r.2 := by
  have hlost (a : Nat) : failedView (ddrLost (tickFree s) id 0 none a 0 0) = failedView s := (failedView_ddrLost ..).trans (by simp [failedView])
  have hbump (u : State) : failedView (bumpIo u 0x17 0x018 32 1) = failedView u := by simp [failedView]
  simp only [loadComplete, hload, hfail]
  refine ⟨_, ?_, rfl⟩
  split_ifs <;> simp [hlost, hbump]

/-- Settles O11: the command by what acceptance does; nothing ends in SAFE HOLD; the end of a load by whether its checks passed. -/
theorem imageLoadTakesEffectAtItsEnd : Obligations.ImageLoadTakesEffectAtItsEnd := by
  unfold Obligations.ImageLoadTakesEffectAtItsEnd
  intro s c
  refine ⟨fun i h hload hreset hroom hdata hstage harea => ?asked, fun un hheld => ⟨?loadHeld, ?resetHeld⟩,
    fun j un hlive hload hpass => ?passed, fun j un r hlive hload hfail => ?failed⟩
  case asked =>
    have hact := actImageLoad_begins (s := takeEntry s c) (by simpa using hload) (by simpa using hreset) hdata (by simpa using hstage)
      (by simpa [besideStaging] using harea)
    obtain ⟨himg, hwait, hrest⟩ := hostCmd_accept_img h hroom hact
    refine ⟨_, rfl, himg.trans ?_, hwait, hrest⟩
    rw [loadAsked_takeEntry (accepts_pcie h)]
    simp [loadAsked]
  case loadHeld => exact congrArg Host.Outcome.next (if_pos hheld)
  case resetHeld => exact congrArg Host.Outcome.next (if_pos hheld)
  case passed =>
    obtain ⟨hres, hnone, hdcn, hrows, htiles, hmode⟩ := applyLoad_loads s { j with image := decryptImage j.image }
    refine ⟨loadComplete s un, congrArg Host.Outcome.next (if_neg (by simp [inSafeHold, hlive])), ?_⟩
    rw [loadComplete_passed hload hpass]
    exact ⟨by simpa using hres, by simpa using hnone, by simpa using hdcn, by simpa using hrows, by simpa using htiles,
      fun h => by simpa [h] using hmode, fun h => by simpa [h] using hmode, completeAll_waiting _ _ _ _⟩
  case failed =>
    obtain ⟨u, hview, hend⟩ := loadComplete_failed hload hfail
    simp only [failedView, Prod.mk.injEq] at hview
    obtain ⟨⟨hres, hmd, hseq⟩, hds, hcap, hckp, htrx⟩ := hview
    refine ⟨loadComplete s un, congrArg Host.Outcome.next (if_neg (by simp [inSafeHold, hlive])), ?_⟩
    rw [hend]
    refine ⟨?_, ?_, ?_, ?_, ?_, ?_, ?_, ?_, completeAll_waiting _ _ _ _⟩ <;> simp [*]

end Sys2Proof.Machine

namespace Sys2Proof.Machine

/-! ### The delivery of cascade events (R241, R250) -/

/-- What the delivery of a line's event leaves alone. -/
def deliveryView (s : State) : DataState × ModeState × SeqState × UtilState := (s.ds, s.md, s.seq, s.util)

@[simp] theorem setCapMode_util_ckp (s : State) (m : CapMode) : (setCapMode s m).util = s.util ∧ (setCapMode s m).ckp = s.ckp := by
  unfold setCapMode
  split <;> simp

theorem deliveryView_takeTrigger (s : State) (m : Nat) (mine : List (Nat × Nat × Nat)) : deliveryView (takeTrigger s m mine) = deliveryView s := by
  unfold takeTrigger
  split
  · rfl
  · split <;> simp [deliveryView]

theorem deliveryView_takeStop (s : State) (m : Nat) (mine : List (Nat × Nat × Nat)) : deliveryView (takeStop s m mine) = deliveryView s := by
  unfold takeStop
  dsimp only
  repeat' split
  all_goals rfl

theorem deliveryView_deliverLine (m : Nat) (low : BitVec 4) (mine : List (Nat × Nat × Nat)) (s : State) (line : Nat) :
    deliveryView (deliverLine m low mine s line) = deliveryView s := by
  unfold deliverLine
  split
  · rfl
  · dsimp only
    split
    · exact deliveryView_takeTrigger _ m mine
    · exact deliveryView_takeStop _ m mine
    · rfl

/-- A trigger stands with its DCN, and the capture ends no later than a DCN. -/
def triggeredAt (s : State) (t last : Nat) : Prop :=
  s.cap.mode = .triggered ∧ s.cap.trigDcn = some t ∧ ∃ e, s.cap.endDcn = some e ∧ e ≤ last

/-- The first trigger of a capture fixes T, and END_DCN within the post-trigger cycles (R241). -/
theorem takeTrigger_first {s : State} (harmed : s.cap.mode = .armed) (hnone : s.cap.trigDcn = none) (m : Nat) (mine : List (Nat × Nat × Nat)) :
    triggeredAt (takeTrigger s m mine) m (m + s.cap.post) := by
  have hcap : capturing s = true := by simp [capturing, harmed]
  simp only [takeTrigger, hcap, hnone, Bool.not_true, Bool.false_eq_true, if_false, Option.isSome_none, triggeredAt, setCapMode_frame, true_and]
  refine ⟨_, rfl, ?_⟩
  split
  · exact min_le_right _ _
  · exact le_rfl

/-- A stop keeps the trigger, and moves the end of the capture only to an earlier DCN (R241). -/
theorem takeStop_keeps_trigger {s : State} {t last : Nat} (h : triggeredAt s t last) (m : Nat) (mine : List (Nat × Nat × Nat)) :
    triggeredAt (takeStop s m mine) t last := by
  obtain ⟨hmode, htrig, e, hend, hle⟩ := h
  have hcap : capturing s = true := by simp [capturing, hmode]
  simp only [takeStop, hcap, hend, Bool.not_true, Bool.false_eq_true, if_false, decide_eq_true_eq]
  split
  next hearlier => exact ⟨hmode, htrig, m + 5, rfl, by omega⟩
  next => exact ⟨hmode, htrig, e, hend, hle⟩

/-- The lines after line 0 keep the trigger. -/
theorem deliverLine_keeps_trigger {s : State} {t last : Nat} (h : triggeredAt s t last) (m : Nat) (low : BitVec 4) (mine : List (Nat × Nat × Nat))
    {line : Nat} (hline : line ≠ 0) : triggeredAt (deliverLine m low mine s line) t last := by
  unfold deliverLine
  split
  · exact h
  · dsimp only
    split
    · exact absurd rfl hline
    · refine takeStop_keeps_trigger ?_ m mine
      exact h
    · exact h

/-- The events of a slot with line 0 low trigger an armed capture. -/
theorem deliverLines_trigger {s : State} {low : BitVec 4} (hlow : bitOf low.toNat 0 = true) (harmed : s.cap.mode = .armed)
    (hnone : s.cap.trigDcn = none) (m : Nat) (mine : List (Nat × Nat × Nat)) :
    triggeredAt ((List.range 4).foldl (deliverLine m low mine) s) m (m + s.cap.post) := by
  have hfirst : triggeredAt (deliverLine m low mine s 0) m (m + s.cap.post) := by
    simp only [deliverLine, hlow, Bool.not_true, Bool.false_eq_true, if_false]
    refine takeTrigger_first ?_ ?_ m mine
    exacts [harmed, hnone]
  have hsecond := deliverLine_keeps_trigger hfirst m low mine (show 1 ≠ 0 by decide)
  have hthird := deliverLine_keeps_trigger hsecond m low mine (show 2 ≠ 0 by decide)
  exact deliverLine_keeps_trigger hthird m low mine (show 3 ≠ 0 by decide)

/-- The DCN of the events of slot k: the one held two slots before (R250). -/
def eventDcn (s : State) (k : Nat) : Nat := (lookup s.casc.slotDcn (k - 2)).getD s.seq.dcn

/-- The state in which the lines of slot k are delivered, line 0 among them: the slot is no longer kept, and TRIG_OUT goes high. -/
def deliveryOf (s : State) (k : Nat) : State :=
  { s with casc := { s.casc with samples := s.casc.samples.filter (fun e => e.1 != k) }, util := { s.util with trigLeft := 400 } }

theorem cascadeDelivery_trigger {s : State} {k : Nat} {low : BitVec 4} {mine : List (Nat × Nat × Nat)}
    (hfind : s.casc.samples.find? (fun e => e.1 + 8 == slotOf s) = some (k, low, mine)) (hlow : bitOf low.toNat 0 = true) :
    cascadeDelivery s = (List.range 4).foldl (deliverLine (eventDcn s k) low mine) (deliveryOf s k) := by
  simp only [cascadeDelivery, hfind, hlow, if_true, eventDcn, deliveryOf]

/-! ### The end of a capture (R228, R241) -/

/-- What the end of a capture leaves alone. -/
def endView (s : State) : Option Nat × DataState × ModeState := (s.cap.endDcn, s.ds, s.md)

/-- A die's capture unit, if it has one, has written its end marker. -/
def dieEnded (s : State) (d : Nat) : Prop := ∀ x, capDie s d = some x → x.ended = true

theorem endView_endDie (s : State) (d : Nat) : endView (endDie s d) = endView s := by
  unfold endDie
  split
  · rfl
  · split <;> rfl

theorem endDie_ends (s : State) (d : Nat) : dieEnded (endDie s d) d := by
  intro x hx
  unfold endDie at hx
  split at hx
  next hnone => rw [hnone] at hx; cases hx
  next c hc =>
    split at hx
    next hended => rw [hc] at hx; cases hx; exact hended
    next =>
      rw [capDie, setCapDie, lookup_put_same] at hx
      cases hx
      rfl

theorem capDie_endDie_other (s : State) {d e : Nat} (h : e ≠ d) : capDie (endDie s d) e = capDie s e := by
  unfold endDie
  split
  · rfl
  · split
    · rfl
    · exact lookup_put_other _ _ _ _ h

theorem endDie_keeps_ended {s : State} {e : Nat} (h : dieEnded s e) (d : Nat) : dieEnded (endDie s d) e := by
  by_cases he : e = d
  · exact he ▸ endDie_ends s e
  · unfold dieEnded
    rw [capDie_endDie_other s he]
    exact h

theorem endDies_keep_ended {s : State} {e : Nat} (h : dieEnded s e) (l : List Nat) : dieEnded (l.foldl endDie s) e := by
  induction l generalizing s with
  | nil => exact h
  | cons d l ih => exact ih (endDie_keeps_ended h d)

theorem endDies_end {l : List Nat} {d : Nat} (hd : d ∈ l) (s : State) : dieEnded (l.foldl endDie s) d := by
  induction l generalizing s with
  | nil => cases hd
  | cons x l ih =>
    obtain rfl | hd := List.mem_cons.mp hd
    · exact endDies_keep_ended (endDie_ends s d) l
    · exact ih hd _

/-- B13 to B15 of a boundary that is not frozen, and its end, are late (R132). -/
theorem lateBoundary_of_tick {s : State} {b : Nat} (htick : s.seq.tick = .bound b) (hb : 13 ≤ b) (hor : b = 16 ∨ frozen s = false) :
    lateBoundary s = true := by
  simp only [lateBoundary, htick, Bool.or_eq_true, beq_iff_eq, Bool.and_eq_true, decide_eq_true_eq, Bool.not_eq_true']
  exact hor.imp_right fun hf => ⟨hb, hf⟩

/-- An event is driven outside the replayed cycles of a recovery, unless its line had one for the same DCN before (R635). -/
theorem driveEvent_drives {s : State} {line m : Nat} (hrec : inRecovery s = false) (hdrove : droveBefore s line m = false) (cause die : Nat) :
    driveEvent s line cause die m = { s with casc := { s.casc with drive := s.casc.drive ++ [(line, cause, die)] } } := by
  simp [driveEvent, hrec, hdrove]

/-- Settles O25: the sample and the automatic triggers as their rows say; the delivery line by line; the end of the capture die by die. -/
theorem cascadeEventsAndTheEndOfCapture : Obligations.CascadeEventsAndTheEndOfCapture := by
  unfold Obligations.CascadeEventsAndTheEndOfCapture
  refine fun s => ⟨fun low hepoch hslot htick hnew => ?sample, fun hnone => ?noSlot, fun k low mine hfind hlow harmed hnone => ?delivery,
    fun b hlive hdue htick hb hor => ?captureEnd, fun b hdue htick hb hor hrec hdrove => ?autoCycles,
    fun hlead hen htime harmed hnone hdone hsince hrec hdrove => ?autoTime⟩
  case sample => exact congrArg Host.Outcome.next (if_pos (by simp [hepoch, hslot, htick, hnew]))
  case noSlot =>
    refine congrArg Host.Outcome.next ?_
    rw [cascadeDelivery, hnone]
  case delivery =>
    have hview : deliveryView (cascadeDelivery s) = deliveryView (deliveryOf s k) := by
      rw [cascadeDelivery_trigger hfind hlow]
      exact foldl_keeps deliveryView _ (deliveryView_deliverLine _ low mine) _ _
    have htrig : triggeredAt (cascadeDelivery s) (eventDcn s k) (eventDcn s k + s.cap.post) := by
      rw [cascadeDelivery_trigger hfind hlow]
      exact deliverLines_trigger (s := deliveryOf s k) hlow harmed hnone _ mine
    simp only [deliveryView, Prod.mk.injEq] at hview
    obtain ⟨hds, hmd, hseq, hutil⟩ := hview
    obtain ⟨hmode, hdcn, e, hend, hle⟩ := htrig
    exact ⟨cascadeDelivery s, e, rfl, hmode, hdcn, hend, hle, by rw [hutil]; rfl, hds, hmd, hseq⟩
  case captureEnd =>
    have hview : endView ((diesOf s).foldl endDie s) = endView s := foldl_keeps endView endDie endView_endDie _ s
    simp only [endView, Prod.mk.injEq] at hview
    obtain ⟨hend, hds, hmd⟩ := hview
    refine ⟨captureEnd s, congrArg Host.Outcome.next (if_neg (by simp [inSafeHold, hlive])), ?_⟩
    rw [captureEnd, hdue, lateBoundary_of_tick htick hb hor]
    exact ⟨fun d hd => endDies_end (List.mem_range.mpr hd) s, hend, hds, hmd⟩
  case autoCycles =>
    refine congrArg Host.Outcome.next ?_
    rw [capAutoCycles, hdue, lateBoundary_of_tick htick hb hor]
    refine driveEvent_drives ?_ ?_ 3 15
    exacts [hrec, hdrove]
  case autoTime =>
    refine congrArg Host.Outcome.next ((if_pos ?_).trans (driveEvent_drives ?_ ?_ 4 15))
    · simp [hlead, hen, htime, harmed, hnone, hdone, hrec, hsince]
    · exact hrec
    · exact hdrove

end Sys2Proof.Machine

namespace Sys2Proof.Machine

/-! ### The capture commands (R226, R240, R242, R253) -/

theorem ioReg_takeEntry {s : State} {c : Cmd} (h : c.path = .pcie) {b o : Nat} (hb : 0 < b) (hb' : b < 256) (ho : o < 2 ^ 20) :
    ioReg (takeEntry s c) b o = ioReg s b o := by
  rw [ioReg, ioReg, reg_takeEntry h (bkey_ne_rkey (by decide) hb hb' ho).symm]

theorem capReg_takeEntry {s : State} {c : Cmd} (h : c.path = .pcie) {o : Nat} (ho : o < 2 ^ 20) : capReg (takeEntry s c) o = capReg s o :=
  ioReg_takeEntry h (by decide) (by decide) ho

theorem trgReg_takeEntry {s : State} {c : Cmd} (h : c.path = .pcie) (d : Nat) {o : Nat} (ho : o < 2 ^ 20) :
    trgReg (takeEntry s c) d o = trgReg s d o := by
  rw [trgReg, trgReg, reg_takeEntry h (bkey_ne_rkey (by decide) (by decide) (by decide) ho).symm]

theorem badComparators_takeEntry {s : State} {c : Cmd} (h : c.path = .pcie) : badComparators (takeEntry s c) = badComparators s := by
  have himg : (takeEntry s c).img = s.img := by simp
  have hdies : diesOf (takeEntry s c) = diesOf s := by simp [diesOf, nDies]
  unfold badComparators
  rw [himg, hdies]
  split
  · rfl
  · refine List.any_congr rfl fun d => ?_
    rw [Bool.eq_iff_iff, List.any_eq_true, List.any_eq_true]
    refine exists_congr fun k => and_congr_right fun hk => ?_
    have hk16 : k < 16 := List.mem_range.mp hk
    rw [trgReg_takeEntry h d (by omega)]

/-- What bars an arm is no matter of the command ring. -/
theorem armStatus_takeEntry {s : State} {c : Cmd} (h : c.path = .pcie) : armStatus (takeEntry s c) = armStatus s := by
  have hctrl : capReg (takeEntry s c) 0 = capReg s 0 := capReg_takeEntry h (by decide)
  have hspill : capReg (takeEntry s c) 4 = capReg s 4 := capReg_takeEntry h (by decide)
  simp [armStatus, badComparators_takeEntry h, capSkim, capTarget, winExp, depthOf, nDevices, deepCapture, hctrl, hspill]

/-- An arm on a board that stands (R240). -/
theorem armNow_frame (s : State) (dcn : Nat) :
    (armNow s dcn).cap.mode = .armed ∧ (armNow s dcn).cap.armDcn = dcn ∧ (armNow s dcn).cap.trigDcn = none ∧ (armNow s dcn).cap.endDcn = none
    ∧ (armNow s dcn).cap.ring = [] ∧ (armNow s dcn).ds = s.ds ∧ (armNow s dcn).seq = s.seq ∧ (armNow s dcn).ckp = s.ckp := by
  simp [armNow]

/-- The lead's choice of a DCN lies in the window (R42). -/
theorem chooseDcn_range (s : State) : s.seq.dcn ≤ chooseDcn s ∧ chooseDcn s ≤ s.seq.dcn + dcnWindow s :=
  ⟨Nat.le_add_right _ _, Nat.add_le_add_left (Nat.lt_succ_iff.mp (Nat.mod_lt _ (Nat.succ_pos _))) _⟩

theorem hostCascade_lead {s : State} (h : isLead s = true) (stop : Bool) :
    hostCascade s stop = { s with casc := { s.casc with drive := s.casc.drive ++ [if stop then (1, 7, 15) else (0, 2, 15)] } } := if_pos h

theorem isLead_takeEntry (s : State) (c : Cmd) : isLead (takeEntry s c) = isLead s := by simp [isLead]

theorem stepping_takeEntry (s : State) (c : Cmd) : stepping (takeEntry s c) = stepping s := by simp [stepping, modeSteps]

theorem ringReadable_takeEntry (s : State) (c : Cmd) : ringReadable (takeEntry s c) = ringReadable s := by simp [ringReadable]

theorem capturing_iff (s : State) : capturing s = true ↔ s.cap.mode = .armed ∨ s.cap.mode = .triggered := by simp [capturing]

/-! ### The blocks that a CAP_READ takes from the ring (R243, R513, R515) -/

/-- The command that CAP_READ_COMPLETE completes. -/
def isCapRead (w : Waiting) : Bool := w.opcode == 0x0404

/-- The blocks read, those found bad among them poisoned. -/
def blocksRead (ring : List Block) (first count : Nat) (bad : List Nat) : List Block :=
  ((ring.drop first).take count).zipIdx.map (fun b => { b.1 with poison := b.1.poison || bad.contains (first + b.2) })

/-- The ring with those blocks in place. -/
def ringRead (ring : List Block) (first : Nat) (bs : List Block) : List Block := ring.take first ++ bs ++ ring.drop (first + bs.length)

/-- Host memory with the blocks written from an address on. -/
def hostRead (m : List (Nat × List Word)) (a : Nat) (bs : List Block) : List (Nat × List Word) :=
  bs.zipIdx.foldl (fun d b => put d (a + 4096 * b.2) (blockOut b.1)) m

theorem blocksRead_length (ring : List Block) (first count : Nat) (bad : List Nat) :
    (blocksRead ring first count bad).length = min count (ring.length - first) := by simp [blocksRead]

/-- The n-th block read is the ring's, poisoned where it was found bad. -/
theorem getElem?_blocksRead {ring : List Block} {first count n : Nat} (hn : n < count) (bad : List Nat) :
    (blocksRead ring first count bad)[n]? = ring[first + n]?.map (fun b => { b with poison := b.poison || bad.contains (first + n) }) := by
  rw [blocksRead, List.getElem?_map, List.getElem?_zipIdx, Option.map_map, Nat.zero_add, List.getElem?_take_of_lt hn, List.getElem?_drop]
  rfl

theorem ringRead_length (ring : List Block) (first count : Nat) (bad : List Nat) :
    (ringRead ring first (blocksRead ring first count bad)).length = ring.length := by
  simp only [ringRead, List.length_append, List.length_take, List.length_drop, blocksRead_length]
  omega

/-- A place of the blocks read. -/
theorem getElem?_ringRead_inside {ring : List Block} {first count n : Nat} (hn : n < count) (hin : first + n < ring.length) (bad : List Nat) :
    (ringRead ring first (blocksRead ring first count bad))[first + n]? = (blocksRead ring first count bad)[n]? := by
  have hlen := blocksRead_length ring first count bad
  rw [ringRead, List.getElem?_append_left (by simp; omega), List.getElem?_append_right (by simp)]
  congr 1
  simp
  omega

/-- Any other place. -/
theorem getElem?_ringRead_outside {ring : List Block} {first count n : Nat} (hn : n < first ∨ first + count ≤ n) (bad : List Nat) :
    (ringRead ring first (blocksRead ring first count bad))[n]? = ring[n]? := by
  have hlen := blocksRead_length ring first count bad
  by_cases hin : n < ring.length
  · obtain hn | hn := hn
    · rw [ringRead, List.append_assoc, List.getElem?_append_left (by simp; omega), List.getElem?_take_of_lt hn]
    · rw [ringRead, List.getElem?_append_right (by simp; omega), List.getElem?_drop]
      congr 1
      simp
      omega
  · rw [List.getElem?_eq_none (by rw [ringRead_length]; omega), List.getElem?_eq_none (by omega)]

/-- Blocks written at later addresses leave an earlier one. -/
theorem lookup_hostRead_earlier {i k : Nat} (hk : k < i) (a : Nat) (bs : List Block) (m : List (Nat × List Word)) :
    lookup ((bs.zipIdx i).foldl (fun d b => put d (a + 4096 * b.2) (blockOut b.1)) m) (a + 4096 * k) = lookup m (a + 4096 * k) := by
  induction bs generalizing i m with
  | nil => rfl
  | cons b bs ih =>
    rw [List.zipIdx_cons, List.foldl_cons, ih (Nat.lt_succ_of_lt hk)]
    exact lookup_put_other _ _ _ _ (by omega)

/-- The n-th block written from an index on stands at its place. -/
theorem lookup_hostRead_from {bs : List Block} {n : Nat} {b : Block} (hb : bs[n]? = some b) (i a : Nat) (m : List (Nat × List Word)) :
    lookup ((bs.zipIdx i).foldl (fun d b => put d (a + 4096 * b.2) (blockOut b.1)) m) (a + 4096 * (i + n)) = some (blockOut b) := by
  induction bs generalizing i n m with
  | nil => cases hb
  | cons x bs ih =>
    rw [List.zipIdx_cons, List.foldl_cons]
    cases n with
    | zero =>
      cases hb
      exact (lookup_hostRead_earlier (Nat.lt_add_one i) a bs _).trans (lookup_put_same _ _ _)
    | succ n =>
      rw [Nat.add_comm n, ← Nat.add_assoc]
      exact ih hb _ _

theorem lookup_hostRead {bs : List Block} {n : Nat} {b : Block} (hb : bs[n]? = some b) (a : Nat) (m : List (Nat × List Word)) :
    lookup (hostRead m a bs) (a + 4096 * n) = some (blockOut b) := by
  have h := lookup_hostRead_from hb 0 a m
  rwa [Nat.zero_add] at h

/-! ### The end of a CAP_READ (R243, R358, R515) -/

/-- What the faults of the blocks read leave alone: they are DEFERRED. -/
def blockView (s : State) := (transferView s, s.ds, s.cap)

theorem blockView_fault (s : State) (f : FaultInfo) (h : f.cls ≠ 5) : blockView (fault s f) = blockView s := by
  simp [blockView, transferView_fault s f h]

theorem blockView_blockFault (s : State) (b : Block) (found : Bool) : blockView (blockFault s b found) = blockView s := by
  have htick : blockView (tickFree s) = blockView s := by simp [blockView, transferView]
  have hcount (u : State) : blockView (countEcc u 15 7 true) = blockView u := by simp [blockView, transferView]
  unfold blockFault ddrPoisonRead ddrLost
  split
  · rw [blockView_fault _ _ (show 2 ≠ 5 by decide), htick]
  · split
    · rw [blockView_fault _ _ (show 2 ≠ 5 by decide), hcount]
      exact htick
    · rfl

/-- The state in which every block found bad has been reported. -/
def blocksReported (s : State) (first count : Nat) (bad : List Nat) : State :=
  ((s.cap.ring.drop first).take count).zipIdx.foldl (fun s b => blockFault s b.1 (bad.contains (first + b.2))) s

theorem blocksReported_leaves (s : State) (first count : Nat) (bad : List Nat) :
    let u := blocksReported s first count bad
    u.io.waiting = s.io.waiting ∧ u.io.dma = s.io.dma ∧ u.md = s.md ∧ u.seq = s.seq ∧ u.ds = s.ds ∧ u.cap = s.cap := by
  have hview : blockView (blocksReported s first count bad) = blockView s :=
    foldl_keeps blockView _ (fun u (b : Block × Nat) => blockView_blockFault u b.1 _) _ s
  simp only [blockView, transferView, Prod.mk.injEq] at hview
  obtain ⟨⟨⟨hwait, hdma⟩, ⟨hmd, hseq, -⟩, -⟩, hds, hcap⟩ := hview
  exact ⟨hwait, hdma, hmd, hseq, hds, hcap⟩

/-- Blocks are put in their places in the ring and in host memory. -/
def blocksDelivered (s : State) (c : Cmd) (bs : List Block) : State :=
  { s with cap := { s.cap with ring := ringRead s.cap.ring (cPar c 0) bs }, io := { s.io with dma := hostRead s.io.dma (cPar64 c 2) bs } }

/-- The blocks found bad are reported, the blocks delivered, and the oldest CAP_READ completes. -/
theorem capReadComplete_eq {s : State} {w : Waiting} (hw : firstWaiting s isCapRead = some w) (bad : List Nat) :
    let bs := blocksRead s.cap.ring (cPar w.cmd 0) (cPar w.cmd 1) bad
    capReadComplete s bad
      = completeFirst (blocksDelivered (blocksReported s (cPar w.cmd 0) (cPar w.cmd 1) bad) w.cmd bs) isCapRead 0 [BitVec.ofNat 32 bs.length] := by
  unfold isCapRead at hw
  simp only [capReadComplete, hw]
  rfl

theorem capReadComplete_frame {s : State} {w : Waiting} (hw : firstWaiting s isCapRead = some w) (bad : List Nat) :
    let bs := blocksRead s.cap.ring (cPar w.cmd 0) (cPar w.cmd 1) bad
    let t := capReadComplete s bad
    t.io.waiting.length + 1 = s.io.waiting.length ∧ t.io.dma = hostRead s.io.dma (cPar64 w.cmd 2) bs
    ∧ t.cap = { s.cap with ring := ringRead s.cap.ring (cPar w.cmd 0) bs } ∧ t.ds = s.ds ∧ t.md = s.md ∧ t.seq = s.seq := by
  intro bs t
  have ht : t = completeFirst (blocksDelivered (blocksReported s (cPar w.cmd 0) (cPar w.cmd 1) bad) w.cmd bs) isCapRead 0
      [BitVec.ofNat 32 bs.length] := capReadComplete_eq hw bad
  clear_value bs t
  obtain ⟨hwait, hdma, hmd, hseq, hds, hcap⟩ := blocksReported_leaves s (cPar w.cmd 0) (cPar w.cmd 1) bad
  generalize blocksReported s (cPar w.cmd 0) (cPar w.cmd 1) bad = u at *
  have hwu : firstWaiting (blocksDelivered u w.cmd bs) isCapRead = some w := by rw [← hw, firstWaiting, firstWaiting, ← hwait]; rfl
  obtain ⟨hcount, hhost⟩ := completeFirst_io hwu 0 [BitVec.ofNat 32 bs.length]
  rw [← ht] at hcount hhost
  refine ⟨hcount.trans (congrArg List.length hwait), hhost.trans (by rw [← hdma]; rfl), ?_⟩
  simp [blocksDelivered, *]

/-- Settles O27: the commands by what their actions are on an accepted packet, the completion by the blocks that it reads. -/
theorem captureCommands : Obligations.CaptureCommands := by
  unfold Obligations.CaptureCommands
  refine ⟨fun s c => ⟨fun h => ?info, fun h hok hstands => ?armStanding, fun h hok hsteps => ?armStepping, fun h hlead hmode => ?trigger,
      fun h hlead hmode => ?stop, fun h hmode => ?triggerIgnored, fun h harmed htriggered => ?stopIgnored⟩,
    fun s c => ⟨fun h hread hroom => ?read, fun h hread => ?readRefused, fun bad hheld => ?held, fun w bad hlive hw => ?complete⟩⟩
  case complete =>
    obtain ⟨hwait, hdma, hcap, hds, hmd, hseq⟩ := capReadComplete_frame hw bad
    refine ⟨capReadComplete s bad, congrArg Host.Outcome.next (if_neg (by simp [inSafeHold, hlive])), hwait, ?_, fun n b hn hb => ?_,
      fun n hn => ?_, by rw [hcap], hds, hmd, hseq⟩
    · rw [hcap]
      exact ringRead_length _ _ _ bad
    · have hblock := getElem?_blocksRead (ring := s.cap.ring) (first := cPar w.cmd 0) hn bad
      rw [hb] at hblock
      obtain ⟨hin, -⟩ := List.getElem?_eq_some_iff.mp hb
      rw [hdma, hcap]
      exact ⟨lookup_hostRead hblock _ _, (getElem?_ringRead_inside hn hin bad).trans hblock⟩
    · rw [hcap]
      exact getElem?_ringRead_outside hn bad
  case held => exact congrArg Host.Outcome.next (if_pos hheld)
  all_goals obtain ⟨hsafe, hstop⟩ := accepts_live h
  case info =>
    have hact : actCapInfo (takeEntry s c) c = ({ takeEntry s c with freeCtr := s.freeCtr + 1 }, .ok (capStatus s :: dwords s.cap.armDcn
        ++ dwords (s.cap.trigDcn.getD 0) ++ dwords (s.cap.endDcn.getD 0) ++ [Config.freeWord s.freeCtr, BitVec.ofNat 32 s.cap.ring.length])) := by
      simp [actCapInfo, tickFree, capStatus]
    exact ⟨_, _, rfl, hostCmd_ok h hact (by simp [hsafe]) (by simp [hstop])⟩
  case armStanding =>
    have hact : actCapArm (takeEntry s c) c
        = (armNow (sendFw (takeEntry s c) (.orderArm none (capWords (takeEntry s c)))) s.seq.dcn, .ok (dwords s.seq.dcn)) := by
      simp [actCapArm, armStatus_takeEntry (accepts_pcie h), hok, stepping_takeEntry, hstands]
    obtain ⟨hmode, harm, htrig, hend, hring, hds, hseq, hckp⟩ :=
      armNow_frame (sendFw (takeEntry s c) (.orderArm none (capWords (takeEntry s c)))) s.seq.dcn
    refine ⟨_, rfl, ?_⟩
    rw [hostCmd_accepts h, hact]
    simp [settle, accepts_pcie h, hsafe, hmode, harm, htrig, hend, hring, hds, hseq, hckp]
  case armStepping =>
    have hwin : dcnWindow (takeEntry s c) = dcnWindow s := by rw [takeEntry_pcie (accepts_pcie h)]; rfl
    obtain ⟨hge, hle⟩ := chooseDcn_range (takeEntry s c)
    have hact : actCapArm (takeEntry s c) c = ({ sendFw (tickFree (takeEntry s c))
          (.orderArm (some (chooseDcn (takeEntry s c) + 1)) (capWords (takeEntry s c))) with
        cap := { s.cap with armAt := some (chooseDcn (takeEntry s c)) } }, .ok (dwords (chooseDcn (takeEntry s c) + 1))) := by
      simp [actCapArm, armStatus_takeEntry (accepts_pcie h), hok, stepping_takeEntry, hsteps]
    exact ⟨_, _, _, rfl, hostCmd_ok h hact (by simp [hsafe]) (by simp [hstop]), by simpa using hge, by simpa [hwin] using hle, rfl, by simp,
      by simp, by simp⟩
  case trigger =>
    have hact : actCapTrigger (takeEntry s c) c
        = ({ takeEntry s c with casc := { (takeEntry s c).casc with drive := s.casc.drive ++ [(0, 2, 15)] } }, .ok []) := by
      simp [actCapTrigger, hmode, hostCascade_lead, isLead_takeEntry, hlead]
    exact ⟨_, rfl, hostCmd_ok h hact (by simp [hsafe]) (by simp [hstop])⟩
  case stop =>
    have hact : actCapStop (takeEntry s c) c
        = ({ takeEntry s c with casc := { (takeEntry s c).casc with drive := s.casc.drive ++ [(1, 7, 15)] } }, .ok []) := by
      simp [actCapStop, capturing_iff, hmode, hostCascade_lead, isLead_takeEntry, hlead]
    exact ⟨_, rfl, hostCmd_ok h hact (by simp [hsafe]) (by simp [hstop])⟩
  case triggerIgnored =>
    exact ⟨_, rfl, hostCmd_ok h (by simp [actCapTrigger, hmode]) (by simp [hsafe]) (by simp [hstop])⟩
  case stopIgnored =>
    exact ⟨_, rfl, hostCmd_ok h (by simp [actCapStop, capturing_iff, harmed, htriggered]) (by simp [hsafe]) (by simp [hstop])⟩
  case read =>
    exact ⟨_, rfl, hostCmd_accept h hroom (by simp [actCapRead, ringReadable_takeEntry, hread]) (by simp [hsafe]) (by simp [hstop])⟩
  case readRefused =>
    have hact : actCapRead (takeEntry s c) c = (takeEntry s c, .refuse 0x0206) := by simp [actCapRead, ringReadable_takeEntry, hread]
    exact ⟨_, rfl, hostCmd_refuse h hact⟩

end Sys2Proof.Machine

namespace Sys2Proof.Machine

/-! ### Churn instruction words (R277) -/

/-- The bits of the ranges of a list, each given by its lowest bit and its width. -/
def rangeBits : List (Nat × Nat) → Word
  | [] => 0
  | g :: gs => BitVec.ofNat 32 ((2 ^ g.2 - 1) * 2 ^ g.1) ||| rangeBits gs

/-- Bit j of a range stands in it. -/
theorem getLsbD_range (lo n j : Nat) (hj : j < 32) :
    (BitVec.ofNat 32 ((2 ^ n - 1) * 2 ^ lo)).getLsbD j = (decide (lo ≤ j) && decide (j - lo < n)) := by
  rw [BitVec.getLsbD_ofNat, Nat.mul_comm, Nat.testBit_two_pow_mul, Nat.testBit_two_pow_sub_one]
  simp [hj]

/-- No bit of a word stands in a range. -/
theorem and_range_eq_zero_iff (w : Word) (lo n : Nat) :
    w &&& BitVec.ofNat 32 ((2 ^ n - 1) * 2 ^ lo) = 0 ↔ w.toNat / 2 ^ lo % 2 ^ n = 0 := by
  have hbit : ∀ i, (w.toNat / 2 ^ lo % 2 ^ n).testBit i = (decide (i < n) && w.getLsbD (lo + i)) := fun i => by
    rw [Nat.testBit_mod_two_pow, ← Nat.shiftRight_eq_div_pow, Nat.testBit_shiftRight, BitVec.getLsbD]
  have hand : ∀ j, j < 32 → (w &&& BitVec.ofNat 32 ((2 ^ n - 1) * 2 ^ lo)).getLsbD j
      = (w.getLsbD j && (decide (lo ≤ j) && decide (j - lo < n))) := fun j hj => by rw [BitVec.getLsbD_and, getLsbD_range lo n j hj]
  constructor
  · intro h
    refine Nat.eq_of_testBit_eq fun i => ?_
    rw [hbit, Nat.zero_testBit]
    by_cases h32 : lo + i < 32
    · have hi := hand (lo + i) h32
      rw [h, Nat.add_sub_cancel_left] at hi
      simpa [Bool.and_comm] using hi.symm
    · simp [BitVec.getLsbD_of_ge w (lo + i) (by omega)]
  · intro h
    refine BitVec.eq_of_getLsbD_eq fun j hj => ?_
    rw [hand j hj]
    by_cases hlo : lo ≤ j
    · have hi := hbit (j - lo)
      rw [h, Nat.zero_testBit, Nat.add_sub_cancel' hlo] at hi
      simpa [hlo, Bool.and_comm] using hi.symm
    · simp [hlo]

/-- Every bit that a mask leaves out is 0, where the mask leaves out the bits of some ranges. -/
theorem only_iff_ranges {mask : Word} (gaps : List (Nat × Nat)) (h : ~~~mask = rangeBits gaps) (w : Word) :
    Decode.only w mask = true ↔ ∀ g ∈ gaps, w.toNat / 2 ^ g.1 % 2 ^ g.2 = 0 := by
  rw [Decode.only, beq_iff_eq, h]
  clear h
  induction gaps with
  | nil => simp [rangeBits]
  | cons g gs ih =>
    have hor : ∀ a b : Word, w &&& (a ||| b) = 0 ↔ w &&& a = 0 ∧ w &&& b = 0 := fun a b => by
      rw [BitVec.and_or_distrib_left]; exact BitVec.or_eq_zero_iff
    rw [rangeBits, hor, ih, and_range_eq_zero_iff, List.forall_mem_cons]

/-- The number of a word of an opcode and fields that do not reach into the opcode. -/
theorem toNat_word {k : Nat} {fs : List (Nat × Nat)} (hk : k < 64) (hfs : (fs.map (fun f => f.2 * 2 ^ f.1)).sum < 2 ^ 26) :
    (Decode.word k fs).toNat = k * 2 ^ 26 + (fs.map (fun f => f.2 * 2 ^ f.1)).sum := by
  rw [Decode.word, BitVec.toNat_ofNat, Nat.mod_eq_of_lt (by omega)]

/-- The opcode of such a word. -/
theorem word_opcode {k : Nat} {fs : List (Nat × Nat)} (hk : k < 64) (hfs : (fs.map (fun f => f.2 * 2 ^ f.1)).sum < 2 ^ 26) :
    (Decode.word k fs).toNat >>> 26 = k := by
  rw [toNat_word hk hfs, Nat.shiftRight_eq_div_pow]; omega

/-- The ranges that R277 leaves unnamed beside the opcode, for each mask of its table. -/
theorem only_mask_iff (w : Word) :
    (Decode.only w (0xFC000000 ||| 0) = true ↔ w.toNat / 2 ^ 0 % 2 ^ 26 = 0)
    ∧ (Decode.only w (0xFC000000 ||| 0x038FFFFF) = true ↔ w.toNat / 2 ^ 20 % 2 ^ 3 = 0)
    ∧ (Decode.only w (0xFC000000 ||| 0x03800FFF) = true ↔ w.toNat / 2 ^ 12 % 2 ^ 11 = 0)
    ∧ (Decode.only w (0xFC000000 ||| 0x03FE0000) = true ↔ w.toNat / 2 ^ 0 % 2 ^ 17 = 0)
    ∧ (Decode.only w (0xFC000000 ||| 0x03F0FFFF) = true ↔ w.toNat / 2 ^ 16 % 2 ^ 4 = 0)
    ∧ (Decode.only w (0xFC000000 ||| 0x00700003) = true ↔ w.toNat / 2 ^ 2 % 2 ^ 18 = 0 ∧ w.toNat / 2 ^ 23 % 2 ^ 3 = 0)
    ∧ (Decode.only w (0xFC000000 ||| 0x03800003) = true ↔ w.toNat / 2 ^ 2 % 2 ^ 21 = 0)
    ∧ (Decode.only w (0xFC000000 ||| 0x00001F1F) = true ↔ w.toNat / 2 ^ 5 % 2 ^ 3 = 0 ∧ w.toNat / 2 ^ 13 % 2 ^ 13 = 0)
    ∧ (Decode.only w (0xFC000000 ||| 0x0000001F) = true ↔ w.toNat / 2 ^ 5 % 2 ^ 21 = 0)
    ∧ (Decode.only w (0xFC000000 ||| 0x00000001) = true ↔ w.toNat / 2 ^ 1 % 2 ^ 25 = 0)
    ∧ (Decode.only w (0xFC000000 ||| 0x03801FFF) = true ↔ w.toNat / 2 ^ 13 % 2 ^ 10 = 0)
    ∧ (Decode.only w (0xFC000000 ||| 0x00001FFF) = true ↔ w.toNat / 2 ^ 13 % 2 ^ 13 = 0)
    ∧ (Decode.only w (0xFC000000 ||| 0x03800001) = true ↔ w.toNat / 2 ^ 1 % 2 ^ 22 = 0)
    ∧ (Decode.only w (0xFC000000 ||| 0x000003FF) = true ↔ w.toNat / 2 ^ 10 % 2 ^ 16 = 0)
    ∧ (Decode.only w (0xFC000000 ||| 0x03F07FFF) = true ↔ w.toNat / 2 ^ 15 % 2 ^ 5 = 0)
    ∧ (Decode.only w (0xFC000000 ||| 0x00000FFF) = true ↔ w.toNat / 2 ^ 12 % 2 ^ 14 = 0) :=
  ⟨(only_iff_ranges [(0, 26)] rfl w).trans (by simp), (only_iff_ranges [(20, 3)] rfl w).trans (by simp),
    (only_iff_ranges [(12, 11)] rfl w).trans (by simp), (only_iff_ranges [(0, 17)] rfl w).trans (by simp),
    (only_iff_ranges [(16, 4)] rfl w).trans (by simp), (only_iff_ranges [(2, 18), (23, 3)] rfl w).trans (by simp),
    (only_iff_ranges [(2, 21)] rfl w).trans (by simp), (only_iff_ranges [(5, 3), (13, 13)] rfl w).trans (by simp),
    (only_iff_ranges [(5, 21)] rfl w).trans (by simp), (only_iff_ranges [(1, 25)] rfl w).trans (by simp),
    (only_iff_ranges [(13, 10)] rfl w).trans (by simp), (only_iff_ranges [(13, 13)] rfl w).trans (by simp),
    (only_iff_ranges [(1, 22)] rfl w).trans (by simp), (only_iff_ranges [(10, 16)] rfl w).trans (by simp),
    (only_iff_ranges [(15, 5)] rfl w).trans (by simp), (only_iff_ranges [(12, 14)] rfl w).trans (by simp)⟩

/-- The number of a field of a word. -/
theorem toNat_bits (w : Word) (lo n : Nat) : (Decode.bits w lo n).toNat = w.toNat / 2 ^ lo % 2 ^ n := by
  rw [Decode.bits, BitVec.toNat_ofNat, Nat.shiftRight_eq_div_pow]

/-- A word is the one of its opcode and fields. -/
theorem word_eq {k : Nat} {fs : List (Nat × Nat)} {w : Word} (h : w.toNat = k * 2 ^ 26 + (fs.map (fun f => f.2 * 2 ^ f.1)).sum) :
    Decode.word k fs = w := by
  rw [Decode.word, ← h, BitVec.ofNat_toNat, BitVec.setWidth_eq]

/-- What the fields of a word contribute, one after another. -/
theorem fields_cons (lo v : Nat) (fs : List (Nat × Nat)) :
    (((lo, v) :: fs).map (fun f => f.2 * 2 ^ f.1)).sum = v * 2 ^ lo + (fs.map (fun f => f.2 * 2 ^ f.1)).sum := by
  rw [List.map_cons, List.sum_cons]

theorem fields_nil : (([] : List (Nat × Nat)).map (fun f => f.2 * 2 ^ f.1)).sum = 0 := by rw [List.map_nil, List.sum_nil]

/-- What a word decodes to encodes to that word: its opcode, its fields, and the bits that must be 0 make the whole of it. -/
theorem encode_of_churn {d : Nat} {w : Word} {i : Instr} (h : Decode.churn d w = some i) :
    Decode.encode i = some w ∧ Decode.churnDie i = some d := by
  have hw := w.isLt
  unfold Decode.churn at h
  dsimp only at h
  split at h
  case h_26 => exact absurd h (by simp)
  all_goals
    next hop =>
    rw [Nat.shiftRight_eq_div_pow] at hop
    obtain ⟨hmask, hi⟩ := Option.ite_none_right_eq_some.mp h
    obtain rfl := Option.some.inj hi
    simp only [only_mask_iff] at hmask
    refine ⟨congrArg some (word_eq ?_), rfl⟩
    simp only [Decode.ka, Decode.kb, Decode.kc, toNat_bits, fields_cons, fields_nil]
    omega

/-- Every churn instruction has a word, and that word decodes to it. -/
theorem churn_encode (i : Instr) : match Decode.churnDie i with
    | some d => ∃ w, Decode.encode i = some w ∧ Decode.churn d w = some i
    | none => Decode.encode i = none := by
  cases i
  case nop | halt | ldi | sethi | add | addi | setp | getp | setsh | clra | mac | macs | suma | sta | ldz | ldk | stk | max | min | getm |
    repeatN | br | jmp | out | getw =>
    refine ⟨_, rfl, ?_⟩
    generalize hword : Decode.word _ _ = w
    have hw := congrArg BitVec.toNat hword
    rw [toNat_word (by decide) (by simp only [fields_cons, fields_nil]; omega)] at hw
    norm_num only [fields_cons, fields_nil] at hw
    have hop : _ = w.toNat >>> 26 := hword ▸ (word_opcode (by decide) (by simp only [fields_cons, fields_nil]; omega)).symm
    simp only [Decode.churn, ← hop]
    clear hop hword
    refine (if_pos ?_).trans (congrArg some ?_)
    · simp only [only_mask_iff]; omega
    · congr <;>
      · refine BitVec.eq_of_toNat_eq ?_
        simp only [Decode.ka, Decode.kb, Decode.kc, toNat_bits]
        omega
  all_goals rfl

/-- Settles O2: the word of each instruction has its opcode, no bit outside its fields, and its operands in them. -/
theorem churnWordsDecodeToWhatTheyEncode : Obligations.ChurnWordsDecodeToWhatTheyEncode := by
  unfold Obligations.ChurnWordsDecodeToWhatTheyEncode
  exact churn_encode

/-- A reserved opcode decodes to nothing. -/
theorem churn_reserved (d : Nat) {w : Word} (h : 0x19 ≤ w.toNat >>> 26) : Decode.churn d w = none := by
  unfold Decode.churn
  dsimp only
  split
  case h_26 => rfl
  all_goals next hop => exact absurd h (by omega)

/-- Settles O3: an opcode from 0x19 on reaches no branch of the decoder, and each branch takes the bits that its fields do not hold to be 0. -/
theorem reservedChurnWordsDecodeToNothing : Obligations.ReservedChurnWordsDecodeToNothing := by
  unfold Obligations.ReservedChurnWordsDecodeToNothing
  exact fun d w => ⟨churn_reserved d, fun i => encode_of_churn⟩

end Sys2Proof.Machine

namespace Sys2Proof.Machine

/-! ### An engine and the state around it (R266 to R279) -/

@[simp] theorem chnOf_setChn (s : State) (d : Nat) (c : ChurnDie) : chnOf (setChn s d c) d = some c := lookup_put_same _ _ _

theorem chnOf_setChn_other (s : State) {d o : Nat} (c : ChurnDie) (h : o ≠ d) : chnOf (setChn s d c) o = chnOf s o := lookup_put_other _ _ _ _ h

@[simp] theorem setChn_setChn (s : State) (d : Nat) (c e : ChurnDie) : setChn (setChn s d c) d e = setChn s d e := by simp [setChn]

@[simp] theorem reg_setChn (s : State) (d k : Nat) (c : ChurnDie) : reg (setChn s d c) k = reg s k := rfl
@[simp] theorem chnOf_setReg (s : State) (d k : Nat) (w : Word) : chnOf (setReg s k w) d = chnOf s d := rfl
@[simp] theorem chnOf_orChnStatus (s : State) (d o bits : Nat) : chnOf (orChnStatus s d bits) o = chnOf s o := rfl
@[simp] theorem chnOf_bump (s : State) (d k w n : Nat) : chnOf (bump s k w n) d = chnOf s d := rfl

/-- Registers that CHN_STATUS is not keep what they held. -/
theorem reg_orChnStatus_other (s : State) (d bits : Nat) {k : Nat} (h : k ≠ rkey d 0x07 0x004) : reg (orChnStatus s d bits) k = reg s k :=
  reg_setReg_other _ _ _ _ h

/-- A bit that is set in CHN_STATUS reads set. -/
theorem bitOf_orChnStatus (s : State) (d bits : Nat) {i : Nat} (hi : i < 32) (h : bitOf bits i = true) :
    bitOf (reg (orChnStatus s d bits) (rkey d 0x07 0x004)).toNat i = true := by
  have hbits : bits.testBit i = true := h
  rw [orChnStatus, reg_setReg_same, bitOf, BitVec.testBit_toNat, BitVec.getLsbD_or, BitVec.getLsbD_ofNat, hbits]
  simp [hi]

/-! ### Coming to an instruction (R266, R268, R513) -/

theorem engineDue_eq_some {s : State} {d : Nat} {i : Instr} {cost : Nat} {c : ChurnDie} (h : engineDue s d i cost = some c) :
    chnOf s d = some c ∧ c.m.running = true ∧ instrAt c d c.m.pc = some i ∧ c.m.used + fetchCost c.m c.m.pc + cost ≤ c.m.avail := by
  unfold engineDue at h
  split at h
  · next e he =>
    obtain ⟨hdue, rfl⟩ := Option.ite_none_right_eq_some.mp h |>.imp_right Option.some.inj
    simp only [Bool.and_eq_true, beq_iff_eq, decide_eq_true_eq] at hdue
    exact ⟨he, hdue.1.1, hdue.1.2, hdue.2⟩
  · exact absurd h (by simp)

theorem engineAt_eq_some {s : State} {d : Nat} {i : Instr} {cost : Nat} {c : ChurnDie} (h : engineAt s d i cost = some c) :
    engineDue s d i cost = some c ∧ poisonMet c d i = none := by
  unfold engineAt at h
  split at h
  · next e he =>
    obtain ⟨hp, rfl⟩ := Option.ite_none_left_eq_some.mp h |>.imp_right Option.some.inj
    exact ⟨he, by simpa using hp⟩
  · exact absurd h (by simp)

theorem poisonMet_clean {c : ChurnDie} (h : c.poison = []) (d : Nat) (i : Instr) : poisonMet c d i = none := by simp [poisonMet, h]

theorem wroteWords_clean {c : ChurnDie} (h : c.poison = []) (ws : List Nat) : wroteWords c ws = c := by
  have : c = { c with poison := [] } := by rw [← h]
  simp [wroteWords, h, ← this]

/-- An engine that is within its budget goes on. -/
theorem budgetStop_within {s : State} {d : Nat} {c : ChurnDie} (hc : chnOf s d = some c) (hb : c.m.used < budget s c.m.wexp) :
    budgetStop s d = s := by
  have : ¬ budget s c.m.wexp ≤ c.m.used := by omega
  simp [budgetStop, hc, this]

/-! ### The engine after an instruction -/

/-- The machine with the saturation flags of the window joined to those that the instruction set. -/
def joinFlags (c : ChurnDie) (m : ChurnMach) : ChurnMach :=
  { m with xSat := m.xSat || c.m.xSat, accSat := m.accSat || c.m.accSat, zSat := m.zSat || c.m.zSat }

theorem landed_eq (s : State) (d : Nat) (c : ChurnDie) (m : ChurnMach) :
    landed s d c m = setChn (if m.xSat || m.accSat || m.zSat then orChnStatus s d (4 * b2n m.xSat + 8 * b2n m.accSat + 16 * b2n m.zSat) else s)
      d { c with m := joinFlags c m } := rfl

@[simp] theorem chnOf_landed (s : State) (d : Nat) (c : ChurnDie) (m : ChurnMach) :
    chnOf (landed s d c m) d = some { c with m := joinFlags c m } := chnOf_setChn _ _ _

/-- Beside its engine an instruction changes CHN_STATUS alone. -/
theorem landed_frame (s : State) (d : Nat) (c : ChurnDie) (m : ChurnMach) :
    (∀ o, o ≠ d → chnOf (landed s d c m) o = chnOf s o) ∧ (∀ k, k ≠ rkey d 0x07 0x004 → reg (landed s d c m) k = reg s k)
    ∧ landed s d c m = { s with chn := (landed s d c m).chn, regs := (landed s d c m).regs } := by
  rw [landed_eq]
  refine ⟨fun o ho => ?_, fun k hk => ?_, ?_⟩
  · rw [chnOf_setChn_other _ _ ho]; split <;> simp
  · rw [reg_setChn]; split
    · exact reg_orChnStatus_other _ _ _ hk
    · rfl
  · split <;> rfl

/-- The flags that an instruction sets stand in CHN_STATUS: X_SAT, ACC_SAT and Z_SAT (R272 to R274). -/
theorem landed_status (s : State) (d : Nat) (c : ChurnDie) (m : ChurnMach) :
    (m.xSat = true → bitOf (reg (landed s d c m) (rkey d 0x07 0x004)).toNat 2 = true)
    ∧ (m.accSat = true → bitOf (reg (landed s d c m) (rkey d 0x07 0x004)).toNat 3 = true)
    ∧ (m.zSat = true → bitOf (reg (landed s d c m) (rkey d 0x07 0x004)).toNat 4 = true) := by
  rw [landed_eq]
  refine ⟨fun h => ?_, fun h => ?_, fun h => ?_⟩ <;>
  · rw [reg_setChn, if_pos (by simp [h])]
    refine bitOf_orChnStatus _ _ _ (by decide) ?_
    rw [h]
    cases m.xSat <;> cases m.accSat <;> cases m.zSat <;> rfl

/-- An instruction leaves WIN_EXP alone and counts the cycles of its fetch and its own. -/
def ranFor (m n : ChurnMach) (cost : Nat) : Prop := n.used = m.used + fetchCost m m.pc + cost ∧ n.wexp = m.wexp

/-- The saturation flags of the window stand as they stood. -/
def sameFlags (m n : ChurnMach) : Prop := n.xSat = m.xSat ∧ n.accSat = m.accSat ∧ n.zSat = m.zSat

/-- An engine that an instruction leaves within its budget goes on. -/
theorem budgetStop_landed {s : State} {c : ChurnDie} {m : ChurnMach} (d : Nat) (h : m.used < budget s m.wexp) :
    budgetStop (landed s d c m) d = landed s d c m := by
  have hdepth : budget (landed s d c m) = budget s := by rw [(landed_frame s d c m).2.2]; rfl
  exact budgetStop_within (chnOf_landed ..) (by rw [hdepth]; exact h)

/-- An instruction within the budget has its effect, and the engine goes on. -/
theorem churnRow_ready {s : State} {d : Nat} {i : Instr} {cost : Nat} {c : ChurnDie} {f : ChurnMach → ChurnMach} (h : engineReady s d i cost c)
    (hf : ranFor c.m (f (fetched c.m cost)) cost) : churnRow s d i cost f = .next (landed s d c (f (fetched c.m cost))) := by
  obtain ⟨hat, hbudget, hclean⟩ := h
  obtain ⟨hused, hwexp⟩ := hf
  rw [churnRow, hat]
  dsimp only
  rw [wroteWords_clean hclean, budgetStop_landed]
  rwa [hused, hwexp]

/-- An instruction that sets no saturation flag changes the machine of its engine alone. -/
theorem churnRow_sets {s : State} {d : Nat} {i : Instr} {cost : Nat} {c : ChurnDie} {f : ChurnMach → ChurnMach} {n : ChurnMach}
    (h : engineReady s d i cost c) (hf : f (fetched c.m cost) = { n with xSat := false, accSat := false, zSat := false })
    (hn : ranFor c.m n cost) (hflags : sameFlags c.m n) : churnRow s d i cost f = .next (setChn s d { c with m := n }) := by
  obtain ⟨hx, hacc, hz⟩ := hflags
  rw [churnRow_ready h (by rw [hf]; exact hn), landed_eq, hf]
  simp only [Bool.or_false, Bool.false_eq_true, if_false, joinFlags, Bool.false_or, ← hx, ← hacc, ← hz]

end Sys2Proof.Machine

namespace Sys2Proof.Machine

/-! ### The register instructions (R276 to R279) -/

/-- SETHI's immediate stands above the low 20 bits that the register keeps. -/
theorem sethi_value (k : Word) (v : BitVec 12) :
    BitVec.ofNat 32 (k.toNat % 2 ^ 20 + v.toNat * 2 ^ 20) = (v.setWidth 32 <<< 20) ||| (k.setWidth 20).setWidth 32 := by
  have hv := v.isLt
  have hlow : k.toNat % 2 ^ 20 < 2 ^ 20 := Nat.mod_lt _ (by decide)
  refine BitVec.eq_of_toNat_eq ?_
  rw [BitVec.toNat_or, BitVec.toNat_shiftLeft, BitVec.toNat_setWidth, BitVec.toNat_setWidth, BitVec.toNat_setWidth, BitVec.toNat_ofNat,
    Nat.mod_eq_of_lt (a := v.toNat) (by omega), Nat.mod_eq_of_lt (a := k.toNat % 2 ^ 20) (b := 2 ^ 32) (by omega), Nat.shiftLeft_eq,
    Nat.mod_eq_of_lt (a := v.toNat * 2 ^ 20) (by omega), Nat.mod_eq_of_lt (by omega), ← Nat.shiftLeft_eq, ← Nat.shiftLeft_add_eq_or_of_lt hlow]
  omega

/-- A row whose operand is not reserved is a plain row. -/
theorem churnRowOk_true (s : State) (d : Nat) (i : Instr) (cost : Nat) (f : ChurnMach → ChurnMach) :
    churnRowOk true s d i cost f = churnRow s d i cost f := by simp [churnRowOk]

/-- The engine of an instruction that is ready is the die's. -/
theorem engineReady_chnOf {s : State} {d : Nat} {i : Instr} {cost : Nat} {c : ChurnDie} (h : engineReady s d i cost c) : chnOf s d = some c :=
  (engineDue_eq_some (engineAt_eq_some h.1).1).1

theorem execBr_eq {s : State} {d : Nat} {c : ChurnDie} (h : chnOf s d = some c) (a b k : BitVec 3) (v : BitVec 12) :
    execBr d a b k v s = churnRowOk (Instr.condOk k) s d (.br d a b k v) (if brTaken k (kGet c.m a) (kGet c.m b) then 2 else 1)
      (fun m => if brTaken k (kGet c.m a) (kGet c.m b) then { m with pc := v.toNat } else m) := by
  simp only [execBr, h]

/-- What O42 says of an instruction whose results another statement gives. -/
theorem churnRow_past {s : State} {d : Nat} {i : Instr} {cost : Nat} {c : ChurnDie} {f : ChurnMach → ChurnMach}
    (h : engineReady s d i cost c) (hf : ranFor c.m (f (fetched c.m cost)) cost) (hpc : (f (fetched c.m cost)).pc = (c.m.pc + 1) % 4096) :
    ∃ t n, churnRow s d i cost f = .next t ∧ chnOf t d = some { c with m := n } ∧ n.pc = (c.m.pc + 1) % 4096
      ∧ n.used = c.m.used + fetchCost c.m c.m.pc + cost :=
  ⟨_, _, churnRow_ready h hf, chnOf_landed .., hpc, hf.1⟩

/-- Settles O42: each instruction is its row of the table; none of the first group sets a saturation flag. -/
theorem churnRegisterInstructions : Obligations.ChurnRegisterInstructions := by
  unfold Obligations.ChurnRegisterInstructions
  intro s d c
  dsimp only
  refine ⟨fun h => ?nop, fun a v h => ?ldi, fun a v h => ?sethi, fun a b k h => ?add, fun a b v h => ?addi, fun b h => ?setpX,
    fun b h => ?setpY, fun b h => ?setpZ, fun a p hp h => ?getp, fun x z h => ?setsh, fun h => ?clra, fun a v h => ?ldk, fun a v h => ?stk,
    fun a l h => ?getm, fun a l h => ?getw, fun v h => ?jmp, fun a b k v hk htaken h => ?brTaken, fun a b k v hk htaken h => ?brNot,
    fun h => ?suma, fun h => ?ldz, fun k h => ?max, fun k h => ?min⟩
  case nop | ldi | add | addi | setsh | clra | ldk | stk | jmp => unfold exec; refine churnRow_sets h ?_ ⟨?_, ?_⟩ ⟨?_, ?_, ?_⟩ <;> rfl
  case sethi => rw [← sethi_value]; unfold exec; refine churnRow_sets h ?_ ⟨?_, ?_⟩ ⟨?_, ?_, ?_⟩ <;> rfl
  case setpX | setpY | setpZ => unfold exec; refine (churnRowOk_true ..).trans (churnRow_sets h ?_ ⟨?_, ?_⟩ ⟨?_, ?_, ?_⟩) <;> rfl
  case getp =>
    have hok : Instr.pointerOk p = true := by
      have : p.toNat ≠ 3 := fun e => hp (BitVec.eq_of_toNat_eq e)
      simp only [Instr.pointerOk, decide_eq_true_eq]; omega
    show churnRowOk (Instr.pointerOk p) s d _ 1 _ = _
    rw [hok, churnRowOk_true]
    refine churnRow_sets h ?_ ⟨rfl, rfl⟩ ⟨rfl, rfl, rfl⟩
    simp [ptrGet, kSet, fetched, afterFetch]
  case getm =>
    unfold exec
    refine churnRow_sets h ?_ ⟨rfl, rfl⟩ ⟨rfl, rfl, rfl⟩
    simp [kSet, fetched, afterFetch]
  case getw =>
    unfold exec execGetw
    refine churnRow_sets h ?_ ⟨rfl, rfl⟩ ⟨rfl, rfl, rfl⟩
    simp [kSet, fetched, afterFetch]
  case brTaken =>
    have hok : Instr.condOk k = true := by simpa [Instr.condOk] using hk
    refine (execBr_eq (engineReady_chnOf h) a b k v).trans ?_
    simp only [hok, htaken, churnRowOk_true, if_true]
    refine churnRow_sets h ?_ ⟨?_, ?_⟩ ⟨?_, ?_, ?_⟩ <;> rfl
  case brNot =>
    have hok : Instr.condOk k = true := by simpa [Instr.condOk] using hk
    refine (execBr_eq (engineReady_chnOf h) a b k v).trans ?_
    simp only [hok, htaken, churnRowOk_true, Bool.false_eq_true, if_false]
    refine churnRow_sets h ?_ ⟨?_, ?_⟩ ⟨?_, ?_, ?_⟩ <;> rfl
  case suma | ldz | max | min => unfold exec; exact churnRow_past h ⟨rfl, rfl⟩ rfl

end Sys2Proof.Machine

namespace Sys2Proof.Machine

/-! ### Reserved encodings (R277, R281) -/

/-- An engine without poison that is not about to execute an instruction stays as it is. -/
theorem engineElse_clean {s : State} {d : Nat} (h : ∀ e, chnOf s d = some e → e.poison = []) (i : Instr) (cost : Nat) :
    engineElse s d i cost = s := by
  unfold engineElse
  split
  · next c hc => rw [poisonMet_clean (h c (engineDue_eq_some hc).1)]
  · rfl

/-- A reserved operand stops the model when the engine comes to execute it, and has no effect before. -/
theorem churnRowOk_reserved {s : State} {d : Nat} (h : ∀ e, chnOf s d = some e → e.poison = []) (i : Instr) (cost : Nat)
    (f : ChurnMach → ChurnMach) :
    churnRowOk false s d i cost f = if (engineAt s d i cost).isSome then .fault .reservedChurnEncoding else .next s := by
  cases hat : engineAt s d i cost with
  | none => simp [churnRowOk, churnRow, hat, engineElse_clean h]
  | some c => simp [churnRowOk, hat]

/-- An outcome is no fault. -/
def faultFree (o : Host.Outcome State Fault Refusal) : Prop := ∀ f, o ≠ .fault f

theorem faultFree_next (s : State) : faultFree (.next s) := fun _ => by simp

theorem churnRow_faultFree {s : State} {d : Nat} {i : Instr} {cost : Nat} {f : ChurnMach → ChurnMach} : faultFree (churnRow s d i cost f) := by
  unfold churnRow
  split <;> exact faultFree_next _

theorem churnRowOk_faultFree {ok : Bool} {s : State} {d : Nat} {i : Instr} {cost : Nat} {f : ChurnMach → ChurnMach} (h : ok = true) :
    faultFree (churnRowOk ok s d i cost f) := by
  rw [h, churnRowOk_true]
  exact churnRow_faultFree

/-- REPEAT repeats the seven instructions of R281. -/
theorem repeatOp_eq_none {i : Instr} (h : Instr.repeatable i = false) : repeatOp i = none := by
  unfold repeatOp
  split
  case h_8 => rfl
  all_goals exact absurd h (by simp [Instr.repeatable])

/-- REPEAT of anything else ends in the fault. -/
theorem execRepeatN_reserved {s : State} {d : Nat} {n : BitVec 10} {c : ChurnDie}
    (hat : engineAt s d (.repeatN d n) (1 + fetchCost { c.m with cache := cacheAfter c.m c.m.pc } ((c.m.pc + 1) % 4096) + (n.toNat + 1)) = some c)
    (h : ∀ i, instrAt c d ((c.m.pc + 1) % 4096) = some i → Instr.repeatable i = false ∨ Instr.wellFormed i = false) :
    execRepeatN d n s = .fault .reservedChurnEncoding := by
  have hc := (engineDue_eq_some (engineAt_eq_some hat).1).1
  simp only [execRepeatN, hc, hat]
  cases hi : instrAt c d ((c.m.pc + 1) % 4096) with
  | none => rfl
  | some i =>
    have hop : (if Instr.wellFormed i then repeatOp i else none) = none := by
      obtain hrep | hwf := h i hi
      · rw [repeatOp_eq_none hrep, ite_self]
      · simp [hwf]
    simp only [hop]

/-- No churn instruction with admitted operands faults, but for REPEAT, which looks at the next one. -/
theorem exec_churn_faultFree {i : Instr} {s : State} (hwf : Instr.wellFormed i = true) (hrep : ∀ e n, i ≠ .repeatN e n)
    (hdie : Decode.churnDie i ≠ none) : faultFree (exec i s) := by
  cases i
  case repeatN d n => exact absurd rfl (hrep d n)
  case halt d => show faultFree (execHalt d s); unfold execHalt; split <;> exact faultFree_next _
  case out d n => show faultFree (execOut d n s); unfold execOut; dsimp only; split <;> exact faultFree_next _
  case getw d a l => show faultFree (execGetw d a l s); unfold execGetw; exact churnRow_faultFree
  case nop | ldi | sethi | add | addi | setsh | clra | suma | sta | ldz | ldk | stk | max | min | getm | jmp =>
    unfold exec; exact churnRow_faultFree
  case setp | getp | mac | macs | br => unfold exec; exact churnRowOk_faultFree hwf
  all_goals exact absurd rfl hdie

/-- Settles O47: the rows with a reserved operand, REPEAT before an instruction that it does not repeat, and the rest. -/
theorem reservedChurnEncodingsStopTheEngine : Obligations.ReservedChurnEncodingsStopTheEngine := by
  unfold Obligations.ReservedChurnEncodingsStopTheEngine
  intro s d
  dsimp only
  refine ⟨fun b hp => ?setp, fun a hp => ?getp, fun y hy hp => ?mac, fun y hy hp => ?macs, fun c a b k v hk hp hc => ?br,
    fun c n hat h => ?repeatN, fun i f hwf hrep hdie => exec_churn_faultFree hwf hrep hdie f⟩
  case setp | getp => unfold exec; exact churnRowOk_reserved hp ..
  case mac | macs =>
    have hok : Instr.ystepOk y = false := by simp only [Instr.ystepOk, decide_eq_false_iff_not]; omega
    show churnRowOk (Instr.ystepOk y) _ _ _ _ _ = _
    rw [hok]
    exact churnRowOk_reserved hp ..
  case br =>
    have hok : Instr.condOk k = false := by simp only [Instr.condOk, decide_eq_false_iff_not]; omega
    refine (execBr_eq hc a b k v).trans ?_
    rw [hok]
    exact churnRowOk_reserved hp ..
  case repeatN =>
    refine execRepeatN_reserved hat fun i hi => ?_
    rw [hi] at h
    exact h

end Sys2Proof.Machine

namespace Sys2Proof.Machine

/-! ### The arithmetic of the engine (R269, R271 to R276) -/

theorem nth_eq_getD {α : Type} (z : α) (xs : List α) (i : Nat) : nth z xs i = xs[i]?.getD z := by
  induction xs generalizing i with
  | nil => simp [nth]
  | cons x xs ih => cases i <;> simp [nth, ih]

/-- An entry of a list that is made from the numbers below n. -/
theorem nth_map_range {α : Type} (z : α) (f : Nat → α) {n l : Nat} (h : l < n) : nth z ((List.range n).map f) l = f l := by
  simp [nth_eq_getD, h]

/-- One of the entries made from the numbers below n satisfies a test. -/
theorem any_map_range {α : Type} (f : Nat → α) (p : α → Bool) (n : Nat) :
    ((List.range n).map f).any p = true ↔ ∃ l, l < n ∧ p (f l) = true := by simp

/-- A number clamped to n-bit two's complement (R273, R274). -/
theorem clampS_eq (n : Nat) (v : Int) : clampS n v = max (-(2 ^ (n - 1))) (min (2 ^ (n - 1) - 1) v) := by
  have hpos : (0 : Int) < 2 ^ (n - 1) := by positivity
  unfold clampS
  push_cast
  generalize (2 : Int) ^ (n - 1) = p at *
  split
  · omega
  · split <;> omega

/-- A clamp changes what lies outside the range. -/
theorem clampS_bne (n : Nat) (v : Int) : (clampS n v != v) = true ↔ v < -(2 ^ (n - 1)) ∨ 2 ^ (n - 1) - 1 < v := by
  have hpos : (0 : Int) < 2 ^ (n - 1) := by positivity
  rw [clampS_eq, bne_iff_ne]
  generalize (2 : Int) ^ (n - 1) = p at *
  omega

/-- The accumulator of a clamped sum. -/
theorem accClamp_toInt (v : Int) : (accClamp v).1.toInt = max (-(2 ^ 55)) (min (2 ^ 55 - 1) v) := by
  rw [← clampS_eq 56, accClamp]
  refine BitVec.toInt_ofInt_eq_self (by decide) ?_ ?_ <;> rw [clampS_eq] <;> norm_num

theorem accClamp_sat (v : Int) : (accClamp v).2 = true ↔ v < -(2 ^ 55) ∨ 2 ^ 55 - 1 < v := clampS_bne 56 v

/-- The X operand of a count (R272). -/
theorem xOperand_eq (xsh x : Nat) :
    xOperand xsh x = (min (2 ^ 23 - 1) (if xsh = 0 then x else (x + 2 ^ (xsh - 1)) / 2 ^ xsh),
      decide (2 ^ 23 - 1 < (if xsh = 0 then x else (x + 2 ^ (xsh - 1)) / 2 ^ xsh))) := by
  simp only [xOperand, beq_iff_eq, Nat.shiftRight_eq_div_pow]

/-- The store value of an accumulator before its clamp (R274). -/
def storeSum (zsh : Nat) (a : BitVec 56) : Int := if zsh = 0 then a.toInt else (a.toInt + 2 ^ (zsh - 1)) / 2 ^ zsh

theorem storeVal_eq (zsh : Nat) (a : BitVec 56) :
    storeVal zsh a = (BitVec.ofInt 32 (clampS 32 (storeSum zsh a)), clampS 32 (storeSum zsh a) != storeSum zsh a) := by
  simp [storeVal, storeSum, Int.shiftRight_eq_div_pow]

theorem storeVal_toInt (zsh : Nat) (a : BitVec 56) :
    (storeVal zsh a).1.toInt = max (-(2 ^ 31)) (min (2 ^ 31 - 1) (storeSum zsh a)) := by
  rw [← clampS_eq 32, storeVal_eq]
  refine BitVec.toInt_ofInt_eq_self (by decide) ?_ ?_ <;> rw [clampS_eq] <;> norm_num

theorem storeVal_sat (zsh : Nat) (a : BitVec 56) : (storeVal zsh a).2 = true ↔ storeSum zsh a < -(2 ^ 31) ∨ 2 ^ 31 - 1 < storeSum zsh a := by
  rw [storeVal_eq]; exact clampS_bne 32 _

/-- A read after several writes: the last one of its key. -/
theorem rd_wrAll_other {n : Nat} (es : List (Nat × BitVec n)) (m : Cells (BitVec n)) (k : Nat) (h : ∀ e ∈ es, k ≠ e.1) :
    rd (wrAll m es) k = rd m k := by
  induction es generalizing m with
  | nil => rfl
  | cons e es ih =>
    obtain ⟨k', v⟩ := e
    rw [wrAll, ih _ fun e he => h e (List.mem_cons_of_mem _ he), rd_wr, if_neg (h (k', v) List.mem_cons_self)]

/-- Writes at different keys are all read back. -/
theorem rd_wrAll_range {n : Nat} (key : Nat → Nat) (val : Nat → BitVec n) (m : Cells (BitVec n)) (N : Nat)
    (hkey : ∀ i j, i < N → j < N → key i = key j → i = j) {l : Nat} (hl : l < N) :
    rd (wrAll m ((List.range N).map (fun i => (key i, val i)))) (key l) = val l := by
  rw [wrAll_eq_foldl]
  induction N with
  | zero => exact absurd hl (Nat.not_lt_zero _)
  | succ N ih =>
    rw [List.range_succ, List.map_append, List.foldl_append]
    simp only [List.map_cons, List.map_nil, List.foldl_cons, List.foldl_nil, rd_wr]
    by_cases h : l = N
    · rw [if_pos (by rw [h]), h]
    · have hlt : l < N := by omega
      rw [if_neg fun e => h (hkey _ _ hl (Nat.lt_succ_self N) e)]
      exact ih (fun i j hi hj => hkey i j (by omega) (by omega)) hlt

end Sys2Proof.Machine

namespace Sys2Proof.Machine

/-- A saturation flag of the window is set where it was, or where an instruction, for which it starts clear, sets it. -/
theorem or_sat_iff {set was : Bool} {p : Prop} (h : set = true ↔ false = true ∨ p) : (set || was) = true ↔ was = true ∨ p := by
  rw [Bool.or_eq_true, h, or_comm]
  simp

/-! ### MAC and MACS (R271 to R273) -/

/-- The X operand of a lane before its clamp. -/
def laneX (m : ChurnMach) (l : Nat) : Nat :=
  let x := (rd m.closedB ((m.px + l) % 2048)).toNat
  if m.xsh = 0 then x else (x + 2 ^ (m.xsh - 1)) / 2 ^ m.xsh

/-- The sum of a lane before its clamp, its coefficient at a Y address. -/
def laneSum (m : ChurnMach) (l y : Nat) : Int :=
  (nth (0 : BitVec 56) m.a l).toInt + ((min (2 ^ 23 - 1) (laneX m l) : Nat) : Int) * coeff (rd m.y (y % 8192))

theorem macLane_eq (m : ChurnMach) (l y : Nat) :
    macLane m l y = ((accClamp (laneSum m l y)).1, decide (2 ^ 23 - 1 < laneX m l), (accClamp (laneSum m l y)).2) := by
  rw [macLane, xOperand_eq]; rfl

/-- What MAC (one coefficient for each lane) and MACS (the same for all) leave in the machine. -/
theorem macOp_spec (perLane : Nat) (ystep : BitVec 5) (m : ChurnMach) :
    (∀ l, l < 16 → (nth (0 : BitVec 56) (macOp perLane ystep m).a l).toInt = max (-(2 ^ 55)) (min (2 ^ 55 - 1) (laneSum m l (m.py + perLane * l))))
    ∧ ((macOp perLane ystep m).xSat = true ↔ m.xSat = true ∨ ∃ l, l < 16 ∧ 2 ^ 23 - 1 < laneX m l)
    ∧ ((macOp perLane ystep m).accSat = true ↔ m.accSat = true
        ∨ ∃ l, l < 16 ∧ (laneSum m l (m.py + perLane * l) < -(2 ^ 55) ∨ 2 ^ 55 - 1 < laneSum m l (m.py + perLane * l))) := by
  refine ⟨fun l hl => ?_, ?_, ?_⟩
  · simp only [macOp, orSat, List.map_map]
    rw [nth_map_range _ _ hl, Function.comp_apply, macLane_eq, accClamp_toInt]
  · simp only [macOp, orSat, Bool.or_eq_true, any_map_range, macLane_eq, decide_eq_true_eq]
  · simp only [macOp, orSat, Bool.or_eq_true, any_map_range, macLane_eq, accClamp_sat]

/-- MAC or MACS of an engine that is ready. -/
theorem macRow_spec {s : State} {d : Nat} {i : Instr} {c : ChurnDie} (perLane : Nat) (y : BitVec 5) (h : engineReady s d i 1 c) :
    ∃ t n, churnRow s d i 1 (macOp perLane y) = .next t ∧ chnOf t d = some { c with m := n }
      ∧ (∀ l, l < 16 → (nth (0 : BitVec 56) n.a l).toInt = max (-(2 ^ 55)) (min (2 ^ 55 - 1) (laneSum c.m l (c.m.py + perLane * l))))
      ∧ (n.xSat = true ↔ c.m.xSat = true ∨ ∃ l, l < 16 ∧ 2 ^ 23 - 1 < laneX c.m l)
      ∧ (n.accSat = true ↔ c.m.accSat = true
          ∨ ∃ l, l < 16 ∧ (laneSum c.m l (c.m.py + perLane * l) < -(2 ^ 55) ∨ 2 ^ 55 - 1 < laneSum c.m l (c.m.py + perLane * l)))
      ∧ ((∃ l, l < 16 ∧ 2 ^ 23 - 1 < laneX c.m l) → bitOf (reg t (rkey d 0x07 0x004)).toNat 2 = true)
      ∧ n = { afterFetch c.m 1 with a := n.a, px := (c.m.px + 16) % 2048, py := (c.m.py + y.toNat) % 8192, xSat := n.xSat, accSat := n.accSat }
      ∧ (∀ o, o ≠ d → chnOf t o = chnOf s o) ∧ (∀ k, k ≠ rkey d 0x07 0x004 → reg t k = reg s k) ∧ t = { s with chn := t.chn, regs := t.regs } := by
  obtain ⟨hlane, hx, hacc⟩ := macOp_spec perLane y (fetched c.m 1)
  obtain ⟨hother, hreg, hstate⟩ := landed_frame s d c (macOp perLane y (fetched c.m 1))
  refine ⟨_, _, churnRow_ready h ⟨rfl, rfl⟩, chnOf_landed .., hlane, or_sat_iff hx, or_sat_iff hacc, fun hclamp => ?_, ?_, hother, hreg, hstate⟩
  · exact (landed_status ..).1 (hx.mpr (.inr hclamp))
  · simp [joinFlags, macOp, orSat, fetched, afterFetch]

theorem exec_mac (s : State) (d : Nat) {y : BitVec 5} (hy : y.toNat ≤ 16) : exec (.mac d y) s = churnRow s d (.mac d y) 1 (macOp 1 y) := by
  show churnRowOk (Instr.ystepOk y) _ _ _ _ _ = _
  rw [show Instr.ystepOk y = true by simpa [Instr.ystepOk] using hy, churnRowOk_true]

theorem exec_macs (s : State) (d : Nat) {y : BitVec 5} (hy : y.toNat ≤ 16) : exec (.macs d y) s = churnRow s d (.macs d y) 1 (macOp 0 y) := by
  show churnRowOk (Instr.ystepOk y) _ _ _ _ _ = _
  rw [show Instr.ystepOk y = true by simpa [Instr.ystepOk] using hy, churnRowOk_true]

/-- Settles O43: MAC takes one coefficient for each lane, MACS one for all. -/
theorem macTakesTheClampedOperand : Obligations.MacTakesTheClampedOperand := by
  unfold Obligations.MacTakesTheClampedOperand
  intro s d c y shared i x xv yv sum hy h
  cases shared with
  | false =>
    have hspec := macRow_spec 1 y h
    simp only [Nat.one_mul] at hspec
    rwa [show i = .mac d y from rfl, exec_mac s d hy]
  | true =>
    have hspec := macRow_spec 0 y h
    simp only [Nat.zero_mul] at hspec
    rwa [show i = .macs d y from rfl, exec_macs s d hy]

end Sys2Proof.Machine

namespace Sys2Proof.Machine

/-! ### STA (R274) -/

/-- STA stores the 16 lanes, or lane 0 alone. -/
def staLanes (md : BitVec 1) : Nat := if md = 0 then 16 else 1

/-- STA as one list of stores. -/
theorem staOp_eq (md : BitVec 1) (m : ChurnMach) :
    staOp md m = orSat
      { m with
        z := wrAll m.z ((List.range (staLanes md)).map (fun l => ((m.pz + l) % 8192, (storeVal m.zsh (nth 0 m.a l)).1)))
        pz := (m.pz + staLanes md) % 8192 }
      false false (((List.range (staLanes md)).map (fun l => storeVal m.zsh (nth 0 m.a l))).any (·.2)) := by
  by_cases h : md = 0
  · simp [staOp, staLanes, h, List.map_map, List.any_map, Function.comp_def]
  · simp only [staOp, beq_iff_eq, staLanes, if_neg h, List.range_one, List.map_singleton, wrAll, List.any_cons, List.any_nil, Bool.or_false,
      Nat.add_zero]

theorem staLanes_le (md : BitVec 1) : staLanes md ≤ 16 := by unfold staLanes; split <;> omega

/-- What STA leaves in the machine. -/
theorem staOp_spec (md : BitVec 1) (m : ChurnMach) :
    (∀ l, l < staLanes md →
      (rd (staOp md m).z ((m.pz + l) % 8192)).toInt = max (-(2 ^ 31)) (min (2 ^ 31 - 1) (storeSum m.zsh (nth 0 m.a l))))
    ∧ (∀ k, (∀ l, l < staLanes md → k ≠ (m.pz + l) % 8192) → rd (staOp md m).z k = rd m.z k)
    ∧ ((staOp md m).zSat = true ↔ m.zSat = true
        ∨ ∃ l, l < staLanes md ∧ (storeSum m.zsh (nth 0 m.a l) < -(2 ^ 31) ∨ 2 ^ 31 - 1 < storeSum m.zsh (nth 0 m.a l))) := by
  have hlanes := staLanes_le md
  rw [staOp_eq]
  refine ⟨fun l hl => ?_, fun k hk => ?_, ?_⟩
  · have hkey : ∀ i j, i < staLanes md → j < staLanes md → (m.pz + i) % 8192 = (m.pz + j) % 8192 → i = j := fun i j hi hj h => by omega
    rw [← storeVal_toInt]
    exact congrArg BitVec.toInt (rd_wrAll_range (fun l => (m.pz + l) % 8192) (fun l => (storeVal m.zsh (nth 0 m.a l)).1) m.z _ hkey hl)
  · refine rd_wrAll_other _ _ _ fun e he => ?_
    obtain ⟨l, hl, rfl⟩ := List.mem_map.mp he
    exact hk l (List.mem_range.mp hl)
  · simp only [orSat, Bool.or_eq_true, any_map_range, storeVal_sat]

/-- Settles O44: the stores of STA, and Z_SAT where one clamps. -/
theorem storesRoundHalfUpAndClamp : Obligations.StoresRoundHalfUpAndClamp := by
  unfold Obligations.StoresRoundHalfUpAndClamp
  intro s d c md v lanes h
  obtain ⟨hstore, hkeep, hsat⟩ := staOp_spec md (fetched c.m 1)
  obtain ⟨hother, hreg, hstate⟩ := landed_frame s d c (staOp md (fetched c.m 1))
  have hrun : ranFor c.m (staOp md (fetched c.m 1)) 1 := by rw [staOp_eq]; exact ⟨rfl, rfl⟩
  refine ⟨_, _, churnRow_ready h hrun, chnOf_landed .., hstore, hkeep, or_sat_iff hsat, fun hclamp => ?status, ?machine, hother, hreg, hstate⟩
  case status => exact (landed_status ..).2.2 (hsat.mpr (.inr hclamp))
  case machine => simp [joinFlags, staOp_eq, orSat, fetched, afterFetch, lanes, staLanes]

end Sys2Proof.Machine

namespace Sys2Proof.Machine

/-! ### SUMA, LDZ, MAX and MIN (R269, R273, R275) -/

/-- One more lane of SUMA's sum, clamped (R273). -/
def sumStep (v : Int) (l : BitVec 56) : Int := max (-(2 ^ 55)) (min (2 ^ 55 - 1) (v + l.toInt))

/-- SUMA's sum of some lanes, and whether one of its sums clamped. -/
def sumFold (ls : List (BitVec 56)) (b : BitVec 56 × Bool) : BitVec 56 × Bool :=
  ls.foldl (fun x l => ((accClamp (x.1.toInt + l.toInt)).1, x.2 || (accClamp (x.1.toInt + l.toInt)).2)) b

/-- The sum is the clamped sum lane by lane, and the flag says that a sum on the way left the range. -/
theorem sumFold_spec (ls : List (BitVec 56)) (b : BitVec 56 × Bool) :
    (sumFold ls b).1.toInt = ls.foldl sumStep b.1.toInt
    ∧ ((sumFold ls b).2 = true ↔ b.2 = true ∨ ∃ j, j < ls.length
      ∧ ((ls.take j).foldl sumStep b.1.toInt + (nth 0 ls j).toInt < -(2 ^ 55) ∨ 2 ^ 55 - 1 < (ls.take j).foldl sumStep b.1.toInt + (nth 0 ls j).toInt)) := by
  induction ls generalizing b with
  | nil => simp [sumFold]
  | cons l ls ih =>
    obtain ⟨hsum, hflag⟩ := ih ((accClamp (b.1.toInt + l.toInt)).1, b.2 || (accClamp (b.1.toInt + l.toInt)).2)
    have hstep : (accClamp (b.1.toInt + l.toInt)).1.toInt = sumStep b.1.toInt l := accClamp_toInt _
    rw [hstep] at hsum hflag
    refine ⟨hsum, hflag.trans ?_⟩
    rw [Bool.or_eq_true, accClamp_sat, or_assoc]
    refine or_congr_right ?_
    constructor
    · rintro (h | ⟨j, hj, h⟩)
      · exact ⟨0, by simp, by simpa [nth] using h⟩
      · exact ⟨j + 1, by simpa using hj, by simpa [nth] using h⟩
    · rintro ⟨j, hj, h⟩
      cases j with
      | zero => exact .inl (by simpa [nth] using h)
      | succ j => exact .inr ⟨j, by simpa using hj, by simpa [nth] using h⟩

theorem sumaOp_eq (m : ChurnMach) : sumaOp m = orSat
    { m with a := (sumFold (m.a.drop 1) (nth 0 m.a 0, false)).1 :: List.replicate 15 0 } false (sumFold (m.a.drop 1) (nth 0 m.a 0, false)).2 false := rfl

/-- What SUMA leaves in the machine. -/
theorem sumaOp_spec (m : ChurnMach) :
    (nth (0 : BitVec 56) (sumaOp m).a 0).toInt = (m.a.drop 1).foldl sumStep (nth (0 : BitVec 56) m.a 0).toInt
    ∧ (∀ l, 1 ≤ l → l < 16 → (nth (0 : BitVec 56) (sumaOp m).a l).toInt = 0)
    ∧ ((sumaOp m).accSat = true ↔ m.accSat = true ∨ ∃ j, j + 1 < m.a.length
        ∧ (((m.a.drop 1).take j).foldl sumStep (nth (0 : BitVec 56) m.a 0).toInt + (nth (0 : BitVec 56) m.a (j + 1)).toInt < -(2 ^ 55)
          ∨ 2 ^ 55 - 1 < ((m.a.drop 1).take j).foldl sumStep (nth (0 : BitVec 56) m.a 0).toInt + (nth (0 : BitVec 56) m.a (j + 1)).toInt)) := by
  obtain ⟨hsum, hflag⟩ := sumFold_spec (m.a.drop 1) (nth 0 m.a 0, false)
  have hnth : ∀ j, nth (0 : BitVec 56) (m.a.drop 1) j = nth 0 m.a (j + 1) := fun j => by simp [nth_eq_getD]
  have hlen : ∀ j, j < (m.a.drop 1).length ↔ j + 1 < m.a.length := fun j => by rw [List.length_drop]; omega
  simp only [hnth, hlen] at hflag
  rw [sumaOp_eq]
  refine ⟨hsum, fun l h1 h16 => ?_, ?_⟩
  · obtain ⟨l, rfl⟩ : ∃ k, l = k + 1 := ⟨l - 1, by omega⟩
    have h15 : l < 15 := by omega
    simp only [orSat, nth]
    rw [nth_eq_getD, List.getElem?_replicate, if_pos h15]
    rfl
  · rw [orSat, Bool.or_eq_true, hflag]
    simp

/-- What LDZ leaves in the machine. -/
theorem ldzOp_spec (m : ChurnMach) :
    (∀ l, l < 16 → (nth (0 : BitVec 56) (ldzOp m).a l).toInt
      = max (-(2 ^ 55)) (min (2 ^ 55 - 1) ((rd m.z ((m.pz + l) % 8192)).toInt * 2 ^ m.zsh)))
    ∧ ((ldzOp m).accSat = true ↔ m.accSat = true ∨ ∃ l, l < 16 ∧ ((rd m.z ((m.pz + l) % 8192)).toInt * 2 ^ m.zsh < -(2 ^ 55)
        ∨ 2 ^ 55 - 1 < (rd m.z ((m.pz + l) % 8192)).toInt * 2 ^ m.zsh)) := by
  refine ⟨fun l hl => ?_, ?_⟩
  · simp only [ldzOp, orSat, List.map_map]
    rw [nth_map_range _ _ hl, Function.comp_apply, accClamp_toInt]
    push_cast
    rfl
  · simp only [ldzOp, orSat, Bool.or_eq_true, any_map_range, accClamp_sat]
    push_cast
    rfl

/-- Of the words below an offset the best under an order, at its lowest offset. -/
def bestBelow (g : Int → Int) (word : Nat → Word) (n : Nat) (b : Word × Nat) : Prop :=
  b.1 = word b.2 ∧ b.2 < n ∧ (∀ j, j < n → g (word j).toInt ≤ g b.1.toInt) ∧ ∀ j, j < b.2 → g (word j).toInt < g b.1.toInt

/-- One after another the words up to an offset are compared with the best so far. -/
theorem bestOf_spec {better : Int → Int → Bool} (g : Int → Int) (hg : ∀ x y, better x y = true ↔ g y < g x) (word : Nat → Word) (n i : Nat)
    (b : Word × Nat) (h : bestBelow g word i b) : bestBelow g word (i + n) (bestOf better ((List.range' i n).map word) i b) := by
  induction n generalizing i b with
  | zero => exact h
  | succ n ih =>
    obtain ⟨hword, hlt, hbest, hfirst⟩ := h
    rw [List.range'_succ, List.map_cons, bestOf, Nat.add_succ, ← Nat.succ_add]
    refine ih (i + 1) _ ?_
    by_cases hb : better (word i).toInt b.1.toInt = true
    · rw [if_pos hb]
      have hnew := (hg _ _).mp hb
      refine ⟨rfl, Nat.lt_succ_self i, fun j hj => ?_, fun j hj => lt_of_le_of_lt (hbest j hj) hnew⟩
      obtain rfl | hlt := Nat.eq_or_lt_of_le (Nat.lt_succ_iff.mp hj)
      · exact le_refl _
      · exact le_of_lt (lt_of_le_of_lt (hbest j hlt) hnew)
    · rw [if_neg hb]
      have hold := not_lt.mp (fun hlt => hb ((hg _ _).mpr hlt))
      refine ⟨hword, Nat.lt_succ_of_lt hlt, fun j hj => ?_, hfirst⟩
      obtain rfl | hlt := Nat.eq_or_lt_of_le (Nat.lt_succ_iff.mp hj)
      · exact hold
      · exact hbest j hlt

/-- The word and the offset that MAX and MIN leave in MVAL and MIDX. -/
theorem extremeOp_spec {better : Int → Int → Bool} (g : Int → Int) (hg : ∀ x y, better x y = true ↔ g y < g x) (n : Nat) (m : ChurnMach) :
    bestBelow g (fun i => rd m.z ((m.pz + i) % 8192)) (n + 1) ((extremeOp better (n + 1) m).mval, (extremeOp better (n + 1) m).midx) := by
  have hstart : bestBelow g (fun i => rd m.z ((m.pz + i) % 8192)) 1 (rd m.z (m.pz % 8192), 0) :=
    ⟨rfl, Nat.one_pos, fun j hj => by obtain rfl := Nat.lt_one_iff.mp hj; exact le_refl _, fun j hj => absurd hj (Nat.not_lt_zero j)⟩
  have hspec := bestOf_spec g hg _ n 1 _ hstart
  rw [Nat.add_comm 1 n] at hspec
  simpa [extremeOp, zWords, List.range_eq_range', List.range'_succ, nth] using hspec

/-- MAX or MIN of an engine that is ready. -/
theorem extremeRow_spec {s : State} {d : Nat} {i : Instr} {cost : Nat} {c : ChurnDie} {better : Int → Int → Bool} (g : Int → Int)
    (hg : ∀ x y, better x y = true ↔ g y < g x) (k : Nat) (h : engineReady s d i cost c) :
    ∃ n, churnRow s d i cost (extremeOp better (k + 1)) = .next (setChn s d { c with m := n })
      ∧ bestBelow g (fun i => rd c.m.z ((c.m.pz + i) % 8192)) (k + 1) (n.mval, n.midx)
      ∧ n = { afterFetch c.m cost with mval := n.mval, midx := n.midx } := by
  refine ⟨extremeOp better (k + 1) (afterFetch c.m cost), churnRow_sets h ?_ ⟨?_, ?_⟩ ⟨?_, ?_, ?_⟩, extremeOp_spec g hg k (afterFetch c.m cost), ?_⟩ <;> rfl

/-- Settles O45: SUMA, LDZ, MAX and MIN of an engine that is ready. -/
theorem sumsLoadsAndExtremesOfTheEngine : Obligations.SumsLoadsAndExtremesOfTheEngine := by
  unfold Obligations.SumsLoadsAndExtremesOfTheEngine
  intro s d c
  dsimp only
  refine ⟨fun h => ?suma, fun h => ?ldz, fun k h => ?max, fun k h => ?min⟩
  case suma =>
    obtain ⟨hsum, hrest, hsat⟩ := sumaOp_spec (fetched c.m 2)
    obtain ⟨hother, hreg, hstate⟩ := landed_frame s d c (sumaOp (fetched c.m 2))
    exact ⟨_, _, churnRow_ready h ⟨rfl, rfl⟩, chnOf_landed .., hsum, hrest, or_sat_iff hsat, fun hclamp => (landed_status ..).2.1 (hsat.mpr (.inr hclamp)),
      hreg, by simp [joinFlags, sumaOp, orSat, fetched, afterFetch], hother, hstate⟩
  case ldz =>
    obtain ⟨hlane, hsat⟩ := ldzOp_spec (fetched c.m 1)
    obtain ⟨hother, hreg, hstate⟩ := landed_frame s d c (ldzOp (fetched c.m 1))
    exact ⟨_, _, churnRow_ready h ⟨rfl, rfl⟩, chnOf_landed .., hlane, or_sat_iff hsat, by simp [joinFlags, ldzOp, orSat, fetched, afterFetch],
      hreg, hother, hstate⟩
  case max =>
    obtain ⟨n, hrow, ⟨hval, hidx, hbest, hfirst⟩, hn⟩ := extremeRow_spec id (better := fun x y => decide (y < x)) (by simp) k.toNat h
    rw [hval] at hbest hfirst
    exact ⟨n, hrow, Nat.lt_succ_iff.mp hidx, congrArg BitVec.toInt hval, fun i hi => hbest i (Nat.lt_succ_of_le hi), hfirst, hn⟩
  case min =>
    obtain ⟨n, hrow, ⟨hval, hidx, hbest, hfirst⟩, hn⟩ := extremeRow_spec Neg.neg (better := fun x y => decide (x < y)) (by simp) k.toNat h
    rw [hval] at hbest hfirst
    exact ⟨n, hrow, Nat.lt_succ_iff.mp hidx, congrArg BitVec.toInt hval, fun i hi => neg_le_neg_iff.mp (hbest i (Nat.lt_succ_of_le hi)),
      fun i hi => neg_lt_neg_iff.mp (hfirst i hi), hn⟩

end Sys2Proof.Machine

namespace Sys2Proof.Machine

/-! ### The churn commands (R262, R282, R284, R370) -/

theorem engineOf_takeEntry (s : State) (c : Cmd) (d : Nat) : engineOf (takeEntry s c) d = engineOf s d := by simp [engineOf, chnOf]

theorem chnOf_takeEntry (s : State) (c : Cmd) (d : Nat) : chnOf (takeEntry s c) d = chnOf s d := by simp [chnOf]

/-- CHN_STATUS is no matter of the command ring. -/
theorem readChn_takeEntry {s : State} {c : Cmd} (h : c.path = .pcie) (d : Nat) : readChn (takeEntry s c) d 4 = readChn s d 4 := by
  have hreg : sv (takeEntry s c) d 0x07 4 = sv s d 0x07 4 := by
    rw [sv, sv, reg_takeEntry h (bkey_ne_rkey (by decide) (by decide) (by decide) (by decide)).symm]
  simp only [readChn, chnOf_takeEntry, hreg]

/-- A reply changes the registers and the host side alone. -/
theorem replied_frame {e t : State} {op : Nat} {c : Cmd} {st : Nat} {ws : List Word} (h : replied e op c st ws t) :
    t = { e with regs := t.regs, io := t.io } := by
  obtain ⟨-, -, -, ht⟩ := h
  rw [ht]

/-- The words of a CHN_MEM_WRITE read as given, the others as before. -/
theorem rd_chnMemPut (m : Cells Word) (c : Cmd) (a : Nat) :
    rd (chnMemPut m c) a
      = if cPar c 1 ≤ a ∧ a < cPar c 1 + cPar c 2 then BitVec.ofNat 32 (cPar c (3 + (a - cPar c 1))) else rd m a := by
  have hput : chnMemPut m c
      = wrAll m ((List.range (cPar c 2)).map (fun j => (cPar c 1 + j, BitVec.ofNat 32 (cPar c (3 + j))))) := by
    rw [wrAll_eq_foldl, List.foldl_map]; rfl
  rw [hput]
  split
  · next h =>
    have hread := rd_wrAll_range (fun j => cPar c 1 + j) (fun j => BitVec.ofNat 32 (cPar c (3 + j))) m (cPar c 2)
      (fun i j _ _ e => Nat.add_left_cancel e) (l := a - cPar c 1) (by omega)
    rwa [Nat.add_sub_cancel' h.1] at hread
  · next h =>
    refine rd_wrAll_other _ _ _ fun e he => ?_
    obtain ⟨j, hj, rfl⟩ := List.mem_map.mp he
    have hlt := List.mem_range.mp hj
    exact fun e => h (by dsimp only at e; omega)

/-- No word of the range of a command is poisoned. -/
theorem chnBad_eq_nil {e : ChurnDie} {c : Cmd}
    (h : ∀ p ∈ e.poison, p < chnWord (cPar c 0) (cPar c 1) ∨ chnWord (cPar c 0) (cPar c 1) + cPar c 2 ≤ p) : chnBad e c = [] := by
  refine List.filter_eq_nil_iff.mpr fun p hp => ?_
  have := h p hp
  simp only [Bool.and_eq_true, decide_eq_true_eq]
  omega

/-- The memory that a command names: program, Y or Z. -/
def chnMemOf (m : Nat) (e : ChurnDie) : Cells Word := if m = 0 then e.prog else if m = 1 then e.m.y else e.m.z

/-- The engine after CHN_MEM_WRITE, where MEM names a memory. -/
def chnMemWritten (e : ChurnDie) (c : Cmd) : ChurnDie :=
  let lo := chnWord (cPar c 0) (cPar c 1)
  let e := { e with poison := e.poison.filter (fun p => p < lo || lo + cPar c 2 ≤ p) }
  match cPar c 0 with
  | 0 => { e with prog := chnMemPut e.prog c, progLen := max e.progLen (cPar c 1 + cPar c 2) }
  | 1 => { e with m := { e.m with y := chnMemPut e.m.y c } }
  | _ => { e with m := { e.m with z := chnMemPut e.m.z c } }

/-- CHN_MEM_WRITE writes the memory that it names and leaves the two others alone. -/
theorem chnMemWritten_spec (e : ChurnDie) (c : Cmd) :
    chnMemOf (cPar c 0) (chnMemWritten e c) = chnMemPut (chnMemOf (cPar c 0) e) c
    ∧ (cPar c 0 ≠ 0 → (chnMemWritten e c).prog = e.prog ∧ (chnMemWritten e c).progLen = e.progLen)
    ∧ (cPar c 0 ≠ 1 → (chnMemWritten e c).m.y = e.m.y) ∧ (cPar c 0 < 2 → (chnMemWritten e c).m.z = e.m.z) := by
  rcases h : cPar c 0 with _ | _ | n <;> simp [chnMemWritten, chnMemOf, h]

/-- An accepted memory command names one of the three memories. -/
theorem chnMem_le_two {s : State} {c : Cmd} {op top : Nat} (h : accepts s op (chkChnMem top) c = true) : cPar c 0 ≤ 2 := by
  have hchk := accepts_chk h
  unfold chkChnMem at hchk
  by_contra hlt
  simp [Nat.not_le.mp hlt] at hchk

/-- Settles O28: each command by what its action is on an accepted packet. -/
theorem churnCommandsReadAndWriteTheEngine : Obligations.ChurnCommandsReadAndWriteTheEngine := by
  unfold Obligations.ChurnCommandsReadAndWriteTheEngine
  intro s c
  dsimp only
  refine ⟨fun h => ?info, fun h => ?ring, fun h hp => ?read, fun h hen hm => ?write, fun h hbusy => ?refused⟩
  all_goals obtain ⟨hsafe, hstop⟩ := accepts_live h
  case info =>
    have hact : actChnInfo (takeEntry s c) c = ({ takeEntry s c with freeCtr := s.freeCtr + 1 },
        .ok ((List.range 8).map (fun d => if d < nDies s then BitVec.ofNat 32 (readChn s d 4) else 0) ++ [Config.freeWord s.freeCtr])) := by
      have hdies : nDies (takeEntry s c) = nDies s := by simp [nDies]
      have hfree : (takeEntry s c).freeCtr = s.freeCtr := by simp
      simp only [actChnInfo, tickFree, readChn_takeEntry (accepts_pcie h), hdies, hfree]
    exact ⟨_, _, rfl, hostCmd_ok h hact (by simp [hsafe]) (by simp [hstop])⟩
  case ring =>
    have hact : actChnRing (takeEntry s c) c = (setChn (takeEntry s c) (cSite c) { engineOf s (cSite c) with
        ring := some (cPar64 c 0, cPar c 2, cPar64 c 3, cPar c 5), ringProd := 0, ringData := [] }, .ok []) := by
      simp only [actChnRing, engineOf_takeEntry]
    exact ⟨_, rfl, hostCmd_ok h hact (by simp [hsafe]) (by simp [setChn, hstop])⟩
  case read =>
    have hact : actChnMemRead (takeEntry s c) c = (takeEntry s c,
        .ok ((List.range (cPar c 2)).map (fun j => rd (chnMemOf (cPar c 0) (engineOf s (cSite c))) (cPar c 1 + j)))) := by
      simp [actChnMemRead, engineOf_takeEntry, chnBad_eq_nil hp, chnMemOf]
    exact ⟨_, rfl, hostCmd_ok h hact (by simp [hsafe]) (by simp [hstop])⟩
  case write =>
    have hact : actChnMemWrite (takeEntry s c) c = (setChn (takeEntry s c) (cSite c) (chnMemWritten (engineOf s (cSite c)) c), .ok []) := by
      have hidle : (chnEn (engineOf s (cSite c)) || (engineOf s (cSite c)).m.en) = false := by simp [hen, hm]
      simp only [actChnMemWrite, engineOf_takeEntry, hidle, Bool.false_eq_true, if_false]
      rfl
    have ht := replied_frame (hostCmd_ok h hact (by simp [hsafe]) (by simp [setChn, hstop]))
    obtain ⟨hmem, hprog, hy, hz⟩ := chnMemWritten_spec (engineOf s (cSite c)) c
    have hchn := congrArg State.chn ht
    refine ⟨_, chnMemWritten (engineOf s (cSite c)) c, rfl, ?_, fun o ho => ?_, fun a => ?_, hprog, hy, fun h2 => hz ?_, ?_⟩
    · rw [chnOf, hchn]; exact lookup_put_same ..
    · rw [chnOf, hchn]; exact (chnOf_setChn_other _ _ ho).trans (chnOf_takeEntry ..)
    · exact (congrArg (rd · a) hmem).trans (rd_chnMemPut _ c a)
    · have := chnMem_le_two h; omega
    · refine ht.trans ?_
      rw [hchn, takeEntry_pcie (accepts_pcie h)]
      rfl
  case refused =>
    have hact : actChnMemWrite (takeEntry s c) c = (takeEntry s c, .refuse 0x0207) := by
      have hb : (chnEn (engineOf s (cSite c)) || (engineOf s (cSite c)).m.en) = true := by simpa using hbusy
      simp only [actChnMemWrite, engineOf_takeEntry, hb, if_true]
    exact ⟨_, rfl, hostCmd_refuse h hact⟩

end Sys2Proof.Machine

namespace Sys2Proof.Machine

/-! ### Writes that reach a site, or do not (R364, R466, R544) -/

theorem siteWrite_held {s : State} (h : s.md.safeHold.isSome = true) (d : Nat) (f : State → State) : siteWrite s d f = s := by
  simp [siteWrite, inSafeHold, h]

theorem siteWrite_spill {s : State} {d : Nat} (h : s.md.safeHold = none) (hd : d ∈ s.net.spill) (f : State → State) :
    siteWrite s d f = countNoc s 0x010 := by
  simp [siteWrite, inSafeHold, h, hd]

theorem siteWrite_open {s : State} {d : Nat} (h : siteOpen s d) (f : State → State) : siteWrite s d f = f s := by
  obtain ⟨hsafe, hspill⟩ := h
  simp [siteWrite, inSafeHold, hsafe, hspill]

/-! ### CHN_CTRL (R265, R267, R284) -/

theorem bitOf_or_one (w : Word) : bitOf (w ||| 1).toNat 0 = true := by
  rw [bitOf, BitVec.testBit_toNat, BitVec.getLsbD_or]
  simp

theorem bitOf_clear_one (w : Word) : bitOf (w &&& ~~~1).toNat 0 = false := by
  rw [bitOf, BitVec.testBit_toNat, BitVec.getLsbD_and]
  simp

/-- EN is no bit of WIN_EXP. -/
theorem winExp_or_one (w : Word) : wfld (w ||| 1) 5 1 = wfld w 5 1 := by
  simp only [wfld, fld, BitVec.toNat_or, Nat.shiftRight_or_distrib]
  rw [show (1 : Word).toNat >>> 1 = 0 from rfl, Nat.or_zero]

/-- WIN_EXP as a write leaves it: as written where it is at most 24. -/
def winExpWritten (w : Word) (c : ChurnDie) : Nat := if wfld w 5 1 ≤ 24 then wfld w 5 1 else chnWexp c

/-- A disabled engine whose WIN_EXP is written. -/
def winExpSet (c : ChurnDie) (x : Nat) : ChurnDie :=
  match c.pend with
  | some _ => { c with pend := some (false, x) }
  | none => { c with m := { c.m with wexp := x } }

theorem chnEn_winExpSet {c : ChurnDie} (h : chnEn c = false) (x : Nat) : chnEn (winExpSet c x) = false := by
  unfold winExpSet
  cases hp : c.pend with
  | some p => rfl
  | none => simpa [chnEn, hp] using h

/-- CHN_ENABLE of a disabled engine. -/
theorem writeChnCtrl_enable {s : State} {d : Nat} (w : Word) (h : chnEn (engineOf s d) = false) :
    writeChnCtrl s d (w ||| 1) =
      if availCycles s (winExpWritten w (engineOf s d)) < 4096 then
        orChnStatus (setChn s d (winExpSet (engineOf s d) (winExpWritten w (engineOf s d)))) d 32
      else if stepping s then setChn s d { engineOf s d with pend := some (true, winExpWritten w (engineOf s d)) }
      else setChn s d (enableEngine (engineOf s d) (winExpWritten w (engineOf s d)) s.seq.dcn) := by
  simp only [writeChnCtrl, bitOf_or_one, winExp_or_one, h, Bool.not_true, Bool.false_eq_true, if_false]
  rfl

theorem writeChnCtrl_enable_enabled {s : State} {d : Nat} (w : Word) (h : chnEn (engineOf s d) = true) : writeChnCtrl s d (w ||| 1) = s := by
  simp only [writeChnCtrl, bitOf_or_one, h, if_true]

/-- CHN_DISABLE of an enabled engine. -/
theorem writeChnCtrl_disable {s : State} {d : Nat} (w : Word) (h : chnEn (engineOf s d) = true) :
    writeChnCtrl s d (w &&& ~~~1) =
      if stepping s then setChn s d { engineOf s d with pend := some (false, chnWexp (engineOf s d)) }
      else setChn s d (disableEngine (engineOf s d) (engineOf s d).m.wexp) := by
  simp only [writeChnCtrl, bitOf_clear_one, h, if_true, Bool.false_eq_true, if_false]

theorem engineOf_setChn (s : State) (d : Nat) (c : ChurnDie) : engineOf (setChn s d c) d = c := by simp [engineOf]

/-- A window of too few cycles enables nothing and sets CHN_STATUS bit 5. -/
theorem writeChnCtrl_short {s : State} {d : Nat} (w : Word) (h : chnEn (engineOf s d) = false)
    (hshort : availCycles s (winExpWritten w (engineOf s d)) < 4096) :
    let t := writeChnCtrl s d (w ||| 1)
    chnEn (engineOf t d) = false ∧ bitOf (reg t (rkey d 0x07 0x004)).toNat 5 = true ∧ (∀ o, o ≠ d → chnOf t o = chnOf s o)
    ∧ t.ds = s.ds ∧ t.md = s.md := by
  rw [writeChnCtrl_enable w h, if_pos hshort]
  refine ⟨?_, bitOf_orChnStatus _ _ _ (by decide) rfl, fun o ho => ?_, rfl, rfl⟩
  · show chnEn (engineOf (setChn s d _) d) = false
    rw [engineOf_setChn]
    exact chnEn_winExpSet h _
  · rw [chnOf_orChnStatus, chnOf_setChn_other _ _ ho]

/-! ### The utility block (R605, R608) -/

theorem bitsWhere_lt (n : Nat) (p : Nat → Bool) : bitsWhere n p < 2 ^ n := by
  induction n with
  | zero => simp [bitsWhere]
  | succ n ih => rw [bitsWhere, pow_succ]; split <;> omega

theorem bitOf_bitsWhere (n : Nat) (p : Nat → Bool) (i : Nat) : bitOf (bitsWhere n p) i = (decide (i < n) && p i) := by
  induction n with
  | zero => simp [bitsWhere, bitOf]
  | succ n ih =>
    rw [bitOf] at ih ⊢
    obtain hlt | rfl | hgt := Nat.lt_trichotomy i n
    · rw [bitsWhere, Nat.add_comm]
      split
      · rw [Nat.testBit_two_pow_add_gt hlt, ih]
        simp [hlt, Nat.lt_succ_of_lt hlt]
      · rw [Nat.zero_add, ih]
        simp [hlt, Nat.lt_succ_of_lt hlt]
    · have hnone : (bitsWhere i p).testBit i = false := Nat.testBit_lt_two_pow (bitsWhere_lt i p)
      rw [bitsWhere, Nat.add_comm]
      split
      · next hp => simp [Nat.testBit_two_pow_add_eq, hnone, hp]
      · next hp => simp [hnone, hp]
    · have hnone : (bitsWhere (n + 1) p).testBit i = false :=
        Nat.testBit_lt_two_pow (Nat.lt_of_lt_of_le (bitsWhere_lt _ p) (Nat.pow_le_pow_right (by decide) hgt))
      rw [hnone, decide_eq_false (by omega), Bool.false_and]

/-- A masked write of UTIL_IOb changes its stored bits alone. -/
theorem writeUtilIo_spec (s : State) (b : Nat) (w : Word) :
    let t := writeUtilIo s b w
    t = { s with regs := t.regs }
    ∧ (∀ i, i < 16 → bitOf (utReg t (0x020 + 4 * b)) i = if bitOf w.toNat (16 + i) then bitOf w.toNat i else bitOf (utReg s (0x020 + 4 * b)) i)
    ∧ ∀ k, k ≠ rkey 15 0x18 (0x020 + 4 * b) → reg t k = reg s k := by
  refine ⟨rfl, fun i hi => ?_, fun k hk => reg_setReg_other _ _ _ _ hk⟩
  have hlt := bitsWhere_lt 16 (fun i => if bitOf w.toNat (16 + i) then bitOf w.toNat i else bitOf (utReg s (0x020 + 4 * b)) i)
  rw [writeUtilIo, utReg, ioReg_setIo_same, Nat.mod_eq_of_lt (by omega), bitOf_bitsWhere]
  simp [hi]

/-- A pin is in HOLD where a hold names it. -/
theorem pinHold_isSome (s : State) (p : Nat) : (pinHold s p).isSome = true ↔ p ∈ s.util.holds.map (·.pin) := by
  simp [pinHold, List.find?_isSome]

/-- The pins in HOLD after a switch: those before it and the one that it names. -/
theorem switchPin_holds (s : State) (ins : List Nat) (p : Nat) :
    (switchPin s ins p).util.holds.map (·.pin) = if (pinHold s p).isSome then s.util.holds.map (·.pin) else s.util.holds.map (·.pin) ++ [p] := by
  unfold switchPin
  dsimp only
  cases hp : pinHold s p with
  | none => simp
  | some h =>
    simp only [List.map_map, Option.isSome_some, if_true]
    refine List.map_congr_left fun h _ => ?_
    simp only [Function.comp_apply]
    split <;> rfl

/-- Every pin that a write switches comes to stand in HOLD, and a pin in HOLD stays there. -/
theorem switchPins_hold (ins ps : List Nat) (s : State) (q : Nat) (h : q ∈ ps ∨ (pinHold s q).isSome = true) :
    (pinHold (ps.foldl (fun a p => switchPin a ins p) s) q).isSome = true := by
  induction ps generalizing s with
  | nil => exact h.resolve_left List.not_mem_nil
  | cons p ps ih =>
    refine ih (switchPin s ins p) ?_
    by_cases hq : q ∈ ps
    · exact .inl hq
    · refine .inr ((pinHold_isSome _ _).mpr ?_)
      have hq' : q = p ∨ q ∈ s.util.holds.map (·.pin) := by
        obtain h | h := h
        · exact .inl ((List.mem_cons.mp h).resolve_right hq)
        · exact .inr ((pinHold_isSome _ _).mp h)
      rw [switchPin_holds]
      split
      · next hp => exact hq'.elim (fun e => e ▸ (pinHold_isSome _ _).mp hp) id
      · exact List.mem_append.mpr (hq'.elim (fun e => .inr (by simp [e])) .inl)

/-- A switch changes the holds of the crossbar alone. -/
theorem switchPins_util (ins ps : List Nat) (s : State) :
    (ps.foldl (fun a p => switchPin a ins p) s).util = { s.util with holds := (ps.foldl (fun a p => switchPin a ins p) s).util.holds } := by
  induction ps generalizing s with
  | nil => rfl
  | cons p ps ih => exact (ih (switchPin s ins p)).trans rfl

/-- A write of UTIL_MAPs stores the map word and holds the pin that the signal leaves and the one that it takes. -/
theorem writeMap_spec (s : State) {n : Nat} (w : Word) (h : sigKind n ≠ 0) :
    let t := writeMap s n w
    utReg t (0x400 + 4 * n) = w.toNat % 128 ∧ (∀ k, k ≠ rkey 15 0x18 (0x400 + 4 * n) → reg t k = reg s k)
    ∧ (sigPin s n ≠ sigPin t n → ∀ p, sigPin s n = some p ∨ sigPin t n = some p → (pinHold t p).isSome = true)
    ∧ t = { s with regs := t.regs, util := { s.util with holds := t.util.holds } } := by
  have hval : w.toNat % 128 % 2 ^ 32 = w.toNat % 128 := by omega
  intro t
  have ht : t = if sigPin s n == sigPin (setIo s 0x18 (0x400 + 4 * n) (w.toNat % 128)) n then setIo s 0x18 (0x400 + 4 * n) (w.toNat % 128)
      else { setIo s 0x18 (0x400 + 4 * n) (w.toNat % 128) with
        util := (((sigPin s n).toList ++ (sigPin (setIo s 0x18 (0x400 + 4 * n) (w.toNat % 128)) n).toList).foldl
          (fun a p => switchPin a (if sigKind n == 2 then [n] else []) p) s).util } := by
    simp only [t, writeMap, beq_iff_eq, h, if_false]
  have hregs : t.regs = (setIo s 0x18 (0x400 + 4 * n) (w.toNat % 128)).regs := by rw [ht]; split <;> rfl
  have hsig : sigPin t n = sigPin (setIo s 0x18 (0x400 + 4 * n) (w.toNat % 128)) n := by
    simp only [sigPin, utReg, ioReg, reg, hregs]
    rfl
  refine ⟨?_, fun k hk => ?_, fun hne p hp => ?_, ?_⟩
  · rw [utReg, ioReg, reg, hregs]
    exact (ioReg_setIo_same s 0x18 (0x400 + 4 * n) (w.toNat % 128)).trans hval
  · rw [reg, hregs]
    exact reg_setReg_other _ _ _ _ hk
  · rw [hsig] at hne hp
    rw [ht, if_neg (by simpa using hne)]
    exact switchPins_hold _ _ s p (.inl (by simpa [eq_comm] using hp))
  · rw [ht]
    split
    · rfl
    · rw [switchPins_util]; rfl

end Sys2Proof.Machine

namespace Sys2Proof.Machine

/-! ### FAB_IOCFG (R393, R396, R405) -/

/-- The word that a write of FAB_IOCFGp stores. -/
def iocfgWritten (s : State) (p : Nat) (w : Word) : Nat :=
  (if s.img.resident.isSome then fieldAny (ioReg s 0x10 (0x100 + 4 * p)) 0 3 else fieldAny w.toNat 0 3)
    + fieldAny w.toNat 3 7 + fieldAny w.toNat 10 7 + fieldAny w.toNat 17 2 + fieldAny w.toNat 19 4

theorem writeIocfg_eq (s : State) {p : Nat} (w : Word) (h : p < 192) :
    writeIocfg s p w = holdPad (setIo s 0x10 (0x100 + 4 * p) (iocfgWritten s p w)) p := by
  rw [writeIocfg, if_neg (by omega)]
  rfl

/-- The delays, pull and CLKSEL of the stored word are the written ones; MODE and DDR only without a resident image. -/
theorem iocfgWritten_fields (s : State) (p : Nat) (w : Word) :
    iocfgWritten s p w < 2 ^ 32 ∧ iocfgWritten s p w / 8 = w.toNat % 2 ^ 23 / 8
    ∧ iocfgWritten s p w % 8 = if s.img.resident.isSome then ioReg s 0x10 (0x100 + 4 * p) % 8 else w.toNat % 8 := by
  have hsum : iocfgWritten s p w = (if s.img.resident.isSome then ioReg s 0x10 (0x100 + 4 * p) % 8 else w.toNat % 8) + w.toNat % 2 ^ 23 / 8 * 8 := by
    simp only [iocfgWritten, fieldAny, fld, Nat.shiftRight_eq_div_pow]
    norm_num
    split <;> omega
  have hlow : (if s.img.resident.isSome then ioReg s 0x10 (0x100 + 4 * p) % 8 else w.toNat % 8) < 8 := by split <;> omega
  omega

/-- A held pad changes the holds of the fabric alone, and only a MODE 3 pin's pad is held. -/
theorem holdPad_spec (s : State) (p : Nat) :
    holdPad s p = { s with fab := { s.fab with logic := { s.fab.logic with holds := (holdPad s p).fab.logic.holds } } }
    ∧ pinMode (holdPad s p) p = pinMode s p ∧ (pinMode s p ≠ 3 → holdPad s p = s) := by
  unfold holdPad
  split
  · exact ⟨rfl, rfl, fun _ => rfl⟩
  · next h =>
    refine ⟨rfl, rfl, fun hm => ?_⟩
    simp [hm] at h

theorem writeIocfg_spec (s : State) {p : Nat} (w : Word) (h : p < 192) :
    let t := writeIocfg s p w
    t = { s with regs := t.regs, fab := { s.fab with logic := { s.fab.logic with holds := t.fab.logic.holds } } }
    ∧ (pinMode t p ≠ 3 → t.fab = s.fab)
    ∧ ioReg t 0x10 (0x100 + 4 * p) / 8 = w.toNat % 2 ^ 23 / 8
    ∧ ioReg t 0x10 (0x100 + 4 * p) % 8 = (if s.img.resident.isSome then ioReg s 0x10 (0x100 + 4 * p) % 8 else w.toNat % 8)
    ∧ ∀ k, k ≠ rkey 15 0x10 (0x100 + 4 * p) → reg t k = reg s k := by
  obtain ⟨hlt, hhigh, hlow⟩ := iocfgWritten_fields s p w
  obtain ⟨hframe, hmode, hsame⟩ := holdPad_spec (setIo s 0x10 (0x100 + 4 * p) (iocfgWritten s p w)) p
  rw [writeIocfg_eq s w h]
  have hregs := congrArg State.regs hframe
  have hval : ioReg (holdPad (setIo s 0x10 (0x100 + 4 * p) (iocfgWritten s p w)) p) 0x10 (0x100 + 4 * p) = iocfgWritten s p w := by
    rw [ioReg, reg, hregs]
    exact (ioReg_setIo_same _ _ _ _).trans (Nat.mod_eq_of_lt hlt)
  refine ⟨hframe.trans ?_, fun hne => ?_, by rw [hval]; exact hhigh, by rw [hval]; exact hlow, fun k hk => ?_⟩
  · rw [hregs]; rfl
  · rw [hsame (hmode ▸ hne)]; rfl
  · rw [reg, hregs]
    exact reg_setReg_other _ _ _ _ hk

/-! ### TRC_CTRL (R571, R575, R578) -/

/-- TRC_ENABLE while EN is clear. -/
theorem writeTrcCtrl_enable (s : State) (w : Word) (h : bitOf (trcCtrl s) 0 = false) :
    let t := writeTrcCtrl s (w ||| 1)
    bitOf (trcCtrl t) 0 = true ∧ t.trc.st = 0 ∧ t.trc.on = false ∧ t.trc.seqs = [] ∧ t.trc.lost = [] ∧ t.trc.data = s.trc.data
    ∧ t = { s with regs := t.regs, trc := t.trc } := by
  simp only [writeTrcCtrl, h, bitOf_or_one, if_true, Bool.false_eq_true, if_false]
  refine ⟨?_, rfl, rfl, rfl, rfl, rfl, rfl⟩
  have hodd : (w ||| 1).toNat % 2 = 1 := by
    have hbit := bitOf_or_one w
    rwa [bitOf, Nat.testBit_zero, decide_eq_true_eq] at hbit
  show bitOf (ioReg (setIo s 0x16 0 _) 0x16 0) 0 = true
  rw [ioReg_setIo_same, bitOf, Nat.testBit_zero, decide_eq_true_eq]
  simp only [wfld, fieldAny, fld, Nat.shiftRight_eq_div_pow]
  generalize (w ||| 1).toNat = v at hodd ⊢
  norm_num
  split <;> omega

/-! ### TIME_CTRL (R566, R569) -/

/-- What a selection of a domain changes and what it keeps. -/
theorem selectDom_spec (s : State) (b : Bool) :
    (selectDom s b).time.domB = b ∧ (selectDom s b).time.sec = s.time.sec ∧ (selectDom s b).time.ns = s.time.ns ∧ (selectDom s b).ds = s.ds
    ∧ ioReg (selectDom s b) 0x15 0x000 = ioReg s 0x15 0x000 := by
  unfold selectDom
  split
  · next h => exact ⟨by simpa using h, rfl, rfl, rfl, rfl⟩
  · dsimp only
    split
    · refine ⟨rfl, rfl, rfl, rfl, ?_⟩
      rw [ioReg_setIo_other _ _ (by decide)]
      exact ioReg_setIo_other _ _ (by decide)
    · exact ⟨rfl, rfl, rfl, rfl, ioReg_setIo_other _ _ (by decide)⟩

theorem writeTimeCtrl_spec (s : State) (w : Word) :
    let t := writeTimeCtrl s w
    ioReg t 0x15 0x000 = w.toNat % 16
    ∧ (bitOf (ioReg s 0x15 0x000) 3 = bitOf w.toNat 3 → t = setIo s 0x15 0x000 (w.toNat % 16))
    ∧ (bitOf (ioReg s 0x15 0x000) 3 ≠ bitOf w.toNat 3 → t.time.domB = bitOf w.toNat 3)
    ∧ t.time.sec = s.time.sec ∧ t.time.ns = s.time.ns ∧ t.ds = s.ds ∧ t.md = s.md := by
  have hstored : ioReg (setIo s 0x15 0x000 (w.toNat % 16)) 0x15 0x000 = w.toNat % 16 := by
    rw [ioReg_setIo_same]; omega
  obtain ⟨hdom, hsec, hns, hds, hio⟩ := selectDom_spec (setIo s 0x15 0x000 (w.toNat % 16)) (bitOf w.toNat 3)
  by_cases hsame : bitOf (ioReg s 0x15 0x000) 3 = bitOf w.toNat 3
  · have ht : writeTimeCtrl s w = setIo s 0x15 0x000 (w.toNat % 16) := by simp [writeTimeCtrl, hsame]
    simp only [ht]
    exact ⟨hstored, fun _ => trivial, fun h => absurd hsame h, rfl, rfl, rfl, rfl⟩
  · have ht : writeTimeCtrl s w = selectDom (setIo s 0x15 0x000 (w.toNat % 16)) (bitOf w.toNat 3) := by simp [writeTimeCtrl, hsame]
    simp only [ht]
    exact ⟨hio.trans hstored, fun h => absurd h hsame, fun _ => hdom, hsec, hns, hds, selectDom_md _ _⟩

/-! ### The commands -/

theorem exec_chnEnable_open {s : State} {d : Nat} (w : Word) (hd : d < nDies s) (h : siteOpen s d) :
    exec (.chnEnable d w) s = .next (writeChnCtrl s d (w ||| 1)) := by
  show execChnEnable d w s = _
  rw [execChnEnable, if_pos hd, siteWrite_open h]

theorem exec_chnDisable_open {s : State} {d : Nat} (w : Word) (hd : d < nDies s) (h : siteOpen s d) :
    exec (.chnDisable d w) s = .next (writeChnCtrl s d (w &&& ~~~1)) := by
  show execChnDisable d w s = _
  rw [execChnDisable, if_pos hd, siteWrite_open h]

theorem exec_utilIoWrite_open {s : State} {b : Nat} (w : Word) (hb : b < 3) (h : siteOpen s 15) :
    exec (.utilIoWrite (0x010 + 4 * b) w) s = .next (writeUtilIo s b w) := by
  have hin : (0x010 ≤ 0x010 + 4 * b && 0x010 + 4 * b < 0x01C && (0x010 + 4 * b) % 4 == 0) = true := by
    simp only [Bool.and_eq_true, decide_eq_true_eq, beq_iff_eq]; omega
  have hblock : (decide (0x010 ≤ 0x010 + 4 * b) && decide (0x010 + 4 * b < 0x01C)) = true := by
    simp only [Bool.and_eq_true, decide_eq_true_eq]; omega
  show execUtilIoWrite _ w s = _
  rw [execUtilIoWrite, if_pos hin, siteWrite_open h, writeUtil, if_neg (by omega), if_pos hblock, show (0x010 + 4 * b - 0x010) / 4 = b by omega]

theorem exec_utilMapWrite_open {s : State} {n : Nat} (w : Word) (hn : n < 256) (h : siteOpen s 15) :
    exec (.utilMapWrite (0x400 + 4 * n) w) s = .next (writeMap s n w) := by
  have hin : (0x400 ≤ 0x400 + 4 * n && 0x400 + 4 * n < 0x800 && (0x400 + 4 * n) % 4 == 0) = true := by
    simp only [Bool.and_eq_true, decide_eq_true_eq, beq_iff_eq]; omega
  show execUtilMapWrite _ w s = _
  rw [execUtilMapWrite, if_pos hin, siteWrite_open h, writeUtil, if_pos (by omega), show (0x400 + 4 * n - 0x400) / 4 = n by omega]

theorem exec_site15_open {s : State} (w : Word) (h : siteOpen s 15) :
    (∀ p, exec (.fabIocfgWrite p w) s = .next (writeIocfg s p w)) ∧ exec (.trcEnable w) s = .next (writeTrcCtrl s (w ||| 1))
    ∧ exec (.timePreferWrite w) s = .next (writeTimeCtrl s w) :=
  ⟨fun p => congrArg Host.Outcome.next (siteWrite_open h fun s => writeIocfg s p w),
    congrArg Host.Outcome.next (siteWrite_open h fun s => writeTrcCtrl s (w ||| 1)),
    congrArg Host.Outcome.next (siteWrite_open h fun s => writeTimeCtrl s w)⟩

/-- SAFE HOLD takes none of the writes (R544). -/
theorem controlWrites_held {s : State} (w : Word) (h : s.md.safeHold.isSome = true) :
    (∀ d, exec (.chnEnable d w) s = .next s ∧ exec (.chnDisable d w) s = .next s)
    ∧ (∀ x, exec (.utilIoWrite x w) s = .next s ∧ exec (.utilMapWrite x w) s = .next s ∧ exec (.fabIocfgWrite x w) s = .next s)
    ∧ exec (.trcEnable w) s = .next s ∧ exec (.timePreferWrite w) s = .next s := by
  have held := siteWrite_held h
  refine ⟨fun d => ⟨?_, ?_⟩, fun x => ⟨?_, ?_, congrArg Host.Outcome.next (held _ _)⟩, congrArg Host.Outcome.next (held _ _),
    congrArg Host.Outcome.next (held _ _)⟩
  · show execChnEnable d w s = _
    rw [execChnEnable, held, ite_self]
  · show execChnDisable d w s = _
    rw [execChnDisable, held, ite_self]
  · show execUtilIoWrite x w s = _
    rw [execUtilIoWrite, held, ite_self]
  · show execUtilMapWrite x w s = _
    rw [execUtilMapWrite, held, ite_self]

/-- Settles O15, by the rule of each control register's write. -/
theorem controlRegisterWrites : Obligations.ControlRegisterWrites := by
  unfold Obligations.ControlRegisterWrites
  refine ⟨fun s w h => controlWrites_held w h, fun s d w hd hsafe hspill => ⟨?_, ?_⟩, fun s d w hd hopen => ?_, fun s w hopen => ?_⟩
  · show execChnEnable d w s = _
    rw [execChnEnable, if_pos hd, siteWrite_spill hsafe hspill]
  · show execChnDisable d w s = _
    rw [execChnDisable, if_pos hd, siteWrite_spill hsafe hspill]
  · rw [exec_chnEnable_open w hd hopen, exec_chnDisable_open w hd hopen]
    intro c x
    refine ⟨fun hoff hlong hstill => ?_, fun hoff hlong hstep => ?_, fun hoff hshort => ⟨_, rfl, writeChnCtrl_short w hoff hshort⟩,
      fun hon => ?_, fun hon hstill => ?_, fun hon hstep => ?_⟩
    · have hwin : ¬ availCycles s (winExpWritten w (engineOf s d)) < 4096 := Nat.not_lt.mpr hlong
      rw [writeChnCtrl_enable w hoff, if_neg hwin, if_neg (by simp [hstill])]
      rfl
    · have hwin : ¬ availCycles s (winExpWritten w (engineOf s d)) < 4096 := Nat.not_lt.mpr hlong
      rw [writeChnCtrl_enable w hoff, if_neg hwin, if_pos hstep]
      rfl
    · rw [writeChnCtrl_enable_enabled w hon]
    · rw [writeChnCtrl_disable w hon, if_neg (by simp [hstill])]
    · rw [writeChnCtrl_disable w hon, if_pos hstep]
  · obtain ⟨hio, htrc, htime⟩ := exec_site15_open w hopen
    refine ⟨fun b hb => ⟨_, exec_utilIoWrite_open w hb hopen, writeUtilIo_spec s b w⟩,
      fun n hn hkind => ⟨_, exec_utilMapWrite_open w hn hopen, writeMap_spec s w hkind⟩,
      fun p hp => ⟨_, hio p, writeIocfg_spec s w hp⟩, fun hoff => ⟨_, htrc, writeTrcCtrl_enable s w hoff⟩, fun hon => ?_,
      ⟨_, htime, writeTimeCtrl_spec s w⟩⟩
    rw [htrc]
    simp only [writeTrcCtrl, hon, bitOf_or_one, if_true]

end Sys2Proof.Machine

namespace Sys2Proof.Machine

/-! ### REPEAT (R280, R281) -/

/-- What a repeated instruction leaves of the machine: its cycles, its window, PC, and the memories that it does not write. -/
def engineView (m : ChurnMach) : Nat × Nat × Nat × Bool × Cells Word × Cells Word × Cells Word :=
  (m.used, m.wexp, m.pc, m.running, m.closedB, m.openB, m.y)

/-- Every instruction that R281 admits has an operation, which leaves `engineView` as it is. -/
theorem repeatOp_of_repeatable {i : Instr} (h : Instr.repeatable i = true) :
    ∃ f, repeatOp i = some f ∧ ∀ m, engineView (f m) = engineView m := by
  cases i
  case nop | add | addi | mac | macs | ldz => exact ⟨_, rfl, fun _ => rfl⟩
  case sta d md => exact ⟨_, rfl, fun m => by simp only [staOp]; split <;> rfl⟩
  all_goals exact absurd h (by simp [Instr.repeatable])

theorem engineView_iterate {f : ChurnMach → ChurnMach} (h : ∀ m, engineView (f m) = engineView m) (n : Nat) (m : ChurnMach) :
    engineView (iterate f n m) = engineView m := by
  induction n generalizing m with
  | zero => rfl
  | succ n ih => exact (ih (f m)).trans (h m)

theorem length_listSet {α : Type} (l : List α) (n : Nat) (x : α) : (listSet l n x).length = l.length := by
  induction l generalizing n with
  | nil => rfl
  | cons a l ih => cases n with
    | zero => rfl
    | succ n => simp [listSet, ih]

theorem nth_listSet {α : Type} (z : α) {l : List α} {n : Nat} (h : n < l.length) (x : α) : nth z (listSet l n x) n = x := by
  induction l generalizing n with
  | nil => exact absurd h (by simp)
  | cons a l ih => cases n with
    | zero => rfl
    | succ n => exact ih (Nat.lt_of_succ_lt_succ h)

theorem listSet_listSet {α : Type} (l : List α) (n : Nat) (x y : α) : listSet (listSet l n x) n y = listSet l n y := by
  induction l generalizing n with
  | nil => rfl
  | cons a l ih => cases n with
    | zero => rfl
    | succ n => simp [listSet, ih]

theorem listSet_nth {α : Type} (z : α) (l : List α) (n : Nat) : listSet l n (nth z l n) = l := by
  induction l generalizing n with
  | nil => rfl
  | cons a l ih => cases n with
    | zero => rfl
    | succ n => simp [listSet, nth, ih]

/-- N times ADDI of a register to itself adds N times the immediate. -/
theorem iterate_addi (r : BitVec 3) (x : Word) (n : Nat) (m : ChurnMach) (h : m.k.length = 8) :
    iterate (fun m => kSet m r (kGet m r + x)) n m = kSet m r (kGet m r + BitVec.ofNat 32 n * x) := by
  induction n generalizing m with
  | zero => simp [iterate, kSet, kGet, listSet_nth]
  | succ n ih =>
    have hr : r.toNat < m.k.length := h ▸ r.isLt
    have hadd : kGet m r + x + BitVec.ofNat 32 n * x = kGet m r + BitVec.ofNat 32 (n + 1) * x := by
      rw [BitVec.ofNat_add, BitVec.add_mul, BitVec.one_mul, BitVec.add_assoc, BitVec.add_comm x]
    rw [iterate, ih _ (by simpa [kSet, length_listSet] using h)]
    simp only [kSet, kGet, nth_listSet _ hr, listSet_listSet]
    rw [← kGet, hadd]

/-- Engine cycles of a REPEAT of n repetitions beside its own fetch: it, the fetch of the next instruction, and the repetitions. -/
def repeatCost (m : ChurnMach) (n : Nat) : Nat := 1 + fetchCost { m with cache := cacheAfter m m.pc } ((m.pc + 1) % 4096) + n

/-- The machine that a REPEAT gives to the first repetition. -/
def repeatStart (m : ChurnMach) (n : Nat) : ChurnMach :=
  { fetched m (repeatCost m n) with
    cache := cacheAfter (fetched m (repeatCost m n)) ((m.pc + 1) % 4096), pc := ((m.pc + 1) % 4096 + 1) % 4096 }

theorem engineView_repeatStart (m : ChurnMach) (n : Nat) :
    engineView (repeatStart m n) =
      (m.used + fetchCost m m.pc + repeatCost m n, m.wexp, ((m.pc + 1) % 4096 + 1) % 4096, m.running, m.closedB, m.openB, m.y) := rfl

/-- REPEAT of an instruction that R281 admits runs it N times in one row. -/
theorem exec_repeatN_ready {s : State} {d : Nat} {k : BitVec 10} {c : ChurnDie} {i : Instr} {f : ChurnMach → ChurnMach}
    (h : engineReady s d (.repeatN d k) (repeatCost c.m (k.toNat + 1)) c) (hi : instrAt c d ((c.m.pc + 1) % 4096) = some i)
    (hwf : Instr.wellFormed i = true) (hf : repeatOp i = some f) (hview : ∀ m, engineView (f m) = engineView m) :
    exec (.repeatN d k) s = .next (landed s d c (iterate f (k.toNat + 1) (repeatStart c.m (k.toNat + 1)))) := by
  have hc := engineReady_chnOf h
  obtain ⟨hat, hbudget, hclean⟩ := h
  have hrun := (engineView_iterate hview (k.toNat + 1) _).trans (engineView_repeatStart c.m (k.toNat + 1))
  simp only [engineView, Prod.mk.injEq] at hrun
  obtain ⟨hused, hwexp, -⟩ := hrun
  rw [← hused, ← hwexp] at hbudget
  rw [repeatCost] at hat
  rw [← budgetStop_landed d hbudget]
  show execRepeatN d k s = _
  simp only [execRepeatN, hc, hat, hi, hwf, if_true, hf, wroteWords_clean hclean]
  rfl

/-! ### Records and the end of a program (R282, R283, R287) -/

/-- An engine that has numbered a record. -/
def numbered (c : ChurnDie) : ChurnDie := { c with m := { c.m with seq := (c.m.seq + 1) % 2 ^ 32, outno := c.m.outno + 1 } }

theorem length_resultWords (s : State) (d : Nat) (c : ChurnDie) (flags : Nat) (ws : List Word) :
    (resultWords s d c flags ws).length = ws.length + 8 := by
  simp [resultWords, dwords, words96]

theorem length_zWords (m : ChurnMach) (n : Nat) : (zWords m n).length = n := by simp [zWords]

theorem postResult_muted (s : State) (d : Nat) {c : ChurnDie} (ws : List Word) (aborted isFault : Bool) (h : muted c = true) :
    postResult s d c ws aborted isFault = setChn s d (numbered c) := by
  simp only [postResult, h, if_true]; rfl

theorem postResult_room (s : State) (d : Nat) {c : ChurnDie} (ws : List Word) (aborted isFault : Bool) (h : muted c = false)
    (hroom : bufBytes c + 4 * (ws.length + 8) ≤ 65536) :
    postResult s d c ws aborted isFault =
      setChn s d { numbered c with buf := c.buf ++ [resultWords s d c (recFlags c aborted isFault) ws], lostNext := false } := by
  simp only [postResult, h, Bool.false_eq_true, if_false, length_resultWords, hroom, if_true]; rfl

theorem postResult_lost (s : State) (d : Nat) {c : ChurnDie} (ws : List Word) (aborted isFault : Bool) (h : muted c = false)
    (hfull : 65536 < bufBytes c + 4 * (ws.length + 8)) :
    postResult s d c ws aborted isFault =
      setChn (bump (orChnStatus s d 64) (rkey d 0x07 0x020) 32 1) d { numbered c with lostNext := true } := by
  simp only [postResult, h, Bool.false_eq_true, if_false, length_resultWords, Nat.not_le.mpr hfull]; rfl

/-- The end of a program: the engine stands still, and CHN_LAST and CHN_MAXCYC take its cycles. -/
theorem endProgram_spec (s : State) (d : Nat) (c : ChurnDie) :
    let t := endProgram s d c
    chnOf t d = some { c with m := { c.m with running := false } } ∧ (∀ o, o ≠ d → chnOf t o = chnOf s o)
    ∧ reg t (rkey d 0x07 0x00C) = lo32 c.m.used
    ∧ reg t (rkey d 0x07 0x010) = (if (reg s (rkey d 0x07 0x010)).toNat < c.m.used then lo32 c.m.used else reg s (rkey d 0x07 0x010))
    ∧ (∀ k, k ≠ rkey d 0x07 0x00C → k ≠ rkey d 0x07 0x010 → reg t k = reg s k) ∧ t = { s with chn := t.chn, regs := t.regs } := by
  have hne : rkey d 0x07 0x010 ≠ rkey d 0x07 0x00C := by simp [rkey]
  have hmax : ∀ e, reg (setReg (setChn s d e) (rkey d 0x07 0x00C) (lo32 c.m.used)) (rkey d 0x07 0x010) = reg s (rkey d 0x07 0x010) :=
    fun e => reg_setReg_other _ _ _ _ hne
  unfold endProgram
  dsimp only
  rw [hmax]
  split
  · refine ⟨chnOf_setChn .., fun o ho => chnOf_setChn_other _ _ ho, ?_, reg_setReg_same .., fun k hlast hmaxcyc => ?_, rfl⟩
    · rw [reg_setReg_other _ _ _ _ hne.symm, reg_setReg_same]
    · rw [reg_setReg_other _ _ _ _ hmaxcyc, reg_setReg_other _ _ _ _ hlast, reg_setChn]
  · refine ⟨chnOf_setChn .., fun o ho => chnOf_setChn_other _ _ ho, reg_setReg_same .., hmax _, fun k hlast _ => ?_, rfl⟩
    rw [reg_setReg_other _ _ _ _ hlast, reg_setChn]

/-- OUT within the budget posts its record. -/
theorem exec_out_ready {s : State} {d : Nat} {k : BitVec 10} {c : ChurnDie} (h : engineReady s d (.out d k) ((k.toNat + 1 + 15) / 16 + 1) c) :
    exec (.out d k) s =
      .next (budgetStop (postResult s d { c with m := afterFetch c.m ((k.toNat + 1 + 15) / 16 + 1) } (zWords c.m (k.toNat + 1)) false false) d) := by
  have hat : engineAt s d (.out d k) (cdiv (k.toNat + 1) 16 + 1) = some c := h.1
  show execOut d k s = _
  simp only [execOut, hat]
  rfl

end Sys2Proof.Machine

namespace Sys2Proof.Machine

/-! ### The budget's stop and a poisoned fetch (R268, R284, R513) -/

/-- An engine whose budget is used up ends its program with an aborted record, where the buffer has room for it. -/
theorem budgetStop_over {s : State} {d : Nat} {c : ChurnDie} (hc : chnOf s d = some c) (hrun : c.m.running = true)
    (hover : budget s c.m.wexp ≤ c.m.used) (hmute : muted c = false) (hroom : bufBytes c + 32 ≤ 65536) :
    ∃ e, chnOf (budgetStop s d) d = some e ∧ e.m.running = false ∧ e.buf = c.buf ++ [resultWords s d c (recFlags c true false) []]
      ∧ (reg (budgetStop s d) (rkey d 0x07 0x01C)).toNat = satAdd 16 (reg s (rkey d 0x07 0x01C)).toNat 1
      ∧ budgetStop s d = { s with chn := (budgetStop s d).chn, regs := (budgetStop s d).regs } := by
  have hpost := postResult_room s d [] true false hmute hroom
  obtain ⟨e, he⟩ : ∃ e, postResult s d c [] true false = setChn s d e ∧ e.buf = c.buf ++ [resultWords s d c (recFlags c true false) []] :=
    ⟨_, hpost, rfl⟩
  have hstop : budgetStop s d = endProgram (bump (setChn s d e) (rkey d 0x07 0x01C) 16 1) d e := by
    simp [budgetStop, hc, hrun, hover, he.1]
  obtain ⟨hchn, -, -, -, hreg, hframe⟩ := endProgram_spec (bump (setChn s d e) (rkey d 0x07 0x01C) 16 1) d e
  rw [hstop]
  refine ⟨_, hchn, rfl, he.2, ?_, hframe⟩
  rw [hreg _ (by simp [rkey]) (by simp [rkey]), reg_bump_same _ _ (by decide), reg_setChn]

theorem endProgram_ds (s : State) (d : Nat) (c : ChurnDie) : (endProgram s d c).ds = s.ds := by
  obtain ⟨-, -, -, -, -, hframe⟩ := endProgram_spec s d c
  rw [hframe]

/-- An enabled engine that an uncorrectable error stops: a record with FAULT, where the buffer has room for it, and EN clear. -/
theorem churnStop_spec {s : State} {d : Nat} {c : ChurnDie} (hc : chnOf s d = some c) (hen : c.m.en = true) (hmute : muted c = false)
    (hroom : bufBytes c + 32 ≤ 65536) :
    ∃ e, chnOf (churnStop s d) d = some e ∧ e.m.en = false ∧ e.m.running = false ∧ e.fault = true
      ∧ e.buf = c.buf ++ [resultWords s d c (recFlags c false true) []] ∧ (churnStop s d).ds = s.ds := by
  have hpost := postResult_room s d [] false true hmute hroom
  simp only [churnStop, hc, hen, Bool.not_true, Bool.false_eq_true, if_false, hpost, chnOf_setChn]
  refine ⟨_, rfl, rfl, rfl, rfl, rfl, ?_⟩
  split
  · exact endProgram_ds ..
  · rfl

/-- The fetch of a poisoned word at PC meets poison. -/
theorem poisonMet_fetch {c : ChurnDie} (d : Nat) (hpoison : c.m.pc ∈ c.poison) (hcache : c.m.pc ∉ c.m.cache) (hlen : c.m.pc < c.progLen) :
    poisonMet c d (.nop d) = some c.m.pc := by
  have hreads : codeReads c d (.nop d) = [c.m.pc] := by
    simp [codeReads, fetchReads, hcache, Nat.not_le.mpr hlen, chnWord, operandReads]
  have hsome : c.poison.isEmpty = false := by
    cases hp : c.poison with
    | nil => exact absurd (hp ▸ hpoison) (by simp)
    | cons => rfl
  simp [poisonMet, hreads, hsome, hpoison]

/-! ### CHURN_RESULT (R282, R283) -/

@[simp] theorem signal_dma (s : State) (v : Nat) : (signal s v).io.dma = s.io.dma := by unfold signal; split <;> rfl

/-- A store into a bank leaves the other banks. -/
theorem bankStore_banks_other (s : State) {n k : Nat} (a : Nat) (ws : List Word) (h : k ≠ n) : (bankStore s n a ws).banks[k]? = s.banks[k]? := by
  unfold bankStore
  split
  · rfl
  · exact List.getElem?_set_ne h.symm

/-- Words of a ring in the service banks change the banks alone. -/
theorem bankRingPut_frame (s : State) (base bytes off : Nat) (ws : List Word) :
    bankRingPut s base bytes off ws = { s with banks := (bankRingPut s base bytes off ws).banks } := by
  have hstore : ∀ (t : State) n a ws, bankStore t n a ws = { t with banks := (bankStore t n a ws).banks } := fun t n a ws => by
    unfold bankStore; split <;> rfl
  simp only [bankRingPut]
  split <;> split
  · rfl
  · exact hstore ..
  · exact hstore ..
  · exact (hstore ..).trans (by simp)

/-- Words that fit before the end of a ring that stands in one bank go to that bank. -/
theorem bankRingPut_banks_other (s : State) {base bytes off k : Nat} {ws : List Word} (hk : k ≠ base / bankBytes)
    (hring : base % 2 ^ 24 + bytes ≤ 2 ^ 24) (hfit : off % bytes + 4 * ws.length ≤ bytes) :
    (bankRingPut s base bytes off ws).banks[k]? = s.banks[k]? := by
  have htail : ws.drop ((bytes - off % bytes) / 4) = [] := List.drop_eq_nil_iff.mpr (by omega)
  simp only [bankRingPut, htail, List.isEmpty_nil, if_true]
  split
  · rfl
  · next hsome =>
    refine bankStore_banks_other _ _ _ fun heq => hk (heq.trans ?_)
    have hlen : 0 < ws.length := by
      cases ws with
      | nil => simp at hsome
      | cons => simp
    simp only [bankBytes]
    omega

/-- A ring in the host's memory, or in a bank that takes records. -/
def ringTaken (s : State) (base : Nat) : Prop :=
  bitOf base 63 = false ∨ ∃ b, s.banks[base % 2 ^ 63 / bankBytes]? = some b ∧ b.owner = 4 ∧ b.power = 0

/-- The state after a record's words have gone to a ring: those of a ring in the host's memory are in `ringData`. -/
def ringStored (s : State) (base bytes off : Nat) (ws : List Word) : State :=
  if bitOf base 63 then bankRingPut s (base % 2 ^ 63) bytes off ws else s

/-- The bank of a ring in the service banks. -/
theorem ringBank_bank {s : State} {base : Nat} {b : Bank} (hbit : bitOf base 63 = true)
    (hbank : s.banks[base % 2 ^ 63 / bankBytes]? = some b) :
    (ringBank base).bind (fun a => (s.banks[a / bankBytes]?).map (fun b => (a, b))) = some (base % 2 ^ 63, b) := by
  simp only [ringBank, hbit, if_true, Option.bind_some, hbank, Option.map_some]

/-- An engine whose oldest record r has left for its ring of a size in bytes. -/
def recordSent (c : ChurnDie) (bytes : Nat) (r : List Word) (rs : List (List Word)) : ChurnDie :=
  { c with
    buf := rs, ringProd := (c.ringProd + 4 * r.length) % 2 ^ 32, ringData := ringHolds bytes (r :: c.ringData), lastLeft := some (par64 r 2) }

/-- The oldest record goes to its ring. -/
theorem churnResult_sent {s : State} {d base bytes wb vec : Nat} {c : ChurnDie} {r : List Word} {rs : List (List Word)}
    (hc : chnOf s d = some c) (hring : c.ring = some (base, bytes, wb, vec)) (hbuf : c.buf = r :: rs) (hsafe : s.md.safeHold = none)
    (htaken : ringTaken s base) :
    churnResult s d =
      let t := setChn (ringStored s base bytes c.ringProd r) d (recordSent c bytes r rs)
      signal { t with io := { t.io with dma := put t.io.dma wb [lo32 ((c.ringProd + 4 * r.length) % 2 ^ 32)] } } vec := by
  cases hbit : bitOf base 63 with
  | false => simp [churnResult, hc, hring, hbuf, inSafeHold, hsafe, ringBank, hbit, ringStored, recordSent]
  | true =>
    obtain ⟨b, hbank, howner, hpower⟩ := htaken.resolve_left (by simp [hbit])
    have htakes : bankTakes b = true := by simp [bankTakes, howner, hpower]
    simp only [churnResult, hc, hring, hbuf, inSafeHold, hsafe, ringBank_bank hbit hbank, htakes, ringStored, recordSent, hbit, Option.isSome_none,
      Bool.not_true, Bool.false_eq_true, if_false, if_true]

/-- A bank that does not take records. -/
theorem churnResult_refused {s : State} {d base bytes wb vec : Nat} {c : ChurnDie} {r : List Word} {rs : List (List Word)} {b : Bank}
    (hc : chnOf s d = some c) (hring : c.ring = some (base, bytes, wb, vec)) (hbuf : c.buf = r :: rs) (hsafe : s.md.safeHold = none)
    (hbit : bitOf base 63 = true) (hbank : s.banks[base % 2 ^ 63 / bankBytes]? = some b) (hnot : bankTakes b = false) :
    churnResult s d = if b.owner = 4 then s else bumpIo s 0x13 (0x40C + 16 * (base % 2 ^ 63 / bankBytes)) 16 1 := by
  simp only [churnResult, hc, hring, hbuf, inSafeHold, hsafe, ringBank_bank hbit hbank, hnot, Option.isSome_none, Bool.not_false,
    Bool.false_eq_true, if_false, if_true, beq_iff_eq]

end Sys2Proof.Machine

namespace Sys2Proof.Machine

/-! ### Programs of the engine -/

theorem ringStored_frame (s : State) (base bytes off : Nat) (ws : List Word) :
    ringStored s base bytes off ws = { s with banks := (ringStored s base bytes off ws).banks } := by
  unfold ringStored
  split
  · exact bankRingPut_frame ..
  · rfl

/-- A sent record of a ring in the host's memory leaves the banks; one of a ring that stands in one bank leaves the other banks. -/
theorem ringStored_banks (s : State) {base bytes off : Nat} {ws : List Word} :
    (bitOf base 63 = false → (ringStored s base bytes off ws).banks = s.banks)
    ∧ ∀ k, k ≠ base % 2 ^ 63 / bankBytes → base % 2 ^ 24 + bytes ≤ 2 ^ 24 → off % bytes + 4 * ws.length ≤ bytes →
      (ringStored s base bytes off ws).banks[k]? = s.banks[k]? := by
  refine ⟨fun h => by simp [ringStored, h], fun k hk hring hfit => ?_⟩
  unfold ringStored
  split
  · exact bankRingPut_banks_other s hk (by omega) hfit
  · rfl

/-- What CHURN_RESULT leaves of the state and of the engine. -/
theorem churnResult_sent_spec {s : State} {d base bytes wb vec : Nat} {c : ChurnDie} {r : List Word} {rs : List (List Word)}
    (hc : chnOf s d = some c) (hring : c.ring = some (base, bytes, wb, vec)) (hbuf : c.buf = r :: rs) (hsafe : s.md.safeHold = none)
    (htaken : ringTaken s base) :
    ∃ t e, exec (.churnResult d) s = .next t ∧ (bitOf base 63 = false → t.banks = s.banks)
      ∧ (∀ k, k ≠ base % 2 ^ 63 / bankBytes → base % 2 ^ 24 + bytes ≤ 2 ^ 24 → c.ringProd % bytes + 4 * r.length ≤ bytes → t.banks[k]? = s.banks[k]?)
      ∧ chnOf t d = some e ∧ e.buf = rs ∧ e.ringProd = (c.ringProd + 4 * r.length) % 2 ^ 32
      ∧ lookup t.io.dma wb = some [lo32 e.ringProd] ∧ e.m = c.m ∧ e.lastLeft = some (par64 r 2) ∧ t.ds = s.ds ∧ t.md = s.md ∧ t.regs = s.regs := by
  have hframe := ringStored_frame s base bytes c.ringProd r
  obtain ⟨hhost, hother⟩ := ringStored_banks s (base := base) (bytes := bytes) (off := c.ringProd) (ws := r)
  refine ⟨_, recordSent c bytes r rs, congrArg Host.Outcome.next (churnResult_sent hc hring hbuf hsafe htaken), fun h => ?_,
    fun k hk hfits hfit => ?_, ?_, rfl, rfl, ?_, rfl, rfl, ?_, ?_, ?_⟩
  · simpa [setChn] using hhost h
  · simpa [setChn] using hother k hk hfits hfit
  · simp [chnOf, setChn]
  · simp [recordSent]
  · simpa [setChn] using congrArg State.ds hframe
  · simpa [setChn] using congrArg State.md hframe
  · simpa [setChn] using congrArg State.regs hframe

/-- OUT in an engine that posts nothing after a recovery, in one with room in its result buffer, and in one without. -/
theorem exec_out_cases {s : State} {d : Nat} {k : BitVec 10} {c : ChurnDie} (h : engineReady s d (.out d k) ((k.toNat + 1 + 15) / 16 + 1) c) :
    let m := afterFetch c.m ((k.toNat + 1 + 15) / 16 + 1)
    let r := resultWords s d c (recFlags c false false) (zWords c.m (k.toNat + 1))
    (muted c = true → exec (.out d k) s = .next (setChn s d { c with m := { m with seq := (m.seq + 1) % 2 ^ 32, outno := m.outno + 1 } }))
    ∧ (muted c = false → bufBytes c + 4 * (k.toNat + 9) ≤ 65536 → exec (.out d k) s = .next (setChn s d
        { c with m := { m with seq := (m.seq + 1) % 2 ^ 32, outno := m.outno + 1 }, buf := c.buf ++ [r], lostNext := false }))
    ∧ (muted c = false → 65536 < bufBytes c + 4 * (k.toNat + 9) → ∃ t, exec (.out d k) s = .next t
        ∧ chnOf t d = some { c with m := { m with seq := (m.seq + 1) % 2 ^ 32, outno := m.outno + 1 }, lostNext := true }
        ∧ (reg t (rkey d 0x07 0x020)).toNat = satAdd 32 (reg s (rkey d 0x07 0x020)).toNat 1 ∧ t = { s with chn := t.chn, regs := t.regs }) := by
  have hrow := exec_out_ready h
  obtain ⟨-, hbudget, -⟩ := h
  dsimp only
  refine ⟨fun hmute => ?_, fun hmute hroom => ?_, fun hmute hfull => ?_⟩
  · rw [hrow, postResult_muted s d (c := { c with m := afterFetch c.m _ }) _ _ _ hmute, budgetStop_within (chnOf_setChn ..) hbudget]
    rfl
  · rw [hrow, postResult_room s d (c := { c with m := afterFetch c.m _ }) _ _ _ hmute (by rw [length_zWords]; exact hroom),
      budgetStop_within (chnOf_setChn ..) hbudget]
    rfl
  · rw [hrow, postResult_lost s d (c := { c with m := afterFetch c.m _ }) _ _ _ hmute (by rw [length_zWords]; exact hfull),
      budgetStop_within (chnOf_setChn ..) hbudget]
    refine ⟨_, rfl, chnOf_setChn .., ?_, rfl⟩
    rw [reg_setChn, reg_bump_same _ _ (by decide), reg_orChnStatus_other _ _ _ (by simp [rkey])]

/-- CHURN_WINDOW_CLOSE where the window of the die closes. -/
theorem exec_churnWindowClose_due {s : State} {d : Nat} {c : ChurnDie} (hc : chnOf s d = some c) (htick : s.seq.tick = .bound 16)
    (hdue : closeDue s c = true) : exec (.churnWindowClose d) s = .next (setChn s d (closeWindow s c)) := by
  show execChurnWindowClose d s = _
  simp [execChurnWindowClose, hc, htick, hdue]

/-- HALT within its cycles. -/
theorem exec_halt_at {s : State} {d : Nat} {c : ChurnDie} (h : engineAt s d (.halt d) 1 = some c) :
    exec (.halt d) s =
      .next (endProgram s d { c with m := { c.m with used := c.m.used + fetchCost c.m c.m.pc + 1, cache := cacheAfter c.m c.m.pc } }) := by
  show execHalt d s = _
  simp only [execHalt, h]

/-- A NOP is fetched, and the budget is looked at. -/
theorem exec_nop_at {s : State} {d : Nat} {c : ChurnDie} (h : engineAt s d (.nop d) 1 = some c) :
    exec (.nop d) s = .next (budgetStop (setChn s d { c with m := afterFetch c.m 1 }) d) := by
  have hkept : wroteWords c [] = c := by simp [wroteWords]
  show churnRow s d (.nop d) 1 id = _
  simp only [churnRow, h, operandWrites, hkept]
  rfl

/-- An engine that comes to a NOP and meets poison at its PC is stopped after the fault of the word is recorded. -/
theorem exec_nop_poisoned {s : State} {d : Nat} {c : ChurnDie} (h : engineDue s d (.nop d) 1 = some c) (hpoison : poisonMet c d (.nop d) = some c.m.pc) :
    exec (.nop d) s =
      .next (churnStop (fault s { cls := 2, cause := 0x0103, flags := 2, unit := siteLoc d, memClass := 4, address := c.m.pc }) d) := by
  have hat : engineAt s d (.nop d) 1 = none := by simp [engineAt, h, hpoison]
  show churnRow s d (.nop d) 1 id = _
  simp only [churnRow, hat, engineElse, h, hpoison]

/-- Settles O46: each row of a program's life, by the rule of the operation that it is. -/
theorem programsRepeatPostAndEnd : Obligations.ProgramsRepeatPostAndEnd := by
  unfold Obligations.ProgramsRepeatPostAndEnd
  intro s d c
  dsimp only
  refine ⟨fun hc htick hdue => ?close, fun k i h hi hrep hwf => ?repeatN, fun k h => ?out, fun h => ?halt,
    fun h hover hmute hroom => ?budget, fun h hpoison hcache hlen _ hen hmute hroom => ?poison,
    fun base bytes wb vec r rs hc hring hbuf hsafe => ?result⟩
  case close =>
    exact ⟨_, exec_churnWindowClose_due hc htick hdue, rfl, rfl, rfl, rfl, rfl, rfl, rfl, rfl, rfl, rfl, rfl, rfl, rfl, rfl, rfl, rfl, rfl, rfl,
      rfl, rfl⟩
  case repeatN =>
    obtain ⟨f, hf, hview⟩ := repeatOp_of_repeatable hrep
    have hrun := engineView_iterate hview (k.toNat + 1) (repeatStart c.m (k.toNat + 1))
    rw [engineView_repeatStart, engineView, Prod.mk.injEq, Prod.mk.injEq, Prod.mk.injEq, Prod.mk.injEq, Prod.mk.injEq, Prod.mk.injEq] at hrun
    obtain ⟨hused, -, hpc, hrunning, hclosed, hopen, hy⟩ := hrun
    obtain ⟨hothers, -, hframe⟩ := landed_frame s d c (iterate f (k.toNat + 1) (repeatStart c.m (k.toNat + 1)))
    have hon := (engineDue_eq_some (engineAt_eq_some h.1).1).2.1
    refine ⟨_, _, exec_repeatN_ready h hi hwf hf hview, chnOf_landed .., hpc, hrunning.trans hon, hused, hclosed, hopen, hy, ?_, hothers, hframe⟩
    rintro r v rfl hlen
    obtain rfl : (fun m => kSet m r (kGet m r + v.signExtend 32)) = f := Option.some.inj hf
    show (iterate _ _ (repeatStart c.m (k.toNat + 1))).k = _
    rw [iterate_addi r _ _ (repeatStart c.m (k.toNat + 1)) hlen]
    rfl
  case out => exact exec_out_cases h
  case halt =>
    obtain ⟨hchn, hothers, hlast, hmax, -, hframe⟩ :=
      endProgram_spec s d { c with m := { c.m with used := c.m.used + fetchCost c.m c.m.pc + 1, cache := cacheAfter c.m c.m.pc } }
    exact ⟨_, _, exec_halt_at h, hchn, rfl, rfl, rfl, rfl, hlast, hmax, hothers, hframe⟩
  case budget =>
    have hon := (engineDue_eq_some (engineAt_eq_some h).1).2.1
    obtain ⟨e, hchn, hrun, hbuf, hreg, hframe⟩ :=
      budgetStop_over (chnOf_setChn s d { c with m := afterFetch c.m 1 }) hon hover hmute hroom
    exact ⟨_, e, exec_nop_at h, hchn, hrun, hbuf, hreg, hframe⟩
  case poison =>
    obtain ⟨hc, -⟩ := engineDue_eq_some h
    have hmd := (fault_below_fatal s { cls := 2, cause := 0x0103, flags := 2, unit := siteLoc d, memClass := 4, address := c.m.pc } (by simp)).1
    obtain ⟨e, hchn, hoff, hrun, hfault, hbuf, hds⟩ :=
      churnStop_spec (s := fault s { cls := 2, cause := 0x0103, flags := 2, unit := siteLoc d, memClass := 4, address := c.m.pc }) (d := d) (c := c)
        (by simpa [chnOf] using hc) hen hmute hroom
    exact ⟨_, e, exec_nop_poisoned h (poisonMet_fetch d hpoison hcache hlen), hchn, hoff, hrun, hfault, by simpa [resultWords, posOf] using hbuf,
      by simpa using hds, by simpa using hmd⟩
  case result =>
    refine ⟨fun b hbit hbank howner hpower => ?_, fun b hbit hbank howner => ?_, fun htaken => churnResult_sent_spec hc hring hbuf hsafe htaken⟩
    · refine congrArg Host.Outcome.next ((churnResult_refused hc hring hbuf hsafe hbit hbank ?_).trans (if_pos howner))
      simp [bankTakes, hpower]
    · refine congrArg Host.Outcome.next ((churnResult_refused hc hring hbuf hsafe hbit hbank ?_).trans (if_neg howner))
      simp [bankTakes, howner]

end Sys2Proof.Machine

namespace Sys2Proof.Machine

/-! ### The host writes that the log gives again (R293, R304) -/

/-- The state without the parts that a host write of the log changes: the design data, and what checkpoints save of its regions. -/
def withoutWrites (s : State) : State := { s with ds := State.reset.ds, ckp := { s.ckp with last := none, busy := none } }

/-- What looks at neither the design data nor the checkpoints is equal in states that differ in those alone. -/
theorem eq_of_withoutWrites {α : Type} (P : State → α) (hP : ∀ u, P (withoutWrites u) = P u) {s t : State}
    (h : withoutWrites s = withoutWrites t) : P s = P t := by
  rw [← hP s, h, hP]

theorem withoutWrites_applyHostItem (s : State) (x : LogItem) : withoutWrites (applyHostItem s x) = withoutWrites s := by
  unfold applyHostItem
  dsimp only
  split
  · rfl
  · rfl
  · exact foldl_keeps withoutWrites _ (fun u (v : Nat × Half) => show withoutWrites (regionPut u _ v.2) = withoutWrites u from rfl) _ s

theorem withoutWrites_applyHostWrites (s : State) : withoutWrites (applyHostWrites s) = withoutWrites s :=
  foldl_keeps withoutWrites _ (fun u (e : LogEntry) => foldl_keeps withoutWrites _ withoutWrites_applyHostItem e.items u) _ s

/-- Copy-on-write adds granules to the last checkpoint, whose DCN stays (R293). -/
theorem lastCkpDcn_regionPut (s : State) (k : Nat) (v : Half) : lastCkpDcn (regionPut s k v) = lastCkpDcn s := by
  simp only [lastCkpDcn, regionPut, cowSave, Option.map_map]
  congr 1
  funext c
  simp only [Function.comp, saveGranule]
  split <;> rfl

theorem lastCkpDcn_applyHostItem (s : State) (x : LogItem) : lastCkpDcn (applyHostItem s x) = lastCkpDcn s := by
  unfold applyHostItem
  dsimp only
  split
  · rfl
  · rfl
  · exact foldl_keeps lastCkpDcn _ (fun u (v : Nat × Half) => lastCkpDcn_regionPut u _ v.2) _ s

theorem lastCkpDcn_applyHostWrites (s : State) : lastCkpDcn (applyHostWrites s) = lastCkpDcn s :=
  foldl_keeps lastCkpDcn _ (fun u (e : LogEntry) => foldl_keeps lastCkpDcn _ lastCkpDcn_applyHostItem e.items u) _ s

/-- A log without host-write entries gives no write again. -/
theorem applyHostWrites_none {s : State} (h : s.ckp.log.entries.all (fun e => e.typ != 0x44) = true) : applyHostWrites s = s := by
  have hnone : s.ckp.log.entries.filter (fun e => e.typ == 0x44 && e.dcn == s.seq.dcn && !e.bad) = [] := by
    rw [List.filter_eq_nil_iff]
    intro e he
    simp [bne_iff_ne.mp (List.all_eq_true.mp h e he)]
  rw [applyHostWrites, hnone, List.foldl_nil]

/-- The state with other registers and other engines. -/
def withControl (regs : Cells Word) (chn : List (Nat × ChurnDie)) (s : State) : State := { s with regs := regs, chn := chn }

/-- Host writes of the log look at neither registers nor engines. -/
theorem applyHostItem_withControl (regs : Cells Word) (chn : List (Nat × ChurnDie)) (s : State) (x : LogItem) :
    applyHostItem (withControl regs chn s) x = withControl regs chn (applyHostItem s x) := by
  unfold applyHostItem
  dsimp only
  split
  · rfl
  · rfl
  · exact congrArg (fun u => clearPoison u _ _) (List.foldl_hom (withControl regs chn) (fun _ _ => rfl))

theorem applyHostWrites_withControl (regs : Cells Word) (chn : List (Nat × ChurnDie)) (s : State) :
    applyHostWrites (withControl regs chn s) = withControl regs chn (applyHostWrites s) :=
  List.foldl_hom (withControl regs chn) fun _ (_ : LogEntry) =>
    List.foldl_hom (withControl regs chn) (applyHostItem_withControl regs chn)

/-! ### LOG_ERR beside the log (R309) -/

theorem logReach_setLogErr (s : State) (b : Bool) : logReach (setLogErr s b) = logReach s := by cases b <;> rfl

/-- The recorder looks at CKP_CTRL, LOG_SIZE and LOG_HOST, not at CKP_STATUS. -/
theorem ioReg_status (s : State) (v : Nat) {o : Nat} (h : o ≠ 0x004) : ioReg (setIo s 0x08 0x004 v) 0x08 o = ioReg s 0x08 o :=
  ioReg_setIo_other s v (by simp only [rkey]; omega)

theorem logCap_status (s : State) (v : Nat) : logCap (setIo s 0x08 0x004 v) = logCap s := by simp [logCap, ioReg_status]

theorem hostLogPut_status (s : State) (v at0 : Nat) (e : LogEntry) :
    hostLogPut (setIo s 0x08 0x004 v) at0 e = setIo (hostLogPut s at0 e) 0x08 0x004 v := by
  unfold hostLogPut
  rw [ioReg_status s v (by decide), ioReg_status s v (by decide), ioReg_status s v (by decide), logCap_status]
  split <;> rfl

theorem appendEntry_status (s : State) (v typ dcn : Nat) (items : List LogItem) :
    appendEntry (setIo s 0x08 0x004 v) typ dcn items = setIo (appendEntry s typ dcn items) 0x08 0x004 v := by
  unfold appendEntry
  dsimp only
  rw [hostLogPut_status s v _ _, (logCap_status (hostLogPut s _ _) v)]
  rfl

theorem closeHostWrites_setLogErr (s : State) (b : Bool) : closeHostWrites (setLogErr s b) = setLogErr (closeHostWrites s) b := by
  cases b with
  | false => rfl
  | true =>
    have hreg : ioReg (closeHostWrites s) 0x08 0x004 = ioReg s 0x08 0x004 :=
      eq_of_withoutLog (fun u => ioReg u 0x08 0x004) (fun _ => rfl) (withoutLog_closeHostWrites s)
    simp only [setLogErr, orIo, if_true, hreg]
    generalize ioReg s 0x08 0x004 ||| 32 = v
    have happend (ws : List LogItem) : appendHostWrites (setIo s 0x08 0x004 v) s.seq.dcn ws = setIo (appendHostWrites s s.seq.dcn ws) 0x08 0x004 v :=
      List.foldl_hom (fun u => setIo u 0x08 0x004 v) (fun u g => appendEntry_status u v 0x44 _ g)
    unfold closeHostWrites
    rw [show (setIo s 0x08 0x004 v).ckp = s.ckp from rfl]
    split
    · rfl
    · rw [show (setIo s 0x08 0x004 v).seq = s.seq from rfl, happend]
      rfl

theorem setLogErr_flag (s : State) : bitOf (ioReg (setLogErr s true) 0x08 0x004) 5 = true := by
  rw [setLogErr, if_pos rfl, orIo, ioReg_setIo_same, bitOf, Nat.testBit_mod_two_pow, Nat.testBit_or]
  simp [show Nat.testBit 32 5 = true by decide]

/-! ### A recovery that cannot complete (R314) -/

theorem makeRecord_fatal_held {r : ErrRec} (h : r.cls = 5) (s : State) (b : Bool) : (makeRecord s r b).md.safeHold ≠ none := by
  simp only [makeRecord, h, beq_self_eq_true, if_true]
  exact enterSafeHold_held _ _

/-- A record of any class writes the I/O die's fault block, the event ring's index and the count of requests under code 14. -/
theorem reg_makeRecord (s : State) (r : ErrRec) (b : Bool) {k : Nat} (h : k < rkey 15 0x14 0) (h14 : k ≠ rkey 15 0x02 0x0B8) :
    reg (makeRecord s r b) k = reg s k := by
  have hheld (u : State) (c : Nat) : reg (enterSafeHold u c) k = reg u k := by
    unfold enterSafeHold
    split
    · rfl
    · exact reg_holdReq _ h14
  unfold makeRecord
  split
  · rw [hheld, reg_postErrors _ _ h, reg_addRecord _ _ _ h, reg_flushRecords _ h]
  · exact reg_addRecord _ _ _ h

theorem failRecovery_held (s : State) : (failRecovery s).md.safeHold ≠ none := by
  unfold failRecovery
  dsimp only
  split
  · exact makeRecord_fatal_held rfl _ _
  · exact fault_fatal_held s _ rfl

theorem reg_failRecovery (s : State) {k : Nat} (h : k < rkey 15 0x14 0) (h14 : k ≠ rkey 15 0x02 0x0B8) :
    reg (failRecovery s) k = reg s k := by
  unfold failRecovery
  split
  · exact reg_makeRecord _ _ _ h h14
  · exact reg_fault s _ h h14

/-! ### The restore of the last checkpoint (R312, R313) -/

/-- An error ends the log before F, or before the entry of F + 1 that had closed (R309, R313). -/
def logFailed (s : State) (r : Recovery) : Bool := (logReach s).2 && decide ((logReach s).1 < r.f + b2n r.kept)

/-- The recovery steps, and asks for no stall any more. -/
def recoverySteppingFrom (s : State) (r : Recovery) : State :=
  dropReq { s with ckp := { s.ckp with recovery := some { r with stepping := true } } } 13 0

/-- A recovery that may begin to step: it does so from the last checkpoint, unless it cannot reach F. -/
theorem recoveryRestore_due {s : State} {r : Recovery} {c : Checkpoint} (hr : s.ckp.recovery = some r) (hstep : r.stepping = false)
    (hlost : s.pwr.lost = []) (hspill : s.net.spill.any (· < 8) = false) (hsafe : s.md.safeHold = none) (himg : s.img.resident.isSome = true)
    (hc : s.ckp.last = some c) :
    recoveryRestore s =
      if c.spoiled = true ∨ r.f < c.dcn ∨ (logReach s).1 < r.f then failRecovery (setLogErr s (logFailed s r))
      else recoverySteppingFrom (applyHostWrites (muteOld (restoreFrom (closeHostWrites (setLogErr s (logFailed s r))) c))) r := by
  have hnone : s.img.resident.isNone = false := by cases h : s.img.resident <;> simp_all
  simp only [recoveryRestore, hr, hstep, hlost, hspill, inSafeHold, hsafe, hnone, hc, logReach_setLogErr, Option.isSome_none, List.isEmpty_nil,
    Bool.not_true, Bool.or_self, Bool.false_eq_true, if_false, Bool.or_eq_true, decide_eq_true_eq, or_assoc]
  rfl

/-- LOG_ERR and what the engines do not post again change neither what is restored nor the host writes that follow. -/
theorem restored_withControl (s : State) (c : Checkpoint) (b : Bool) :
    ∃ regs chn, applyHostWrites (muteOld (restoreFrom (closeHostWrites (setLogErr s b)) c))
      = withControl regs chn (applyHostWrites (restoreFrom (closeHostWrites s) c)) := by
  refine ⟨(setLogErr (closeHostWrites s) b).regs, (muteOld (restoreFrom (closeHostWrites s) c)).chn, ?_⟩
  rw [closeHostWrites_setLogErr, ← applyHostWrites_withControl]
  cases b <;> rfl

/-- The sequencer stands at the checkpoint's step 0: the host writes leave it. -/
theorem restored_frame (s : State) (c : Checkpoint) :
    let u := applyHostWrites (restoreFrom (closeHostWrites s) c)
    u.seq.dcn = c.dcn ∧ u.seq.tick = .step 0 := by
  have keeps {α : Type} (P : State → α) (hP : ∀ u, P (withoutWrites u) = P u) :=
    eq_of_withoutWrites P hP (withoutWrites_applyHostWrites (restoreFrom (closeHostWrites s) c))
  exact ⟨keeps (·.seq.dcn) fun _ => rfl, keeps (·.seq.tick) fun _ => rfl⟩

/-- Without host writes in the log the design data are those of the checkpoint. -/
theorem restored_unwritten {s : State} (c : Checkpoint) (hlog : s.ckp.log.entries.all (fun e => e.typ != 0x44) = true) (hhost : s.ckp.log.host = []) :
    let u := applyHostWrites (restoreFrom (closeHostWrites s) c)
    u.ds.rows = c.rows ∧ u.ds.tiles = c.tiles := by
  have hclose : closeHostWrites s = s := by simp [closeHostWrites, hhost]
  rw [hclose, applyHostWrites_none (by exact hlog)]
  exact ⟨rfl, rfl⟩

/-! ### The end of a recovery (R310 to R314) -/

/-- What the end of a recovery is judged by. -/
def recoveryView (s : State) : Option Recovery × Nat × ImgState × Mode × Sub × Bool := (s.ckp.recovery, s.seq.dcn, s.img, modeOf s.md)

theorem recoveryView_applyHostItem (s : State) (x : LogItem) : recoveryView (applyHostItem s x) = recoveryView s :=
  eq_of_withoutWrites recoveryView (fun _ => rfl) (withoutWrites_applyHostItem s x)

theorem recoveryView_applyHostWrites (s : State) : recoveryView (applyHostWrites s) = recoveryView s :=
  eq_of_withoutWrites recoveryView (fun _ => rfl) (withoutWrites_applyHostWrites s)

theorem recoveryView_renumber (s : State) (c : Nat) (isOpen : Bool) : recoveryView (renumber s c isOpen) = recoveryView s := by
  unfold renumber
  split
  · split <;> rfl
  · rfl

theorem recoveryView_makeRecord (s : State) (r : ErrRec) (b : Bool) : recoveryView (makeRecord s r b) = recoveryView s := by
  simp [recoveryView]

theorem recoveryView_buildSig (s : State) : recoveryView (buildSig s) = recoveryView s := by rw [buildSig_frame]; rfl

theorem recoveryView_completeAll (s : State) (op st : Nat) (ws : List Word) : recoveryView (completeAll s op st ws) = recoveryView s := by
  simp [recoveryView]

theorem recoveryView_appendEntry (s : State) (typ dcn : Nat) (items : List LogItem) :
    recoveryView (appendEntry s typ dcn items) = recoveryView s :=
  eq_of_withoutLog recoveryView (fun _ => rfl) (withoutLog_appendEntry s typ dcn items)

/-- The recovery is over; what it leaves to the boundary that follows stands noted. -/
def recoveryOver (s : State) (r : Recovery) : State :=
  { s with
    ckp := { s.ckp with
      badDcn := if s.err.pending.any badDdr then some r.f else s.ckp.badDcn
      recovery := none, kept := if r.kept then some (r.f + 1) else none, collected := if r.collected then some r.f else none }
    casc := { s.casc with rerun := some r.f } }

/-- Channels opened at F count from 0, and the host writes of F are given again. -/
def writesGiven (s : State) : State :=
  let s := (changesOf s.ckp.log.cur).foldl (fun s x => renumber s x.index (bitOf (par x.payload 0) 0)) s
  let s := s.ckp.log.heldHost.foldl applyHostItem (if s.ckp.log.cut.isSome then s else applyHostWrites s)
  s.ckp.log.host.foldl applyHostItem s

/-- The resume marker of DCN t, after the entries up to it; none in REPLAY or after one, nor in a log that has not started. -/
def resumeMarked (s : State) (t : Nat) : State :=
  if s.ckp.log.entries.isEmpty || s.ckp.log.cut.isSome || inReplay s then s
  else appendEntry { s with ckp := { s.ckp with log := { s.ckp.log with entries := keepUpTo s.ckp.log.entries t } } } 0x43 t []

/-- The records of the faults that the recovery has mended, after a new signature where a group was remapped. -/
def recordsMade (s : State) (us : Nat) : State :=
  let rs := s.err.pending.filter (fun r => r.source == 13)
  let s := if rs.any (fun r => r.cause == 0x0601) then buildSig s else s
  let s := { s with err := { s.err with pending := s.err.pending.filter (fun r => r.source != 13) } }
  rs.foldl (fun s r => makeRecord s { r with stallUs := us } false) s

theorem recoveryEnd_eq {s : State} {r : Recovery} (hr : s.ckp.recovery = some r) (hstep : r.stepping = true) (hf : s.seq.dcn = r.f) :
    let u := recoveryOver s r
    let v := if u.img.resident.isSome then resumeMarked (writesGiven u) (if r.kept then r.f + 1 else r.f) else u
    let x := recordsMade (bumpIo v 0x08 0x038 16 1) (usTicks s (ioReg s 0x02 0x074 - r.stall0))
    recoveryEnd s = completeAll { x with seq := { x.seq with tick := if stepping x then .step 0 else .idle } } 0x0006 0 [] := by
  intro u v x
  unfold recoveryEnd
  split
  · next h => rw [hr] at h; cases h
  · next q h =>
    obtain rfl : r = q := Option.some.inj (hr.symm.trans h)
    exact if_neg (by simp [hstep, hf])

theorem recoveryView_writesGiven (s : State) : recoveryView (writesGiven s) = recoveryView s := by
  have hitems (l : List LogItem) (u : State) : recoveryView (l.foldl applyHostItem u) = recoveryView u :=
    foldl_keeps recoveryView _ recoveryView_applyHostItem l u
  unfold writesGiven
  extract_lets u v
  have hu : recoveryView u = recoveryView s := foldl_keeps recoveryView _ (fun _ _ => recoveryView_renumber _ _ _) _ s
  have hv : recoveryView v = recoveryView s := by
    simp only [v, hitems]
    split
    · exact hu
    · rw [recoveryView_applyHostWrites, hu]
  rw [hitems, hv]

theorem recoveryView_resumeMarked (s : State) (t : Nat) : recoveryView (resumeMarked s t) = recoveryView s := by
  unfold resumeMarked
  split
  · rfl
  · rw [recoveryView_appendEntry]
    rfl

theorem recoveryView_recordsMade (s : State) (us : Nat) : recoveryView (recordsMade s us) = recoveryView s := by
  unfold recordsMade
  refine (foldl_keeps recoveryView _ (fun _ _ => recoveryView_makeRecord _ _ _) _ _).trans ?_
  split
  · exact recoveryView_buildSig s
  · rfl

/-- The recovery has ended at F, in the mode that the device was in. -/
theorem recoveryEnd_view {s : State} {r : Recovery} (hr : s.ckp.recovery = some r) (hstep : r.stepping = true) (hf : s.seq.dcn = r.f) :
    recoveryView (recoveryEnd s) = (none, r.f, s.img, modeOf s.md) := by
  have hv : recoveryView (if (recoveryOver s r).img.resident.isSome then
      resumeMarked (writesGiven (recoveryOver s r)) (if r.kept then r.f + 1 else r.f) else recoveryOver s r) = (none, r.f, s.img, modeOf s.md) := by
    rw [← hf]
    split
    · rw [recoveryView_resumeMarked, recoveryView_writesGiven]
      rfl
    · rfl
  rw [recoveryEnd_eq hr hstep hf, recoveryView_completeAll, ← hv]
  exact (recoveryView_recordsMade _ _).trans rfl

theorem recoveryEnd_waiting {s : State} {r : Recovery} (hr : s.ckp.recovery = some r) (hstep : r.stepping = true) (hf : s.seq.dcn = r.f) :
    (recoveryEnd s).io.waiting.all (fun w => w.opcode != 0x0006) = true := by
  rw [recoveryEnd_eq hr hstep hf]
  exact completeAll_waiting _ _ _ _

/-- Settles O26: a due restore either fails, or is the checkpoint's with the host writes of its DCN; the end keeps all but the recovery. -/
theorem recoveryRestoresAndEndsAtF : Obligations.RecoveryRestoresAndEndsAtF := by
  unfold Obligations.RecoveryRestoresAndEndsAtF
  refine fun s r hr => ⟨fun c hstep hlost hspill hsafe himg hc hgood hle hreach => ?restores,
    fun c hstep hlost hspill hsafe himg hc hbad => ?fails, fun hstep hf => ?ends⟩
  case restores =>
    obtain ⟨regs, chn, hu⟩ := restored_withControl s c (logFailed s r)
    obtain ⟨hdcn, htick⟩ := restored_frame s c
    refine ⟨_, rfl, ?_⟩
    rw [recoveryRestore_due hr hstep hlost hspill hsafe himg hc, if_neg (by simp [hgood]; omega), hu]
    refine ⟨?_, ?_, by simp [recoverySteppingFrom], by simp [recoverySteppingFrom, dropReq], ?_, ?_, fun hlog hhost => ?_⟩
    · simpa [recoverySteppingFrom, withControl] using hdcn
    · simpa [recoverySteppingFrom, withControl] using htick
    · simp [recoverySteppingFrom, withControl]
    · simp [recoverySteppingFrom, withControl]
    · simpa [recoverySteppingFrom, withControl] using restored_unwritten c hlog hhost
  case fails =>
    refine ⟨_, rfl, ?_⟩
    rw [recoveryRestore_due hr hstep hlost hspill hsafe himg hc, if_pos hbad]
    refine ⟨Option.isSome_iff_ne_none.mpr (failRecovery_held _), ?_, fun herr hshort => ?_⟩
    · exact congrArg Prod.fst ((failRecovery_modeOf _).trans (congrArg modeOf (setLogErr_md s _)))
    · have hfailed : logFailed s r = true := by simp [logFailed, herr]; omega
      rw [hfailed, ioReg, reg_failRecovery _ (by decide) (by decide)]
      exact setLogErr_flag s
  case ends =>
    have hview := recoveryEnd_view hr hstep hf
    simp only [recoveryView, modeOf, Prod.mk.injEq] at hview
    obtain ⟨hrec, hdcn, himg, hmode, hsub, -⟩ := hview
    exact ⟨_, rfl, hrec, hdcn, recoveryEnd_waiting hr hstep hf, hmode, hsub, himg⟩

end Sys2Proof.Machine

namespace Sys2Proof.Machine

/-! ### The host side while a checkpoint starts (R290, R317) -/

/-- The host side without the memory in which the recorder keeps the log. -/
def hostSide (s : State) : IoState := { s.io with dma := [] }

theorem hostSide_appendEntry (s : State) (typ dcn : Nat) (items : List LogItem) : hostSide (appendEntry s typ dcn items) = hostSide s := by
  unfold appendEntry hostLogPut
  split <;> rfl

theorem hostSide_appendHostWrites (s : State) (dcn : Nat) (ws : List LogItem) : hostSide (appendHostWrites s dcn ws) = hostSide s :=
  foldl_keeps hostSide _ (fun u g => hostSide_appendEntry u 0x44 dcn g) _ s

theorem hostSide_setLog (s : State) (l : LogState) : hostSide { s with ckp := { s.ckp with log := l } } = hostSide s := rfl

theorem hostSide_resumeLogging (s : State) : hostSide (resumeLogging s) = hostSide s := by
  unfold resumeLogging
  split
  · unfold closeHostWrites
    split
    · rfl
    · rw [hostSide_setLog, hostSide_appendHostWrites]
  · unfold resumeAt
    simp only [hostSide_setLog, hostSide_appendHostWrites, hostSide_appendEntry]

theorem hostSide_writeCkpMarker (s : State) (c : Nat) : hostSide (writeCkpMarker s c) = hostSide s := by
  unfold writeCkpMarker
  split
  · rfl
  · simp only [hostSide_setLog, hostSide_appendEntry, hostSide_resumeLogging]

theorem startHold_io (s : State) (ws : List HoldWork) : (startHold s ws).io = s.io := by
  have hcount : ((ws.map workCode).eraseDups.foldl countReq s).io = s.io := foldl_keeps (·.io) _ (by simp) _ s
  unfold startHold
  dsimp only
  split <;> simp [hcount]

/-- A checkpoint starts without a word to the host, but for its marker in the log. -/
theorem hostSide_startCheckpoint (s : State) : hostSide (startCheckpoint s false) = hostSide s := by
  rw [startCheckpoint, hostSide, startHold_io]
  exact hostSide_writeCkpMarker (closeBlocks s) s.seq.dcn

/-- The last checkpoint stays until the new one is complete (R292). -/
theorem startCheckpoint_last (s : State) : (startCheckpoint s false).ckp.last = s.ckp.last := by
  have hmarker : (writeCkpMarker (closeBlocks s) s.seq.dcn).ckp.last = (closeBlocks s).ckp.last :=
    eq_of_withoutLog (·.ckp.last) (fun _ => rfl) (withoutLog_writeCkpMarker (closeBlocks s) s.seq.dcn)
  simpa [startCheckpoint, closeBlocks] using hmarker

/-! ### CKP_TAKE (R290, R303) -/

/-- An accepted command that is to complete later, with room among the 64: its effect is kept, and the command waits. -/
theorem hostCmd_accept_waits {op : Nat} {chk : State → Cmd → Nat} {act : State → Cmd → State × Res} {c : Cmd} {s e : State}
    (h : accepts s op chk c = true) (hroom : s.io.waiting.length < 64) (ha : act (takeEntry s c) c = (e, .accept))
    (hmd : e.md = s.md) (hstop : e.io.stopping = s.io.stopping) :
    let t := hostCmd op chk act c s
    t.ckp = e.ckp ∧ t.slu = e.slu ∧ t.ds = e.ds ∧ t.md = e.md ∧ waitingOf op c ∈ t.io.waiting := by
  obtain ⟨hsafe, hlive⟩ := accepts_live h
  obtain ⟨-, -, -, ht⟩ := hostCmd_accept h hroom ha (by rw [hmd, hsafe]) (by rw [hstop, hlive])
  dsimp only
  rw [ht]
  exact ⟨rfl, rfl, rfl, rfl, List.mem_append_right _ (List.mem_singleton_self _)⟩

/-- The lead tells the other devices of a checkpoint of the present DCN. -/
def checkpointOrdered (s : State) : State := sendFw s (.orderCheckpoint s.seq.dcn false)

theorem actCkpTake_standing {s : State} (hstands : stepping s = false) (hrec : s.ckp.recovery = none) (c : Cmd) :
    actCkpTake s c = (startCheckpoint (checkpointOrdered s) false, .accept) := by
  simp [actCkpTake, hstands, hrec, checkpointOrdered]

/-- The lead fixes the end of a cycle for a checkpoint, and tells the other devices (R290). -/
def checkpointFixed (s : State) : State :=
  { sendFw (tickFree s) (.orderCheckpoint (chooseDcn s) false) with
    slu := { s.slu with agreed := s.slu.agreed ++ [(chooseDcn s, some .checkpoint)] } }

theorem actCkpTake_stepping {s : State} (hsteps : stepping s = true) (hrec : s.ckp.recovery = none) (c : Cmd) :
    actCkpTake s c = (checkpointFixed s, .accept) := by
  simp [actCkpTake, ckpChoice, hsteps, hrec, checkpointFixed]

/-! ### REPLAY_START (R306, R308, R514) -/

/-- A reply in rings that are not being disabled moves RPLR_PROD, and shows on the host side (R355, R356). -/
theorem writeReply_live {s : State} (h : s.io.stopping = false) (r : Reply) :
    let t := writeReply s r
    t = { s with
      regs := (setReg s (bkey 0x103C) (reg s (bkey 0x103C) + 1)).regs
      io := { s.io with replies := t.io.replies, wb := t.io.wb, sent := t.io.sent, pba := t.io.pba } } := by
  simp only [writeReply, signal, finishDisable]
  split <;> simp [writeBack, setReg, h]

/-- The reply of a refusal has its status and no words. -/
theorem replied_refusal (e : State) (op : Nat) (c : Cmd) (st : Nat) (he : e.io.stopping = false) :
    replied e op c st [] (writeReply e (mkReply e op c st 0 [])) := by
  have hrest := writeReply_live he (mkReply e op c st 0 [])
  have hreg (k : Nat) : reg (writeReply e (mkReply e op c st 0 [])) k = if k = bkey 0x103C then reg e (bkey 0x103C) + 1 else reg e k :=
    (congrArg (fun u => reg u k) hrest).trans (reg_setReg e _ k _)
  refine ⟨(lookup_writeReply _ _).trans (by simp [mkReply]), ?_, fun k hk => ?_, ?_⟩
  · rw [hreg, if_pos rfl]
  · rw [hreg, if_neg hk]
  · generalize writeReply e (mkReply e op c st 0 []) = t at hrest ⊢
    rw [hrest]

/-- A refused command leaves the state in which it was run, with its reply. -/
theorem hostCmd_refuse_replied {op : Nat} {chk : State → Cmd → Nat} {act : State → Cmd → State × Res} {c : Cmd} {s e : State} {st : Nat}
    (h : accepts s op chk c = true) (ha : act (takeEntry s c) c = (e, .refuse st)) :
    replied (takeEntry s c) op c st [] (hostCmd op chk act c s) := by
  obtain ⟨hsafe, hlive⟩ := accepts_live h
  rw [hostCmd_accepts h, ha]
  simp only [settle, answer_pcie (accepts_pcie h) (show (takeEntry s c).md.safeHold = none by simp [hsafe])]
  exact replied_refusal _ op c st (by simp [hlive])

/-- A command whose action is done leaves the action's state, but for the registers and the host side. -/
theorem hostCmd_answers {op : Nat} {chk : State → Cmd → Nat} {act : State → Cmd → State × Res} {c : Cmd} {s e : State} {ws : List Word}
    (h : accepts s op chk c = true) (ha : act (takeEntry s c) c = (e, .ok ws)) (hsafe : e.md.safeHold = none) :
    let t := hostCmd op chk act c s
    t.md = e.md ∧ t.seq = e.seq ∧ t.img = e.img ∧ t.ckp = e.ckp := by
  rw [hostCmd_accepts h, ha]
  simp [settle, answer_pcie (accepts_pcie h) hsafe]

/-- The target that P1 and P2 name: a DCN, or the end of the log. -/
def commandedTarget (c : Cmd) : Option Nat := if cPar64 c 1 == 0 then none else some (cPar64 c 1)

/-- The lead tells the other devices of the replay. -/
def replayOrdered (s : State) (c : Cmd) : State := sendFw s (.orderReplay (commandedTarget c) (bitOf (cPar c 0) 2) (bitOf (cPar c 0) 0))

/-- With nothing in its way a replay of a good checkpoint starts, and answers the checkpoint's DCN. -/
theorem actReplayStart_starts {s : State} {c : Cmd} {k : Checkpoint} (hbars : startBars s = 0) (hboard : replayBoard s (bitOf (cPar c 0) 0) = true)
    (hmatch : ckpMatches s = true) (hk : s.ckp.last = some k) (hgood : k.spoiled = false) :
    actReplayStart s c = (startReplay (replayOrdered s c) (commandedTarget c) (bitOf (cPar c 0) 2), .ok (dwords k.dcn)) := by
  simp [actReplayStart, hbars, hboard, hmatch, hk, hgood, lastCkpDcn, replayOrdered, commandedTarget]

/-- The host-write entry that the recorder has begun is closed, but for a log cut at the end of an earlier replay. -/
def recorderClosed (s : State) : State := if s.ckp.log.cut.isSome then s else closeHostWrites s

/-- The state in which a replay chooses how far to step: the checkpoint restored, the mode REPLAY, no host write given again yet. -/
def replayPoint (s : State) (c : Checkpoint) (target : Option Nat) (debug : Bool) : State :=
  let s := restoreFrom (recorderClosed (clearTotals s)) c
  let s := { s with
    ckp := { s.ckp with
      replay := some { target := target, debug := debug }, stale := false, badDcn := none, kept := none, collected := none
      log := { s.ckp.log with heldHost := [], host := [], cut := none } }
    casc := { s.casc with delivered := [], rerun := none }
    chn := s.chn.map (fun e => (e.1, { e.2 with lastLeft := none, mute := none }))
    md := { s.md with stops := [] }, haz := { s.haz with first := none, seq := 0, haltPending := false } }
  modeEvent (setMode s .replay .free false) c.dcn

/-- The stops of a replay that steps: its target, where it has one, and the end of the board's logs. -/
def replayStops (s : State) (target : Option Nat) (fin : Nat) : State :=
  fixStop (match target with | some t => fixStop s (t - 1) .replayTarget | none => s) (fin - 1) .replayLog

/-- From there nothing is stepped towards the checkpoint's own DCN or from a log that ends there; otherwise the host writes of its DCN are given
again, and the ends of the replay are fixed. -/
theorem startReplay_eq {s : State} {c : Checkpoint} (hc : s.ckp.last = some c) (target : Option Nat) (debug : Bool) :
    startReplay s target debug =
      if target = some c.dcn then endReplay (replayPoint s c target debug) .run
      else if boardLogEnd (replayPoint s c target debug) ≤ c.dcn then
        endReplay (setLogErr (replayPoint s c target debug) (logReach (replayPoint s c target debug)).2) .run
      else replayStops (applyHostWrites (replayPoint s c target debug)) target (boardLogEnd (replayPoint s c target debug)) := by
  simp only [startReplay, hc, beq_iff_eq]
  rfl

theorem clearTotals_frame (s : State) :
    (clearTotals s).md = s.md ∧ (clearTotals s).img = s.img ∧ (clearTotals s).ckp = s.ckp ∧ (clearTotals s).peers = s.peers := by
  unfold clearTotals
  split <;> exact ⟨rfl, rfl, rfl, rfl⟩

theorem recorderClosed_frame (s : State) :
    (recorderClosed s).md = s.md ∧ (recorderClosed s).img = s.img ∧ (recorderClosed s).ckp.last = s.ckp.last ∧ (recorderClosed s).peers = s.peers
    ∧ (s.ckp.log.host = [] → recorderClosed s = s) := by
  have hlog : withoutLog (recorderClosed s) = withoutLog s := by unfold recorderClosed; split <;> simp
  have keeps {α : Type} (P : State → α) (hP : ∀ u, P (withoutLog u) = P u) : P (recorderClosed s) = P s := eq_of_withoutLog P hP hlog
  refine ⟨keeps (·.md) fun _ => rfl, keeps (·.img) fun _ => rfl, keeps (·.ckp.last) fun _ => rfl, keeps (·.peers) fun _ => rfl, fun hhost => ?_⟩
  simp [recorderClosed, closeHostWrites, hhost]

/-- The device stands at the checkpoint's step 0 in REPLAY, with its image, checkpoint and log (R306, R308). -/
theorem replayPoint_frame (s : State) (c : Checkpoint) (target : Option Nat) (debug : Bool) :
    let u := replayPoint s c target debug
    u.md = { mode := .replay, sub := .free, debug := false, safeHold := s.md.safeHold, stops := [] } ∧ u.seq.dcn = c.dcn ∧ u.seq.tick = .step 0
    ∧ u.img = s.img ∧ u.ckp.last = s.ckp.last ∧ u.peers = s.peers
    ∧ (s.ckp.log.host = [] → u.ckp.log.entries = s.ckp.log.entries) := by
  obtain ⟨-, cimg, cckp, cpeers⟩ := clearTotals_frame s
  obtain ⟨hmd, himg, hlast, hpeers, hclosed⟩ := recorderClosed_frame (clearTotals s)
  rw [cckp] at hclosed
  unfold replayPoint
  refine ⟨?_, ?_, ?_, ?_, ?_, ?_, fun hhost => ?_⟩
  · simp [setMode, restoreFrom, hmd]
  · simp [restoreFrom]
  · simp [restoreFrom]
  · simp [restoreFrom, himg, cimg]
  · simp [restoreFrom, hlast, cckp]
  · simp [restoreFrom, hpeers, cpeers]
  · simp [restoreFrom, hclosed hhost, cckp]

/-- What every outcome of REPLAY_START keeps. -/
def replayView (s : State) : Nat × ImgState × Option Nat × Option Nat := (s.seq.dcn, s.img, lastCkpDcn s, s.md.safeHold)

theorem replayView_applyHostWrites (s : State) : replayView (applyHostWrites s) = replayView s := by
  have keeps {α : Type} (P : State → α) (hP : ∀ u, P (withoutWrites u) = P u) := eq_of_withoutWrites P hP (withoutWrites_applyHostWrites s)
  simp only [replayView, lastCkpDcn_applyHostWrites, keeps (·.seq.dcn) fun _ => rfl, keeps (·.img) fun _ => rfl, keeps (·.md.safeHold) fun _ => rfl]

theorem replayView_endReplay (s : State) (m : Mode) : replayView (endReplay s m) = replayView s := by
  simp [replayView, endReplay, lastCkpDcn]

theorem replayView_setLogErr (s : State) (b : Bool) : replayView (setLogErr s b) = replayView s := by cases b <;> rfl

theorem replayView_fixStop (s : State) (d : Nat) (k : StopKind) : replayView (fixStop s d k) = replayView s := by
  simp [replayView, lastCkpDcn]

theorem replayView_replayStops (s : State) (target : Option Nat) (fin : Nat) : replayView (replayStops s target fin) = replayView s := by
  cases target <;> simp only [replayStops, replayView_fixStop]

theorem startReplay_view {s : State} {c : Checkpoint} (hc : s.ckp.last = some c) (target : Option Nat) (debug : Bool) :
    replayView (startReplay s target debug) = (c.dcn, s.img, some c.dcn, s.md.safeHold) := by
  obtain ⟨hmd, hdcn, -, himg, hlast, -⟩ := replayPoint_frame s c target debug
  have hpoint : replayView (replayPoint s c target debug) = (c.dcn, s.img, some c.dcn, s.md.safeHold) := by
    simp [replayView, hmd, hdcn, himg, hlast, hc, lastCkpDcn]
  rw [startReplay_eq hc, ← hpoint]
  split
  · exact replayView_endReplay _ _
  · split
    · rw [replayView_endReplay, replayView_setLogErr]
    · rw [replayView_replayStops, replayView_applyHostWrites]

/-- A replay to the checkpoint's own DCN has ended (R306). -/
theorem startReplay_at_checkpoint {s : State} {c : Checkpoint} (hc : s.ckp.last = some c) (debug : Bool) :
    let t := startReplay s (some c.dcn) debug
    t.md.mode = .run ∧ t.md.sub = .halted ∧ t.seq.tick = .idle := by
  rw [startReplay_eq hc, if_pos rfl]
  obtain ⟨hmode, hsub, -, hseq, -⟩ := endReplay_frame (replayPoint s c (some c.dcn) debug) .run
  exact ⟨hmode, hsub, by rw [hseq]⟩

/-- A stop fixed stays when another is. -/
theorem mem_fixStop_of_mem {s : State} {x : Stop} (h : x ∈ s.md.stops) (d : Nat) (k : StopKind) : x ∈ (fixStop s d k).md.stops := by
  unfold fixStop
  split
  · exact h
  · exact List.mem_append_left _ h

theorem lt_boardLogEnd {s : State} {d : Nat} (hpeers : ∀ p ∈ s.peers, d < p.logEnd) (hown : d < (logReach s).1) : d < boardLogEnd s := by
  unfold boardLogEnd
  generalize (logReach s).1 = a at hown
  generalize s.peers = ps at hpeers
  induction ps generalizing a with
  | nil => exact hown
  | cons p ps ih => exact ih _ (lt_min hown (hpeers p List.mem_cons_self)) (fun q hq => hpeers q (List.mem_cons_of_mem _ hq))

/-- A replay with cycles to step enters REPLAY at step 0, with its target's stop fixed (R306, R308). -/
theorem startReplay_steps {s : State} {c : Checkpoint} {n : Nat} (hc : s.ckp.last = some c) (hn : n ≠ c.dcn)
    (hpeers : ∀ p ∈ s.peers, c.dcn < p.logEnd) (hhost : s.ckp.log.host = []) (hown : c.dcn < (logReach s).1) (debug : Bool) :
    let t := startReplay s (some n) debug
    t.md.mode = .replay ∧ t.md.sub = .free ∧ t.seq.tick = .step 0 ∧ ⟨n - 1, .replayTarget⟩ ∈ t.md.stops := by
  obtain ⟨hmd, -, htick, -, hlast, hpeers', hentries⟩ := replayPoint_frame s c (some n) debug
  have hreach : logReach (replayPoint s c (some n) debug) = logReach s := by simp only [logReach, hlast, hentries hhost]
  have hfar : c.dcn < boardLogEnd (replayPoint s c (some n) debug) :=
    lt_boardLogEnd (by rwa [hpeers']) (by rwa [hreach])
  rw [startReplay_eq hc, if_neg (by simpa using hn), if_neg (Nat.not_le.mpr hfar)]
  generalize replayPoint s c (some n) debug = u at *
  have hseq : (applyHostWrites u).seq = u.seq := eq_of_withoutWrites (·.seq) (fun _ => rfl) (withoutWrites_applyHostWrites u)
  exact ⟨by simp [replayStops, hmd], by simp [replayStops, hmd], by simp [replayStops, hseq, htick], mem_fixStop_of_mem (mem_fixStop _ _ _) _ _⟩

/-- Settles O29: CKP_TAKE by the start of a checkpoint or the lead's choice, REPLAY_START by the outcomes of a replay's start. -/
theorem checkpointAndReplayCommands : Obligations.CheckpointAndReplayCommands := by
  unfold Obligations.CheckpointAndReplayCommands
  refine fun s c => ⟨fun h => ?info, fun h hroom hstands hrec => ?takeNow, fun h hroom hsteps hrec => ?takeLater,
    fun k h hbars hboard hmatch hk hspoiled => ?replaySpoiled, fun k h hbars hboard hmatch hk hgood => ?replay⟩
  all_goals
    obtain ⟨hsafe, hlive⟩ := accepts_live h
    have hu := takeEntry_pcie (s := s) (accepts_pcie h)
  case info =>
    have hact : actCkpInfo (takeEntry s c) c = (takeEntry s c, .ok (BitVec.ofNat 32 (ckpStatus (takeEntry s c)) :: dwords ((lastCkpDcn s).getD 0)
        ++ dwords (logOldest s) ++ [BitVec.ofNat 32 (logUsedMb s)])) := by
      simp [actCkpInfo, lastCkpDcn, logOldest, logUsedMb]
    exact ⟨_, rfl, hostCmd_ok h hact (by simp [hsafe]) (by simp [hlive])⟩
  case takeNow =>
    have hact := actCkpTake_standing (s := takeEntry s c) (by rw [stepping_takeEntry, hstands]) (by simp [hrec]) c
    have hside := hostSide_startCheckpoint (checkpointOrdered (takeEntry s c))
    have hlast := startCheckpoint_last (checkpointOrdered (takeEntry s c))
    obtain ⟨k, hbusy, hdcn, hrows, htiles, -⟩ := startCheckpoint_busy (checkpointOrdered (takeEntry s c)) false
    obtain ⟨hmd, -, hds, -⟩ := startCheckpoint_frame (checkpointOrdered (takeEntry s c)) false
    have hframe : (checkpointOrdered (takeEntry s c)).md = s.md ∧ (checkpointOrdered (takeEntry s c)).ds = s.ds
        ∧ (checkpointOrdered (takeEntry s c)).seq = s.seq ∧ (checkpointOrdered (takeEntry s c)).ckp = s.ckp
        ∧ (checkpointOrdered (takeEntry s c)).io.stopping = s.io.stopping := by simp [checkpointOrdered]
    obtain ⟨omd, ods, oseq, ockp, ostop⟩ := hframe
    obtain ⟨tckp, tslu, tds, tmd, twaits⟩ :=
      hostCmd_accept_waits h hroom hact (hmd.trans omd) ((congrArg IoState.stopping hside).trans ostop)
    refine ⟨_, k, rfl, ?_⟩
    rw [tckp, tslu, tds, tmd, hds, hmd, hlast, hdcn, hrows, htiles, omd, ods, oseq, ockp]
    exact ⟨hbusy, rfl, rfl, rfl, startCheckpoint_hold _ _, twaits, rfl, rfl, rfl⟩
  case takeLater =>
    have hact := actCkpTake_stepping (s := takeEntry s c) (by rw [stepping_takeEntry, hsteps]) (by simp [hrec]) c
    have hwin : dcnWindow (takeEntry s c) = dcnWindow s := by rw [hu]; rfl
    obtain ⟨hge, hle⟩ := chooseDcn_range (takeEntry s c)
    obtain ⟨tckp, tslu, tds, tmd, twaits⟩ := hostCmd_accept_waits h hroom hact (by simp [checkpointFixed]) (by simp [checkpointFixed])
    refine ⟨_, chooseDcn (takeEntry s c), rfl, ?_⟩
    rw [tckp, tslu, tds, tmd]
    exact ⟨by simp [checkpointFixed], by simpa using hge, by simpa [hwin] using hle, twaits, by simp [checkpointFixed], by simp [checkpointFixed],
      by simp [checkpointFixed]⟩
  all_goals
    have hbars' : startBars (takeEntry s c) = 0 := by rw [hu]; exact hbars
    have hboard' : replayBoard (takeEntry s c) (bitOf (cPar c 0) 0) = true := by rw [hu]; exact hboard
    have hmatch' : ckpMatches (takeEntry s c) = true := by rw [hu]; exact hmatch
  case replaySpoiled =>
    have hact : actReplayStart (takeEntry s c) c = (takeEntry s c, .refuse 0x0502) := by
      simp [actReplayStart, hbars', hboard', hmatch', hk, hspoiled]
    exact ⟨_, rfl, hostCmd_refuse_replied h hact⟩
  case replay =>
    have hact := actReplayStart_starts hbars' hboard' hmatch' (by simpa using hk) hgood
    have hframe : (replayOrdered (takeEntry s c) c).ckp = s.ckp ∧ (replayOrdered (takeEntry s c) c).peers = s.peers
        ∧ (replayOrdered (takeEntry s c) c).img = s.img ∧ (replayOrdered (takeEntry s c) c).md = s.md := by simp [replayOrdered]
    generalize replayOrdered (takeEntry s c) c = v at *
    obtain ⟨vckp, vpeers, vimg, vmd⟩ := hframe
    have vlast : v.ckp.last = some k := by rw [vckp, hk]
    have hview := startReplay_view vlast (commandedTarget c) (bitOf (cPar c 0) 2)
    simp only [replayView, Prod.mk.injEq] at hview
    obtain ⟨hdcn, himg, hlast, hheld⟩ := hview
    obtain ⟨tmd, tseq, timg, tckp⟩ := hostCmd_answers h hact (by rw [hheld, vmd, hsafe])
    have htarget (hzero : cPar64 c 1 ≠ 0) : commandedTarget c = some (cPar64 c 1) := by simp [commandedTarget, hzero]
    refine ⟨_, rfl, ?_⟩
    simp only [tmd, tseq, timg, lastCkpDcn, tckp]
    refine ⟨hdcn, himg.trans vimg, hlast, fun heq hzero => ?_, fun hne hzero hpeers hhost hreach => ?_⟩
    · rw [htarget hzero, heq]
      exact startReplay_at_checkpoint vlast _
    · rw [htarget hzero]
      exact startReplay_steps vlast hne (by rwa [vpeers]) (by rwa [vckp]) (by rwa [logReach, vckp]) _

end Sys2Proof.Machine

namespace Sys2Proof.Machine

/-! ### The completion of the oldest waiting command of an opcode (R358, R360) -/

@[simp] theorem postCompletion_exports (s : State) (w : Waiting) (st : Nat) (ws : List Word) :
    (postCompletion s w st ws).io.exports = s.io.exports := by
  unfold postCompletion
  split
  · rfl
  · split <;> simp [queueEvent, tickEvent]

theorem completeFirst_exports {s : State} {p : Waiting → Bool} {w : Waiting} (h : firstWaiting s p = some w) (st : Nat) (ws : List Word) :
    (completeFirst s p st ws).io.exports = s.io.exports := by
  simp [completeFirst, h]

/-- The completion of a command of the rings is an event of code 1 with its tag, the status and the words. -/
theorem completeFirst_event {s : State} {p : Waiting → Bool} {w : Waiting} (h : firstWaiting s p = some w) (hquiet : w.quiet = false)
    (hpath : w.path = .pcie) (st : Nat) (ws : List Word) :
    ∃ e ∈ (completeFirst s p st ws).io.queue, e.code = 1 ∧ e.tag = w.tag ∧ e.status = st ∧ e.payload = ws := by
  simp only [completeFirst, h, postCompletion, hquiet, hpath, queueEvent, copyEvent_frame, Bool.false_eq_true, if_false]
  exact ⟨_, List.mem_append_right _ List.mem_cons_self, rfl, rfl, rfl, rfl⟩

/-- What the completion of the oldest waiting command does on the host side. -/
theorem completeFirst_host {s : State} {p : Waiting → Bool} {w : Waiting} (h : firstWaiting s p = some w) (st : Nat) (ws : List Word) :
    let t := completeFirst s p st ws
    t.io.waiting.length + 1 = s.io.waiting.length ∧ t.io.exports = s.io.exports ∧ t.io.dma = s.io.dma
    ∧ (w.quiet = false → w.path = .pcie → ∃ e ∈ t.io.queue, e.code = 1 ∧ e.tag = w.tag ∧ e.status = st ∧ e.payload = ws) := by
  obtain ⟨hcount, hdma⟩ := completeFirst_io h st ws
  exact ⟨hcount, completeFirst_exports h st ws, hdma, fun hquiet hpath => completeFirst_event h hquiet hpath st ws⟩

/-! ### CKP_EXPORT_COMPLETE (R315, R514) -/

theorem exportHeader_length (e : CkpExport) : (exportHeader e).length = 256 := by
  simp [exportHeader, leBytes_length, digestBytes]

/-- What CKP_EXPORT writes to the host: the sections by their fields, the header by its words. -/
def exportWritten (s : State) (a : Nat) (e : CkpExport) : State :=
  let s := tickFree s
  { s with io := { s.io with exports := put s.io.exports a e, dma := put s.io.dma a (bytesWords (exportHeader e)) } }

/-- The oldest CKP_EXPORT ends: too long, spoiled, or written. -/
theorem ckpExportComplete_eq {s : State} {w : Waiting} {k : Checkpoint} (hw : firstWaiting s (fun w => w.opcode == 0x0604) = some w)
    (hk : s.ckp.last = some k) :
    let n := (exportOf s k).totalBytes
    ckpExportComplete s =
      if cPar64 w.cmd 2 < n then completeFirst (tickFree s) (fun w => w.opcode == 0x0604) 0x0301 (dwords n)
      else if k.spoiled then completeFirst (tickFree s) (fun w => w.opcode == 0x0604) 0x0502 []
      else completeFirst (exportWritten s (cPar64 w.cmd 0) (exportOf s k)) (fun w => w.opcode == 0x0604) 0 (dwords n) := by
  simp only [ckpExportComplete, hw, hk]
  rfl

/-! ### CKP_IMPORT_COMPLETE (R316) -/

/-- The oldest CKP_IMPORT ends: refused by a check, or in place. -/
theorem ckpImportComplete_eq {s : State} {w : Waiting} {e : CkpExport} (hw : firstWaiting s (fun w => w.opcode == 0x0605) = some w)
    (he : w.cmd.data = .ckp e) :
    let st := if s.md.mode = .loaded then importStatus s e (cPar64 w.cmd 2) else 0x0202
    ckpImportComplete s =
      if st ≠ 0 then completeFirst s (fun w => w.opcode == 0x0605) st []
      else completeFirst (applyImport s e) (fun w => w.opcode == 0x0605) 0 [] := by
  simp [ckpImportComplete, hw, he]

/-- What an import puts in place: the checkpoint, its log and its regions, none of them poisoned. -/
theorem applyImport_frame (s : State) (e : CkpExport) :
    let t := applyImport s e
    t.ckp.last = some { e.state with cow := [], imported := true } ∧ t.ckp.log.entries = e.log ∧ t.ckp.stale = true ∧ t.ckp.hostBytes = 0
    ∧ t.ds = { s.ds with regions := wrAll [] e.regions, poison := [] } ∧ t.seq = s.seq := ⟨rfl, rfl, rfl, rfl, rfl, rfl⟩

/-- Settles O30: the commands only wait; each end is one of the outcomes of its completion. -/
theorem exportAndImportOfACheckpoint : Obligations.ExportAndImportOfACheckpoint := by
  unfold Obligations.ExportAndImportOfACheckpoint
  refine fun s c => ⟨fun h hlast hroom => ?exportWaits, fun h hroom => ?importWaits, fun hheld => ?held,
    fun w k hlive hw hk => ?exportEnds, fun w e hlive hw he => ?importEnds⟩
  case exportWaits =>
    obtain ⟨hsafe, hstop⟩ := accepts_live h
    exact ⟨_, rfl, hostCmd_accept h hroom (by simp [actCkpExport, hlast]) (by simp [hsafe]) (by simp [hstop])⟩
  case importWaits =>
    obtain ⟨hsafe, hstop⟩ := accepts_live h
    exact ⟨_, rfl, hostCmd_accept h hroom rfl (by simp [hsafe]) (by simp [hstop])⟩
  case held => exact ⟨congrArg Host.Outcome.next (if_pos hheld), congrArg Host.Outcome.next (if_pos hheld)⟩
  case exportEnds =>
    intro n
    refine ⟨ckpExportComplete s, congrArg Host.Outcome.next (if_neg (by simp [inSafeHold, hlive])), ?_⟩
    rw [ckpExportComplete_eq hw hk]
    have hwait : firstWaiting (tickFree s) (fun w => w.opcode == 0x0604) = some w := hw
    have hwritten : firstWaiting (exportWritten s (cPar64 w.cmd 0) (exportOf s k)) (fun w => w.opcode == 0x0604) = some w := hw
    by_cases hlong : cPar64 w.cmd 2 < n
    · obtain ⟨hcount, hexports, hdma, hevent⟩ := completeFirst_host hwait 0x0301 (dwords n)
      have hnot : ¬ n ≤ cPar64 w.cmd 2 := Nat.not_le.mpr hlong
      rw [if_pos hlong, hexports, hdma]
      refine ⟨hcount, fun hfits => absurd hfits hnot, fun _ _ => ⟨rfl, rfl⟩, fun _ => ⟨rfl, rfl⟩, fun hquiet hpath => ?_, by simp, by simp, by simp⟩
      obtain ⟨e, he, hcode, htag, hst, hws⟩ := hevent hquiet hpath
      exact ⟨e, he, hcode, htag, fun _ => ⟨hst, hws⟩, fun hfits => absurd hfits hnot, fun hfits => absurd hfits hnot⟩
    rw [if_neg hlong]
    cases k.spoiled with
    | true =>
      obtain ⟨hcount, hexports, hdma, hevent⟩ := completeFirst_host hwait 0x0502 []
      rw [if_pos rfl, hexports, hdma]
      refine ⟨hcount, fun _ => Bool.noConfusion, fun _ _ => ⟨rfl, rfl⟩, fun _ => ⟨rfl, rfl⟩, fun hquiet hpath => ?_, by simp, by simp, by simp⟩
      obtain ⟨e, he, hcode, htag, hst, -⟩ := hevent hquiet hpath
      exact ⟨e, he, hcode, htag, fun h => absurd h hlong, fun _ _ => hst, fun _ => Bool.noConfusion⟩
    | false =>
      obtain ⟨hcount, hexports, hdma, hevent⟩ := completeFirst_host hwritten 0 (dwords n)
      rw [if_neg Bool.false_ne_true, hexports, hdma]
      refine ⟨hcount, fun _ _ => ⟨lookup_put_same _ _ _, lookup_put_same _ _ _, exportHeader_length _⟩,
        fun a ha => ⟨lookup_put_other _ _ _ _ ha, lookup_put_other _ _ _ _ ha⟩, fun h => (h.elim hlong Bool.false_ne_true).elim,
        fun hquiet hpath => ?_, by simp [exportWritten], by simp [exportWritten], by simp [exportWritten]⟩
      obtain ⟨e, he, hcode, htag, hst, hws⟩ := hevent hquiet hpath
      exact ⟨e, he, hcode, htag, fun h => absurd h hlong, fun _ => Bool.noConfusion, fun _ _ => ⟨hst, hws⟩⟩
  case importEnds =>
    have hrun : exec .ckpImportComplete s = .next (ckpImportComplete s) := congrArg Host.Outcome.next (if_neg (by simp [inSafeHold, hlive]))
    refine ⟨fun hmode hpass => ⟨_, hrun, ?_⟩, fun hfail => ⟨_, hrun, ?_⟩⟩
    · have hwait : firstWaiting (applyImport s e) (fun w => w.opcode == 0x0605) = some w := hw
      rw [ckpImportComplete_eq hw he, if_pos hmode, if_neg (not_not.mpr hpass)]
      obtain ⟨hlast, hentries, hstale, hbytes, hds, hseq⟩ := applyImport_frame s e
      refine ⟨by simpa using hlast, by simpa using hentries, by simpa using hstale, by simpa using hbytes, by simpa using hds, by simp,
        by simpa using hseq, (completeFirst_io hwait 0 []).1⟩
    · have hstatus : (if s.md.mode = .loaded then importStatus s e (cPar64 w.cmd 2) else 0x0202) ≠ 0 := by
        split
        · next hmode => exact hfail.resolve_left (not_not.mpr hmode)
        · decide
      rw [ckpImportComplete_eq hw he, if_pos hstatus]
      exact ⟨by simp, by simp, by simp, by simp, (completeFirst_io hw _ []).1⟩

end Sys2Proof.Machine

namespace Sys2Proof.Machine

/-! ### What the records and stall requests of a channel leave (R336, R346, R573) -/

@[simp] theorem storeTrc_trx (s : State) (u lostBit : Nat) (lostOff : Nat × Nat) (r : List Word) :
    (storeTrc s u lostBit lostOff r).trx = s.trx := by
  unfold storeTrc bufRecord
  dsimp only
  split <;> simp

@[simp] theorem syncDue_trx (s : State) (u : Nat) : (syncDue s u).trx = s.trx := by
  unfold syncDue
  split <;> simp [syncRecord]

@[simp] theorem decision_trx_io (s : State) (kind c : Nat) (q : Word) (d : Nat) :
    (decision s kind c q d).trx = s.trx ∧ (decision s kind c q d).io = s.io := by
  unfold decision
  split <;> simp

@[simp] theorem backPressure_trx_io (s : State) (c : Nat) : (backPressure s c).trx = s.trx ∧ (backPressure s c).io = s.io := by
  unfold backPressure
  dsimp only
  repeat' split
  all_goals simp

@[simp] theorem headNote_trx (s : State) (c : Nat) : (headNote s c).trx = s.trx := by
  unfold headNote
  split <;> simp

@[simp] theorem cycleView_headNote (s : State) (c : Nat) : cycleView (headNote s c) = cycleView s := by
  unfold headNote
  split <;> simp

@[simp] theorem inNote_trx_io (ch : Chan) (s : State) (c : Nat) : (inNote ch s c).trx = s.trx ∧ (inNote ch s c).io = s.io := by
  unfold inNote
  repeat' split
  all_goals simp

@[simp] theorem cycleView_signal (s : State) (v : Nat) : cycleView (signal s v) = cycleView s := by simp [cycleView]

/-! ### The channels of the map -/

@[simp] theorem chanOf_setChan (s : State) (c : Nat) (ch : Chan) : chanOf (setChan s c ch) c = some ch := lookup_put_same _ _ _

theorem chanOf_setChan_other (s : State) {c o : Nat} (ch : Chan) (h : o ≠ c) : chanOf (setChan s c ch) o = chanOf s o :=
  lookup_put_other _ _ _ _ h

/-- The channels are those of the transactor's map, whatever else changes. -/
theorem chanOf_congr {s t : State} (h : t.trx.chans = s.trx.chans) (n : Nat) : chanOf t n = chanOf s n := congrArg (lookup · n) h

theorem chanOf_takeEntry (s : State) (c : Cmd) (n : Nat) : chanOf (takeEntry s c) n = chanOf s n := chanOf_congr (by simp) n

/-- From s to t channel n has become x, with every other channel, the mode, the sequencer and the design data as before. -/
structure OnlyChan (s t : State) (n : Nat) (x : Chan) : Prop where
  chan : chanOf t n = some x
  other : ∀ o, o ≠ n → chanOf t o = chanOf s o
  view : cycleView t = cycleView s

theorem OnlyChan.md {s t : State} {n : Nat} {x : Chan} (h : OnlyChan s t n x) : t.md = s.md := (cycleView_eq.mp h.view).1
theorem OnlyChan.seq {s t : State} {n : Nat} {x : Chan} (h : OnlyChan s t n x) : t.seq = s.seq := (cycleView_eq.mp h.view).2.1
theorem OnlyChan.ds {s t : State} {n : Nat} {x : Chan} (h : OnlyChan s t n x) : t.ds = s.ds := (cycleView_eq.mp h.view).2.2.1

theorem onlyChan_setChan (s : State) (n : Nat) (x : Chan) : OnlyChan s (setChan s n x) n x :=
  ⟨chanOf_setChan s n x, fun _ ho => chanOf_setChan_other s x ho, rfl⟩

/-- A channel replaced twice is replaced by the second. -/
theorem OnlyChan.trans {s t u : State} {n : Nat} {x y : Chan} (h : OnlyChan s t n x) (h' : OnlyChan t u n y) : OnlyChan s u n y :=
  ⟨h'.chan, fun o ho => (h'.other o ho).trans (h.other o ho), h'.view.trans h.view⟩

/-- What leaves the map and the cycle as they are may come after. -/
theorem OnlyChan.congr {s t u : State} {n : Nat} {x : Chan} (h : OnlyChan s t n x) (hchans : u.trx.chans = t.trx.chans)
    (hview : cycleView u = cycleView t) : OnlyChan s u n x :=
  ⟨(chanOf_congr hchans n).trans h.chan, fun o ho => (chanOf_congr hchans o).trans (h.other o ho), hview.trans h.view⟩

/-- Taking a command packet is no matter of the channels. -/
theorem OnlyChan.of_takeEntry {s t : State} {c : Cmd} {n : Nat} {x : Chan} (h : OnlyChan (takeEntry s c) t n x) : OnlyChan s t n x :=
  ⟨h.chan, fun o ho => (h.other o ho).trans (chanOf_takeEntry s c o), h.view.trans (by simp [cycleView])⟩

/-- A reply is no matter of the channels. -/
theorem OnlyChan.of_replied {s e t : State} {n : Nat} {x : Chan} (h : OnlyChan s e n x) {op : Nat} {c : Cmd} {st : Nat} {ws : List Word}
    (hr : replied e op c st ws t) : OnlyChan s t n x := by
  rw [replied_frame hr]
  exact ⟨h.chan, h.other, h.view⟩

/-! ### A flush, and a close (R340, R343) -/

/-- A channel whose complete packets a flush at a DCN has discarded. -/
def flushedChan (dcn : Nat) (ch : Chan) : Chan :=
  let gone := (ch.outq.filter (fun m => m.done.isSome)).length
  countOut { ch with outq := openMsgs ch, flush := false, flushed := ch.flushed ++ [(dcn, gone)] } gone

/-- A flush that takes effect replaces its channel. -/
theorem flushPoint_onlyChan {s : State} {n : Nat} {ch : Chan} (h : chanOf s n = some ch) :
    OnlyChan s (flushPoint s n) n (flushedChan s.seq.dcn ch) := by
  refine (onlyChan_setChan s n (flushedChan s.seq.dcn ch)).congr ?_ (cycleView_flushPoint s n)
  simp only [flushPoint, h]
  simp [flushedChan, openMsgs]

@[simp] theorem flushPoint_io (s : State) (n : Nat) : (flushPoint s n).io = s.io := by
  unfold flushPoint
  split
  · rfl
  · simp [setChan]

/-- Without a packet in progress every message of the queue is one of a complete packet. -/
theorem done_of_pktOpen_false {ch : Chan} (h : pktOpen ch = false) : ∀ m ∈ ch.outq, m.done.isSome = true := by
  simpa [pktOpen, Option.isSome_iff_ne_none] using h

/-- Without a packet in progress a flush empties the queue. -/
theorem flushedChan_of_pktOpen_false {ch : Chan} (h : pktOpen ch = false) (dcn : Nat) :
    flushedChan dcn ch
      = { countOut { ch with outq := [], flushed := ch.flushed ++ [(dcn, ch.outq.length)] } ch.outq.length with flush := false } := by
  have hall := done_of_pktOpen_false h
  have hgone : ch.outq.filter (fun m => m.done.isSome) = ch.outq := List.filter_eq_self.mpr hall
  have hopen : openMsgs ch = [] := List.filter_eq_nil_iff.mpr fun m hm => by simp [Option.isSome_iff_ne_none.mp (hall m hm)]
  simp [flushedChan, hgone, hopen, countOut]

theorem setNth_length {α : Type} (l : List α) (n : Nat) (x : α) : (setNth l n x).length = l.length := by
  induction l generalizing n with
  | nil => rfl
  | cons a l ih => cases n <;> simp [setNth, ih]

/-- A flush that waits takes effect before the close of its channel (R343, log 67). -/
theorem closePoint_onlyChan {s : State} {n : Nat} {ch : Chan} (h : chanOf s n = some ch) :
    OnlyChan s (if ch.flush then flushPoint s n else s) n (if ch.flush then flushedChan s.seq.dcn ch else ch) := by
  split
  · exact flushPoint_onlyChan h
  · exact ⟨h, fun _ _ => rfl, rfl⟩

/-- A close leaves its channel CLOSED, without inbound messages, and ends the packet in progress in its place. -/
theorem closeChan_spec {s : State} {n : Nat} {ch : Chan} (h : chanOf s n = some ch) :
    (∃ x, OnlyChan s (closeChan s n ch) n x ∧ x.isOpen = false ∧ x.inq = []
      ∧ x.outq.length = if ch.flush then (openMsgs ch).length else ch.outq.length)
    ∧ (closeChan s n ch).io = s.io := by
  have hview := cycleView_closeChan s n ch
  revert hview
  unfold closeChan
  extract_lets flushed before lost emptied trx unstaged noted number last _ cut _ stored
  clear_value lost
  intro hview
  have hflushed := closePoint_onlyChan h
  have hlen : emptied.outq.length = if ch.flush then (openMsgs ch).length else ch.outq.length := by
    have hbefore : before = if ch.flush then flushedChan s.seq.dcn ch else ch := congrArg (Option.getD · ch) hflushed.chan
    show before.outq.length = _
    rw [hbefore]
    split <;> rfl
  have hnoted : noted.trx.chans = flushed.trx.chans ∧ noted.io = s.io := by
    have hio : flushed.io = s.io := by simp only [flushed]; split <;> simp
    cases lost <;> simp [noted, unstaged, trx, hio]
  obtain ⟨hchans, hio⟩ := hnoted
  have hstored : ∃ x, OnlyChan noted stored n x ∧ x.isOpen = false ∧ x.inq = [] ∧ x.outq.length = emptied.outq.length ∧ stored.io = noted.io := by
    simp only [stored]
    split
    · exact ⟨endPacket cut number, (onlyChan_setChan noted n _).congr rfl rfl, rfl, rfl, by simp [endPacket, cut, setNth_length], rfl⟩
    · exact ⟨emptied, onlyChan_setChan noted n emptied, rfl, rfl, rfl, rfl⟩
  obtain ⟨x, hx, hopen, hinq, houtq, hsio⟩ := hstored
  have hnote : OnlyChan noted (inNote ch stored n) n x := hx.congr (by simp) (by simp)
  refine ⟨⟨x, ⟨hnote.chan, fun o ho => ?_, hview⟩, hopen, hinq, houtq.trans hlen⟩, by simp [hsio, hio]⟩
  calc chanOf (inNote ch stored n) o = chanOf noted o := hnote.other o ho
    _ = chanOf flushed o := chanOf_congr hchans o
    _ = chanOf s o := hflushed.other o ho

/-! ### The channel commands (R323, R324, R337, R340, R341, R343) -/

/-- The host inbound ring that CH_OPEN names. -/
def openRing (c : Cmd) : InRing := { base := cPar64 c 1, entries := cPar c 3, wb := cPar64 c 4, prod := 0, cons := 0 }

/-- CH_OPEN of a CLOSED channel with a format that it has. -/
theorem actChOpen_opens {s : State} {c : Cmd} {ch : Chan} (h : chanOf s (openChan c) = some ch) (hclosed : ch.isOpen = false)
    (hnone : ch.opening = none) (hformat : ch.cfg.format ≤ openFormat c) :
    actChOpen s c =
      (if stepping s then setChan s (openChan c) { ch with opening := some (openRing c), changeAt := s.seq.dcn }
        else logChange (setChan s (openChan c) (openedChan ch (openRing c))) (openChan c) true, .ok []) := by
  simp only [actChOpen, h, hclosed, hnone, Option.isSome_none, Bool.or_self, Bool.false_eq_true, if_false, Nat.not_lt.mpr hformat]
  split <;> rfl

/-- CH_CLOSE of an OPEN channel. -/
theorem actChClose_closes {s : State} {c : Cmd} {ch : Chan} (h : chanOf s (cPar c 0) = some ch) (hopen : ch.isOpen = true) :
    actChClose s c =
      (if stepping s then setChan s (cPar c 0) { ch with closing := true, changeAt := s.seq.dcn }
        else logChange (closeChan s (cPar c 0) ch) (cPar c 0) false, .ok []) := by
  simp only [actChClose, h, hopen, if_true]
  split <;> rfl

/-- CH_FLUSH of a channel without a flush that waits. -/
theorem actChFlush_waits {s : State} {c : Cmd} {ch : Chan} (h : chanOf s (cPar c 0) = some ch) (hflush : ch.flush = false) :
    actChFlush s c =
      (if pktOpen ch then setChan s (cPar c 0) { ch with flush := true } else flushPoint s (cPar c 0), .accept) := by
  simp only [actChFlush, h, hflush, Bool.false_eq_true, if_false]
  split <;> rfl

/-- Replace an outbound ring. -/
def setRing (s : State) (n : Nat) (r : OutRing) : State := { s with trx := { s.trx with rings := put s.trx.rings n r } }

/-- The empty outbound ring that OUT_RING names. -/
def namedRing (c : Cmd) : OutRing :=
  { base := cPar64 c 1, entries := cPar c 3, wb := cPar64 c 4, vec := cPar c 6, prod := 0, data := [] }

/-- OUT_RING of a ring that no open outbound channel uses. -/
theorem actOutRing_sets {s : State} {c : Cmd}
    (h : s.trx.chans.any (fun e => e.2.isOpen && hasOut e.2.cfg && e.2.cfg.outRing == cPar c 0) = false) :
    actOutRing s c = (setRing s (cPar c 0) (namedRing c), .ok []) := if_neg (Bool.eq_false_iff.mp h)

/-- An accepted command whose action replaces one channel replaces it, and replies. -/
theorem hostCmd_onlyChan {op : Nat} {chk : State → Cmd → Nat} {act : State → Cmd → State × Res} {c : Cmd} {s e : State} {n : Nat} {x : Chan}
    (h : accepts s op chk c = true) (ha : act (takeEntry s c) c = (e, .ok [])) (he : OnlyChan (takeEntry s c) e n x)
    (hio : e.io = (takeEntry s c).io) : OnlyChan s (hostCmd op chk act c s) n x := by
  obtain ⟨hsafe, hstop⟩ := accepts_live h
  exact he.of_takeEntry.of_replied (hostCmd_ok h ha (by simp [he.of_takeEntry.md, hsafe]) (by simp [hio, hstop]))

/-- Settles O31: each command by what its action is on an accepted packet, and the rule of the operation that it is. -/
theorem channelCommandsOpenCloseAndFlush : Obligations.ChannelCommandsOpenCloseAndFlush := by
  unfold Obligations.ChannelCommandsOpenCloseAndFlush
  intro s c
  dsimp only
  have hdcn : (takeEntry s c).seq.dcn = s.seq.dcn := by simp
  have htaken {n : Nat} {ch : Chan} (hch : chanOf s n = some ch) : chanOf (takeEntry s c) n = some ch := (chanOf_takeEntry s c n).trans hch
  refine ⟨fun ch h hch => ?status, fun ch h hch hclosed hnone hformat => ?opens, fun ch h hch hopen => ?closes,
    fun ch h hch hflush hroom hpkt => ?flushWaits, fun ch h hch hflush hroom hpkt => ?flushNow, fun h hfree => ?ring⟩
  all_goals obtain ⟨hsafe, hstop⟩ := accepts_live h
  case status =>
    have hact : actChStatus (takeEntry s c) c
        = (takeEntry s c, .ok ((List.range 4).map (fun k => BitVec.ofNat 32 (chanWord ch k)) ++ [ch.inSeq, ch.outSeq])) := by
      simp only [actChStatus, htaken hch]
    exact ⟨_, rfl, hostCmd_ok h hact (by simp [hsafe]) (by simp [hstop])⟩
  case opens =>
    have hact := actChOpen_opens (htaken hch) hclosed hnone hformat
    rw [stepping_takeEntry, hdcn] at hact
    cases hst : stepping s with
    | true =>
      rw [hst, if_pos rfl] at hact
      have ht := hostCmd_onlyChan h hact (onlyChan_setChan ..) rfl
      exact ⟨_, _, rfl, ht.chan, ht.other, nofun, fun _ => ⟨rfl, rfl⟩, ht.ds, ht.md⟩
    | false =>
      rw [hst, if_neg Bool.false_ne_true] at hact
      have ht := hostCmd_onlyChan h hact ((onlyChan_setChan ..).congr rfl rfl) rfl
      exact ⟨_, _, rfl, ht.chan, ht.other, fun _ => ⟨rfl, rfl, rfl, rfl, rfl, rfl⟩, nofun, ht.ds, ht.md⟩
  case closes =>
    have hact := actChClose_closes (htaken hch) hopen
    rw [stepping_takeEntry, hdcn] at hact
    cases hst : stepping s with
    | true =>
      rw [hst, if_pos rfl] at hact
      have ht := hostCmd_onlyChan h hact (onlyChan_setChan ..) rfl
      exact ⟨_, _, rfl, ht.chan, ht.other, nofun, fun _ => rfl, ht.ds, ht.md⟩
    | false =>
      rw [hst, if_neg Bool.false_ne_true] at hact
      obtain ⟨⟨x, hx, hclosed, hinq, houtq⟩, hio⟩ := closeChan_spec (htaken hch)
      have ht := hostCmd_onlyChan h hact (hx.congr rfl rfl) hio
      exact ⟨_, x, rfl, ht.chan, ht.other, fun _ => ⟨hclosed, hinq, houtq⟩, nofun, ht.ds, ht.md⟩
  case flushWaits =>
    have hact := actChFlush_waits (htaken hch) hflush
    rw [hpkt, if_pos rfl] at hact
    exact ⟨_, rfl, hostCmd_accept h hroom hact (by simp [hsafe]) (by simp [setChan, hstop])⟩
  case flushNow =>
    have hact := actChFlush_waits (htaken hch) hflush
    rw [hpkt, if_neg Bool.false_ne_true] at hact
    have hflushed := (flushPoint_onlyChan (htaken hch)).of_takeEntry
    rw [hdcn, flushedChan_of_pktOpen_false hpkt] at hflushed
    have hreply := hostCmd_accept h hroom hact (by simp [hsafe]) (by simp [hstop])
    have ht := OnlyChan.of_replied (e := nowWaiting _ 0x0703 c) (hflushed.congr rfl rfl) hreply
    exact ⟨_, rfl, (hostCmd_accept_waits h hroom hact (by simp) (by simp)).2.2.2.2, ht.chan, ht.other, ht.ds, ht.md, ht.seq⟩
  case ring =>
    have htrx : (takeEntry s c).trx = s.trx := by simp
    have hact := actOutRing_sets (s := takeEntry s c) (by rwa [htrx])
    have ht := replied_frame (hostCmd_ok h hact (by simp [setRing, hsafe]) (by simp [setRing, hstop]))
    have hrings : (hostCmd 0x0704 chkOutRing actOutRing c s).trx.rings = put s.trx.rings (cPar c 0) (namedRing c) :=
      (congrArg (·.trx.rings) ht).trans (by simp [setRing])
    refine ⟨_, namedRing c, rfl, ?_, rfl, rfl, rfl, rfl, rfl, rfl, fun o ho => ?_, ?_⟩
    · rw [hrings, lookup_put_same]
    · rw [hrings, lookup_put_other _ _ _ _ ho]
    · rw [hrings, ht, takeEntry_pcie (accepts_pcie h)]
      rfl

end Sys2Proof.Machine

namespace Sys2Proof.Machine

/-! ### A message from the host ring (R323 to R325) -/

/-- The message or fence token of an entry. -/
def entryMsg (ch : Chan) (e : RingEntry) : InMsg := {
  seq := ch.inSeq, fence := if e.typ == 2 then some e.fenceId else none
  words := (List.range e.len).map (fun i => nth 0 e.words i), taken := false }

/-- The channel with the message of an entry at the end of its queue; a fence token takes no number. -/
def acceptedChan (ch : Chan) (e : RingEntry) : Chan :=
  { withQueue ch (ch.inq ++ [entryMsg ch e]) with inSeq := if e.typ == 2 then ch.inSeq else ch.inSeq + 1 }

/-- An acceptance replaces its channel and leaves records. -/
theorem accept_eq (s : State) (n : Nat) (ch : Chan) (e : RingEntry) :
    let t := decision (setChan s n (acceptedChan ch e)) 1 n ch.inSeq e.len
    accept s n ch e = inNote ch (if ch.inq.isEmpty then headNote t n else t) n := rfl

theorem accept_onlyChan (s : State) (n : Nat) (ch : Chan) (e : RingEntry) : OnlyChan s (accept s n ch e) n (acceptedChan ch e) := by
  rw [accept_eq]
  split <;> exact (onlyChan_setChan s n _).congr (by simp) (by simp)

/-- The channel with its consumer index moved on. -/
def entryTaken (ch : Chan) : Chan := { ch with ring := { ch.ring with cons := (ch.ring.cons + 1) % 2 ^ 32 } }

/-- The consumer index goes to the host with the entry (R325). -/
def entryConsumed (s : State) (ch : Chan) : State := { s with io := { s.io with dma := put s.io.dma ch.ring.wb [lo32 (ch.ring.cons + 1)] } }

/-- A good entry at the place of the consumer index is accepted. -/
theorem ringEntry_accepts {s : State} {n : Nat} {ch : Chan} {ws : List Word} (h : chanOf s n = some ch) (htakes : takesIn s ch = true)
    (hsource : ch.cfg.source = 0) (hring : ch.ring.cons ≠ ch.ring.prod) (hok : entryOk ch (parseEntry ch.fmt ws) = true) :
    ringEntry s n ⟨entryAddr ch, ws⟩ = accept (entryConsumed s ch) n (entryTaken ch) (parseEntry ch.fmt ws) := by
  simp only [ringEntry, h, htakes, hsource]
  rw [if_neg (by simpa using hring)]
  exact if_pos hok

/-! ### A message to its boundary (R318, R328) -/

/-- An engine with room stages the channel that its round finds, and takes nothing from a queue. -/
theorem stage_picks {s : State} {g n : Nat} (hg : g < 4) (hlog : fromLog s = false) (hroom : (s.trx.staged.filter (fun c => c % 4 == g)).length < 16)
    (hfind : (engineOrder g (nth 0 s.trx.engLast g)).find? (canStage s) = some n) :
    (stage s g).trx = { s.trx with staged := ins s.trx.staged n, engLast := setNth s.trx.engLast g n } ∧ cycleView (stage s g) = cycleView s := by
  simp only [stage, hg, hlog, hroom, hfind]
  rw [if_pos (by simp)]
  repeat' split
  all_goals simp

/-! ### A packet to its host ring (R337, R338) -/

/-- Values put at keys that a list does not name leave a key. -/
theorem lookup_foldl_put_other {α β : Type} (key : α → Nat) (val : α → β) (l : List α) (d : List (Nat × β)) {k : Nat} (h : ∀ x ∈ l, key x ≠ k) :
    lookup (l.foldl (fun d x => put d (key x) (val x)) d) k = lookup d k := by
  induction l generalizing d with
  | nil => rfl
  | cons x l ih =>
    obtain ⟨hx, hl⟩ := List.forall_mem_cons.mp h
    exact (ih _ hl).trans (lookup_put_other _ _ _ _ hx.symm)

/-- Values put one after another, one value for a key, stand at their keys. -/
theorem lookup_foldl_put {α β : Type} (key : α → Nat) (val : α → β) (l : List α) (d : List (Nat × β))
    (h : ∀ x ∈ l, ∀ y ∈ l, key x = key y → val x = val y) {x : α} (hx : x ∈ l) :
    lookup (l.foldl (fun d x => put d (key x) (val x)) d) (key x) = some (val x) := by
  induction l generalizing d x with
  | nil => cases hx
  | cons a l ih =>
    have hl : ∀ y ∈ l, ∀ z ∈ l, key y = key z → val y = val z :=
      fun y hy z hz => h y (List.mem_cons_of_mem a hy) z (List.mem_cons_of_mem a hz)
    by_cases hlater : ∃ y ∈ l, key y = key x
    · obtain ⟨y, hy, hkey⟩ := hlater
      rw [← h y (List.mem_cons_of_mem a hy) x hx hkey, ← hkey]
      exact ih _ hl hy
    · have hlater : ∀ y ∈ l, key y ≠ key x := fun y hy hkey => hlater ⟨y, hy, hkey⟩
      obtain rfl : x = a := (List.mem_cons.mp hx).resolve_right fun hmem => hlater x hmem rfl
      exact (lookup_foldl_put_other key val l _ hlater).trans (lookup_put_same _ _ _)

/-- No more entries than the ring has have places of their own. -/
theorem outAddr_inj {r : OutRing} {i j : Nat} (hi : i < r.entries) (hj : j < r.entries)
    (h : outAddr r (r.prod + i) = outAddr r (r.prod + j)) : i = j := by
  have hmod : (r.prod + i) % r.entries = (r.prod + j) % r.entries := by unfold outAddr at h; omega
  have hij : i % r.entries = j % r.entries := Nat.ModEq.add_left_cancel' r.prod hmod
  rwa [Nat.mod_eq_of_lt hi, Nat.mod_eq_of_lt hj] at hij

/-- The ring after a packet's entries. -/
def packetRing (r : OutRing) (n : Nat) (ms : List OutMsg) : OutRing :=
  { r with
    data := (ms.zipIdx).foldl (fun d m => put d (outAddr r (r.prod + m.2)) (outEntry n m.1)) r.data
    prod := (r.prod + ms.length) % 2 ^ 32 }

/-- Each message of a packet that the ring can hold stands at its place. -/
theorem lookup_packetRing {r : OutRing} {ms : List OutMsg} (hfits : ms.length ≤ r.entries) {j : Nat} {m : OutMsg} (hm : ms[j]? = some m) (n : Nat) :
    lookup (packetRing r n ms).data (outAddr r (r.prod + j)) = some (outEntry n m) := by
  have hlt {x : OutMsg × Nat} (hx : x ∈ ms.zipIdx) : x.2 < r.entries :=
    Nat.lt_of_lt_of_le (List.getElem?_eq_some_iff.mp (List.mem_zipIdx_iff_getElem?.mp hx)).1 hfits
  refine lookup_foldl_put (fun x : OutMsg × Nat => outAddr r (r.prod + x.2)) (fun x => outEntry n x.1) ms.zipIdx r.data
    (fun x hx y hy hkey => ?_) (x := (m, j)) (List.mem_zipIdx_iff_getElem?.mpr hm)
  have hplace : x.2 = y.2 := outAddr_inj (hlt hx) (hlt hy) hkey
  have hsame : some x.1 = some y.1 := by
    rw [← List.mem_zipIdx_iff_getElem?.mp hx, ← List.mem_zipIdx_iff_getElem?.mp hy, hplace]
  rw [Option.some.inj hsame]

/-- The channel without the messages of packet k. -/
def packetSent (ch : Chan) (k : Nat) : Chan := { ch with outq := ch.outq.filter (fun m => m.done != some k) }

/-- The best packet goes to the ring, and leaves its channel, where the map still lists it. -/
theorem writePacket_spec {s : State} {r n k p : Nat} {x : OutRing} {ms : List OutMsg} (hring : lookup s.trx.rings r = some x)
    (hbest : bestPacket (packetsOf s r) = some (n, k, p, ms)) (hfits : ms.length ≤ x.entries) :
    let t := writePacket s r
    t.trx.rings = put s.trx.rings r (packetRing x n ms) ∧ chanOf t n = (chanOf s n).map (packetSent · k)
    ∧ (∀ o, o ≠ n → chanOf t o = chanOf s o) ∧ cycleView t = cycleView s := by
  unfold writePacket
  simp -zeta only [hring, hbest, if_neg (Nat.not_lt.mpr hfits)]
  extract_lets taken takenTrx left data ring leftTrx stored storedIo told headSeq sent
  have htaken : taken.trx.rings = s.trx.rings ∧ chanOf taken n = (chanOf s n).map (packetSent · k)
      ∧ (∀ o, o ≠ n → chanOf taken o = chanOf s o) ∧ cycleView taken = cycleView s := by
    cases hch : chanOf s n with
    | none => simp [taken, hch]
    | some ch =>
      have htake : taken = setChan s n (packetSent ch k) := by simp only [taken, hch]; rfl
      have hset := onlyChan_setChan s n (packetSent ch k)
      rw [htake]
      exact ⟨rfl, hset.chan, hset.other, hset.view⟩
  obtain ⟨hrings, hchan, hother, hview⟩ := htaken
  have htrx : sent.trx = told.trx := by simp [sent]
  have hchans (o : Nat) : chanOf sent o = chanOf taken o := chanOf_congr (congrArg TrxState.chans htrx) o
  refine ⟨?_, (hchans n).trans hchan, fun o ho => (hchans o).trans (hother o ho), ?_⟩
  · calc sent.trx.rings = put taken.trx.rings r ring := congrArg TrxState.rings htrx
      _ = put s.trx.rings r (packetRing x n ms) := by rw [hrings]; rfl
  · have hsent : cycleView sent = cycleView told := by simp [sent]
    exact hsent.trans hview

/-! ### The end of a flush (R340) -/

/-- FLUSH_TAKES_EFFECT completes the oldest flush of a channel that has taken effect, the one that waits included where it takes effect now. -/
theorem flushDone_onlyChan {s : State} {n : Nat} {y : Chan} (h : OnlyChan s (if flushReady s n then flushPoint s n else s) n y)
    (hflushed : y.flushed ≠ []) : OnlyChan s (flushDone s n) n { y with flushed := y.flushed.drop 1 } := by
  obtain ⟨f, rest, hcons⟩ := List.exists_cons_of_ne_nil hflushed
  refine h.trans ((onlyChan_setChan _ n _).congr ?_ ?_)
  · simp [flushDone, h.chan, hcons]
  · simp [flushDone, h.chan, hcons, cycleView]

theorem flushReady_eq {s : State} {n : Nat} {ch : Chan} (h : chanOf s n = some ch) : flushReady s n = (ch.flush && !pktOpen ch) := by
  simp only [flushReady, h]

/-- Settles O32: what SAFE HOLD bars, then each row by the rule of the operation that it is. -/
theorem messagesEnterStageAndLeave : Obligations.MessagesEnterStageAndLeave := by
  unfold Obligations.MessagesEnterStageAndLeave
  intro s
  have hrun (hlive : s.md.safeHold = none) (f : State → State) : unlessHeld s f = f s := if_neg (by simp [inSafeHold, hlive])
  refine ⟨fun i hi hheld => ?held, fun n ch ws => ?entry, fun g n hg hlog hroom hfind => ?stages,
    fun r x n k p ms hlive hring hbest hfits => ?packet, fun n ch hlive hch hflush hpkt => ?flushNow,
    fun n ch f rest hlive hch hflush hflushed => ?flushed⟩
  case held =>
    have hsafe : inSafeHold s = true := hheld
    obtain ⟨r, rfl⟩ | ⟨n, rfl⟩ := hi <;> exact congrArg Host.Outcome.next (if_pos hsafe)
  case entry =>
    intro e hch hopen hin hsource hsafe hmode hok hroom hring
    have htakes : takesIn s ch = true := by simp [takesIn, hopen, hin, hroom, hmode, hsafe]
    have ht := accept_onlyChan (entryConsumed s ch) n (entryTaken ch) e
    refine ⟨_, acceptedChan (entryTaken ch) e, entryMsg (entryTaken ch) e, congrArg Host.Outcome.next (ringEntry_accepts hch htakes hsource hring hok),
      ht.chan, rfl, rfl, rfl, ?_, fun htyp => ?_, fun htyp => ⟨?_, rfl⟩, rfl, ht.other, ht.ds, ht.md, ht.seq⟩
    · simp [acceptedChan, entryTaken]
    · simp [entryMsg, htyp]
    · simp [entryMsg, htyp]
  case stages =>
    obtain ⟨htrx, hview⟩ := stage_picks hg hlog hroom hfind
    obtain ⟨hmd, hseq, hds, -⟩ := cycleView_eq.mp hview
    exact ⟨_, rfl, by rw [htrx], by rw [htrx], hds, hmd, hseq⟩
  case packet =>
    obtain ⟨hrings, hchan, hother, hview⟩ := writePacket_spec hring hbest hfits
    obtain ⟨hmd, hseq, hds, -⟩ := cycleView_eq.mp hview
    refine ⟨_, packetRing x n ms, congrArg Host.Outcome.next (hrun hlive _), ?_, rfl, fun j m hm => lookup_packetRing hfits hm n, fun ch hch m hm => ?_,
      fun o ho => ?_, hother, hds, hmd, hseq⟩
    · rw [hrings, lookup_put_same]
    · rw [hchan] at hch
      obtain ⟨ch', -, rfl⟩ := Option.map_eq_some_iff.mp hch
      simpa using (List.mem_filter.mp hm).2
    · rw [hrings, lookup_put_other _ _ _ _ ho]
  case flushNow =>
    have hpoint : OnlyChan s (if flushReady s n then flushPoint s n else s) n (flushedChan s.seq.dcn ch) := by
      rw [flushReady_eq hch, hflush, hpkt, if_pos (by rfl)]
      exact flushPoint_onlyChan hch
    rw [flushedChan_of_pktOpen_false hpkt] at hpoint
    have ht := flushDone_onlyChan hpoint (by simp [countOut])
    exact ⟨_, _, congrArg Host.Outcome.next (hrun hlive _), ht.chan, rfl, rfl, rfl, ht.other, ht.ds, ht.md, ht.seq⟩
  case flushed =>
    have hpoint : OnlyChan s (if flushReady s n then flushPoint s n else s) n ch := by
      rw [flushReady_eq hch, hflush, if_neg (by simp)]
      exact ⟨hch, fun _ _ => rfl, rfl⟩
    have ht := flushDone_onlyChan hpoint (by simp [hflushed])
    rw [hflushed] at ht
    exact ⟨_, congrArg Host.Outcome.next (hrun hlive _), ht.chan, ht.other, ht.ds, ht.md, ht.seq⟩

end Sys2Proof.Machine

namespace Sys2Proof.Machine

/-! ### Commands that leave the mode and the rings alone (R356, R359, R371) -/

/-- What an accepted command leaves is outside SAFE HOLD and its rings are not being disabled, where its action keeps both. -/
theorem hostCmd_replies {op : Nat} {chk : State → Cmd → Nat} {act : State → Cmd → State × Res} {c : Cmd} {s e : State} {ws : List Word}
    (h : accepts s op chk c = true) (ha : act (takeEntry s c) c = (e, .ok ws)) (hmd : e.md = s.md) (hstop : e.io.stopping = s.io.stopping) :
    replied e op c 0 ws (hostCmd op chk act c s) :=
  hostCmd_ok h ha (by rw [hmd]; exact (accepts_live h).1) (by rw [hstop]; exact (accepts_live h).2)

/-- A refusal of an accepted command in the ring of s: its reply has the status and no words, and the agreed version stands. -/
theorem hostCmd_refuse_reply {op : Nat} {chk : State → Cmd → Nat} {act : State → Cmd → State × Res} {c : Cmd} {s e : State} {st : Nat}
    (h : accepts s op chk c = true) (ha : act (takeEntry s c) c = (e, .refuse st)) :
    let t := hostCmd op chk act c s
    t = { s with regs := t.regs, io := t.io } ∧ t.io.version = s.io.version
    ∧ ∃ r, lookup t.io.replies ((reg s (bkey 0x103C)).toNat % 2 ^ (reg s (bkey 0x1038)).toNat) = some r ∧ r.status = st ∧ r.tag = c.tag
      ∧ r.results = [] := by
  obtain ⟨hlook, -, -, ht⟩ := hostCmd_refuse_replied h ha
  have hp := accepts_pcie h
  rw [reg_takeEntry hp (by decide), reg_takeEntry hp (by decide)] at hlook
  refine ⟨(hostCmd_refuse h ha).1, ?_, _, hlook, rfl, rfl, rfl⟩
  rw [congrArg (fun t => t.io.version) ht]
  simp

theorem identWords_takeEntry (s : State) (c : Cmd) : identWords (takeEntry s c) = identWords s := by
  simp [identWords, partByte, gradeEff, posOf, isLead]

theorem depthOf_takeEntry (s : State) (c : Cmd) : depthOf (takeEntry s c) = depthOf s := by simp [depthOf]

/-- SET_ID of the resident image, 0 without one. -/
def setIdOf (s : State) : Nat := match s.img.resident with | some i => i.hdr.setId.toNat | none => 0

/-- The check that IMAGE_STATUS shows for a load. -/
def checkShown (s : State) (j : LoadJob) : Nat := min (checkReached s j 14 1) (max j.check (Config.freeNat s.freeCtr % 15))

theorem actImageStatus_idle {s : State} (h : s.img.loading = none) (c : Cmd) :
    actImageStatus s c
      = (s, .ok ([BitVec.ofNat 32 (if s.img.resident.isSome then 2 else 0), 0] ++ dwords (setIdOf s) ++ [BitVec.ofNat 32 (depthOf s)])) := by
  cases hr : s.img.resident <;> simp [actImageStatus, setIdOf, h, hr, dwords, lo32, hi32]

theorem actImageStatus_loading {s : State} {j : LoadJob} (h : s.img.loading = some j) (c : Cmd) :
    actImageStatus s c
      = ({ s with freeCtr := s.freeCtr + 1, img := { s.img with loading := some { j with check := checkShown s j } } },
        .ok ([1, BitVec.ofNat 32 (checkShown s j)] ++ dwords (setIdOf s) ++ [BitVec.ofNat 32 (depthOf s)])) := by
  cases hr : s.img.resident <;> simp [actImageStatus, setIdOf, checkShown, tickFree, h, hr, dwords, lo32, hi32]

/-- Settles O8: each command by what its action is on an accepted packet. -/
theorem deviceAndImageQueries : Obligations.DeviceAndImageQueries := by
  unfold Obligations.DeviceAndImageQueries
  refine ⟨fun s c => ⟨fun h hlo hhi => ?negotiate, fun h hout => ?negotiateRefused, fun h => ?identify, fun h => ?signature, fun h => ?mask⟩,
    fun s c => ⟨fun h hl => ?status, fun j h hj => ?statusLoading, fun i h hi hl => ?digest, fun h hl hroom => ?stage⟩⟩
  case negotiate =>
    have hact : actNegotiate (takeEntry s c) c
        = ({ takeEntry s c with io := { (takeEntry s c).io with version := some 0x10000 } }, .ok [0x10000]) := by
      simp [actNegotiate, hlo, hhi, accepts_pcie h]
    exact ⟨_, rfl, hostCmd_replies h hact (by simp) (by simp)⟩
  case negotiateRefused =>
    have hact : actNegotiate (takeEntry s c) c = (takeEntry s c, .refuse 0x0601) := by
      have hbar : ¬(cPar c 0 ≤ 0x10000 ∧ 0x10000 ≤ cPar c 1) := by omega
      simp [actNegotiate, hbar]
    obtain ⟨hframe, hversion, hreply⟩ := hostCmd_refuse_reply h hact
    exact ⟨_, rfl, hversion, hframe, hreply⟩
  case identify =>
    have hact : actIdentify (takeEntry s c) c = (takeEntry s c, .ok (identWords s ++ dwords s.ident.serial.toNat ++ [0, 0])) := by
      simp [actIdentify, identWords_takeEntry]
    exact ⟨_, rfl, hostCmd_replies h hact (by simp) (by simp)⟩
  case signature =>
    have hact : actSignature (takeEntry s c) c = (takeEntry s c,
        .ok (BitVec.ofNat 32 s.ctl.sig.length :: digestWords (sm3 s.ctl.sig) ++ ((bytesWords s.ctl.sig).drop (cPar c 0)).take 231)) := by
      simp [actSignature]
    exact ⟨_, rfl, hostCmd_replies h hact (by simp) (by simp)⟩
  case mask =>
    have hact : actEventMask (takeEntry s c) c
        = ({ takeEntry s c with io := { (takeEntry s c).io with mask := BitVec.ofNat 32 (cPar c 0) } }, .ok [s.io.mask]) := by
      simp [actEventMask]
    exact ⟨_, rfl, hostCmd_replies h hact (by simp) (by simp)⟩
  case status =>
    have hact := actImageStatus_idle (s := takeEntry s c) (by simpa using hl) c
    simp only [depthOf_takeEntry, setIdOf, takeEntry_frame] at hact
    exact ⟨_, rfl, hostCmd_replies h hact (by simp) (by simp)⟩
  case statusLoading =>
    have hact := actImageStatus_loading (s := takeEntry s c) (j := j) (by simpa using hj) c
    have hset : setIdOf (takeEntry s c) = setIdOf s := by simp [setIdOf]
    rw [depthOf_takeEntry, hset] at hact
    exact ⟨_, checkShown (takeEntry s c) j, rfl, Nat.min_le_left _ _, fun hle => le_min hle (le_max_left _ _),
      hostCmd_replies h hact (by simp) (by simp)⟩
  case digest =>
    have hact : actImageDigest (takeEntry s c) c
        = (takeEntry s c, .ok (dwords i.hdr.setId.toNat ++ digestWords i.hdr.bodyDigest ++ digestWords i.hdr.sigDigest)) := by
      simp [actImageDigest, hi, hl]
    exact ⟨_, rfl, hostCmd_replies h hact (by simp) (by simp)⟩
  case stage =>
    have hact : actImageStage (takeEntry s c) c = ({ takeEntry s c with img := { (takeEntry s c).img with stageBytes := some (cPar64 c 0), staged := [] } },
        .ok [lo32 (cdiv (cPar64 c 0) (2 ^ 28))]) := by
      have hfits : noStagingRoom (takeEntry s c) (cPar64 c 0) = false := by simpa [noStagingRoom] using hroom
      simp [actImageStage, hl, hfits]
    exact ⟨_, rfl, hostCmd_replies h hact (by simp) (by simp)⟩

end Sys2Proof.Machine

namespace Sys2Proof.Machine

/-! ### Register commands (R19 to R22, R259, R369, R466)

Taking a command and answering it rest on two parts of the state: SAFE HOLD and whether the rings are being disabled. A register access
touches neither. -/

@[simp] theorem postCompletion_stopping (s : State) (w : Waiting) (st : Nat) (ws : List Word) :
    (postCompletion s w st ws).io.stopping = s.io.stopping := by
  unfold postCompletion
  split
  · rfl
  · split <;> simp [queueEvent, tickEvent]

@[simp] theorem completeAll_stopping (s : State) (op st : Nat) (ws : List Word) : (completeAll s op st ws).io.stopping = s.io.stopping :=
  foldl_keeps (·.io.stopping) _ (fun _ _ => postCompletion_stopping _ _ _ _) _ _

theorem startUpFailure_stopping (s : State) (cause st : Nat) : (startUpFailure s cause st).io.stopping = s.io.stopping := by
  unfold startUpFailure
  split <;> simp

/-- A deadline that is written expires at once where it has passed, which completes a BASE_LOAD (R415). -/
theorem writeDeadline_stopping (s : State) (w : Word) : (writeDeadline s w).io.stopping = s.io.stopping := by
  unfold writeDeadline checkDeadline
  dsimp only
  split
  · split <;> simp [startUpFailure_stopping]
  · rfl

theorem writeCapReg_io (s : State) (off : Nat) (w : Word) : (writeCapReg s off w).io = s.io := by
  unfold writeCapReg
  split <;> simp [putReg]

theorem writeChnCtrl_io (s : State) (d : Nat) (w : Word) : (writeChnCtrl s d w).io = s.io := by
  unfold writeChnCtrl
  dsimp only
  repeat' split
  all_goals rfl

theorem writeCkp_io (s : State) (off : Nat) (w : Word) : (writeCkp s off w).io = s.io := by
  unfold writeCkp
  dsimp only
  repeat' split
  all_goals rfl

theorem writeIocfg_io (s : State) (p : Nat) (w : Word) : (writeIocfg s p w).io = s.io := by
  unfold writeIocfg holdPad
  dsimp only
  repeat' split
  all_goals rfl

theorem writeScr_io (s : State) (site off : Nat) (w : Word) : (writeScr s site off w).io = s.io := by
  unfold writeScr
  dsimp only
  repeat' split
  all_goals rfl

theorem writeTime_io (s : State) (off : Nat) (w : Word) : (writeTime s off w).io = s.io := by
  unfold writeTime writeTimeCtrl selectDom
  dsimp only
  repeat' split
  all_goals rfl

theorem writeTrc_io (s : State) (off : Nat) (w : Word) : (writeTrc s off w).io = s.io := by
  unfold writeTrc writeTrcCtrl
  dsimp only
  repeat' split
  all_goals rfl

theorem writeUtil_io (s : State) (off : Nat) (w : Word) : (writeUtil s off w).io = s.io := by
  unfold writeUtil writeMap
  dsimp only
  repeat' split
  all_goals rfl

theorem writeTrg_io (s : State) (d off : Nat) (w : Word) : (writeTrg s d off w).io = s.io := by
  unfold writeTrg
  dsimp only
  repeat' split
  all_goals rfl

/-- No register write of a block disables the rings. -/
@[simp] theorem writeReg_stopping (s : State) (site b off : Nat) (w : Word) : (writeReg s site b off w).io.stopping = s.io.stopping := by
  unfold writeReg
  repeat' split
  all_goals
    simp only [w1c, putReg, setReg_frame, writeDeadline_stopping, writeCapReg_io, writeChnCtrl_io, writeCkp_io, writeIocfg_io, writeScr_io, writeTime_io,
      writeTrc_io, writeUtil_io, writeTrg_io]

theorem writeRegs_live (s : State) (site b off : Nat) (ws : List Word) :
    (writeRegs s site b off ws).md = s.md ∧ (writeRegs s site b off ws).io.stopping = s.io.stopping := by
  induction ws generalizing s off with
  | nil => exact ⟨rfl, rfl⟩
  | cons w ws ih => simpa [writeRegs] using ih (writeReg s site b off w) (off + 4)

@[simp] theorem readReg_io (s : State) (site b off : Nat) : (readReg s site b off).1.io = s.io := by
  refine (foldl_keeps (·.io) _ (fun _ _ => by simp) _ _).trans ?_
  split <;> simp

theorem readRegs_live (n : Nat) (s : State) (site b off : Nat) :
    (readRegs n s site b off).1.md = s.md ∧ (readRegs n s site b off).1.io = s.io := by
  induction n generalizing s off with
  | zero => exact ⟨rfl, rfl⟩
  | succ n ih => simpa [readRegs] using ih (readReg s site b off).1 (off + 4)

/-- A command that reaches a unit behind a spillway, and that no check refuses, is answered by the gateway and counted there (R466). -/
theorem hostCmd_isolates {op : Nat} {chk : State → Cmd → Nat} {act : State → Cmd → State × Res} {c : Cmd} {s : State}
    (h : isolates s op chk c = true) (hpass : refusedBy (takeEntry s c) (act (takeEntry s c) c).2 = false) :
    replied (countNoc (takeEntry s c) 0x00C) op c 0x0501 [] (hostCmd op chk act c s) := by
  simp only [isolates, Bool.and_eq_true, beq_iff_eq] at h
  obtain ⟨⟨⟨⟨⟨⟨hp, htake⟩, hhead⟩, hneg⟩, hpos⟩, hst⟩, hspill⟩ := h
  obtain ⟨hsafe, hstop⟩ : s.md.safeHold = none ∧ s.io.stopping = false := by
    simp only [canTake, hp, ringWork, inSafeHold, Bool.and_eq_true, Bool.not_eq_true'] at htake
    obtain ⟨⟨⟨⟨hsafe, -⟩, -⟩, -⟩, ⟨⟨⟨-, hstop⟩, -⟩, -⟩, -⟩ := htake
    exact ⟨by simpa using hsafe, hstop⟩
  have hown : cPos c = posOf (takeEntry s c) := by simpa [posOf] using hpos
  have hrun : hostCmd op chk act c s = answer (countNoc (takeEntry s c) 0x00C) op c 0x0501 [] := by
    simp [hostCmd, runCmd, firstBad, htake, hp, hhead, hneg, hown, hst, hspill, hpass]
  rw [hrun, answer_pcie hp (by simp [countNoc, hsafe])]
  exact replied_refusal _ op c 0x0501 (by simp [countNoc, hstop])

/-- A read of rows or tiles is never refused by its action. -/
theorem refusedBy_actRead {op : Nat} (h : op = 0x0300 ∨ op = 0x0302) (u s : State) (c : Cmd) : refusedBy u (actRead op s c).2 = false := by
  obtain rfl | rfl := h <;> unfold actRead <;> cases modeSteps s <;> rfl

/-- While capture is neither IDLE nor FROZEN its registers and those of the triggers cannot be written (R259). -/
theorem capBarred_of_capturing {s : State} {b : Nat} (hb : b = 5 ∨ b = 6) (hidle : s.cap.mode ≠ .idle) (hfrozen : s.cap.mode ≠ .frozen) :
    capBarred s b = true := by
  obtain rfl | rfl := hb <;> simp [capBarred, hidle, hfrozen]

/-- A refused command leaves every register of a block. -/
theorem hostCmd_refuse_reg {op : Nat} {chk : State → Cmd → Nat} {act : State → Cmd → State × Res} {c : Cmd} {s e : State} {st : Nat}
    (h : accepts s op chk c = true) (ha : act (takeEntry s c) c = (e, .refuse st)) {k : Nat} (hk : k < 2 ^ 32) :
    reg (hostCmd op chk act c s) k = reg s k := by
  obtain ⟨-, -, hreg, -⟩ := hostCmd_refuse_replied h ha
  have hprod : k ≠ bkey 0x103C := by unfold bkey; omega
  have hcons : k ≠ bkey 0x1020 := by unfold bkey; omega
  rw [hreg k hprod, reg_takeEntry (accepts_pcie h) hcons]

/-- Settles O9: the isolated commands by the gateway's answer, the others by what their actions are on an accepted packet. -/
theorem registerCommandsReadAndWrite : Obligations.RegisterCommandsReadAndWrite := by
  unfold Obligations.RegisterCommandsReadAndWrite
  refine ⟨fun s c i op chk hi h => ?isolated, fun s c => ⟨fun h => ?read, fun h hbar => ?write, fun h hbar => ?modify, fun h hb hidle hfrozen => ?barred⟩⟩
  case isolated =>
    obtain ⟨hi, rfl⟩ | ⟨hi, rfl⟩ | ⟨hi, rfl⟩ | ⟨hi, rfl⟩ | ⟨hi, rfl⟩ := hi <;> obtain ⟨rfl, rfl⟩ := Prod.mk.inj hi
    · exact ⟨_, rfl, hostCmd_isolates h rfl⟩
    · exact ⟨_, rfl, hostCmd_isolates h (refusedBy_actRead (.inl rfl) _ _ _)⟩
    · exact ⟨_, rfl, hostCmd_isolates h (refusedBy_actRead (.inr rfl) _ _ _)⟩
    · exact ⟨_, rfl, hostCmd_isolates h rfl⟩
    · exact ⟨_, rfl, hostCmd_isolates h rfl⟩
  case read =>
    obtain ⟨hmd, hio⟩ := readRegs_live (cPar c 1) (takeEntry s c) (regAt c).1 (regAt c).2.1 (regAt c).2.2
    exact ⟨_, rfl, hostCmd_replies h rfl (by simp [hmd]) (by simp [hio])⟩
  case write =>
    have hact : actRegWrite (takeEntry s c) c
        = (writeRegs (takeEntry s c) (regAt c).1 (regAt c).2.1 (regAt c).2.2 (cWords c 2 (cPar c 1)), .ok []) := by
      simp [actRegWrite, hbar]
    obtain ⟨hmd, hstop⟩ := writeRegs_live (takeEntry s c) (regAt c).1 (regAt c).2.1 (regAt c).2.2 (cWords c 2 (cPar c 1))
    exact ⟨_, rfl, hostCmd_replies h hact (by simp [hmd]) (by simp [hstop])⟩
  case modify =>
    refine ⟨_, rfl, hostCmd_replies h ?_ ?_ ?_⟩
    · simp [actRegModify, hbar]
    · simp
    · simp
  case barred =>
    have hact : actRegWrite (takeEntry s c) c = (takeEntry s c, .refuse 0x0206) := by
      have hbar : capBarred (takeEntry s c) (regAt c).2.1 = true := capBarred_of_capturing hb (by simpa using hidle) (by simpa using hfrozen)
      simp [actRegWrite, hbar]
    obtain ⟨hframe, r, hlook, hst⟩ := hostCmd_refuse h hact
    exact ⟨_, rfl, hframe, fun k hk => hostCmd_refuse_reg h hact hk, r, hlook, hst⟩

end Sys2Proof.Machine

namespace Sys2Proof.Machine

/-! ### The ring registers of BAR0 (R351 to R356, R364) -/

/-- RING_CTRL with its two bits EN and ERR. -/
def ringCtrlWord (en err : Bool) : Word := BitVec.ofNat 32 (b2n en + 2 * b2n err)

theorem ringCtrlWord_bits (en err : Bool) :
    bitOf (ringCtrlWord en err).toNat 0 = en ∧ bitOf (ringCtrlWord en err).toNat 1 = err := by
  cases en <;> cases err <;> decide

/-- A word written to RING_CTRL leaves ERR as it is, or clears it (R355). -/
def errKept (s : State) (w : Word) : Bool := bitOf (reg s (bkey 0x1000)).toNat 1 && !bitOf w.toNat 1

theorem hostOpen_pcieOpen {s : State} (h : hostOpen s = true) : pcieOpen s = true := (Bool.and_eq_true_iff.mp h).1

/-- A host write of BAR0 is ignored before the device is configuration-ready, and in SAFE HOLD (R364, R413). -/
theorem writeBar0_barred {s : State} (off : Nat) (w : Word) (h : hostOpen s = false) : writeBar0 s off w = s := by
  simp [writeBar0, hostWrites, h]

/-- The rings of an open device are on where EN is set. -/
theorem ringsOn_eq {s : State} (h : pcieOpen s = true) : ringsOn s = bitOf (reg s (bkey 0x1000)).toNat 0 := by simp [ringsOn, h]

theorem ringsOn_of_frame {s t : State} (h : pcieOpen s = true) (ht : t = { s with regs := t.regs, io := t.io }) :
    ringsOn t = bitOf (reg t (bkey 0x1000)).toNat 0 := ringsOn_eq ((congrArg pcieOpen ht).trans h)

theorem writeBar0_ringCtrl {s : State} (w : Word) (ho : hostOpen s = true) : writeBar0 s 0x1000 w = writeRingCtrl s w := by
  simp [writeBar0, hostWrites, ho]

/-- The producer index of the command ring and the consumer indices of the two others are stored as written. -/
theorem writeBar0_index {s : State} {off : Nat} (w : Word) (ho : hostOpen s = true) (h : off ∈ [0x101C, 0x1040, 0x1060]) :
    writeBar0 s off w = setReg s (bkey off) w := by
  have hall : w &&& 4294967295#32 = w := BitVec.and_allOnes
  simp only [List.mem_cons, List.not_mem_nil, or_false] at h
  obtain rfl | rfl | rfl := h <;> simp [writeBar0, hostWrites, ho, hall]

/-- The indices that an enable clears. -/
def ringIndices : List Nat := [0x101C, 0x1020, 0x103C, 0x1040, 0x105C, 0x1060]

theorem clearIndices_frame (s : State) : clearIndices s = { s with regs := (clearIndices s).regs } := by
  simp only [clearIndices, List.foldl_cons, List.foldl_nil]
  rfl

theorem clearIndices_reg (s : State) (k : Nat) : reg (clearIndices s) k = if k ∈ ringIndices.map bkey then 0 else reg s k := by
  simp only [clearIndices, List.foldl_cons, List.foldl_nil, reg_setReg, ringIndices, List.map_cons, List.map_nil, List.mem_cons, List.not_mem_nil, or_false]
  repeat' split
  all_goals simp_all

/-- RING_ENABLE of rings that are off, with settings that R355 admits. -/
theorem ringEnable_legal {s : State} (w : Word) (ho : hostOpen s = true) (hoff : ringsOn s = false) (hok : ringsOk s = true) :
    writeBar0 s 0x1000 (w ||| 1) = clearIndices (setReg s (bkey 0x1000) (ringCtrlWord true (errKept s (w ||| 1)))) := by
  rw [ringsOn_eq (hostOpen_pcieOpen ho)] at hoff
  simp only [writeBar0_ringCtrl _ ho, writeRingCtrl, bitOf_or_one, hoff, hok, if_true, Bool.false_eq_true, if_false]
  rfl

/-- RING_ENABLE of rings that are off, with settings that R355 does not admit. -/
theorem ringEnable_illegal {s : State} (w : Word) (ho : hostOpen s = true) (hoff : ringsOn s = false) (hbad : ringsOk s = false) :
    writeBar0 s 0x1000 (w ||| 1) = setReg s (bkey 0x1000) (ringCtrlWord false true) := by
  rw [ringsOn_eq (hostOpen_pcieOpen ho)] at hoff
  simp only [writeBar0_ringCtrl _ ho, writeRingCtrl, bitOf_or_one, hoff, hbad, if_true, Bool.false_eq_true, if_false]
  rfl

/-- RING_DISABLE of rings that are on: EN clears as soon as no command of the rings is in progress. -/
theorem ringDisable_on {s : State} (w : Word) (ho : hostOpen s = true) (hon : ringsOn s = true) :
    writeBar0 s 0x1000 (w &&& ~~~1)
      = finishDisable { setReg s (bkey 0x1000) (ringCtrlWord true (errKept s (w &&& ~~~1))) with io := { s.io with stopping := true } } := by
  rw [ringsOn_eq (hostOpen_pcieOpen ho)] at hon
  simp only [writeBar0_ringCtrl _ ho, writeRingCtrl, bitOf_clear_one, hon, if_true, Bool.false_eq_true, if_false]
  rfl

/-- Rings that are being disabled are off once no command of theirs is in progress, and with them the agreement of R367. -/
theorem finishDisable_idle {s : State} (hstop : s.io.stopping = true) (hidle : ringBusy s = false) :
    finishDisable s
      = setReg { s with io := { s.io with stopping := false, version := none } } (bkey 0x1000) (reg s (bkey 0x1000) &&& 0xFFFFFFFE) := by
  simp [finishDisable, hstop, hidle]

theorem finishDisable_busy {s : State} (hbusy : ringBusy s = true) : finishDisable s = s := by simp [finishDisable, hbusy]

/-- Settles O12: what bars a host access, then each register by its own rule. -/
theorem ringRegistersOfTheEndpoint : Obligations.RingRegistersOfTheEndpoint := by
  unfold Obligations.RingRegistersOfTheEndpoint
  refine ⟨fun s w hshut => ⟨fun i hi => ?shut, fun n => ?shutDoorbell, fun hp => ?shutRead⟩, fun s hopen => ?dcn, fun s w ho => ?host⟩
  case shut =>
    simp only [List.mem_cons, List.not_mem_nil, or_false] at hi
    obtain rfl | rfl | rfl | rfl | rfl | rfl := hi <;> exact congrArg Host.Outcome.next (writeBar0_barred _ _ hshut)
  case shutDoorbell => exact congrArg Host.Outcome.next (by simp [hostWrites, hshut])
  case shutRead => exact congrArg Host.Outcome.next (by simp [readDcnLo, hp])
  case dcn => exact congrArg Host.Outcome.next (by simp [readDcnLo, hopen, bar0Read, oneDword, bar0Value])
  case host =>
    have hpcie := hostOpen_pcieOpen ho
    refine ⟨congrArg Host.Outcome.next ?producer, congrArg Host.Outcome.next ?replies, congrArg Host.Outcome.next ?events, fun off n => ?size,
      congrArg Host.Outcome.next ?bulkSel, fun n ch hch => congrArg Host.Outcome.next ?listed, fun n hch => congrArg Host.Outcome.next ?unlisted,
      fun hoff hok => ⟨_, rfl, ?legal⟩, fun hoff hbad => ⟨_, rfl, ?illegal⟩, fun hon hidle => ⟨_, rfl, ?disabled⟩, fun hon hbusy => ⟨_, rfl, ?stopping⟩⟩
    case producer => exact writeBar0_index w ho (by decide)
    case replies => exact writeBar0_index w ho (by decide)
    case events => exact writeBar0_index w ho (by decide)
    case size => simp [bar0Read, oneDword]
    case bulkSel => simp [writeBar0, hostWrites, ho]
    case listed => simp [hostWrites, ho, trxDoorbell, hch]
    case unlisted => simp [hostWrites, ho, trxDoorbell, hch]
    case legal =>
      rw [ringEnable_legal w ho hoff hok]
      generalize hu : setReg s (bkey 0x1000) (ringCtrlWord true (errKept s (w ||| 1))) = u
      have hframe : u = { s with regs := u.regs } := by rw [← hu]; rfl
      have hctrl (k : Nat) : reg u k = if k = bkey 0x1000 then ringCtrlWord true (errKept s (w ||| 1)) else reg s k := by
        rw [← hu, reg_setReg]
      have ht : clearIndices u = { s with regs := (clearIndices u).regs } := by rw [clearIndices_frame u, hframe]
      refine ⟨?_, fun o hin => ?_, fun k hk => ?_, ht⟩
      · rw [ringsOn_of_frame hpcie (by rw [ht]), clearIndices_reg, if_neg (by decide), hctrl, if_pos rfl, (ringCtrlWord_bits _ _).1]
      · rw [clearIndices_reg, if_pos (List.mem_map_of_mem (l := ringIndices) hin)]
      · obtain ⟨hne, hindex⟩ : k ≠ bkey 0x1000 ∧ k ∉ ringIndices.map bkey := not_or.mp (mt List.mem_cons.mpr hk)
        rw [clearIndices_reg, if_neg hindex, hctrl, if_neg hne]
    case illegal =>
      rw [ringEnable_illegal w ho hoff hbad]
      obtain ⟨hen, herr⟩ := ringCtrlWord_bits false true
      refine ⟨?_, ?_, fun k hk => reg_setReg_other _ _ _ _ hk, rfl⟩
      · rw [ringsOn_of_frame hpcie rfl, reg_setReg_same, hen]
      · rw [reg_setReg_same, herr]
    case disabled =>
      rw [ringDisable_on w ho hon, finishDisable_idle rfl (by exact hidle)]
      refine ⟨?_, fun k hk => ?_, rfl⟩
      · rw [ringsOn_of_frame hpcie rfl, reg_setReg_same]
        exact bitOf_clear_one _
      · rw [reg_setReg_other _ _ _ _ hk]
        exact reg_setReg_other _ _ _ _ hk
    case stopping =>
      rw [ringDisable_on w ho hon, finishDisable_busy (by exact hbusy)]
      refine ⟨?_, fun k hk => reg_setReg_other _ _ _ _ hk, rfl⟩
      rw [ringsOn_of_frame hpcie rfl]
      exact (congrArg (fun x : Word => bitOf x.toNat 0) (reg_setReg_same _ _ _)).trans (ringCtrlWord_bits _ _).1

end Sys2Proof.Machine

namespace Sys2Proof.Machine

/-! ### The bulk window (R184, R186, R354, R374, R511, R514) -/

/-- A word with nothing wrong and of the address asked for is good. -/
theorem ddrSyndrome_clean (addr : Nat) : ddrSyndrome addr 0 0 = 0 := by simp [ddrSyndrome]

theorem ddrWordRead_clean (s : State) (spoil : State → State) (addr : Nat) : ddrWordRead s spoil addr ⟨0, 0⟩ = (s, true) := by
  have hgood : ddrOutcome 0 = .good := by decide
  simp only [ddrWordRead, ddrSyndrome_clean, hgood]

theorem ddrWordRead_good {s : State} {addr : Nat} {w : DdrWordFound} (h : ddrOutcome (ddrSyndrome addr w.synd w.wrong) = .good)
    (spoil : State → State) : ddrWordRead s spoil addr w = (s, true) := by
  simp only [ddrWordRead, h]

theorem ddrPoisonRead_md (s : State) (addr d1 d2 : Nat) : (ddrPoisonRead s addr d1 d2).md = s.md :=
  (fault_below_fatal s _ (show 2 ≠ 5 by decide)).1

theorem ddrPoisonRead_ds (s : State) (addr d1 d2 : Nat) : (ddrPoisonRead s addr d1 d2).ds = s.ds := by simp [ddrPoisonRead]

theorem hostOpen_iff {s : State} : hostOpen s = true ↔ pcieOpen s = true ∧ inSafeHold s = false := by simp [hostOpen]

/-- A read beyond BULK_LIMIT or of a region that is barred answers Completer Abort, and so does every read in SAFE HOLD. -/
theorem bulkRead_abort {s : State} {off : Nat} (ho : pcieOpen s = true) (h : inSafeHold s = true ∨ bulkLimit s < off + 4 ∨ bulkBarred s = true)
    (v : DdrWordFound) : bulkRead s off v = { s with io := { s.io with bar2 := none } } := by
  obtain h | h | h := h <;> simp [bulkRead, ho, h]

/-- A read that nothing bars answers the word where the DDR5 word behind it is delivered. -/
theorem bulkRead_within {s : State} {off : Nat} (ho : hostOpen s = true) (hlim : off + 4 ≤ bulkLimit s) (hbar : bulkBarred s = false)
    (v : DdrWordFound) :
    bulkRead s off v = { (bulkMet s off v).1 with
      io := { (bulkMet s off v).1.io with bar2 := if (bulkMet s off v).2 then some (bulkValue s off) else none } } := by
  obtain ⟨hpcie, hsafe⟩ := hostOpen_iff.mp ho
  simp [bulkRead, hpcie, hsafe, Nat.not_lt.mpr hlim, hbar]

/-- A write that is discarded counts. -/
theorem bulkWrite_refused {s : State} {off : Nat} (ho : hostOpen s = true) (h : bulkLimit s < off + 4 ∨ bulkBarred s = true) (w : Word) :
    bulkWrite s off w = bumpIo s 0x03 0x020 16 1 := by
  obtain h | h := h <;> simp [bulkWrite, ho, h]

/-- A word of the staging area is stored. -/
theorem bulkWrite_staged {s : State} {off : Nat} (ho : hostOpen s = true) (hlim : off + 4 ≤ bulkLimit s) (hsel : bitOf (bulkSel s) 0 = false)
    (w : Word) : bulkWrite s off w = { s with img := { s.img with staged := wr s.img.staged (bulkAt s off / 4) w } } := by
  simp [bulkWrite, ho, Nat.not_lt.mpr hlim, bulkBarred, hsel, bulkAt]

/-- A word of a region is a host write of its two halves. -/
theorem bulkWrite_region {s : State} {off : Nat} (ho : hostOpen s = true) (hlim : off + 4 ≤ bulkLimit s) (hsel : bitOf (bulkSel s) 0 = true)
    (hbar : bulkBarred s = false) (w : Word) :
    bulkWrite s off w = hostWrite s 2 (lo32 (fld (bulkSel s) 15 8)) (bulkAt s off / 2) (unpackHalves [w] 2) := by
  simp [bulkWrite, ho, Nat.not_lt.mpr hlim, hbar, hsel, bulkAt]

/-- A host write of region words is no matter of the image. -/
theorem hostWrite_region_img (s : State) (loc : Word) (at0 : Nat) (vs : List Half) : (hostWrite s 2 loc at0 vs).img = s.img := by
  have hitem (x : LogItem) : (applyHostItem s x).img = s.img := by
    unfold applyHostItem
    dsimp only
    split
    · rfl
    · rfl
    · exact foldl_keeps (·.img) _ (fun s (v : Nat × Half) => show (regionPut s _ v.2).img = s.img from rfl) _ s
  unfold hostWrite logHostWrite
  dsimp only
  split
  · rfl
  · exact hitem _

/-- Two halves of a word written into a region, one after the other. -/
theorem rd_wrAll_word (m : Cells Half) (b x : Nat) (w : Word) :
    rd (wrAll m (cellsFrom b (unpackHalves [w] 2))) x
      = if x = b then BitVec.ofNat 16 w.toNat else if x = b + 1 then BitVec.ofNat 16 (w.toNat >>> 16) else rd m x := by
  have hhalves : unpackHalves [w] 2 = [BitVec.ofNat 16 w.toNat, BitVec.ofNat 16 (w.toNat >>> 16)] := rfl
  rw [rd_wrAll_unpacked, hhalves]
  by_cases h0 : x = b
  · simp [h0]
  · by_cases h1 : x = b + 1
    · simp [h1]
    · rw [if_neg (by omega), if_neg h0, if_neg h1]

/-- The word behind a read of a region: delivered without poison and with a syndrome of none or a single bit. -/
theorem bulkMet_region_delivered {s : State} (off : Nat) (hsel : bitOf (bulkSel s) 0 = true) (v : DdrWordFound) :
    let found := ddrOutcome (ddrSyndrome (ddrWordAddr s (bulkKey s off)) v.synd v.wrong)
    (bulkMet s off v).2 = true ↔ bulkKey s off / 4 ∉ s.ds.poison ∧ (found = .good ∨ found = .corrected) := by
  intro found
  by_cases hp : bulkKey s off / 4 ∈ s.ds.poison
  · simp [bulkMet, hsel, hp]
  · simp only [bulkMet, hsel, if_true, List.contains_iff_mem, hp, if_false, not_false_eq_true, true_and]
    exact ddrWordRead_delivered _ _ _ _

/-- What it does to the state. -/
theorem bulkMet_region_frame {s : State} (off : Nat) (hsel : bitOf (bulkSel s) 0 = true) (v : DdrWordFound) :
    let found := ddrOutcome (ddrSyndrome (ddrWordAddr s (bulkKey s off)) v.synd v.wrong)
    (bulkMet s off v).1.md = s.md ∧ (bulkKey s off / 4 ∉ s.ds.poison → found = .good → (bulkMet s off v).1 = s)
    ∧ (found ≠ .uncorrectable → found ≠ .poisoned → (bulkMet s off v).1.ds = s.ds) := by
  intro found
  by_cases hp : bulkKey s off / 4 ∈ s.ds.poison
  · simp [bulkMet, hsel, hp, ddrPoisonRead_md, ddrPoisonRead_ds]
  · simp only [bulkMet, hsel, if_true, List.contains_iff_mem, hp, if_false]
    refine ⟨?_, fun _ hgood => ?_, fun hu hpo => ddrWordRead_ds hu hpo _⟩
    · exact congrArg (fun x => x.2.1.1) (transferView_ddrWordRead (transferView_poisonWord (bulkKey s off)) s _ v)
    · rw [ddrWordRead_good hgood]

/-- Settles O13: what bars the window, then the staging area and a region, each read and written. -/
theorem bulkWindowReadsAndWrites : Obligations.BulkWindowReadsAndWrites := by
  unfold Obligations.BulkWindowReadsAndWrites
  refine ⟨fun s off w v => ⟨fun hshut => congrArg Host.Outcome.next ?shutWrite, fun hshut => congrArg Host.Outcome.next ?shutRead,
    fun ho hsafe => congrArg Host.Outcome.next (bulkRead_abort ho (.inl hsafe) v)⟩, fun s off w ho =>
    ⟨fun hlim hsel => ⟨congrArg Host.Outcome.next ?stagedRead, _, rfl, ?stagedWrite⟩, fun v hlim hsel hstand hreset => ⟨_, rfl, ?regionRead⟩,
      fun hlim hsel hstand hreset hrange => ⟨_, rfl, ?regionWrite⟩,
      fun hbar => ⟨fun v => congrArg Host.Outcome.next (bulkRead_abort (hostOpen_pcieOpen ho) (.inr hbar) v),
        congrArg Host.Outcome.next (bulkWrite_refused ho hbar w)⟩⟩⟩
  case shutWrite => simp [bulkWrite, hshut]
  case shutRead => simp [bulkRead, hshut]
  case stagedRead =>
    have hmet : bulkMet s off ⟨0, 0⟩ = (tickFree s, true) := by
      simp only [bulkMet, hsel, Bool.false_eq_true, if_false]
      exact ddrWordRead_clean _ _ _
    rw [bulkRead_within ho hlim (by simp [bulkBarred, hsel]), hmet]
    simp [bulkValue, hsel, bulkAt, tickFree]
  case stagedWrite =>
    rw [bulkWrite_staged ho hlim hsel]
    exact ⟨fun x => rd_wr _ _ _ _, rfl⟩
  case regionRead =>
    obtain ⟨hmd, hgood, hds⟩ := bulkMet_region_frame off hsel v
    rw [bulkRead_within ho hlim (by simp [bulkBarred, hsel, hstand, hreset])]
    refine ⟨hmd, ?_, fun hp hok => by rw [hgood hp hok], hds⟩
    simp only [bulkMet_region_delivered off hsel v, bulkValue, hsel, if_true]
    rfl
  case regionWrite =>
    obtain ⟨hrec, hmode⟩ := stepping_false hstand
    obtain ⟨p, hds⟩ := applyHostItem_regions s (lo32 (fld (bulkSel s) 15 8)) (at0 := bulkAt s off / 2)
      (by simp only [bulkAt]; omega) (vs := unpackHalves [w] 2) (by simp)
    have hregion : (lo32 (fld (bulkSel s) 15 8)).toNat = fld (bulkSel s) 15 8 := by
      simp only [lo32, BitVec.toNat_ofNat, fld]; omega
    obtain ⟨hmd, -, hregs, -⟩ := hostWrite_frame s 2 (lo32 (fld (bulkSel s) 15 8)) (bulkAt s off / 2) (unpackHalves [w] 2)
    have hio := congrArg (fun v => v.2.2.1) (writeView_hostWrite s 2 (lo32 (fld (bulkSel s) 15 8)) (bulkAt s off / 2) (unpackHalves [w] 2))
    rw [bulkWrite_region ho hlim hsel (by simp [bulkBarred, hsel, hmode, hreset])]
    refine ⟨fun x => ?_, ?_, ?_, hostWrite_region_img _ _ _ _, hmd, hregs, hio⟩
    · rw [hostWrite_ds hrec, hds, hregion]
      exact rd_wrAll_word _ _ _ _
    · rw [hostWrite_ds hrec, hds]
    · rw [hostWrite_ds hrec, hds]

end Sys2Proof.Machine

namespace Sys2Proof.Machine

/-! ### The link commands (R370, R465, R474, R475, R507, R509) -/

/-- A table whose entry at one key is changed. -/
theorem lookup_map_at {α : Type} (f : α → α) (m : List (Nat × α)) (n k : Nat) :
    lookup (m.map (fun e => if e.1 == n then (e.1, f e.2) else e)) k = if k = n then (lookup m k).map f else lookup m k := by
  have hvalue : (fun e : Nat × α => if e.1 == n then (e.1, f e.2) else e) = fun e => (e.1, (fun k v => if k = n then f v else v) e.1 e.2) := by
    funext e
    by_cases h : e.1 = n <;> simp [h]
  rw [hvalue]
  refine (lookup_map_value (fun k v => if k = n then f v else v) m k).trans ?_
  by_cases h : k = n <;> simp [h]

theorem mem_map_at {α : Type} {f : α → α} {m : List (Nat × α)} {n : Nat} {e : Nat × α}
    (h : e ∈ m.map (fun e => if e.1 == n then (e.1, f e.2) else e)) (hn : e.1 = n) : ∃ x, e.2 = f x := by
  obtain ⟨x, -, hx⟩ := List.mem_map.mp h
  by_cases hxn : x.1 = n
  · exact ⟨x.2, by simp [← hx, hxn]⟩
  · simp [← hx, hxn] at hn

/-- Change the module, or the board link, of a number, and build the routes anew (R461). -/
def changeMod (s : State) (n : Nat) (f : UcieMod → UcieMod) : State :=
  buildRoutes { s with ucie := s.ucie.map (fun e => if e.1 == n then (e.1, f e.2) else e) }
def changeLink (s : State) (n : Nat) (f : BoardLink → BoardLink) : State :=
  buildRoutes { s with bl := s.bl.map (fun e => if e.1 == n then (e.1, f e.2) else e) }

theorem changeMod_spec (s : State) (n : Nat) (f : UcieMod → UcieMod) :
    let t := changeMod s n f
    (∀ e ∈ t.ucie, e.1 = n → ∃ x, e.2 = f x) ∧ lookup t.ucie n = (lookup s.ucie n).map f ∧ (∀ m, m ≠ n → lookup t.ucie m = lookup s.ucie m)
    ∧ t.bl = s.bl ∧ t.ds = s.ds ∧ t.md = s.md ∧ t.io = s.io := by
  simp only [changeMod, buildRoutes_frame]
  refine ⟨fun e he hn => mem_map_at he hn, ?_, fun m hm => ?_, trivial, trivial, trivial, trivial⟩
  · rw [lookup_map_at, if_pos rfl]
  · rw [lookup_map_at, if_neg hm]

theorem changeLink_spec (s : State) (n : Nat) (f : BoardLink → BoardLink) :
    let t := changeLink s n f
    (∀ e ∈ t.bl, e.1 = n → ∃ x, e.2 = f x) ∧ lookup t.bl n = (lookup s.bl n).map f ∧ (∀ d, d ≠ n → lookup t.bl d = lookup s.bl d)
    ∧ t.ucie = s.ucie ∧ t.ds = s.ds ∧ t.md = s.md ∧ t.io = s.io := by
  simp only [changeLink, buildRoutes_frame]
  refine ⟨fun e he hn => mem_map_at he hn, ?_, fun m hm => ?_, trivial, trivial, trivial, trivial⟩
  · rw [lookup_map_at, if_pos rfl]
  · rw [lookup_map_at, if_neg hm]

/-! #### LINK_STATUS and LINK_COUNTERS -/

theorem readModule_takeEntry {s : State} {c : Cmd} (h : c.path = .pcie) (site m k : Nat) :
    readModule (takeEntry s c) site m k = readModule s site m k := by
  rw [takeEntry_pcie h]; rfl

/-- The status words of a board link are no registers of the command ring. -/
theorem readBl_takeEntry {s : State} {c : Cmd} (h : c.path = .pcie) (d : Nat) {k : Nat} (hk : k < 8) :
    readBl (takeEntry s c) d (4 * k) = readBl s d (4 * k) := by
  rw [takeEntry_pcie h]
  interval_cases k <;> rfl

/-- The link that an accepted command names exists: a module, or the board link of a die. -/
theorem lnkIndex_lt_eight {s : State} {c : Cmd} {op : Nat} {clr : Bool} (h : accepts s op (chkLink clr) c = true) (hm : lnkModule c = false) :
    lnkIndex c < 8 := by
  have hchk := accepts_chk h
  unfold chkLink at hchk
  by_contra hlt
  split at hchk
  · cases hchk
  · simp [hm, Nat.not_lt.mp hlt] at hchk

/-- The counters of a link are registers of a block. -/
theorem counterKeys_lt {s : State} {c : Cmd} {op : Nat} {clr : Bool} (h : accepts s op (chkLink clr) c = true) {k : Nat}
    (hk : k ∈ counterKeys c) : k < 2 ^ 32 := by
  have hn : lnkIndex c < 32 := by simp only [lnkIndex, fld]; omega
  obtain ⟨i, hi, rfl⟩ := List.mem_map.mp hk
  have hi := List.mem_range.mp hi
  cases hm : lnkModule c with
  | true =>
    have hsite : moduleSite (lnkIndex c) ≤ 15 := by unfold moduleSite; split_ifs <;> omega
    simp only [if_true, rkey]
    omega
  | false =>
    have := lnkIndex_lt_eight h hm
    simp only [Bool.false_eq_true, if_false, rkey]
    omega

theorem bkey_not_counter {s : State} {c : Cmd} {op : Nat} {clr : Bool} (h : accepts s op (chkLink clr) c = true) (o : Nat) :
    bkey o ∉ counterKeys c := fun hk => by
  have := counterKeys_lt h hk
  unfold bkey at this
  omega

theorem counters_takeEntry {s : State} {c : Cmd} {op : Nat} {clr : Bool} (h : accepts s op (chkLink clr) c = true) :
    (counterKeys c).map (reg (takeEntry s c)) = (counterKeys c).map (reg s) :=
  List.map_congr_left fun _ hk => reg_takeEntry (accepts_pcie h) fun he => bkey_not_counter h _ (he ▸ hk)

/-- Registers cleared one after another. -/
def clearRegs (s : State) (ks : List Nat) : State := ks.foldl (fun s k => setReg s k 0) s

theorem clearRegs_reg (ks : List Nat) (s : State) (x : Nat) : reg (clearRegs s ks) x = if x ∈ ks then 0 else reg s x := by
  induction ks generalizing s with
  | nil => rfl
  | cons k ks ih =>
    rw [clearRegs, List.foldl_cons]
    refine (ih _).trans ?_
    by_cases hx : x ∈ ks
    · simp [hx]
    · by_cases hk : x = k <;> simp [hx, hk, reg_setReg]

theorem clearRegs_frame (ks : List Nat) (s : State) : clearRegs s ks = { s with regs := (clearRegs s ks).regs } := by
  induction ks generalizing s with
  | nil => rfl
  | cons k ks ih => exact (ih (setReg s k 0)).trans rfl

theorem reg_tickFree (s : State) (k : Nat) : reg (tickFree s) k = reg s k := rfl

/-! #### LINK_TRAIN and LINK_LOOP -/

/-- A module, or a board link, that begins to train. -/
def modTraining (u : UcieMod) : UcieMod := { u with st := 2, proto := 0, heard := [] }
def linkTraining (b : BoardLink) : BoardLink := { b with st := 2, quick := false }

/-- A module whose loop mode is set; taking the loop off trains it again. -/
def modLooped (p : Nat) (u : UcieMod) : UcieMod := if p == 0 && u.loopMode != 0 then { modTraining u with loopMode := p } else { u with loopMode := p }

/-- A board link whose loop mode is set to p, at the state st, `off` where a loop is taken off. -/
def linkLooped (st p : Nat) (off : Bool) (b : BoardLink) : BoardLink :=
  { b with st := st, loopMode := p, quick := b.quick && !off, rx := if st == 5 then b.rx.map (fun l => { l with scr := 0 }) else b.rx }

theorem actLinkTrain_module {s : State} {c : Cmd} (hm : lnkModule c = true) (hacc : lnkIndex c ≠ 24) (himg : s.img.resident = none) :
    actLinkTrain s c = (changeMod s (lnkIndex c) modTraining, .accept) := by
  simp only [actLinkTrain, hm, if_true, himg, Option.isSome_none, Bool.and_false, Bool.false_eq_true, if_false, beq_eq_false_iff_ne.mpr hacc]
  rfl

theorem actLinkTrain_board {s : State} {c : Cmd} (hm : lnkModule c = false) (hfree : (s.md.mode == .loaded && linkBooked s (lnkIndex c)) = false) :
    actLinkTrain s c = (changeLink s (lnkIndex c) linkTraining, .accept) := by
  simp only [actLinkTrain, hm, hfree, Bool.false_eq_true, if_false]
  rfl

theorem actLoop_module {s : State} {c : Cmd} (hm : lnkModule c = true) (hserv : s.md.mode = .service) :
    actLoop s c = (changeMod s (lnkIndex c) (modLooped (cPar c 1)), .ok []) := by
  simp only [actLoop, loopModule, hm, hserv, if_true, bne_self_eq_false, Bool.false_eq_true, if_false]
  rfl

theorem actLoop_board {s : State} {c : Cmd} {b : BoardLink} (hm : lnkModule c = false) (hb : linkOf s (lnkIndex c) = some b)
    (hfree : (s.md.mode == .loaded && linkBooked s (lnkIndex c)) = false) (hp : cPar c 1 ≠ 3) (hquiet : cPar c 1 = 0 → b.loopMode ≠ 3) :
    actLoop s c = (changeLink s (lnkIndex c)
      (linkLooped (if cPar c 1 != 0 then 5 else if cPar c 1 == 0 && b.st == 5 then 2 else b.st) (cPar c 1) (cPar c 1 == 0 && b.st == 5)), .ok []) := by
  have hsay : ((cPar c 1 == 0 && b.st == 5) && b.loopMode == 3) = false := by
    by_cases h0 : cPar c 1 = 0
    · simp [hquiet h0]
    · simp [h0]
  simp only [actLoop, loopBoard, hm, hb, hfree, hsay, beq_eq_false_iff_ne.mpr hp, Bool.false_and, Bool.false_eq_true, if_false, changeLink, linkLooped]

/-- What an accepted command that waits, and one that is done, leave of the links. -/
theorem hostCmd_accept_links {op : Nat} {chk : State → Cmd → Nat} {act : State → Cmd → State × Res} {c : Cmd} {s e : State}
    (h : accepts s op chk c = true) (hroom : s.io.waiting.length < 64) (ha : act (takeEntry s c) c = (e, .accept))
    (hmd : e.md = (takeEntry s c).md) (hio : e.io = (takeEntry s c).io) :
    let t := hostCmd op chk act c s
    waitingOf op c ∈ t.io.waiting ∧ t.ucie = e.ucie ∧ t.bl = e.bl ∧ t.ds = e.ds ∧ t.md = s.md := by
  obtain ⟨hsafe, hstop⟩ := accepts_live h
  obtain ⟨-, -, -, ht⟩ := hostCmd_accept h hroom ha (by simp [hmd, hsafe]) (by simp [hio, hstop])
  dsimp only
  rw [ht]
  exact ⟨List.mem_append_right _ (List.mem_singleton_self _), rfl, rfl, rfl, by simp [nowWaiting, hmd]⟩

theorem hostCmd_ok_links {op : Nat} {chk : State → Cmd → Nat} {act : State → Cmd → State × Res} {c : Cmd} {s e : State} {ws : List Word}
    (h : accepts s op chk c = true) (ha : act (takeEntry s c) c = (e, .ok ws)) (hmd : e.md = (takeEntry s c).md) (hio : e.io = (takeEntry s c).io) :
    let t := hostCmd op chk act c s
    t.ucie = e.ucie ∧ t.bl = e.bl ∧ t.ds = e.ds ∧ t.md = s.md := by
  have ht := replied_frame (hostCmd_replies h ha (by simp [hmd]) (by simp [hio]))
  dsimp only
  rw [ht]
  exact ⟨rfl, rfl, rfl, by simp [hmd]⟩

theorem linkBooked_takeEntry (s : State) (c : Cmd) (d : Nat) : linkBooked (takeEntry s c) d = linkBooked s d := by
  simp [linkBooked, txShare0, rxShare, linkOf]

/-- No resident image books the link in LOADED. -/
theorem notBooked_takeEntry {s : State} {c : Cmd} {d : Nat} (h : s.md.mode = .loaded → linkBooked s d = false) :
    ((takeEntry s c).md.mode == .loaded && linkBooked (takeEntry s c) d) = false := by
  rw [linkBooked_takeEntry, Bool.and_eq_false_imp]
  simpa using h

/-- Settles O33: each command by what its action is on an accepted packet; the link it changes by `changeMod` or `changeLink`. -/
theorem linkCommands : Obligations.LinkCommands := by
  unfold Obligations.LinkCommands
  refine ⟨fun s c => ⟨fun h => ?status, fun h hkeep => ?counters, fun h hclear => ?cleared⟩, fun s c =>
    ⟨fun h hroom hm hacc himg => ?trainModule, fun h hroom hm hfree => ?trainBoard, fun h hm hserv => ?loopModule,
      fun b h hm hb hfree hp => ?loopBoard, fun b h hm hb hfree hp h5 h3 => ?loopOff, fun h hm hserv => ?refused⟩⟩
  all_goals have hpath := accepts_pcie h
  case status =>
    have hact : actLinkStatus (takeEntry s c) c = ({ takeEntry s c with freeCtr := s.freeCtr + 1 }, .ok ((List.range 8).map (fun k => BitVec.ofNat 32
        (if lnkModule c then readModule s (moduleSite (lnkIndex c)) (lnkIndex c) k else readBl s (lnkIndex c) (4 * k))) ++ [Config.freeWord s.freeCtr])) := by
      have hwords := List.map_congr_left (l := List.range 8) fun k hk =>
        show BitVec.ofNat 32 (if lnkModule c then readModule (takeEntry s c) (moduleSite (lnkIndex c)) (lnkIndex c) k else readBl (takeEntry s c) (lnkIndex c) (4 * k))
          = BitVec.ofNat 32 (if lnkModule c then readModule s (moduleSite (lnkIndex c)) (lnkIndex c) k else readBl s (lnkIndex c) (4 * k)) by
        rw [readModule_takeEntry hpath, readBl_takeEntry hpath _ (List.mem_range.mp hk)]
      simp only [actLinkStatus, hwords, tickFree, takeEntry_frame]
    exact ⟨_, _, rfl, hostCmd_replies h hact (by simp) (by simp)⟩
  case counters =>
    have hact : actCounters (takeEntry s c) c
        = ({ takeEntry s c with freeCtr := s.freeCtr + 1 }, .ok ((counterKeys c).map (reg s) ++ [Config.freeWord s.freeCtr])) := by
      simp only [actCounters, hkeep, counters_takeEntry h, tickFree, takeEntry_frame, Bool.false_eq_true, if_false]
    exact ⟨_, _, rfl, hostCmd_replies h hact (by simp) (by simp)⟩
  case cleared =>
    have hreg (k : Nat) : reg (tickFree (clearRegs (takeEntry s c) (counterKeys c))) k = if k ∈ counterKeys c then 0 else reg (takeEntry s c) k :=
      (reg_tickFree _ k).trans (clearRegs_reg _ _ k)
    have hframe : tickFree (clearRegs (takeEntry s c) (counterKeys c)) = { takeEntry s c with
        freeCtr := s.freeCtr + 1, regs := (tickFree (clearRegs (takeEntry s c) (counterKeys c))).regs } := by
      rw [clearRegs_frame]; simp [tickFree]
    have hact : actCounters (takeEntry s c) c
        = (tickFree (clearRegs (takeEntry s c) (counterKeys c)), .ok ((counterKeys c).map (reg s) ++ [Config.freeWord s.freeCtr])) := by
      simp only [actCounters, hclear, counters_takeEntry h, if_true, clearRegs, takeEntry_frame]
    generalize tickFree (clearRegs (takeEntry s c) (counterKeys c)) = e at hreg hframe hact
    obtain ⟨hlook, -, hother, ht⟩ := hostCmd_replies h hact (by rw [hframe]; simp) (by rw [hframe]; simp)
    have hslot (o : Nat) (ho : bkey o ≠ bkey 0x1020) : reg e (bkey o) = reg s (bkey o) := by
      rw [hreg, if_neg (bkey_not_counter h o), reg_takeEntry hpath ho]
    have hkept {k : Nat} (hk : k < 2 ^ 32) : reg (hostCmd 0x0801 (chkLink true) actCounters c s) k = reg e k :=
      hother k (by unfold bkey; omega)
    rw [hslot 0x103C (by decide), hslot 0x1038 (by decide)] at hlook
    refine ⟨_, _, _, rfl, hlook, rfl, rfl, fun k hk => ?_, fun k hk hnot => ?_, ?_⟩
    · rw [hkept (counterKeys_lt h hk), hreg, if_pos hk]
    · rw [hkept hk, hreg, if_neg hnot, reg_takeEntry hpath (by unfold bkey; omega)]
    · generalize hostCmd 0x0801 (chkLink true) actCounters c s = t at ht
      rw [ht, hframe, takeEntry_pcie hpath]
  case trainModule =>
    obtain ⟨hall, -, hrest, hbl, hds, hmd, hio⟩ := changeMod_spec (takeEntry s c) (lnkIndex c) modTraining
    obtain ⟨hwait, tucie, tbl, tds, tmd⟩ := hostCmd_accept_links h hroom (actLinkTrain_module hm hacc (by simpa using himg)) hmd hio
    refine ⟨_, rfl, hwait, fun x hx hn => ?_, fun m hne => ?_, tbl.trans (hbl.trans (by simp)), tds.trans (hds.trans (by simp)), tmd⟩
    · obtain ⟨y, hy⟩ := hall x (tucie ▸ hx) hn
      exact ⟨by rw [hy]; rfl, by rw [hy]; rfl⟩
    · rw [tucie, hrest m hne]; simp
  case trainBoard =>
    obtain ⟨hall, -, hrest, hucie, hds, hmd, hio⟩ := changeLink_spec (takeEntry s c) (lnkIndex c) linkTraining
    obtain ⟨hwait, tucie, tbl, tds, tmd⟩ := hostCmd_accept_links h hroom (actLinkTrain_board hm (notBooked_takeEntry hfree)) hmd hio
    refine ⟨_, rfl, hwait, fun x hx hn => ?_, fun d hne => ?_, tucie.trans (hucie.trans (by simp)), tds.trans (hds.trans (by simp)), tmd⟩
    · obtain ⟨y, hy⟩ := hall x (tbl ▸ hx) hn
      rw [hy]; rfl
    · rw [tbl, hrest d hne]; simp
  case loopModule =>
    obtain ⟨hall, hat, hrest, hbl, hds, hmd, hio⟩ := changeMod_spec (takeEntry s c) (lnkIndex c) (modLooped (cPar c 1))
    obtain ⟨tucie, tbl, tds, tmd⟩ := hostCmd_ok_links h (actLoop_module hm (by simpa using hserv)) hmd hio
    refine ⟨_, rfl, fun x hx hn => ?_, fun x hx hloop hoff => ?_, fun m hne => ?_, tbl.trans (hbl.trans (by simp)), tds.trans (hds.trans (by simp)), tmd⟩
    · obtain ⟨y, hy⟩ := hall x (tucie ▸ hx) hn
      rw [hy]; unfold modLooped; split <;> rfl
    · refine ⟨modLooped (cPar c 1) x, ?_, ?_⟩
      · rw [tucie, hat]; simp [hx]
      · simp [modLooped, modTraining, hoff, hloop]
    · rw [tucie, hrest m hne]; simp
  case loopBoard =>
    have hp0 : cPar c 1 ≠ 0 := by omega
    have hact := actLoop_board (s := takeEntry s c) hm (by simpa [linkOf] using hb) (notBooked_takeEntry hfree) (by omega) (fun h0 => absurd h0 hp0)
    simp only [beq_eq_false_iff_ne.mpr hp0, bne_iff_ne.mpr hp0, if_true, Bool.false_and] at hact
    obtain ⟨-, hat, hrest, hucie, hds, hmd, hio⟩ := changeLink_spec (takeEntry s c) (lnkIndex c) (linkLooped 5 (cPar c 1) false)
    obtain ⟨tucie, tbl, tds, tmd⟩ := hostCmd_ok_links h hact hmd hio
    refine ⟨_, rfl, ?_, fun d hne => ?_, tucie.trans (hucie.trans (by simp)), tds.trans (hds.trans (by simp)), tmd⟩
    · rw [linkOf] at hb ⊢
      rw [tbl, hat]; simp [hb, linkLooped]
    · rw [linkOf, tbl, hrest d hne]; simp [linkOf]
  case loopOff =>
    have hact := actLoop_board (s := takeEntry s c) hm (by simpa [linkOf] using hb) (notBooked_takeEntry hfree) (by omega) (fun _ => h3)
    simp only [hp, h5, beq_self_eq_true, bne_self_eq_false, Bool.and_self, Bool.false_eq_true, if_false, if_true] at hact
    obtain ⟨-, hat, hrest, hucie, hds, hmd, hio⟩ := changeLink_spec (takeEntry s c) (lnkIndex c) (linkLooped 2 0 true)
    obtain ⟨tucie, tbl, tds, tmd⟩ := hostCmd_ok_links h hact hmd hio
    refine ⟨_, rfl, ?_, fun d hne => ?_, tucie.trans (hucie.trans (by simp)), tds.trans (hds.trans (by simp)), tmd⟩
    · rw [linkOf] at hb ⊢
      rw [tbl, hat]; simp [hb, linkLooped]
    · rw [linkOf, tbl, hrest d hne]; simp [linkOf]
  case refused =>
    have hact : actLoop (takeEntry s c) c = (takeEntry s c, .refuse 0x0202) := by simp [actLoop, loopModule, hm, hserv]
    exact ⟨_, rfl, hostCmd_refuse h hact⟩

end Sys2Proof.Machine

namespace Sys2Proof.Machine

/-! ### Relayed commands, their replies and events (R358, R360, R365) -/

/-- A relayed command that can be taken, passes checks 3 to 6 and reaches no unit behind a spillway is run on this device. -/
theorem hostCmd_relayed {op : Nat} {chk : State → Cmd → Nat} {act : State → Cmd → State × Res} {c : Cmd} {s : State} {p : Nat} {m : Bool}
    (hp : c.path = .relay p m) (ht : canTake s c = true) (hs : statusOf (takeEntry s c) op chk c = 0)
    (hb : behindSpillway (takeEntry s c) op c = false) :
    hostCmd op chk act c s = settle (takeEntry s c) op c (act (takeEntry s c) c) := by
  simp [hostCmd, runCmd, ht, hp, hs, hb]

theorem sendReply_pcie {s : State} (hs : s.md.safeHold = none) (r : Reply) : sendReply s .pcie r = writeReply s r := by
  simp [sendReply, inSafeHold, hs]

theorem sendReply_relay {s : State} (hs : s.md.safeHold = none) (p : Nat) (m : Bool) (r : Reply) :
    sendReply s (.relay p m) r = { s with net := { s.net with
      relayBack := ((p, .inl r) :: s.net.relayBack).take 16, out := s.net.out ++ [vn3Packet s p 0x39 (bytesWords (replyPacket r))] } } := by
  simp [sendReply, inSafeHold, hs]

/-- Writing a reply ends no relayed command. -/
theorem writeReply_relayed (s : State) (r : Reply) : (writeReply s r).io.relayed = s.io.relayed := by
  simp only [writeReply, signal, finishDisable]
  split <;> split <;> simp [writeBack]

/-- Writing a reply changes the registers and the host side alone. -/
theorem writeReply_only (s : State) (r : Reply) :
    writeReply s r = { s with regs := (writeReply s r).regs, io := (writeReply s r).io } := by
  simp only [writeReply, signal, finishDisable]
  split <;> split <;> rfl

/-- An event of an action is carried as it came: the sessions' copies leave the host side, the design and the mode alone. -/
theorem forwardEvent_spec (s : State) (e : Event) :
    (forwardEvent s e).io = { s.io with queue := s.io.queue ++ [e] } ∧ (forwardEvent s e).ds = s.ds ∧ (forwardEvent s e).md = s.md := by
  simp [forwardEvent]

theorem relayedReply_unlisted {st : Nat} (h1 : st ≠ 1) (hf : finalStatus st = false) (s : State) (pos : Nat) (tag : BitVec 16) (flags : Nat)
    (dl : Word) (ws : List Word) : relayedReply s pos tag st flags dl ws = s := by
  simp [relayedReply, h1, hf]

/-- The reply of a PCIe command that waits unaccepted is written to the ring. -/
theorem relayedReply_awaited {s : State} {pos st : Nat} {tag : BitVec 16} {r : Relayed} (flags : Nat) (dl : Word) (ws : List Word)
    (hr : s.io.relayed.find? (isRelayed pos tag false) = some r) (hpath : r.path = .pcie) (hs : s.md.safeHold = none) (hq : r.quiet = false)
    (hst : st = 1 ∨ finalStatus st = true) :
    relayedReply s pos tag st flags dl ws
      = writeReply { s with io := { s.io with
          relayed := dropFirst (isRelayed pos tag false) s.io.relayed ++ (if st = 1 then [{ r with accepted := true }] else []) } }
        { opcode := r.opcode, status := st, flags := flags ||| b2n r.tko, tag := tag, dcnLo := dl, seq := r.seq, results := ws } := by
  have hlisted : (st == 1 || finalStatus st) = true := by simpa using hst
  simp only [relayedReply, inSafeHold, hs, hlisted, hr, hq, hpath, Option.isSome_none, Bool.not_true, Bool.or_false, Bool.false_eq_true, if_false]
  by_cases h1 : st = 1
  · simp [h1, dropRelayed, sendReply_pcie, hs]
  · simp [h1, dropRelayed, sendReply_pcie, hs]

theorem peerEvent_unlisted {st : Nat} (hf : finalStatus st = false) (s : State) (pos code : Nat) (tag : BitVec 16) (dl : Word) (x : EventData) :
    peerEvent s pos code st tag dl x = s := by simp [peerEvent, hf]

/-- A completion that nobody awaits changes nothing. -/
theorem peerEvent_unawaited {s : State} {pos : Nat} {tag : BitVec 16} (h : s.io.relayed.any (isRelayed pos tag true) = false)
    (st : Nat) (dl : Word) (x : EventData) : peerEvent s pos 1 st tag dl x = s := by
  have hnone : s.io.relayed.find? (isRelayed pos tag true) = none := by simpa using h
  simp [peerEvent, hnone]

/-- RELAY_TIMEOUT answers the oldest PCIe command of its TAG that is unaccepted, and drops it. -/
theorem relayTimeout_unanswered {s : State} {r : Relayed} {rs : List Relayed} (hl : s.io.relayed = r :: rs) (hacc : r.accepted = false)
    (hpath : r.path = .pcie) (hs : s.md.safeHold = none) (hq : r.quiet = false) :
    relayTimeout s r.tag = writeReply { s with io := { s.io with relayed := rs } }
      { opcode := r.opcode, status := 0x0504, flags := 2 + b2n r.tko, tag := r.tag, dcnLo := dcnLo s, seq := r.seq, results := [] } := by
  simp [relayTimeout, inSafeHold, hs, hl, hacc, dropRelayed, dropFirst, hq, hpath, sendReply, dcnLo]

/-- RELAY_TIMEOUT completes the oldest command of its TAG when it is accepted and no route leads to it any more, and drops it. -/
theorem relayTimeout_lost {s : State} {r : Relayed} {rs : List Relayed} (hl : s.io.relayed = r :: rs) (hacc : r.accepted = true)
    (hroute : reaches s r.pos = false) (hs : s.md.safeHold = none) (hq : r.quiet = false) :
    relayTimeout s r.tag = queueEvent { s with io := { s.io with relayed := rs } } 1 0x0504 r.tag [] := by
  simp [relayTimeout, inSafeHold, hs, hl, hacc, hroute, dropRelayed, dropFirst, hq]

/-- Settles O48: each row by what its handler does with the command it finds. -/
theorem relayedCommandsRepliesAndEvents : Obligations.RelayedCommandsRepliesAndEvents := by
  unfold Obligations.RelayedCommandsRepliesAndEvents
  intro s pos code st flags len tag dl seq ws
  refine ⟨fun op c p m e ws hp hpos ht hs hb ha hlive => ?here, fun op c p m hp hpos hr hlive => ?onward, fun h1 hf => ⟨?_, ?_⟩,
    fun r hr hpath hlive hq hst => ?reply, fun hc hf => ?event, fun r hc hf hr hq => ?completion, fun hc hnone => ?nobody,
    fun r rs hl htag hacc hpath hlive hq => ?unanswered, fun r rs hl htag hacc hroute hlive hq => ?lost⟩
  case here =>
    have hrun : relayedCommand s op c = dropClosing (sendReply e (.relay p m) (mkReply e op c 0 0 ws)) := by
      simp [relayedCommand, hp, hpos, runOpcode, hostCmd_relayed hp ht hs hb, ha, settle, answer]
    rw [sendReply_relay hlive] at hrun
    refine ⟨_, congrArg Host.Outcome.next hrun, rfl, rfl, rfl, ?_, rfl⟩
    simp [dropClosing]
  case onward => exact congrArg Host.Outcome.next (by simp [relayedCommand, hp, hpos, inSafeHold, hlive, hr])
  · exact congrArg Host.Outcome.next (relayedReply_unlisted h1 hf ..)
  · exact congrArg Host.Outcome.next (peerEvent_unlisted hf ..)
  case reply =>
    refine ⟨_, congrArg Host.Outcome.next (relayedReply_awaited flags dl ws hr hpath hlive hq hst), lookup_writeReply _ _, writeReply_relayed _ _, ?_⟩
    exact writeReply_only _ _
  case event =>
    refine ⟨_, congrArg Host.Outcome.next ?_, forwardEvent_spec s _⟩
    simp [peerEvent, hc, hf]
  case completion =>
    obtain ⟨hio, hds, hmd⟩ := forwardEvent_spec (dropRelayed s (isRelayed pos tag true))
      { code := code, status := st, tag := tag, dcnLo := dl, seq := seq, payload := ws, len := len, foreign := true }
    refine ⟨_, congrArg Host.Outcome.next ?_, hio, hds, hmd⟩
    simp [peerEvent, hc, hf, hr, hq]
  case nobody =>
    subst hc
    exact congrArg Host.Outcome.next (peerEvent_unawaited hnone ..)
  case unanswered =>
    subst htag
    refine ⟨_, congrArg Host.Outcome.next (relayTimeout_unanswered hl hacc hpath hlive hq), writeReply_relayed _ _, lookup_writeReply _ _, ?_⟩
    exact writeReply_only _ _
  case lost =>
    subst htag
    refine ⟨_, congrArg Host.Outcome.next (relayTimeout_lost hl hacc hroute hlive hq), ?_, ?_, ?_, ?_, ?_⟩ <;> simp [queueEvent, tickEvent, dcnLo]

end Sys2Proof.Machine

namespace Sys2Proof.Machine

/-! ### Commands of a management session (R376 to R378) -/

/-- The sessions with one of them changed. -/
def changeSessions (l : List Session) (id : Word) (f : Session → Session) : List Session := l.map (fun y => if y.id == id then f y else y)

theorem mapSession_sessions (s : State) (id : Word) (f : Session → Session) :
    mapSession s id f = { s with sec := { s.sec with sessions := changeSessions s.sec.sessions id f } } := rfl

/-- Two changes of a session, of which the first keeps its number, are one. -/
theorem changeSessions_twice {f : Session → Session} (hf : ∀ y, (f y).id = y.id) (l : List Session) (id : Word) (g : Session → Session) :
    changeSessions (changeSessions l id f) id g = changeSessions l id (fun y => g (f y)) := by
  simp only [changeSessions, List.map_map]
  refine List.map_congr_left fun y _ => ?_
  by_cases h : y.id = id <;> simp [h, hf]

theorem find?_changeSessions {f : Session → Session} (hf : ∀ y, (f y).id = y.id) {l : List Session} {id : Word} {x : Session}
    (h : l.find? (fun y => y.id == id) = some x) : (changeSessions l id f).find? (fun y => y.id == id) = some (f x) := by
  have hkeeps : ((fun y : Session => y.id == id) ∘ fun y => if y.id == id then f y else y) = fun y => y.id == id := by
    funext y
    by_cases hy : y.id = id <;> simp [hy, hf]
  have hx : x.id = id := by simpa using List.find?_some h
  rw [changeSessions, List.find?_map, hkeeps, h]
  simp [hx]

/-- A session of the number named has been changed. -/
theorem mem_changeSessions {f : Session → Session} {l : List Session} {id : Word} {y : Session} (h : y ∈ changeSessions l id f) (hy : y.id = id) :
    ∃ z, y = f z := by
  obtain ⟨z, -, rfl⟩ := List.mem_map.mp h
  by_cases hz : z.id = id
  · exact ⟨z, by simp [hz]⟩
  · simp [hz] at hy

/-- A test that the change of a session keeps finds one of the sessions as before. -/
theorem any_changeSessions {f : Session → Session} {p : Session → Bool} (hf : ∀ y, p (f y) = p y) (l : List Session) (id : Word) :
    (changeSessions l id f).any p = l.any p := by
  simp only [changeSessions, List.any_map]
  congr 1
  funext y
  simp only [Function.comp]
  split
  · exact hf y
  · rfl

/-- Whether a session's command is accepted does not depend on the session's counters. -/
theorem acceptsOn_mapSession {f : Session → Session} (hid : ∀ y, (f y).id = y.id) (hseq : ∀ y, (f y).nextSeq = y.nextSeq)
    (hver : ∀ y, (f y).version = y.version) (s : State) (id : Word) (op : Nat) {c : Cmd} (hp : c.path = .session id) :
    acceptsOn (mapSession s id f) id op noCheck c = acceptsOn s id op noCheck c := by
  have htake : canTake (mapSession s id f) c = canTake s c := by
    have hany : (mapSession s id f).sec.sessions.any (fun x => x.id == id && seqBack x c == 0)
        = s.sec.sessions.any (fun x => x.id == id && seqBack x c == 0) :=
      any_changeSessions (fun y => by simp [seqBack, hid, hseq]) _ _
    unfold canTake
    rw [hp]
    dsimp only
    rw [hany]
    rfl
  have hany (u : State) : (takeEntry u c).sec.sessions.any (fun x => x.id == id && x.version.isSome)
      = u.sec.sessions.any (fun x => x.id == id && x.version.isSome) := by
    simp only [takeEntry, hp]
    exact any_changeSessions (f := fun y => { y with nextSeq := some (c.seq + 1) }) (fun _ => rfl) _ _
  have hneg : negotiateStatus (takeEntry (mapSession s id f) c) op c = negotiateStatus (takeEntry s c) op c := by
    have hany' : (mapSession s id f).sec.sessions.any (fun x => x.id == id && x.version.isSome)
        = s.sec.sessions.any (fun x => x.id == id && x.version.isSome) := any_changeSessions (fun y => by simp [hid, hver]) _ _
    simp only [negotiateStatus, negotiated, hp, hany, hany']
  have hstat : statusOf (takeEntry (mapSession s id f) c) op noCheck c = statusOf (takeEntry s c) op noCheck c := by
    simp only [takeEntry, hp]
    rfl
  have hspill : behindSpillway (takeEntry (mapSession s id f) c) op c = behindSpillway (takeEntry s c) op c := by
    simp only [takeEntry, hp]
    rfl
  simp only [acceptsOn, htake, hneg, hstat, hspill]
  rfl

/-- A session's command that passes its checks runs on this device, on the state whose session has its SEQ moved on. -/
theorem hostCmd_acceptsOn {id : Word} {op : Nat} {chk : State → Cmd → Nat} {act : State → Cmd → State × Res} {c : Cmd} {s : State}
    (h : acceptsOn s id op chk c = true) : hostCmd op chk act c s = settle (takeEntry s c) op c (act (takeEntry s c) c) := by
  simp only [acceptsOn, Bool.and_eq_true, beq_iff_eq, Bool.not_eq_true'] at h
  obtain ⟨⟨⟨⟨⟨⟨hp, ht⟩, hh⟩, hn⟩, hpos⟩, hs⟩, hb⟩ := h
  have hpo : cPos c = posOf (takeEntry s c) := by rw [hpos]; simp [posOf]
  unfold hostCmd
  simp [ht, hp, firstBad, hh, hn, hpo, runCmd, hs, hb]

/-- A session that has sent a datagram more. -/
def sentMore (y : Session) : Session := { y with ctrOut := y.ctrOut + 1 }

/-- A session that keeps a reply among those of its last 16 commands. -/
def keepReply (r : Reply) (y : Session) : Session := { y with replies := ((r.seq, r) :: y.replies).take 16 }

/-- A reply to a session leaves under its next counter, and the session keeps it. -/
theorem sendReply_session {s : State} {id : Word} {x : Session} (hs : s.md.safeHold = none)
    (hx : s.sec.sessions.find? (fun y => y.id == id) = some x) (r : Reply) :
    sendReply s (.session id) r = { s with
      net := { s.net with mgmtOut := ((id, x.ctrOut + 1, .inl r, answerMac x.key id (x.ctrOut + 1) (.inl r)) :: s.net.mgmtOut).take 16 }
      sec := { s.sec with sessions := changeSessions s.sec.sessions id (fun y => sentMore (keepReply r y)) } } := by
  have hsend : sendReply s (.session id) r
      = sendMgmt { s with sec := { s.sec with sessions := changeSessions s.sec.sessions id (keepReply r) } } id (.inl r) := by
    simp only [sendReply, inSafeHold, hs]
    rfl
  rw [hsend, sendMgmt, find?_changeSessions (f := keepReply r) (fun _ => rfl) hx, ← changeSessions_twice (f := keepReply r) (fun _ => rfl)]
  rfl

/-- A session that has taken the command of a datagram. -/
def tookDatagram (n : Nat) (q : Word) (y : Session) : Session := { y with ctrIn := n, nextSeq := some (q + 1) }

/-- The state in which the command of a session's datagram runs. -/
def afterDatagram (s : State) (id : Word) (n : Nat) (q : Word) : State :=
  { s with
    io := { s.io with served := some (.session id) }
    sec := { s.sec with sessions := changeSessions s.sec.sessions id (tookDatagram n q) } }

/-- Taking a session's command after its counter has moved on. -/
theorem takeEntry_session {c : Cmd} {id : Word} (hp : c.path = .session id) (s : State) (n : Nat) :
    takeEntry (mapSession s id (fun y => { y with ctrIn := n })) c = afterDatagram s id n c.seq := by
  have htwice : changeSessions s.sec.sessions id (tookDatagram n c.seq) = _ :=
    (changeSessions_twice (f := fun y => { y with ctrIn := n }) (fun _ => rfl) s.sec.sessions id (fun y => { y with nextSeq := some (c.seq + 1) })).symm
  rw [afterDatagram, htwice]
  simp only [takeEntry, hp]
  rfl

/-- A datagram of a session that is verified and new, with the next SEQ, runs its command on the session with the new counter. -/
theorem mgmtDatagram_next {s : State} {d : Datagram} {x : Session} (hs : s.md.safeHold = none)
    (hx : s.sec.sessions.find? (fun y => y.id == d.session) = some x)
    (hmac : d.mac = datagramMac x.key d.session d.counter (commandPacket d.opcode d.cmd)) (hctr : x.ctrIn < d.counter)
    (hseq : x.nextSeq = some d.cmd.seq) (htake : canTake s { d.cmd with path := .session d.session } = true) :
    mgmtDatagram s d = runOpcode d.opcode { d.cmd with path := .session d.session }
      (mapSession s d.session (fun y => { y with ctrIn := d.counter })) := by
  have hid : x.id = d.session := by simpa using List.find?_some hx
  simp [mgmtDatagram, inSafeHold, hs, hx, ← hmac, not_le.mpr hctr, sessionCommand, seqBack, hseq, htake, hid]

/-- TIME_GET of a session: the session has moved on, and the reply has left. -/
theorem runOpcode_timeGet {s : State} {c : Cmd} {id : Word} {x : Session} (hs : s.md.safeHold = none)
    (hx : s.sec.sessions.find? (fun y => y.id == id) = some x) (h : acceptsOn s id 0x0900 noCheck c = true) (hp : c.path = .session id) (n : Nat) :
    let rep : Reply := { opcode := 0x0900, status := 0, flags := 0, tag := c.tag, dcnLo := dcnLo s, seq := c.seq
                         results := words96 (stamp s) ++ dwords s.seq.dcn }
    runOpcode 0x0900 c (mapSession s id (fun y => { y with ctrIn := n }))
      = dropClosing { s with
          io := { s.io with served := some (.session id) }
          net := { s.net with mgmtOut := ((id, x.ctrOut + 1, .inl rep, answerMac x.key id (x.ctrOut + 1) (.inl rep)) :: s.net.mgmtOut).take 16 }
          sec := { s.sec with sessions := changeSessions s.sec.sessions id (fun y => sentMore (keepReply rep (tookDatagram n c.seq y))) } } := by
  intro rep
  have hacc : acceptsOn (mapSession s id (fun y => { y with ctrIn := n })) id 0x0900 noCheck c = true := by
    rw [acceptsOn_mapSession (f := fun y => { y with ctrIn := n }) (fun _ => rfl) (fun _ => rfl) (fun _ => rfl) s id _ hp, h]
  have hrun : hostCmd 0x0900 noCheck actTimeGet c (mapSession s id (fun y => { y with ctrIn := n }))
      = sendReply (afterDatagram s id n c.seq) (.session id) rep := by
    rw [hostCmd_acceptsOn hacc, takeEntry_session hp]
    simp only [settle, actTimeGet, answer, hp]
    rfl
  have hfind := find?_changeSessions (f := tookDatagram n c.seq) (fun _ => rfl) hx
  refine (congrArg dropClosing hrun).trans (congrArg dropClosing ?_)
  have hlive : (afterDatagram s id n c.seq).md.safeHold = none := hs
  have hfound : (afterDatagram s id n c.seq).sec.sessions.find? (fun y => y.id == id) = some (tookDatagram n c.seq x) := hfind
  rw [sendReply_session hlive hfound, afterDatagram]
  dsimp only
  rw [changeSessions_twice (f := tookDatagram n c.seq) (fun _ => rfl)]
  rfl

/-! ### Posting events (R356, R360) -/

/-- An event written to the ring stands at the index of EVTR_PROD, which counts it. -/
theorem writeEvent_spec (s : State) (e : Event) :
    lookup (writeEvent s e).io.events ((reg s (bkey 0x105C)).toNat % 2 ^ (reg s (bkey 0x1058)).toNat) = some e
    ∧ reg (writeEvent s e) (bkey 0x105C) = reg s (bkey 0x105C) + 1
    ∧ (writeEvent s e).io.queue = s.io.queue ∧ (writeEvent s e).io.evSeq = s.io.evSeq
    ∧ writeEvent s e = { s with regs := (writeEvent s e).regs, io := (writeEvent s e).io } := by
  simp only [writeEvent, signal]
  split <;> simp [writeBack, reg, setReg, cget_cset]

theorem eventPost_error {s : State} {r : ErrRec} {rs : List ErrRec} (hq : s.err.queue = r :: rs) (h : canPost s 3 = true) :
    eventPost s .error = writeEvent { s with err := { s.err with queue := rs } } (errEvent r) := by
  have hpost : (ringsOn s && eventRoom s && !inSafeHold s && !bitOf s.io.mask.toNat 3) = true := h
  simp only [eventPost, postError, hq, hpost, if_true]

theorem eventPost_error_barred {s : State} (h : canPost s 3 = false) : eventPost s .error = s := by
  have hpost : (ringsOn s && eventRoom s && !inSafeHold s && !bitOf s.io.mask.toNat 3) = false := h
  simp only [eventPost, postError]
  split
  · rfl
  · rw [hpost, if_neg (by decide)]

theorem eventPost_hazard {s : State} {r : HazRec} {rs : List HazRec} (hq : s.haz.queue = r :: rs) (h : canPost s 2 = true) :
    eventPost s .hazard = writeEvent { s with haz := { s.haz with queue := rs } } (hazEvent r) := by
  simp only [eventPost, hq, h, if_true]

theorem eventPost_hazard_barred {s : State} (h : canPost s 2 = false) : eventPost s .hazard = s := by
  simp only [eventPost, h]
  split <;> rfl

theorem eventPost_other {s : State} {e : Event} {es : List Event} (hq : s.io.queue = e :: es) (h : canPost s e.code = true) :
    eventPost s .other = writeEvent { s with io := { s.io with queue := es } } e := by
  simp only [canPost, Bool.and_eq_true, Bool.not_eq_true'] at h
  simp [eventPost, hq, h]

theorem eventPost_other_full {s : State} (h : ringTakes s = false) : eventPost s .other = s := by
  simp only [eventPost, h]
  split <;> rfl

/-- A masked event leaves its queue unwritten. -/
theorem eventPost_other_masked {s : State} {e : Event} {es : List Event} (hq : s.io.queue = e :: es) (ht : ringTakes s = true)
    (h : canPost s e.code = false) : eventPost s .other = { s with io := { s.io with queue := es } } := by
  have hmask : bitOf s.io.mask.toNat e.code = true := by simpa [canPost, ht] using h
  simp [eventPost, hq, ht, hmask]

/-- Settles O49: the datagrams by what decides on them, then the three queues. -/
theorem datagramsAndPostedEvents : Obligations.DatagramsAndPostedEvents := by
  unfold Obligations.DatagramsAndPostedEvents
  intro s d x idx c mac rep found
  refine ⟨fun ⟨hs, hx⟩ hmac => ?forged, fun ⟨hs, hx⟩ hmac hctr => ?stale, fun ⟨hs, hx⟩ hmac hctr hseq hop h => ?next,
    fun e es hq h => ?other, fun r rs hq h => ?error, fun r rs hq h => ?hazard, fun h => ?_, fun h => ?_, fun h => ?_, fun e es hq ht h => ?_⟩
  case forged =>
    refine congrArg Host.Outcome.next ?_
    have hne : (d.mac != datagramMac x.key d.session d.counter (commandPacket d.opcode d.cmd)) = true := by simpa using hmac
    simp only [mgmtDatagram, inSafeHold, hs, hx, hne, Option.isSome_none, Bool.false_eq_true, if_false, if_true, dropDatagram]
  case stale =>
    refine congrArg Host.Outcome.next ?_
    have heq : (d.mac != datagramMac x.key d.session d.counter (commandPacket d.opcode d.cmd)) = false := by simpa using hmac
    simp only [mgmtDatagram, inSafeHold, hs, hx, heq, Option.isSome_none, Bool.false_eq_true, if_false, hctr, if_true, dropDatagram]
  case next =>
    have htake : canTake s c = true := by
      simp only [acceptsOn, Bool.and_eq_true] at h
      obtain ⟨⟨⟨⟨⟨⟨-, htake⟩, -⟩, -⟩, -⟩, -⟩, -⟩ := h
      exact htake
    have hrun := mgmtDatagram_next hs hx hmac hctr hseq htake
    rw [hop] at hrun
    refine ⟨_, congrArg Host.Outcome.next (hrun.trans (runOpcode_timeGet hs hx h rfl d.counter)), rfl, fun y hy hid => ?_, rfl⟩
    obtain ⟨z, rfl⟩ := mem_changeSessions (List.mem_of_mem_filter hy) hid
    exact ⟨rfl, rfl⟩
  case other =>
    obtain ⟨hev, hprod, hqueue, hnum, hframe⟩ := writeEvent_spec { s with io := { s.io with queue := es } } e
    exact ⟨_, congrArg Host.Outcome.next (eventPost_other hq h), hqueue, hev, hnum, hprod, hframe⟩
  case error =>
    obtain ⟨hev, hprod, hqueue, -, hframe⟩ := writeEvent_spec { s with err := { s.err with queue := rs } } (errEvent r)
    refine ⟨_, congrArg Host.Outcome.next (eventPost_error hq h), by simp, hev, hqueue, hprod, ?_⟩
    simpa using hframe
  case hazard =>
    obtain ⟨hev, hprod, hqueue, -, hframe⟩ := writeEvent_spec { s with haz := { s.haz with queue := rs } } (hazEvent r)
    refine ⟨_, congrArg Host.Outcome.next (eventPost_hazard hq h), by simp, hev, hqueue, hprod, ?_⟩
    simpa using hframe
  · exact congrArg Host.Outcome.next (eventPost_error_barred h)
  · exact congrArg Host.Outcome.next (eventPost_hazard_barred h)
  · exact congrArg Host.Outcome.next (eventPost_other_full h)
  · exact congrArg Host.Outcome.next (eventPost_other_masked hq ht h)

end Sys2Proof.Machine

namespace Sys2Proof.Machine

/-! ### Records that wait, and what making one leaves (R535, R538, R545) -/

theorem storeErr_pending (s : State) (r : ErrRec) : (storeErr s r).err.pending = s.err.pending := by
  unfold storeErr
  split_ifs <;> simp

/-- A record that is made touches none of those that wait. -/
theorem addRecord_pending (s : State) (r : ErrRec) (b : Bool) : (addRecord s r b).err.pending = s.err.pending := by
  have hcount : (countFault s r.cls).err = { s.err with seq := s.err.seq + 1 } := by simp [countFault]
  unfold addRecord
  dsimp only
  repeat' split
  all_goals simp [hcount, storeErr_pending]

/-- No record waits once the handling has ended. -/
theorem flushRecords_pending (s : State) : (flushRecords s).err.pending = [] :=
  foldl_keeps (fun u : State => u.err.pending) _ (fun _ _ => addRecord_pending ..) _ _

theorem postErrors_pending (n : Nat) (s : State) : (postErrors n s).err.pending = s.err.pending := by
  induction n generalizing s with
  | zero => rfl
  | succ n ih =>
    rw [postErrors, ih]
    unfold postError
    split
    · rfl
    · split <;> simp

/-- Making a record adds none to those that wait. -/
theorem makeRecord_pending_subset (s : State) (r : ErrRec) (b : Bool) : ∀ x ∈ (makeRecord s r b).err.pending, x ∈ s.err.pending := by
  intro x hx
  unfold makeRecord at hx
  split at hx
  · simp [postErrors_pending, addRecord_pending, flushRecords_pending] at hx
  · rwa [addRecord_pending] at hx

/-- Records of a kind whose handling has ended wait no more. -/
theorem endFault_pending_any (s : State) (p : ErrRec → Bool) (f : ErrRec → ErrRec) : (endFault s p f).err.pending.any p = false := by
  have hfold (rs : List ErrRec) (u : State) (hu : ∀ x ∈ u.err.pending, p x = false) :
      ∀ x ∈ (rs.foldl (fun u r => makeRecord u (f r) false) u).err.pending, p x = false := by
    induction rs generalizing u with
    | nil => exact hu
    | cons r rs ih => exact ih _ fun x hx => hu x (makeRecord_pending_subset _ _ _ x hx)
  have hnone := hfold (s.err.pending.filter p) { s with err := { s.err with pending := s.err.pending.filter (fun r => !p r) } }
    fun x hx => by simpa using (List.mem_filter.mp hx).2
  simpa [endFault] using hnone

/-- Outside SAFE HOLD a fault of class FATAL enters it with its cause, under code 14. -/
theorem fault_fatal_enters {s : State} (hs : s.md.safeHold = none) (f : FaultInfo) (h : f.cls = 5) :
    (fault s f).md = { s.md with safeHold := some f.cause } ∧ (fault s f).slu.held.contains (14, 0) = true := by
  have hcls : (recordOf s f).cls = 5 := h
  have hcause : (recordOf s f).cause = f.cause := rfl
  rw [fault, makeRecord, if_pos (by simp [hcls]), enterSafeHold, if_neg (by simp [inSafeHold, hs])]
  dsimp only
  refine ⟨by simp [hcause], ?_⟩
  unfold holdReq
  split
  next hheld => exact hheld
  next => simp

/-- A record of a class that is corrected without replacement writes the class's counter and the longest stall alone (R535, R540). -/
theorem reg_addRecord_repairable {s : State} {r : ErrRec} (hr : r.cls = 3) (b : Bool) {k : Nat} (hcls : k ≠ rkey 15 0x14 0x018)
    (hstall : k ≠ rkey 15 0x14 0x024) : reg (addRecord s r b) k = reg s k := by
  have hcount : reg (countFault s 3) k = reg s k := reg_bump_other s _ _ hcls
  have hkeep (u : State) (hu : u.regs = (countFault s 3).regs) : reg u k = reg s k := by rw [reg, hu]; exact hcount
  unfold addRecord
  simp only [hr, asksReplace, show ((3 : Nat) == 1) = false from rfl, show ((3 : Nat) == 4) = false from rfl, show ((3 : Nat) == 5) = false from rfl,
    Bool.false_and, Bool.or_false, Bool.false_eq_true, if_false, beq_self_eq_true, if_true]
  rw [reg_maxIo_other _ _ hstall]
  exact hkeep _ (by simp)

theorem reg_fault_repairable {s : State} {f : FaultInfo} (hf : f.cls = 3) {k : Nat} (hcls : k ≠ rkey 15 0x14 0x018) (hstall : k ≠ rkey 15 0x14 0x024) :
    reg (fault s f) k = reg s k := by
  have hrec : (recordOf s f).cls = 3 := hf
  rw [fault, makeRecord, if_neg (by simp [hrec]), reg_addRecord_repairable hrec _ hcls hstall]
  rfl

/-! ### Controllers (R353, R541 to R543) -/

/-- An I/O-die count reads what it counts to. -/
theorem ioReg_bumpIo_same (s : State) (b o d : Nat) {w : Nat} (hw : w ≤ 32) : ioReg (bumpIo s b o w d) b o = satAdd w (ioReg s b o) d :=
  reg_bump_same s _ hw d

/-- A repair whose records overlap with another fault. -/
def overlapped (r : Repair) : Repair := { r with recs := r.recs.map (fun e => { e with flags := e.flags ||| 1 }) }

/-- A fault that is to be recorded later takes no repair from the line. -/
theorem asksRepair_pendFault {s t : State} {code : Nat} (h : asksRepair s t code) (f : FaultInfo) : asksRepair s (pendFault t f) code := by
  intro hrun hlive
  obtain ⟨-, hlen, r, hr, hcode, hbound⟩ := h hrun hlive
  have hmem : overlapped r ∈ (pendFault t f).err.repairs := List.mem_map_of_mem (f := overlapped) hr
  have hany : (pendFault t f).err.repairs.any (fun x => x.code == code) = true := List.any_eq_true.mpr ⟨_, hmem, by simpa [overlapped] using hcode⟩
  exact ⟨by simp [srcHeld, hany], by simpa [pendFault, noteOverlap] using hlen, _, hmem, hcode, hbound⟩

/-- What is asked for in handling is a matter of the sluice and of the line of repairs. -/
theorem asksRepair_of_line {s t u : State} {code : Nat} (h : asksRepair s t code) (hslu : u.slu = t.slu) (hline : u.err.repairs = t.err.repairs) :
    asksRepair s u code := by
  simpa [asksRepair, srcHeld, hslu, hline] using h

/-- The count of a takeover, and the repair under code 12 that it asks for. -/
def takeoverAsked (s : State) : State :=
  let u := bumpIo s 0x14 0x028 16 1
  if slotsRun u && !inSafeHold u then
    startRepair (tickFree u) { code := 12, unit := 0, left := some (repairSlots s), driven := 0, word := none, recs := [] }
  else u

theorem takeoverAsked_frame (s : State) :
    (takeoverAsked s).md = s.md ∧ (takeoverAsked s).ds = s.ds ∧ (takeoverAsked s).ctl = s.ctl ∧ (takeoverAsked s).io = s.io := by
  unfold takeoverAsked
  dsimp only
  split <;> simp

theorem takeoverAsked_counts (s : State) : ioReg (takeoverAsked s) 0x14 0x028 = satAdd 16 (ioReg s 0x14 0x028) 1 := by
  have hcount := ioReg_bumpIo_same s 0x14 0x028 1 (w := 16) (by decide)
  unfold takeoverAsked
  dsimp only
  split
  · rw [← hcount]
    exact congrArg BitVec.toNat (reg_bump_other _ _ _ (show rkey 15 0x14 0x028 ≠ rkey 15 0x02 (0x080 + 4 * 12) by decide))
  · exact hcount

theorem takeoverAsked_asks (s : State) : asksRepair s (takeoverAsked s) 12 := by
  intro hrun hlive
  have hrun' : (slotsRun (bumpIo s 0x14 0x028 16 1) && !inSafeHold (bumpIo s 0x14 0x028 16 1)) = true := by
    simpa [slotsRun, inSafeHold, hlive] using hrun
  obtain ⟨rs, hline, hlen⟩ := startRepair_repairs (tickFree (bumpIo s 0x14 0x028 16 1))
    { code := 12, unit := 0, left := some (repairSlots s), driven := 0, word := none, recs := [] }
  rw [takeoverAsked, if_pos hrun']
  refine asksRepair_of (r := { code := 12, unit := 0, left := some (repairSlots s), driven := 0, word := none, recs := [] })
    (by rw [hline]; simp) (by rw [hline]; simp [hlen]) (fun n hn => ?_) hrun hlive
  obtain rfl : repairSlots s = n := Option.some.inj hn
  have := repairSlots_range s
  omega

/-- A fault that waits for its handling's end changes the records alone. -/
theorem pendFault_only (s : State) (f : FaultInfo) : pendFault s f = { s with err := (pendFault s f).err } := rfl

/-- The restart of a controller is under way once its record waits. -/
theorem restarting_pendFault (s : State) {f : FaultInfo} (h : f.cause = 0x0701 ∨ f.cause = 0x0702) : restarting (pendFault s f) = true := by
  have hrec : isRestart (recordOf s f) = true := by simpa [isRestart, recordOf] using h
  simp [restarting, pendFault, hrec]

theorem pauseServos_only (s : State) : pauseServos s = { s with time := (pauseServos s).time } := by
  unfold pauseServos
  split <;> rfl

/-- The record of a takeover, and the servos paused. -/
def takeoverPaused (s : State) : State := pauseServos (pendFault (takeoverAsked s) { cls := 3, cause := 0x0701, unit := siteLoc 15, source := 12 })

/-- A takeover of two controllers that are up. -/
theorem takeover_up {s : State} (ha : s.ctl.aFailed = false) (hb : s.ctl.bFailed = false) (hr : restarting s = false) :
    takeover s = { takeoverPaused s with
      ctl := { s.ctl with activeB := !s.ctl.activeB }
      io := { s.io with
        deferred := s.io.deferred.map (fun w => { w with tko := true })
        relayed := s.io.relayed.map (fun r => if r.accepted = true then r else { r with tko := true }) } } := by
  obtain ⟨-, -, hctl, hio⟩ := takeoverAsked_frame s
  have hpaused : (takeoverPaused s).ctl = s.ctl ∧ (takeoverPaused s).io = s.io := by simp [takeoverPaused, hctl, hio]
  rw [takeover, if_neg (by simp [ha, hb, hr]), ← hpaused.1, ← hpaused.2]
  rfl

/-- The restart that ends, of the controller that is not active. -/
theorem endFault_restart (s : State) (f : ErrRec → ErrRec) :
    restarting (endFault s isRestart f) = false ∧ (endFault s isRestart f).ctl = s.ctl ∧ (endFault s isRestart f).ds = s.ds :=
  ⟨endFault_pending_any s isRestart f, by simp, by simp⟩

theorem heartbeat_active {s : State} (h : ctlFailed s s.ctl.activeB = false) :
    heartbeat s s.ctl.activeB = { s with
      ctl := if s.ctl.activeB then { s.ctl with beatB := s.ctl.beatB + 1 } else { s.ctl with beatA := s.ctl.beatA + 1 }
      util := { s.util with beat := !s.util.beat } } := by
  cases hb : s.ctl.activeB <;> simp [heartbeat, hb, ctlFailed] at h ⊢ <;> simp [h]

/-- The controller as it comes back from a restart: the production firmware, and a first beat. -/
def comesBack (c : CtlState) (b : Bool) : CtlState :=
  if b then { c with beatB := c.beatB + 1, fwB := c.fw } else { c with beatA := c.beatA + 1, fwA := c.fw }

theorem heartbeat_restarted {s : State} (h : ctlFailed s (!s.ctl.activeB) = false) (hr : restarting s = true) :
    heartbeat s (!s.ctl.activeB) = endFault { s with ctl := comesBack s.ctl (!s.ctl.activeB) } isRestart id := by
  have hr' (c : CtlState) : restarting { s with ctl := c } = true := hr
  cases hb : s.ctl.activeB <;> simp [ctlFailed, hb] at h <;> simp [heartbeat, ctlFailed, hb, h, hr', comesBack]

/-- With neither heartbeat, both controllers have failed, and the device enters SAFE HOLD. -/
theorem safeHoldEntry_enters {s : State} (hs : s.md.safeHold = none) :
    let t := safeHoldEntry s
    t.md = { s.md with safeHold := some 0x0703 } ∧ t.ctl = { s.ctl with aFailed := true, bFailed := true } ∧ t.slu.held.contains (14, 0) = true
    ∧ t.ds = s.ds := by
  intro t
  have ht : t = fault { s with ctl := { s.ctl with aFailed := true, bFailed := true } } { cls := 5, cause := 0x0703, unit := siteLoc 15 } :=
    if_neg (by simp [inSafeHold, hs])
  obtain ⟨hmd, hheld⟩ := fault_fatal_enters (s := { s with ctl := { s.ctl with aFailed := true, bFailed := true } }) hs
    { cls := 5, cause := 0x0703, unit := siteLoc 15 } rfl
  rw [ht]
  exact ⟨hmd, by simp, hheld, by simp⟩

/-- A die controller that restarted is counted, and recorded as a fault below FATAL. -/
theorem dieControllerRestart_done {s : State} {d : Nat} (h : d < nDies s) :
    let t := dieControllerRestart s d true
    ioReg t 0x14 0x02C = satAdd 16 (ioReg s 0x14 0x02C) 1 ∧ t.ctl = s.ctl ∧ t.ds = s.ds ∧ t.md = s.md := by
  have ht : dieControllerRestart s d true = fault (bumpIo s 0x14 0x02C 16 1) { cls := 3, cause := 0x0704, unit := siteLoc d } := by
    rw [dieControllerRestart, if_neg (not_le.mpr h), if_pos rfl]
  have hcount : ioReg (fault (bumpIo s 0x14 0x02C 16 1) { cls := 3, cause := 0x0704, unit := siteLoc d }) 0x14 0x02C
      = ioReg (bumpIo s 0x14 0x02C 16 1) 0x14 0x02C :=
    congrArg BitVec.toNat (reg_fault_repairable rfl (by decide) (by decide))
  obtain ⟨hmd, -, -, -⟩ := fault_below_fatal (bumpIo s 0x14 0x02C 16 1) { cls := 3, cause := 0x0704, unit := siteLoc d } (show 3 ≠ 5 by decide)
  intro t
  rw [show t = _ from ht]
  exact ⟨hcount.trans (ioReg_bumpIo_same s _ _ _ (by decide)), by simp, by simp, by simpa using hmd⟩

/-- The first failure of a die controller's restart is remembered with its time. -/
theorem dieControllerRestart_first {s : State} {d : Nat} (h : d < nDies s) (hnone : lookup s.ctl.dieRestarts d = none) :
    dieControllerRestart s d false
      = { bumpIo s 0x14 0x02C 16 1 with ctl := { s.ctl with dieRestarts := put s.ctl.dieRestarts d [nowNs s] } } := by
  have hnow : nowNs (bumpIo s 0x14 0x02C 16 1) = nowNs s := by simp [nowNs]
  rw [dieControllerRestart, if_neg (not_le.mpr h), if_neg (by decide)]
  simp [hnow, hnone]

/-- The channels' side of a protocol engine's restart. -/
def engineRestarted (s : State) (e : Nat) : State :=
  { s with trx := { s.trx with restarts := if slotsRun s && !inSafeHold s then s.trx.restarts ++ [e] else s.trx.restarts } }

theorem engineRestart_engine {s : State} {e : Nat} (h : e < 4) :
    engineRestart s e = singleFault (engineRestarted s e) 12 { cls := 3, cause := 0x0706, unit := siteLoc 15 } := if_pos h

/-- The log's staging buffer gives up the request of code 6 below 8 MB. -/
theorem drainLog_eq (s : State) (n : Nat) :
    drainLog s n = (let u := { s with ckp := { s.ckp with log := { s.ckp.log with stagedBytes := s.ckp.log.stagedBytes - n } } }
      if s.ckp.log.stagedBytes - n < 8 * 2 ^ 20 then dropReq u 6 0 else u) := rfl

/-- Settles O53: each row by what its handler does under the row's premise. -/
theorem controllersTakeOverRestartAndFail : Obligations.ControllersTakeOverRestartAndFail := by
  unfold Obligations.ControllersTakeOverRestartAndFail
  intro s d
  refine ⟨fun ha hb hr => ?takeover, fun hf hr => ?standby, fun hf => ?beat, fun hf hr => ?back, fun hr => ?timeout, fun hs => ?hold,
    fun hd => ⟨_, rfl, dieControllerRestart_done hd⟩, fun hd hnone => ?dieFails, fun hd => ?engine, ?floor, fun hs => ?drain, fun hd hs hper => ?timer⟩
  case takeover =>
    obtain ⟨hmd, hds, -, -⟩ := takeoverAsked_frame s
    have hasks : asksRepair s (takeoverPaused s) 12 := by
      rw [takeoverPaused, pauseServos_only]
      exact asksRepair_pendFault (takeoverAsked_asks s) _
    have hrestart : restarting (takeoverPaused s) = true := by
      rw [takeoverPaused, pauseServos_only]
      exact restarting_pendFault _ (.inl rfl)
    have hcount : ioReg (takeoverPaused s) 0x14 0x028 = satAdd 16 (ioReg s 0x14 0x028) 1 := by
      rw [takeoverPaused, pauseServos_only]
      exact takeoverAsked_counts s
    refine ⟨_, congrArg Host.Outcome.next (takeover_up ha hb hr), rfl, asksRepair_of_line hasks rfl rfl, hrestart, hcount, rfl, ?_, ?_⟩
    · simp [takeoverPaused, hds]
    · simp [takeoverPaused, hmd]
  case standby =>
    have hrun : standbyRestart s = pendFault s { cls := 3, cause := 0x0702, unit := siteLoc 15 } := if_neg (by simp [hf, hr])
    exact ⟨_, congrArg Host.Outcome.next hrun, restarting_pendFault s (.inr rfl), rfl⟩
  case beat => exact ⟨_, congrArg Host.Outcome.next (heartbeat_active hf), rfl, rfl, rfl⟩
  case back =>
    obtain ⟨hend, hctl, hds⟩ := endFault_restart { s with ctl := comesBack s.ctl (!s.ctl.activeB) } id
    refine ⟨_, congrArg Host.Outcome.next (heartbeat_restarted hf hr), hend, ?_, ?_, hds⟩
    · rw [hctl]
      cases hb : s.ctl.activeB <;> simp [comesBack, hb]
    · rw [hctl]
      cases hb : s.ctl.activeB <;> simp [comesBack]
  case timeout =>
    obtain ⟨hend, hctl, hds⟩ := endFault_restart
      { s with ctl := if s.ctl.activeB then { s.ctl with aFailed := true } else { s.ctl with bFailed := true } } (fun r => { r with cls := 4 })
    refine ⟨_, congrArg Host.Outcome.next (if_pos hr), hend, ?_, ?_, hds⟩
    · rw [ctlFailed, hctl]
      cases hb : s.ctl.activeB <;> simp
    · rw [hctl]
      cases hb : s.ctl.activeB <;> simp [hb]
  case hold => exact ⟨_, rfl, safeHoldEntry_enters hs⟩
  case dieFails =>
    exact ⟨_, congrArg Host.Outcome.next (dieControllerRestart_first hd hnone), rfl, by simp, by simp, by simp⟩
  case engine =>
    have hasks : asksRepair s (singleFault (engineRestarted s d) 12 { cls := 3, cause := 0x0706, unit := siteLoc 15 }) 12 :=
      (asksRepair_congr (u := engineRestarted s d) rfl rfl rfl rfl rfl rfl 12).mp (unitFault_asks (engineRestarted s d) 12 0 _)
    refine ⟨_, congrArg Host.Outcome.next (engineRestart_engine hd), hasks, ?_, fun hrun hs => ?_, ?_, ?_⟩
    · simp [engineRestarted]
    · simp [engineRestarted, hrun, inSafeHold, hs]
    · simp [engineRestarted]
    · exact singleFault_below_fatal _ _ _ (show 3 ≠ 5 by decide)
  case floor =>
    refine ⟨burnFloor s, rfl, ?_⟩
    unfold burnFloor
    split
    next h =>
      obtain ⟨hprod, hlt⟩ : s.ctl.fw = s.ctl.prod ∧ s.sec.floor < fwEpoch s.ctl.fw := by simpa using h
      exact ⟨hlt.le, fun _ => (max_eq_right hlt.le).symm, fun hne => absurd hprod hne, rfl⟩
    next h =>
      have hle : s.ctl.fw = s.ctl.prod → fwEpoch s.ctl.fw ≤ s.sec.floor := fun hprod => not_lt.mp fun hlt => h (by simp [hprod, hprod ▸ hlt])
      exact ⟨le_rfl, fun hprod => (max_eq_left (hle hprod)).symm, fun _ => rfl, rfl⟩
  case drain =>
    refine ⟨drainLog s d, congrArg Host.Outcome.next (if_neg (by simp [inSafeHold, hs])), ?_⟩
    rw [drainLog_eq]
    dsimp only
    split
    next hlow => exact ⟨rfl, fun _ => by simp [dropReq], fun hge => absurd hlow (not_lt.mpr hge), rfl⟩
    next hfull => exact ⟨rfl, fun hlt => absurd hlt hfull, fun _ => rfl, rfl⟩
  case timer =>
    refine congrArg Host.Outcome.next ?_
    rw [tmrToggle, if_neg (by simp [inSafeHold, hs]; omega), if_neg (by simpa [utReg] using hper)]

end Sys2Proof.Machine

namespace Sys2Proof.Machine

/-! ### What the channels' close and flush leave (R343 to R345) -/

/-- The parts of the device that the end of its channels leaves alone: the images, the checkpoint store, the fuses, the design data, the mode. -/
def storesView (s : State) : ImgState × CkpState × Ident × DataState × ModeState := (s.img, s.ckp, s.ident, s.ds, s.md)

theorem storesView_eq {s t : State} :
    storesView s = storesView t ↔ s.img = t.img ∧ s.ckp = t.ckp ∧ s.ident = t.ident ∧ s.ds = t.ds ∧ s.md = t.md := by simp [storesView]

@[simp] theorem storesView_bumpIo (s : State) (b o w d : Nat) : storesView (bumpIo s b o w d) = storesView s := by simp [storesView]
@[simp] theorem storesView_holdReq (s : State) (c u : Nat) : storesView (holdReq s c u) = storesView s := by simp [storesView]
@[simp] theorem storesView_dropReq (s : State) (c u : Nat) : storesView (dropReq s c u) = storesView s := rfl
@[simp] theorem storesView_setChan (s : State) (c : Nat) (ch : Chan) : storesView (setChan s c ch) = storesView s := rfl
@[simp] theorem storesView_setTrx (s : State) (t : TrxState) : storesView { s with trx := t } = storesView s := rfl
@[simp] theorem storesView_completeFirst (s : State) (p : Waiting → Bool) (st : Nat) (ws : List Word) :
    storesView (completeFirst s p st ws) = storesView s := by simp [storesView]

@[simp] theorem storesView_storeTrc (s : State) (u n : Nat) (o : Nat × Nat) (r : List Word) : storesView (storeTrc s u n o r) = storesView s := by
  unfold storeTrc bufRecord
  dsimp only
  split <;> simp [storesView]

@[simp] theorem storesView_syncDue (s : State) (u : Nat) : storesView (syncDue s u) = storesView s := by
  unfold syncDue
  split
  · exact (storesView_storeTrc _ _ _ _ _).trans rfl
  · rfl

@[simp] theorem storesView_decision (s : State) (k c : Nat) (q : Word) (d : Nat) : storesView (decision s k c q d) = storesView s := by
  unfold decision; split <;> simp

@[simp] theorem storesView_backPressure (s : State) (c : Nat) : storesView (backPressure s c) = storesView s := by
  unfold backPressure
  dsimp only
  repeat' split
  all_goals simp

@[simp] theorem storesView_flushPoint (s : State) (c : Nat) : storesView (flushPoint s c) = storesView s := by
  unfold flushPoint; split <;> simp

@[simp] theorem storesView_inNote (ch : Chan) (s : State) (c : Nat) : storesView (inNote ch s c) = storesView s := by
  unfold inNote
  repeat' split
  all_goals simp

@[simp] theorem storesView_closeChan (s : State) (c : Nat) (ch : Chan) : storesView (closeChan s c ch) = storesView s := by
  unfold closeChan
  dsimp only
  repeat' split
  all_goals simp only [storesView_inNote, storesView_setChan, storesView_setTrx, storesView_decision, storesView_flushPoint]

@[simp] theorem storesView_closeAll (s : State) : storesView (closeAll s) = storesView s := by
  refine foldl_keeps storesView _ (fun s e => ?_) _ s
  split <;> simp

@[simp] theorem storesView_flushDone (s : State) (c : Nat) : storesView (flushDone s c) = storesView s := by
  unfold flushDone
  dsimp only
  repeat' split
  all_goals simp

@[simp] theorem storesView_flushAll (s : State) : storesView (flushAll s) = storesView s :=
  foldl_keeps storesView _ (fun s _ => foldl_keeps storesView _ (fun s _ => storesView_flushDone s _) _ s) _ s

@[simp] theorem storesView_discardChannels (s : State) : storesView (discardChannels s) = storesView s := by
  have hdrop (l : List Nat) (u : State) : storesView (l.foldl (fun s c => dropReq s 6 (c + 1)) u) = storesView u :=
    foldl_keeps storesView _ (fun _ _ => storesView_dropReq _ _ _) l u
  exact (hdrop _ _).trans (by simp)

/-! ### The unload and the reset of an image (R39, R184, R259) -/

/-- Capture goes back to IDLE, and nothing else of the device's stores changes. -/
theorem captureIdle_spec (s : State) :
    (captureIdle s).cap.mode = .idle ∧ storesView (captureIdle s) = storesView s ∧ (captureIdle s).trx = s.trx ∧ (captureIdle s).md = s.md := by
  have hset (u : State) : (setCapMode u .idle).cap.mode = .idle ∧ storesView (setCapMode u .idle) = storesView u ∧ (setCapMode u .idle).trx = u.trx
      ∧ (setCapMode u .idle).md = u.md := by
    refine ⟨by simp, ?_, ?_, by simp⟩ <;> unfold setCapMode <;> split <;> simp [storesView]
  exact hset _

/-- The design is gone: no image, channel or capture, at DCN 0. -/
def unloaded (s : State) : State :=
  let u := captureIdle (discardChannels s)
  { u with
    img := { u.img with resident := none, free := u.img.area }
    chn := u.chn.map (fun e => (e.1, { e.2 with m := { e.2.m with en := false, running := false }, pend := none }))
    seq := { u.seq with dcn := 0, tick := .idle, marked := [] }
    haz := { u.haz with noAnnot := false }
    md := { u.md with stops := [] } }

theorem imageUnload_eq (s : State) : imageUnload s = modeEvent (setMode (unloaded s) .standby .free false) 0 := rfl

/-- An unload ends in STANDBY with no image, capture IDLE, no channel and DCN 0; the checkpoint and the fuses stay. -/
theorem imageUnload_spec (s : State) :
    let t := imageUnload s
    t.md.mode = .standby ∧ t.md.safeHold = s.md.safeHold ∧ t.img.resident = none ∧ t.cap.mode = .idle ∧ t.trx.chans = [] ∧ t.seq.dcn = 0
    ∧ t.ckp = s.ckp ∧ t.ident = s.ident := by
  obtain ⟨hmode, hview, htrx, -⟩ := captureIdle_spec (discardChannels s)
  obtain ⟨-, hckp, hident, -, hmd⟩ := storesView_eq.mp (hview.trans (storesView_discardChannels s))
  have hlive : (captureIdle (discardChannels s)).md.safeHold = s.md.safeHold := congrArg ModeState.safeHold hmd
  obtain ⟨hrun, hheld⟩ := setMode_run (unloaded s) .standby .free false
  have hend (v : State) : let t := modeEvent (setMode v .standby .free false) 0
      t.md = (setMode v .standby .free false).md ∧ t.img = v.img ∧ t.cap = v.cap ∧ t.trx = v.trx ∧ t.seq = v.seq ∧ t.ckp = v.ckp ∧ t.ident = v.ident := by
    simp
  obtain ⟨hemd, himg, hcap, hetrx, hseq, heckp, heident⟩ := hend (unloaded s)
  rw [imageUnload_eq]
  dsimp only
  rw [hemd, himg, hcap, hetrx, hseq, heckp, heident]
  exact ⟨hrun, hheld.trans hlive, rfl, hmode, congrArg TrxState.chans htrx, rfl, hckp, hident⟩

/-- The design that begins without the store of checkpoints has no checkpoint. -/
theorem beginImage_last (s : State) (i : Image) (keepRegions : Bool) : (beginImage s i false keepRegions).ckp.last = none := by
  have hcap (u : State) : (initialCapture u i false).ckp = u.ckp := (storesView_eq.mp (captureIdle_spec u).2.1).2.1
  have hsent (u : State) (m : FwMsg) (h : u.ckp.last = none) : (if u.peers.isEmpty then u else sendFw u m).ckp.last = none := by
    split
    · exact h
    · exact h
  exact hsent _ _ (congrArg CkpState.last (hcap _))

theorem hasRegions_resident {s : State} {i : Image} (h : s.img.resident = some i) : hasRegions s = !i.regions.isEmpty := by simp [hasRegions, h]

/-- A reset of the resident image: DCN 0, the initial rows and tiles, no checkpoint; its regions are still to be written. -/
theorem imageReset_spec {s : State} {i : Image} (h : s.img.resident = some i) :
    let t := imageReset s
    t.seq.dcn = 0 ∧ t.ds.rows = wrAll [] i.rows ∧ t.ds.tiles = wrAll [] i.tiles ∧ t.ckp.last = none
    ∧ t.md = { s.md with stops := [] } ∧ t.img = { s.img with resetting := !i.regions.isEmpty }
    ∧ (i.regions.isEmpty = false → t.ds.regions = s.ds.regions) := by
  have hview : storesView (flushAll (closeAll s)) = storesView s := by simp
  obtain ⟨himg, -, -, hds, hmd⟩ := storesView_eq.mp hview
  have hhas (u : State) (hu : u.img = s.img) : hasRegions u = !i.regions.isEmpty := hasRegions_resident (by rw [hu, h])
  obtain ⟨hbmd, hdcn, hbds, hbimg⟩ := beginImage_begins (flushAll (closeAll s)) i false (!i.regions.isEmpty)
  have ht : imageReset s = (let b := beginImage (flushAll (closeAll s)) i false (!i.regions.isEmpty)
      { b with img := { b.img with resetting := !i.regions.isEmpty } }) := by
    simp only [imageReset, h, hhas _ himg, hhas _ (hbimg.trans himg)]
  intro t
  rw [show t = _ from ht]
  refine ⟨hdcn, ?_, ?_, beginImage_last _ _ _, by rw [← hmd]; exact hbmd, ?_, fun hreg => ?_⟩
  · exact congrArg DataState.rows hbds
  · exact congrArg DataState.tiles hbds
  · dsimp only
    rw [hbimg, himg]
  · refine (congrArg DataState.regions hbds).trans ?_
    simp [initialData, hreg, hds]

/-- An accepted command that is answered at once leaves what its action leaves, but for the registers and the host side. -/
theorem hostCmd_ok_eq {op : Nat} {chk : State → Cmd → Nat} {act : State → Cmd → State × Res} {c : Cmd} {s e : State} {ws : List Word}
    (h : accepts s op chk c = true) (ha : act (takeEntry s c) c = (e, .ok ws)) (hs : e.md.safeHold = none) :
    hostCmd op chk act c s = writeReply e (mkReply e op c 0 0 ws) := by
  rw [hostCmd_accepts h, ha]
  exact answer_pcie (accepts_pcie h) hs

/-- An accepted command that is to complete later waits, with what its action leaves. -/
theorem hostCmd_accept_eq {op : Nat} {chk : State → Cmd → Nat} {act : State → Cmd → State × Res} {c : Cmd} {s e : State}
    (h : accepts s op chk c = true) (hroom : s.io.waiting.length < 64) (ha : act (takeEntry s c) c = (e, .accept)) (hs : e.md.safeHold = none) :
    hostCmd op chk act c s = writeReply (nowWaiting e op c) (mkReply (nowWaiting e op c) op c 1 0 []) := by
  have hn : ¬ 64 ≤ (takeEntry s c).io.waiting.length := by simpa using hroom
  rw [hostCmd_accepts h, ha]
  simp only [settle, hn, if_false]
  exact answer_pcie (s := nowWaiting e op c) (accepts_pcie h) hs

theorem waitingOf_mem_writeReply (e : State) (op : Nat) (c : Cmd) (r : Reply) : waitingOf op c ∈ (writeReply (nowWaiting e op c) r).io.waiting := by
  simp [nowWaiting]

/-- IMAGE_UNLOAD with no other work of images. -/
theorem hostCmd_imageUnload {s : State} {c : Cmd} (h : accepts s 0x0103 noCheck c = true) (hload : s.img.loading = none)
    (hreset : s.img.resetting = false) :
    let t := hostCmd 0x0103 noCheck actImageUnload c s
    t.md.mode = .standby ∧ t.img.resident = none ∧ t.cap.mode = .idle ∧ t.trx.chans = [] ∧ t.seq.dcn = 0 ∧ t.ckp.last = s.ckp.last ∧ t.ident = s.ident := by
  have hact : actImageUnload (takeEntry s c) c = (imageUnload (takeEntry s c), .ok []) := by simp [actImageUnload, imageBusy, hload, hreset]
  obtain ⟨hmode, hheld, hres, hcap, hchans, hdcn, hckp, hident⟩ := imageUnload_spec (takeEntry s c)
  have hrun := hostCmd_ok_eq h hact (by rw [hheld]; simpa using (accepts_live h).1)
  generalize hostCmd 0x0103 noCheck actImageUnload c s = t at hrun
  subst hrun
  simp [hmode, hres, hcap, hchans, hdcn, hckp, hident]

/-- IMAGE_RESET of a resident image with no other work of images. -/
theorem hostCmd_imageReset {s : State} {c : Cmd} {i : Image} (h : accepts s 0x0104 noCheck c = true) (hload : s.img.loading = none)
    (hreset : s.img.resetting = false) (hi : s.img.resident = some i) (hroom : s.io.waiting.length < 64) :
    let t := hostCmd 0x0104 noCheck actImageReset c s
    t.seq.dcn = 0 ∧ t.ds.rows = wrAll [] i.rows ∧ t.ds.tiles = wrAll [] i.tiles ∧ t.ckp.last = none ∧ t.md.mode = s.md.mode
    ∧ t.img = { s.img with resetting := !i.regions.isEmpty }
    ∧ (i.regions.isEmpty = false → t.ds.regions = s.ds.regions ∧ waitingOf 0x0104 c ∈ t.io.waiting) := by
  have hi' : (takeEntry s c).img.resident = some i := by simpa using hi
  have hact : actImageReset (takeEntry s c) c = (imageReset (takeEntry s c), if !i.regions.isEmpty then .accept else .ok []) := by
    simp [actImageReset, imageBusy, hload, hreset, hasRegions_resident hi']
  obtain ⟨hdcn, hrows, htiles, hlast, hmd, himg, hregions⟩ := imageReset_spec hi'
  have hlive : (imageReset (takeEntry s c)).md.safeHold = none := by rw [hmd]; simpa using (accepts_live h).1
  have hmode : (imageReset (takeEntry s c)).md.mode = s.md.mode := by rw [hmd]; simp
  have himg' : (imageReset (takeEntry s c)).img = { s.img with resetting := !i.regions.isEmpty } := by rw [himg]; simp
  by_cases hreg : i.regions.isEmpty = true
  · have hrun := hostCmd_ok_eq h (by simpa [hreg] using hact) hlive
    generalize hostCmd 0x0104 noCheck actImageReset c s = t at hrun
    subst hrun
    simp [hdcn, hrows, htiles, hlast, hmode, himg', hreg]
  · have hrun := hostCmd_accept_eq h hroom (by simpa [hreg] using hact) hlive
    have hwait := waitingOf_mem_writeReply (imageReset (takeEntry s c)) 0x0104 c (mkReply (nowWaiting (imageReset (takeEntry s c)) 0x0104 c) 0x0104 c 1 0 [])
    rw [← hrun] at hwait
    refine ⟨?_, ?_, ?_, ?_, ?_, ?_, fun hne => ⟨?_, hwait⟩⟩ <;> rw [hrun]
    · simpa [nowWaiting] using hdcn
    · simpa [nowWaiting] using hrows
    · simpa [nowWaiting] using htiles
    · simpa [nowWaiting] using hlast
    · simpa [nowWaiting] using hmode
    · simpa [nowWaiting] using himg'
    · simpa [nowWaiting] using hregions hne

/-- The end of an image reset: the regions hold their initial contents, and the command that waits for it completes. -/
theorem imageResetDone_spec {s : State} {i : Image} (hi : s.img.resident = some i) (hreset : s.img.resetting = true) :
    let t := imageResetDone s
    t.ds.regions = (initialData s i false).regions ∧ t.ds.poison = [] ∧ t.img = { s.img with resetting := false }
    ∧ t.io.waiting.all (fun w => w.opcode != 0x0104) = true ∧ t.md = s.md ∧ t.seq = s.seq ∧ t.ds.rows = s.ds.rows := by
  have ht : imageResetDone s = completeAll { s with
      ds := { s.ds with regions := (initialData s i false).regions, poison := (initialData s i false).poison }
      img := { s.img with resetting := false } } 0x0104 0 [] := by
    simp only [imageResetDone, hi, hreset, if_true]
  intro t
  rw [show t = _ from ht]
  exact ⟨by simp, by simp [initialData], by simp, completeAll_waiting _ _ _ _, by simp, by simp, by simp⟩

end Sys2Proof.Machine

namespace Sys2Proof.Machine

/-! ### The reset of a compute die (R310, R406, R465) -/

/-- A recovery that the board needs where none is in progress leaves the board links, and begins at once when the board does not step. -/
theorem needRecovery_begins {s : State} (h : s.ckp.recovery = none) (f : FaultInfo) :
    (needRecovery s f).bl = s.bl
    ∧ (stepping s = false → ∃ r, (needRecovery s f).ckp.recovery = some r ∧ r.f = s.seq.dcn ∧ r.stepping = false) := by
  have hasked : ∃ u : State, u = holdReq (pendFault s { f with cls := 3, source := 13 }) 13 0 ∧ u.bl = s.bl ∧ u.ckp = s.ckp ∧ u.seq = s.seq
      ∧ u.md = s.md := ⟨_, rfl, by simp, by simp, by simp, by simp⟩
  obtain ⟨u, hu, hbl, hckp, hseq, hmd⟩ := hasked
  have hstep : stepping u = stepping s := by simp [stepping, recoverySteps, modeSteps, hckp, hseq, hmd]
  have hrun : needRecovery s f = if stepping s then u else sendFw (joinRecovery u) (.orderRecovery u.seq.dcn) := by
    simp only [needRecovery, beginRecovery, h, ← hu, hstep, hckp, Option.isSome_none, Bool.false_eq_true, if_false]
  rw [hrun]
  refine ⟨?_, fun hno => ?_⟩
  · split
    · exact hbl
    · exact hbl
  · rw [hno, if_neg (by decide)]
    exact ⟨_, rfl, congrArg SeqState.dcn hseq, rfl⟩

/-- The losses of a die reset, beside those of its registers, links and modules: its fabric regions; the image and the sequencer stay. -/
theorem resetDie_leaves (s : State) (d : Nat) :
    let u := resetDie s d
    u.bl = (dropLinks s d).bl ∧ u.fab.regions = s.fab.regions.filter (fun e => !(e.1 < 32 && e.1 / 4 == d)) ∧ u.img = s.img ∧ u.seq = s.seq := by
  have hsram (v : State) : (loseSram v d).bl = v.bl ∧ (loseSram v d).fab = v.fab ∧ (loseSram v d).img = v.img ∧ (loseSram v d).seq = v.seq := by
    unfold loseSram
    split <;> exact ⟨rfl, rfl, rfl, rfl⟩
  simp [resetDie, hsram, buildRoutes, dropEngine, dropFabric, dropLinks]

theorem lookup_filter_out {α : Type} {p : Nat → Bool} {k : Nat} (hk : p k = false) (m : List (Nat × α)) :
    lookup (m.filter (fun e => p e.1)) k = none := by
  induction m with
  | nil => rfl
  | cons e m ih =>
    rw [List.filter_cons]
    split
    next hp =>
      have hne : e.1 ≠ k := fun h => by simp [h, hk] at hp
      simpa [lookup, hne] using ih
    next => exact ih

/-- The rest of what the loss of a die does outside a recovery: its link trains, its regions are UNCONFIGURED, the recovery begins. -/
theorem loseDie_leaves {s : State} (hr : s.ckp.recovery = none) (d cause : Nat) :
    let t := loseDie s d cause
    (∀ b, linkOf s d = some b → linkOf t d = some { State.resetLink with st := 2 })
    ∧ (∀ r, r < 32 → r / 4 = d → lookup t.fab.regions r = none)
    ∧ (stepping s = false → ∃ r, t.ckp.recovery = some r ∧ r.f = s.seq.dcn ∧ r.stepping = false)
    ∧ t.img = s.img ∧ t.seq = s.seq := by
  obtain ⟨hmd, -, hckp, -⟩ := resetDie_frame s d
  obtain ⟨hbl, hfab, himg, hseq⟩ := resetDie_leaves s d
  obtain ⟨hlinks, hbegins⟩ := needRecovery_begins (s := resetDie s d) (by rw [hckp, hr]) { cls := 3, cause := cause, unit := siteLoc d }
  have hstep : stepping (resetDie s d) = stepping s := by simp [stepping, recoverySteps, modeSteps, hckp, hseq, hmd]
  rw [show loseDie s d cause = needRecovery (resetDie s d) { cls := 3, cause := cause, unit := siteLoc d } from rfl]
  refine ⟨fun b hb => ?_, fun r hlt hdie => ?_, fun hno => ?_, by simp [himg], by simp [hseq]⟩
  · rw [linkOf, hlinks, hbl]
    refine (lookup_map_value (fun k v => if k == d then { State.resetLink with st := 2 } else v) s.bl d).trans ?_
    rw [linkOf] at hb
    simp [hb]
  · have hregions : (needRecovery (resetDie s d) { cls := 3, cause := cause, unit := siteLoc d }).fab = (resetDie s d).fab := by simp
    rw [hregions, hfab]
    exact lookup_filter_out (p := fun x => !(x < 32 && x / 4 == d)) (by simp [hlt, hdie]) _
  · obtain ⟨q, hq, hf, hs⟩ := hbegins (hstep.trans hno)
    exact ⟨q, hq, by rw [hf, hseq], hs⟩

/-- An accepted RESET of a die names a die of the device. -/
theorem accepts_resetDie {s : State} {c : Cmd} (h : accepts s 0x0006 chkReset c = true) (hp : cPar c 0 = 1) : cSite c < 8 := by
  simp only [accepts, Bool.and_eq_true, beq_iff_eq] at h
  obtain ⟨⟨-, hst⟩, -⟩ := h
  rw [statusOf, show opSpec 0x0006 = some { pmin := 1, pmax := 1, modes := mSLRPV } from rfl, firstBad_eq_zero] at hst
  have htarget := hst _ (List.mem_cons_of_mem _ (List.mem_cons_of_mem _ List.mem_cons_self))
  have hdies : nDies (takeEntry s c) ≤ 8 := by unfold nDies; split <;> omega
  simp only [targetStatus, hp, beq_self_eq_true, Bool.and_true, Bool.or_true, if_true] at htarget
  repeat' split at htarget
  all_goals omega

/-- Writing a reply changes no register of a site. -/
theorem reg_writeReply_site (s : State) (r : Reply) {k : Nat} (hk : k < 2 ^ 32) : reg (writeReply s r) k = reg s k := by
  have hne (o : Nat) : k ≠ bkey o := by unfold bkey; omega
  simp only [writeReply, signal, finishDisable]
  split <;> split <;> simp [writeBack, reg, setReg, cget_cset, hne]

/-- RESET of a die outside a recovery: the die as its loss leaves it, and the command waits. -/
theorem hostCmd_resetDie {s : State} {c : Cmd} (h : accepts s 0x0006 chkReset c = true) (hp : cPar c 0 = 1) (hroom : s.io.waiting.length < 64)
    (hr : s.ckp.recovery = none) :
    let t := hostCmd 0x0006 chkReset actReset c s
    cSite c ∈ t.net.spill ∧ (13, 0) ∈ t.slu.held
    ∧ (stepping s = false → ∃ r, t.ckp.recovery = some r ∧ r.f = s.seq.dcn ∧ r.stepping = false)
    ∧ (∀ e ∈ t.ucie, e.1 ∈ dieModules s (cSite c) → e.2.st = 2)
    ∧ (∀ b, linkOf s (cSite c) = some b → linkOf t (cSite c) = some { State.resetLink with st := 2 })
    ∧ (∀ k, dieRegister (cSite c) k = true → reg t k = regReset k)
    ∧ (∀ r, r < 32 → r / 4 = cSite c → lookup t.fab.regions r = none)
    ∧ (∃ w ∈ t.io.waiting, w.opcode = 0x0006 ∧ w.tag = c.tag) ∧ t.ds = s.ds ∧ t.md = s.md ∧ t.img = s.img ∧ t.seq = s.seq := by
  have hru : (takeEntry s c).ckp.recovery = none := by simpa using hr
  have hact : actReset (takeEntry s c) c = (loseDie (takeEntry s c) (cSite c) 0x0801, .accept) := by simp [actReset, hp]
  obtain ⟨-, hspill, hucie, hregs, hheld, hds, hmd⟩ := loseDie_frame hru (accepts_resetDie h hp) 0x0801
  obtain ⟨hlink, hregions, hbegins, himg, hseq⟩ := loseDie_leaves hru (cSite c) 0x0801
  have hrun := hostCmd_accept_eq h hroom hact (by rw [hmd]; simpa using (accepts_live h).1)
  have hmodules : dieModules (takeEntry s c) (cSite c) = dieModules s (cSite c) := by simp [dieModules]
  generalize loseDie (takeEntry s c) (cSite c) 0x0801 = e at *
  generalize mkReply (nowWaiting e 0x0006 c) 0x0006 c 1 0 [] = r at hrun
  generalize hostCmd 0x0006 chkReset actReset c s = t at hrun
  have hframe : t.net = e.net ∧ t.slu = e.slu ∧ t.ckp = e.ckp ∧ t.ucie = e.ucie ∧ t.bl = e.bl ∧ t.fab = e.fab ∧ t.ds = e.ds ∧ t.md = e.md ∧ t.img = e.img
      ∧ t.seq = e.seq := by
    subst hrun
    simp [nowWaiting]
  have hwait : waitingOf 0x0006 c ∈ t.io.waiting := hrun ▸ waitingOf_mem_writeReply e 0x0006 c r
  have hreg (k : Nat) (hk : k < 2 ^ 32) : reg t k = reg e k := by
    rw [hrun, reg_writeReply_site _ _ hk]
    rfl
  obtain ⟨htnet, htslu, htckp, htucie, htbl, htfab, htds, htmd, htimg, htseq⟩ := hframe
  refine ⟨?_, ?_, fun hno => ?_, fun x hx hin => ?_, fun b hb => ?_, fun k hk => ?_, fun r hlt hdie => ?_, ⟨_, hwait, rfl, rfl⟩, ?_, ?_, ?_, ?_⟩
  · rw [htnet, hspill]
    exact (mem_ins _ _ _).mpr (.inl rfl)
  · rw [htslu]
    exact List.contains_iff_mem.mp hheld
  · rw [htckp]
    simpa using hbegins (by rw [stepping_takeEntry, hno])
  · rw [htucie] at hx
    exact hucie x hx (List.contains_iff_mem.mpr (by rwa [hmodules]))
  · rw [linkOf, htbl]
    exact hlink b (by simpa [linkOf] using hb)
  · obtain ⟨⟨hlt, -⟩, -⟩ : (k < 2 ^ 32 ∧ k / 2 ^ 28 = cSite c) ∧ fld k 27 20 ≠ 6 := by simpa [dieRegister] using hk
    rw [hreg k hlt]
    exact hregs k hk
  · rw [htfab]
    exact hregions r hlt hdie
  · simpa [htds] using hds
  · simpa [htmd] using hmd
  · simpa [htimg] using himg
  · simpa [htseq] using hseq

/-! ### POWER_CAP (R202, R203) -/

theorem powerFits_takeEntry {s : State} {c : Cmd} (h : c.path = .pcie) (quota cap : Nat) :
    powerFits (takeEntry s c) quota cap = powerFits s quota cap := by
  rw [takeEntry_pcie h]
  rfl

/-- A cap that no resident image bars is set. -/
theorem actPowerCap_sets {s : State} {c : Cmd} (hp : cPar c 0 ≠ 0)
    (hfits : ∀ i, s.img.resident = some i → bitOf i.hdr.flags.toNat 0 = true ∨ powerFits s i.hdr.actQuota (cPar c 0) = true) :
    actPowerCap s c = ({ s with pwr := { s.pwr with cap := cPar c 0 } }, .ok [BitVec.ofNat 32 (cPar c 0)]) := by
  cases hres : s.img.resident with
  | none => simp [actPowerCap, hp, hres]
  | some i =>
    rcases hfits i hres with hflag | hpower
    · simp [actPowerCap, hp, hres, hflag]
    · simp [actPowerCap, hp, hres, hpower]

/-- Settles O10: RESET of the device and of a die, POWER_CAP as a query and as a setting, then the unload, the reset of an image, its end. -/
theorem resetAndUnloadCommands : Obligations.ResetAndUnloadCommands := by
  unfold Obligations.ResetAndUnloadCommands
  refine ⟨fun s c => ⟨fun h hp => ?warm, fun h hp hroom hr => ⟨_, rfl, hostCmd_resetDie h hp hroom hr⟩, fun h hp => ?query, fun h hp hfits => ?cap⟩,
    fun s c => ⟨fun h hload hreset => ⟨_, rfl, hostCmd_imageUnload h hload hreset⟩,
      fun i h hload hreset hi hroom => ⟨_, rfl, hostCmd_imageReset h hload hreset hi hroom⟩, fun i hs hi hreset => ?resetEnds⟩⟩
  case warm => exact ⟨_, rfl, hostCmd_replies h (by simp [actReset, hp]) (by simp) (by simp)⟩
  case query =>
    have hact : actPowerCap (takeEntry s c) c = (takeEntry s c, .ok [BitVec.ofNat 32 s.pwr.cap]) := by simp [actPowerCap, hp]
    exact ⟨_, rfl, hostCmd_replies h hact (by simp) (by simp)⟩
  case cap =>
    have hfits' : ∀ i, (takeEntry s c).img.resident = some i → bitOf i.hdr.flags.toNat 0 = true ∨ powerFits (takeEntry s c) i.hdr.actQuota (cPar c 0) = true := by
      intro i hi
      rw [powerFits_takeEntry (accepts_pcie h)]
      exact hfits i (by simpa using hi)
    exact ⟨_, rfl, hostCmd_replies h (actPowerCap_sets hp hfits') (by simp) (by simp)⟩
  case resetEnds => exact ⟨_, congrArg Host.Outcome.next (if_neg (by simp [inSafeHold, hs])), imageResetDone_spec hi hreset⟩

end Sys2Proof.Machine

namespace Sys2Proof.Machine

/-! ### The reset state, and time that passes on an empty queue (R12, R98, R406; log 3) -/

/-- Settles O60: each value stands in the literal of the reset state; no entry of the register file means the reset value. -/
theorem coldResetLeavesTheseValues : Obligations.ColdResetLeavesTheseValues := by
  unfold Obligations.ColdResetLeavesTheseValues
  refine ⟨rfl, fun _ => ⟨rfl, rfl⟩, rfl, rfl, rfl, rfl, rfl, rfl, rfl, rfl, rfl, ?rings, rfl, rfl, rfl, rfl, rfl, rfl, rfl, rfl, rfl, fun _ => rfl,
    rfl, rfl, ?banks, rfl, fun _ => rfl, rfl, rfl⟩
  case rings => decide
  case banks =>
    intro b hb
    rw [List.eq_of_mem_replicate hb]
    exact ⟨rfl, rfl, rfl⟩

theorem fabricSpan_pending (s : State) (a b : Nat) (live : Bool) : (fabricSpan s a b live).pending = s.pending := by
  refine foldl_keeps (·.pending) _ (fun u j => ?_) _ s
  unfold fabricEvent
  dsimp only
  split <;> split <;> rfl

theorem bankEdge_pending (s : State) : (bankEdge s).pending = s.pending := by
  refine foldl_keeps (·.pending) _ (fun u n => ?_) _ s
  have hread (v : State) : (bankReadEnd v n).pending = v.pending := by
    unfold bankReadEnd
    dsimp only
    repeat' split
    all_goals simp
  have hwrite (v : State) (b : Bank) : (bankWriteEnd v n b).pending = v.pending := by
    unfold bankWriteEnd
    dsimp only
    repeat' split
    all_goals simp
  unfold bankCycle
  repeat' split
  · rfl
  · rfl
  · rw [hread, hwrite]

theorem ctrlEdge_pending (s : State) : (ctrlEdge s).pending = s.pending := by
  have htrain (u : State) : (beginTraining u).pending = u.pending := by
    unfold beginTraining
    split <;> rfl
  have hedge (u : State) : (utilEdge (bankEdge (beginTraining u))).pending = u.pending := (bankEdge_pending _).trans (htrain u)
  have hload : (loadBoardTime s).pending = s.pending := by
    unfold loadBoardTime
    repeat' split
    all_goals simp
  have hdeadline (u : State) : (checkDeadline u).pending = u.pending := by
    unfold checkDeadline startUpFailure
    repeat' split
    all_goals simp
  unfold ctrlEdge
  dsimp only
  rw [hedge, ← hload]
  split
  · exact hdeadline _
  · rfl

/-- The CTRL edge of an empty queue moves the device's clocks on; the queue, the mode, the design data, the checkpoints and the capture stand. -/
theorem idleEdge_leaves (s : State) :
    (idleEdge s).pending = s.pending ∧ (idleEdge s).md = s.md ∧ (idleEdge s).ds = s.ds ∧ (idleEdge s).ckp = s.ckp ∧ (idleEdge s).cap = s.cap := by
  have hpend : (ctrlEdge (fabricSpan (linksSpan s 80) 0 80 false)).pending = s.pending :=
    (ctrlEdge_pending _).trans ((fabricSpan_pending _ _ _ _).trans (by simp))
  have hstand : standView (ctrlEdge (fabricSpan (linksSpan s 80) 0 80 false)) = standView s :=
    (standView_ctrlEdge _).trans ((standView_fabricSpan _ _ _ _).trans (by simp [standView]))
  have htick : tickView (ctrlEdge (fabricSpan (linksSpan s 80) 0 80 false)) = tickView s :=
    (tickView_ctrlEdge _).trans ((tickView_fabricSpan _ _ _ _).trans (by simp [tickView]))
  unfold idleEdge
  dsimp only
  generalize ctrlEdge (fabricSpan (linksSpan s 80) 0 80 false) = v at *
  simp only [standView, Prod.mk.injEq] at hstand
  obtain ⟨hmd, -, hcap, -, hckp, -⟩ := hstand
  obtain ⟨hds, -, -⟩ := tickView_eq.mp htick
  split <;> exact ⟨hpend, hmd, hds, hckp, hcap⟩

/-- Settles O1: with a command waiting by what `step` is; with none by what the CTRL edge leaves. -/
theorem stepTakesTheFrontOrIdles : Obligations.StepTakesTheFrontOrIdles := by
  unfold Obligations.StepTakesTheFrontOrIdles
  refine ⟨fun c cs s h => by simp [step, h], fun s h => ⟨fun hs => by simp [step, h, idleStep, hs], fun hs => ?_⟩⟩
  obtain ⟨hpend, hrest⟩ := idleEdge_leaves s
  exact ⟨idleEdge s, by simp [step, h, idleStep, hs], hpend.trans h, hrest⟩

end Sys2Proof.Machine

namespace Sys2Proof.Machine

/-! ### The commands of device time (R555 to R557, R564, R569) -/

/-- A bit that is set in an I/O-die register reads set. -/
theorem bitOf_orIo (s : State) (b o bits : Nat) {i : Nat} (hi : i < 32) (h : bitOf bits i = true) : bitOf (ioReg (orIo s b o bits) b o) i = true := by
  have hbit : bits.testBit i = true := h
  rw [orIo, ioReg_setIo_same, bitOf, Nat.testBit_mod_two_pow, Nat.testBit_or, hbit]
  simp [hi]

theorem stamp_takeEntry (s : State) (c : Cmd) : stamp (takeEntry s c) = stamp s := by simp [stamp]

/-- A domain that waits for its first lock under the time that the host has set. -/
def unlockedDom (again : Bool) (d : TimeDom) : TimeDom := { d with locked := false, run := 0, mayStep := d.mayStep || again }

/-- The device time as TIME_SET leaves it (R569). -/
def timeSetTo (s : State) (c : Cmd) : TimeState :=
  let again := timeSrc s == 1 || timeSrc s == 3
  { s.time with
    sec := timePar c / 2 ^ 48, ns := fld (timePar c) 47 16, frac := timePar c % 2 ^ 16, unset := false, locked := false
    a := unlockedDom again s.time.a, b := unlockedDom again s.time.b }

/-- A device that does not follow the lead's time sets its time. -/
theorem actTimeSet_sets {s : State} {c : Cmd} (h : ¬(fld (ioReg s 0x15 0x000) 1 0 = 2 ∧ isLead s = false)) :
    actTimeSet s c = (orIo { s with time := timeSetTo s c } 0x15 0x004 256, .ok []) := by
  unfold actTimeSet
  rw [if_neg (by simpa using h)]
  rfl

/-- A follower of the lead's time refuses. -/
theorem actTimeSet_follower {s : State} {c : Cmd} (hsrc : fld (ioReg s 0x15 0x000) 1 0 = 2) (hlead : isLead s = false) :
    actTimeSet s c = (s, .refuse 0x0202) := by
  unfold actTimeSet
  rw [if_pos (by simp [hsrc, hlead])]

/-- Settles O34: each command by what its action is on an accepted packet. -/
theorem timeCommandsSetAndReadTheTime : Obligations.TimeCommandsSetAndReadTheTime := by
  unfold Obligations.TimeCommandsSetAndReadTheTime
  refine fun s c => ⟨fun h => ?get, fun h hfree => ?set, fun h hsrc hlead => ?refused, fun h => ?ptp, fun h => ?pps⟩
  all_goals
    have hpath := accepts_pcie h
    have hctrl : ioReg (takeEntry s c) 0x15 0x000 = ioReg s 0x15 0x000 := ioReg_takeEntry hpath (by decide) (by decide) (by decide)
    have hpos : isLead (takeEntry s c) = isLead s := by simp [isLead]
  case get =>
    have hact : actTimeGet (takeEntry s c) c = (takeEntry s c, .ok (words96 (stamp s) ++ dwords s.seq.dcn)) := by simp [actTimeGet, stamp_takeEntry]
    exact ⟨_, rfl, hostCmd_replies h hact (by simp) (by simp)⟩
  case set =>
    have hact := actTimeSet_sets (s := takeEntry s c) (c := c) (by rwa [hctrl, hpos])
    have hbit := bitOf_orIo { takeEntry s c with time := timeSetTo (takeEntry s c) c } 0x15 0x004 256 (i := 8) (by decide) (by decide)
    refine ⟨_, congrArg Host.Outcome.next (hostCmd_ok_eq h hact (by simpa [orIo] using (accepts_live h).1)), ?_⟩
    refine ⟨?_, ?_, ?_, ?_, ?_, ?_, ?_, ?_, ?_, ?_, ?_, ?_⟩
    case refine_8 =>
      rw [ioReg, reg_writeReply_site _ _ (by decide)]
      exact hbit
    all_goals simp [orIo, timeSetTo, unlockedDom]
  case refused =>
    exact ⟨_, rfl, hostCmd_refuse h (actTimeSet_follower (s := takeEntry s c) (by rwa [hctrl]) (by rwa [hpos]))⟩
  case ptp =>
    have hact : actPtp (takeEntry s c) c = (setDom (takeEntry s c) (bitOf (cPar c 0) 0)
        { domOf s (bitOf (cPar c 0) 0) with cfg0 := BitVec.ofNat 32 (cPar c 0), cfg1 := BitVec.ofNat 32 (cPar c 1) }, .ok []) := by
      simp [actPtp, domOf]
    exact ⟨_, rfl, hostCmd_replies h hact (by simp [setDom]) (by simp [setDom])⟩
  case pps => exact ⟨_, rfl, hostCmd_replies h rfl (by simp) (by simp)⟩

/-! ### The servo, board time and the PPS pins (R554, R562 to R568) -/

/-- The number of the other domain. -/
theorem dom_other (d : Nat) : (d == 0) = !(d != 0) := by cases h : d == 0 <;> simp [bne, h]

/-- The counter of a domain's messages, and the register that shows its offset. -/
def syncCounter (b : Bool) : Nat := if b then 0x038 else 0x034
def offsetReg (b : Bool) : Nat := if b then 0x01C else 0x018

/-- What every PTP_SYNC that is used leaves: its domain's message counted, no holdover of the domain, the other domain, the design and the mode. -/
def syncUsed (s t : State) (b : Bool) : Prop :=
  (domOf t b).holdover = false ∧ domOf t (!b) = domOf s (!b) ∧ ioReg t 0x15 (syncCounter b) = satAdd 32 (ioReg s 0x15 (syncCounter b)) 1
  ∧ t.time.frac = s.time.frac ∧ t.ds = s.ds ∧ t.md = s.md

/-- A message counted stays counted through writes of the servo's other registers. -/
theorem syncCounter_setIo (s : State) (b : Bool) (v : Nat) {o : Nat} (h : o = 0x004 ∨ o = 0x014 ∨ o = 0x018 ∨ o = 0x01C) :
    ioReg (setIo s 0x15 o v) 0x15 (syncCounter b) = ioReg s 0x15 (syncCounter b) := by
  refine ioReg_setIo_other _ _ ?_
  cases b <;> obtain rfl | rfl | rfl | rfl := h <;> decide

/-- The source of time is the field SRC of TIME_CTRL and the board position. -/
theorem timeSrc_congr {s t : State} (hreg : ioReg t 0x15 0x000 = ioReg s 0x15 0x000) (hpos : t.straps = s.straps) : timeSrc t = timeSrc s := by
  simp [timeSrc, isLead, hreg, hpos]

theorem timeSrc_syncCounted (s : State) (b : Bool) : timeSrc (bumpIo s 0x15 (syncCounter b) 32 1) = timeSrc s :=
  timeSrc_congr (congrArg BitVec.toNat (reg_bump_other _ _ _ (by cases b <;> decide))) (by simp)

/-- A use of the message in the selected domain, far off and with a step allowed: the time steps by the offset (R565). -/
theorem ptpSync_steps {s : State} {b : Bool} {off : Int} (hs : s.md.safeHold = none) (hen : bitOf (domOf s b).cfg0.toNat 1 = true)
    (hsrc : timeSrc s = 1) (hsel : s.time.domB = b) (hfar : 1000000 < off.natAbs) (hmay : (domOf s b).mayStep = true) :
    let t := ptpSync s b off
    syncUsed s t b ∧ t.time.sec = (stepNs s.time off).sec ∧ t.time.ns = (stepNs s.time off).ns ∧ (domOf t b).mayStep = false ∧ t.time.unset = false := by
  have hsrc' := (timeSrc_syncCounted s b).trans hsrc
  have ht : ptpSync s b off = setIo (setDom (orIo { bumpIo s 0x15 (syncCounter b) 32 1 with
      time := { stepNs s.time off with unset := false, holdover := false } } 0x15 0x004 256) b
      { domOf s b with offset := 0, run := 0, locked := false, holdover := false, mayStep := false }) 0x15 (offsetReg b) 0 := by
    unfold ptpSync
    rw [if_neg (by simp [hen, inSafeHold, hs])]
    dsimp only
    rw [if_pos (by rw [show (if b = true then 0x038 else 0x034) = syncCounter b from rfl, hsrc']; simp [hsel, hfar, hmay])]
    simp [syncCounter, offsetReg]
  intro t
  have hcount : ioReg t 0x15 (syncCounter b) = satAdd 32 (ioReg s 0x15 (syncCounter b)) 1 := by
    rw [show t = _ from ht, syncCounter_setIo _ _ _ (by cases b <;> simp [offsetReg])]
    refine (syncCounter_setIo _ _ _ (.inl rfl)).trans ?_
    exact ioReg_bumpIo_same s _ _ _ (by decide)
  refine ⟨⟨?_, ?_, hcount, ?_, ?_, ?_⟩, ?_⟩ <;> rw [show t = _ from ht] <;> cases b <;> simp [domOf, setDom, orIo, stepNs]

/-- The domain with a message's offset kept. -/
def offsetKept (d : TimeDom) (off : Int) : TimeDom :=
  let run := if off.natAbs < 100 then d.run + 1 else 0
  { d with offset := off, run := min run 16, locked := decide (16 ≤ run), holdover := false, mayStep := d.mayStep && !decide (16 ≤ run) }

/-- The message counted and its offset kept and shown. -/
def syncKept (s : State) (b : Bool) (off : Int) : State :=
  setIo (setDom (bumpIo s 0x15 (syncCounter b) 32 1) b (offsetKept (domOf s b) off)) 0x15 (offsetReg b) (satI32 off)

theorem syncKept_used (s : State) (b : Bool) (off : Int) :
    syncUsed s (syncKept s b off) b ∧ (syncKept s b off).time.sec = s.time.sec ∧ (syncKept s b off).time.ns = s.time.ns
    ∧ (domOf (syncKept s b off) b).offset = off := by
  have hcount : ioReg (syncKept s b off) 0x15 (syncCounter b) = satAdd 32 (ioReg s 0x15 (syncCounter b)) 1 :=
    (syncCounter_setIo _ _ _ (by cases b <;> simp [offsetReg])).trans (ioReg_bumpIo_same s _ _ _ (by decide))
  refine ⟨⟨?_, ?_, hcount, ?_, ?_, ?_⟩, ?_⟩ <;> cases b <;> simp [syncKept, domOf, setDom, offsetKept]

/-- What the servo makes of a kept offset of the selected domain: the device's own lock, and TIME_INCR. -/
def servoMoves (s : State) (b : Bool) (off : Int) : State :=
  let u := syncKept s b off
  let t := { u with time := { u.time with
    locked := (domOf u b).locked, holdover := false, unset := u.time.unset && !(domOf u b).locked
    slewing := u.time.slewing && !decide (off.natAbs < 100) } }
  if t.time.slewing then setIo t 0x15 0x014 (slewIncr off) else servoIncr t

/-- A used message without a step: the offset is kept, and in the selected domain the servo moves by it. -/
theorem ptpSync_keeps {s : State} {b : Bool} {off : Int} (hs : s.md.safeHold = none) (hen : bitOf (domOf s b).cfg0.toNat 1 = true)
    (h : timeSrc s ≠ 1 ∨ s.time.domB ≠ b ∨ off.natAbs ≤ 1000000 ∨ (domOf s b).mayStep = false) :
    ptpSync s b off = if s.time.domB = b ∧ timeSrc s = 1 then servoMoves s b off else syncKept s b off := by
  have hsrc := timeSrc_syncCounted s b
  have hno : ((s.time.domB == b && timeSrc s == 1) && decide (1000000 < off.natAbs) && (domOf s b).mayStep) = false := by
    obtain h | h | h | h := h <;> simp [h]
  unfold ptpSync
  rw [if_neg (by simp [hen, inSafeHold, hs])]
  dsimp only
  rw [show (if b = true then 0x038 else 0x034) = syncCounter b from rfl, hsrc, if_neg (by simpa using hno)]
  by_cases hsel : s.time.domB = b ∧ timeSrc s = 1
  · rw [if_pos hsel, if_pos (by simpa using hsel)]
    cases b <;> rfl
  · rw [if_neg hsel, if_neg (by simpa using hsel)]
    rfl

/-- The servo moves no time, and keeps what the message left of the domains and their registers. -/
theorem servoMoves_kept (s : State) (b : Bool) (off : Int) :
    syncUsed s (servoMoves s b off) b ∧ (servoMoves s b off).time.sec = s.time.sec ∧ (servoMoves s b off).time.ns = s.time.ns
    ∧ (domOf (servoMoves s b off) b).offset = off := by
  obtain ⟨⟨hhold, hother, hcount, hfrac, hds, hmd⟩, hsec, hns, hoff⟩ := syncKept_used s b off
  unfold servoMoves
  dsimp only
  split
  · exact ⟨⟨hhold, hother, (syncCounter_setIo _ _ _ (.inr (.inl rfl))).trans hcount, hfrac, hds, hmd⟩, hsec, hns, hoff⟩
  · exact ⟨⟨hhold, hother, (syncCounter_setIo _ _ _ (.inr (.inl rfl))).trans hcount, hfrac, hds, hmd⟩, hsec, hns, hoff⟩

theorem ptpSync_kept {s : State} {b : Bool} {off : Int} (hs : s.md.safeHold = none) (hen : bitOf (domOf s b).cfg0.toNat 1 = true)
    (h : timeSrc s ≠ 1 ∨ s.time.domB ≠ b ∨ off.natAbs ≤ 1000000 ∨ (domOf s b).mayStep = false) :
    syncUsed s (ptpSync s b off) b ∧ (ptpSync s b off).time.sec = s.time.sec ∧ (ptpSync s b off).time.ns = s.time.ns
    ∧ (domOf (ptpSync s b off) b).offset = off := by
  rw [ptpSync_keeps hs hen h]
  split
  · exact servoMoves_kept s b off
  · exact syncKept_used s b off

/-- The choice of a domain keeps both domains. -/
theorem domOf_selectDom (s : State) (b x : Bool) : domOf (selectDom s b) x = domOf s x := by
  unfold selectDom
  split
  · rfl
  · dsimp only
    split <;> cases x <;> rfl

/-- A domain in holdover, with no lock, and the time as it was. -/
def heldOver (s t : State) (b : Bool) : Prop :=
  (domOf t b).locked = false ∧ (domOf t b).holdover = true ∧ t.time.sec = s.time.sec ∧ t.time.ns = s.time.ns ∧ t.ds = s.ds ∧ t.md = s.md

theorem heldOver_selectDom {s u : State} {b : Bool} (h : heldOver s u b) (x : Bool) : heldOver s (selectDom u x) b := by
  obtain ⟨-, hsec, hns, hds, -⟩ := selectDom_spec u x
  simpa [heldOver, domOf_selectDom, hsec, hns, hds] using h

theorem ptpHoldover_heldOver (s : State) (b : Bool) : heldOver s (ptpHoldover s b) b := by
  unfold ptpHoldover
  dsimp only
  repeat' split
  · cases b <;> simp [heldOver, setDom, domOf]
  · exact heldOver_selectDom (by cases b <;> simp [heldOver, setDom, domOf]) _
  · cases b <;> simp [heldOver, setDom, domOf]

/-- The time stamp of an edge at PPS_IN, word by word. -/
def ppsStamped (s : State) : State := (words96 (stamp s)).zipIdx.foldl (fun s w => setIo s 0x15 (0x80020 + 4 * w.2) w.1.toNat) s

theorem ppsStamped_reads (s : State) : (List.range 3).map (fun k => reg (ppsStamped s) (rkey 15 0x15 (0x80020 + 4 * k))) = words96 (stamp s) := by
  simp only [ppsStamped, words96, List.zipIdx, List.foldl, List.range, List.range.loop, List.map, setIo, BitVec.ofNat_toNat, BitVec.setWidth_eq]
  simp [reg_setReg, rkey]

theorem ppsIn_spec (s : State) :
    let t := ppsIn s
    (List.range 3).map (fun k => reg t (rkey 15 0x15 (0x80020 + 4 * k))) = words96 (stamp s)
    ∧ t.time = (if timeSrc s = 3 ∧ s.md.safeHold = none then { s.time with holdover := false } else s.time) ∧ t.ds = s.ds ∧ t.md = s.md := by
  have hsrc : timeSrc (ppsStamped s) = timeSrc s := by
    refine timeSrc_congr ?_ rfl
    simp only [ppsStamped, words96, List.zipIdx, List.foldl]
    rw [ioReg_setIo_other _ _ (by decide), ioReg_setIo_other _ _ (by decide), ioReg_setIo_other _ _ (by decide)]
  have ht : ppsIn s = if timeSrc s = 3 ∧ s.md.safeHold = none then
      servoIncr { ppsStamped s with time := { s.time with holdover := false } } else ppsStamped s := by
    have hdef : ppsIn s = if (timeSrc (ppsStamped s) == 3 && !inSafeHold s) = true then
      servoIncr { ppsStamped s with time := { s.time with holdover := false } } else ppsStamped s := rfl
    rw [hdef, hsrc]
    exact if_congr (by simp [inSafeHold]) rfl rfl
  intro t
  rw [show t = _ from ht]
  split
  · refine ⟨?_, rfl, rfl, rfl⟩
    rw [← ppsStamped_reads s]
    exact List.map_congr_left fun k _ => reg_setReg_other _ _ _ _ (by simp only [rkey]; omega)
  · exact ⟨ppsStamped_reads s, rfl, rfl, rfl⟩

/-- Settles O35: each event by what the servo, the board time and the pins make of it. -/
theorem timeEventsMoveTheServo : Obligations.TimeEventsMoveTheServo := by
  unfold Obligations.TimeEventsMoveTheServo
  refine fun s d => ⟨fun off h => ?held, fun off hs hen => ?sync, ⟨_, rfl, ptpHoldover_heldOver s _⟩, fun hlead hsrc he => ?send, fun hsrc => ?follower,
    ⟨_, rfl, ppsIn_spec s⟩, fun h => congrArg Host.Outcome.next (if_pos h)⟩
  case held => exact congrArg Host.Outcome.next (if_pos (by simp [inSafeHold, h]))
  case sync =>
    rw [dom_other]
    refine ⟨_, rfl, ?_⟩
    by_cases hstep : timeSrc s = 1 ∧ s.time.domB = (d != 0) ∧ 1000000 < off.natAbs ∧ (domOf s (d != 0)).mayStep = true
    · obtain ⟨hsrc, hsel, hfar, hmay⟩ := hstep
      obtain ⟨⟨hhold, hother, hcount, hfrac, hds, hmd⟩, hstepped⟩ := ptpSync_steps hs hen hsrc hsel hfar hmay
      refine ⟨hhold, hother, hcount, fun _ _ _ _ => hstepped, fun hno => ?_, hfrac, hds, hmd⟩
      obtain h | h | h | h := hno
      · exact absurd hsrc h
      · exact absurd hsel h
      · omega
      · rw [hmay] at h; cases h
    · have hno : timeSrc s ≠ 1 ∨ s.time.domB ≠ (d != 0) ∨ off.natAbs ≤ 1000000 ∨ (domOf s (d != 0)).mayStep = false := by
        rw [← Bool.not_eq_true, ← not_lt]; tauto
      obtain ⟨⟨hhold, hother, hcount, hfrac, hds, hmd⟩, hkept⟩ := ptpSync_kept hs hen hno
      exact ⟨hhold, hother, hcount, fun h1 h2 h3 h4 => absurd ⟨h1, h2, h3, h4⟩ hstep, fun _ => hkept, hfrac, hds, hmd⟩
  case send =>
    have ht : exec .timeBoardSend s = .next (sendFw (tickFree s) (.boardTime
        (s.seq.ticks + 5 * Config.freeNat s.freeCtr * 80 / tickUnits s) (addTime s.time (5 * Config.freeNat s.freeCtr * timeIncr s)).sec
        (addTime s.time (5 * Config.freeNat s.freeCtr * timeIncr s)).ns (addTime s.time (5 * Config.freeNat s.freeCtr * timeIncr s)).frac
        (lo32 (timeIncr s)))) := congrArg Host.Outcome.next (if_pos (by simp [hlead, hsrc, he]))
    exact ⟨_, _, _, _, _, ht, rfl, Nat.le_add_right _ _, rfl, rfl, rfl, rfl⟩
  case follower => exact congrArg Host.Outcome.next (if_pos (by simp [hsrc]))

end Sys2Proof.Machine

namespace Sys2Proof.Machine

/-! ### The trace funnel and the service banks (R521 to R523, R573) -/

/-- A bank without its contents. -/
def bankShell (b : Bank) : Bank := { b with words := [], poison := [] }

/-- What records that go through the funnel leave: the trace's setting, a trace that is off, the gated sources, the banks that are not
the trace's, and of the trace's bank all but the contents. -/
structure FunnelLeaves (s t : State) : Prop where
  ctrl : trcCtrl t = trcCtrl s
  md : t.md = s.md
  ds : t.ds = s.ds
  gated : t.trc.gated = s.trc.gated
  off : s.trc.on = false → t.trc.on = false
  others : ∀ k : Nat, k ≠ trcBank s → t.banks[k]? = s.banks[k]?
  shell : ∀ k : Nat, (t.banks[k]?).map bankShell = (s.banks[k]?).map bankShell

theorem FunnelLeaves.rfl' (s : State) : FunnelLeaves s s := ⟨rfl, rfl, rfl, rfl, id, fun _ _ => rfl, fun _ => rfl⟩

theorem FunnelLeaves.trans {s t u : State} (h : FunnelLeaves s t) (k : FunnelLeaves t u) : FunnelLeaves s u where
  ctrl := k.ctrl.trans h.ctrl
  md := k.md.trans h.md
  ds := k.ds.trans h.ds
  gated := k.gated.trans h.gated
  off := fun hoff => k.off (h.off hoff)
  others := fun n hn => (k.others n (by rwa [show trcBank t = trcBank s by rw [trcBank, h.ctrl]; rfl])).trans (h.others n hn)
  shell := fun n => (k.shell n).trans (h.shell n)

theorem FunnelLeaves.foldl {α : Type} {f : State → α → State} (h : ∀ s x, FunnelLeaves s (f s x)) (l : List α) (s : State) : FunnelLeaves s (l.foldl f s) := by
  induction l generalizing s with
  | nil => exact .rfl' s
  | cons x xs ih => exact (h s x).trans (ih (f s x))

/-- An operation that changes no register of TRC_CTRL, no bank, and of the trace at most stops it. -/
theorem FunnelLeaves.of_bankless {s t : State} (hctrl : trcCtrl t = trcCtrl s) (hmd : t.md = s.md) (hds : t.ds = s.ds) (hb : t.banks = s.banks)
    (hg : t.trc.gated = s.trc.gated) (hon : s.trc.on = false → t.trc.on = false) : FunnelLeaves s t :=
  ⟨hctrl, hmd, hds, hg, hon, fun _ _ => by rw [hb], fun _ => by rw [hb]⟩

theorem FunnelLeaves.of_trc {s : State} {x : TrcState} (hg : x.gated = s.trc.gated) (hon : s.trc.on = false → x.on = false) :
    FunnelLeaves s { s with trc := x } := .of_bankless rfl rfl rfl rfl hg hon

theorem trcCtrl_setIo (s : State) (b o v : Nat) (h : rkey 15 0x16 0 ≠ rkey 15 b o) : trcCtrl (setIo s b o v) = trcCtrl s := ioReg_setIo_other s v h

/-- A count that is not TRC_CTRL itself. -/
theorem funnelLeaves_bumpIo (s : State) (b o w d : Nat) (h : rkey 15 0x16 0 ≠ rkey 15 b o) : FunnelLeaves s (bumpIo s b o w d) :=
  .of_bankless (congrArg BitVec.toNat (reg_bump_other s w d h)) (by simp) (by simp) (by simp) (by simp) (by simp)

theorem bankStore_shell (s : State) (n a : Nat) (ws : List Word) (k : Nat) :
    ((bankStore s n a ws).banks[k]?).map bankShell = (s.banks[k]?).map bankShell := by
  by_cases hk : k = n
  · subst hk
    unfold bankStore
    split
    · rfl
    next b hb =>
      have hlt := (List.getElem?_eq_some_iff.mp hb).1
      rw [List.getElem?_set_self hlt, hb]
      rfl
  · rw [bankStore_banks_other s a ws hk]

theorem funnelLeaves_trcStore (s : State) (at0 : Nat) (r : List Word) : FunnelLeaves s (trcStore s at0 r) := by
  have hput : FunnelLeaves s { s with trc := { s.trc with data := put s.trc.data at0 r, stored := s.trc.stored + 1 } } := .of_trc rfl id
  refine hput.trans ?_
  unfold trcStore
  dsimp only
  split
  · exact ⟨by simp [trcCtrl, ioReg, reg], by simp, by simp, by simp, by simp, fun _ hk => bankStore_banks_other _ _ _ hk, fun _ => bankStore_shell _ _ _ _ _⟩
  · exact .of_bankless rfl rfl rfl rfl rfl id
  · exact .rfl' _

theorem funnelLeaves_funnelOne (s : State) (r : List Word) : FunnelLeaves s (funnelOne s r) := by
  unfold funnelOne
  dsimp only
  split
  · refine .trans ?_ (funnelLeaves_bumpIo _ _ _ _ _ (by decide))
    split
    · split
      · exact funnelLeaves_bumpIo _ _ _ _ _ (by unfold rkey trcBank fld; omega)
      · exact .rfl' _
    · exact .rfl' _
  · split
    · refine .trans ?_ (funnelLeaves_bumpIo _ _ _ _ _ (by decide))
      exact .of_bankless (trcCtrl_setIo _ _ _ _ (by decide)) rfl rfl rfl rfl fun _ => rfl
    · exact (funnelLeaves_trcStore _ _ _).trans (.of_bankless (trcCtrl_setIo _ _ _ _ (by decide)) rfl rfl rfl rfl id)

theorem funnelLeaves_sendBuffer (s : State) (u n : Nat) : FunnelLeaves s (sendBuffer s u n) := by
  have hbuf : FunnelLeaves s { s with trc := { s.trc with bufs := put s.trc.bufs u ((trcBuf s u).drop n) } } := .of_trc rfl id
  exact hbuf.trans (.foldl funnelLeaves_funnelOne _ _)

theorem funnelLeaves_funnelMark (s : State) (typ : Nat) : FunnelLeaves s (funnelMark s typ) := by
  have htick (u : State) : FunnelLeaves u (tickFree u) := .of_bankless rfl rfl rfl rfl rfl id
  exact ((htick s).trans (htick _)).trans (funnelLeaves_funnelOne _ _)

/-- A STOP leaves what the funnel leaves, and the trace off. -/
theorem trcStop_leaves (s : State) : FunnelLeaves s (trcStop s) ∧ (trcStop s).trc.on = false := by
  unfold trcStop
  split
  next =>
    have hoff : FunnelLeaves s { s with trc := { s.trc with on := false } } := .of_trc rfl fun _ => rfl
    generalize hu : ({ s with trc := { s.trc with on := false } } : State) = u at *
    have hflush : FunnelLeaves u (flushSources (funnelMark u 0x4B)) :=
      (funnelLeaves_funnelMark u 0x4B).trans (.foldl (fun v n => funnelLeaves_sendBuffer v n 128) (List.range 11) _)
    exact ⟨hoff.trans hflush, hflush.off (by rw [← hu])⟩
  next hon => exact ⟨.rfl' s, by simpa using hon⟩

/-! ### The accesses at a bank's ports (R521, R523) -/

/-- The cycles that the accesses of one port take. -/
def portWork (js : List BankJob) : Nat := (js.map (fun j => max 1 j.left)).sum

theorem bankWork_eq (b : Bank) : bankWork b = portWork b.reads + portWork b.writes := by simp [bankWork, portWork]

theorem portWork_zero {js : List BankJob} (h : portWork js = 0) : js = [] := by
  cases js with
  | nil => rfl
  | cons j js => simp only [portWork, List.map_cons, List.sum_cons] at h; omega

/-- The accesses of a port once the first has left that has no word to go. -/
def portServed : List BankJob → List BankJob
  | [] => []
  | j :: js => if j.left = 0 then js else j :: js

theorem portWork_served {j k : BankJob} (js : List BankJob) (hk : k.left = j.left - 1) : portWork (portServed (k :: js)) + 1 = portWork (j :: js) := by
  by_cases h : k.left = 0
  · simp only [portServed, h, if_true, portWork, List.map_cons, List.sum_cons]; omega
  · simp only [portServed, h, if_false, portWork, List.map_cons, List.sum_cons]; omega

/-- What a cycle at bank n leaves: mode, design data, the other banks, and bank n's owner and power. -/
structure PortCycle (s t : State) (n : Nat) (b x : Bank) : Prop where
  md : t.md = s.md
  ds : t.ds = s.ds
  others : ∀ k, k ≠ n → t.banks[k]? = s.banks[k]?
  here : t.banks[n]? = some x
  power : x.power = b.power
  owner : x.owner = b.owner

/-- The end of an access at the write port. -/
theorem bankWriteEnd_ports {s : State} {n : Nat} (b : Bank) (hn : n < s.banks.length) :
    ∃ x, PortCycle s (bankWriteEnd s n b) n b x ∧ x.reads = b.reads
      ∧ x.writes = portServed b.writes := by
  unfold bankWriteEnd
  split
  next j js hw =>
    by_cases hj : j.left = 0
    · refine ⟨{ b with writes := js }, ?_, rfl, by simp [portServed, hw, hj]⟩
      simp only [hj, beq_self_eq_true, if_true]
      split <;> exact ⟨by simp, by simp, fun k hk => by simp [List.getElem?_set_ne hk.symm], by simp [hn], rfl, rfl⟩
    · refine ⟨b, ?_, rfl, by simp [portServed, hj, hw]⟩
      simp only [beq_iff_eq, hj, if_false]
      exact ⟨rfl, rfl, fun k hk => List.getElem?_set_ne hk.symm, List.getElem?_set_self hn, rfl, rfl⟩
  next hw => exact ⟨b, ⟨rfl, rfl, fun k hk => List.getElem?_set_ne hk.symm, List.getElem?_set_self hn, rfl, rfl⟩, rfl, by simp [portServed, hw]⟩

/-- The end of an access at the read port. -/
theorem bankReadEnd_ports {s : State} {n : Nat} {b : Bank} (hb : s.banks[n]? = some b) :
    ∃ x, PortCycle s (bankReadEnd s n) n b x ∧ x.writes = b.writes
      ∧ x.reads = portServed b.reads := by
  have hn := (List.getElem?_eq_some_iff.mp hb).1
  unfold bankReadEnd
  rw [hb]
  dsimp only
  split
  next j js hr =>
    by_cases hj : j.left = 0
    · refine ⟨{ b with reads := js }, ?_, rfl, by simp [portServed, hr, hj]⟩
      simp only [hj, beq_self_eq_true, if_true]
      split
      · refine ⟨?_, by simp, fun k hk => by simp [List.getElem?_set_ne hk.symm], by simp [hn], rfl, rfl⟩
        rw [(respond_frame _ _ _ _ _).2.2.2.2.1, (fault_below_fatal _ _ (by simp)).1]
      · exact ⟨by simp, by simp, fun k hk => by simp [List.getElem?_set_ne hk.symm], by simp [hn], rfl, rfl⟩
    · refine ⟨b, ?_, rfl, by simp [portServed, hj, hr]⟩
      simp only [beq_iff_eq, hj, if_false]
      exact ⟨rfl, rfl, fun _ _ => rfl, hb, rfl, rfl⟩
  next hr => exact ⟨b, ⟨rfl, rfl, fun _ _ => rfl, hb, rfl, rfl⟩, rfl, by simp [portServed, hr]⟩

theorem PortCycle.trans {s t u : State} {n : Nat} {b x y : Bank} (h : PortCycle s t n b x) (k : PortCycle t u n x y) : PortCycle s u n b y :=
  ⟨k.md.trans h.md, k.ds.trans h.ds, fun m hm => (k.others m hm).trans (h.others m hm), k.here, k.power.trans h.power, k.owner.trans h.owner⟩

theorem bankWriteWord_ports (b : Bank) : (bankWriteWord b).power = b.power ∧ (bankWriteWord b).owner = b.owner ∧ (bankWriteWord b).reads = b.reads
    ∧ portWork (portServed (bankWriteWord b).writes) = portWork b.writes - 1 := by
  unfold bankWriteWord
  split
  next hw => simp [hw, portServed, portWork]
  next j js hw =>
    refine ⟨rfl, rfl, rfl, ?_⟩
    rw [hw]
    exact Nat.eq_sub_of_add_eq (portWork_served js rfl)

theorem bankReadWord_ports (b : Bank) : (bankReadWord b).power = b.power ∧ (bankReadWord b).owner = b.owner ∧ (bankReadWord b).writes = b.writes
    ∧ portWork (portServed (bankReadWord b).reads) = portWork b.reads - 1 := by
  unfold bankReadWord
  split
  next hr => simp [hr, portServed, portWork]
  next j js hr =>
    refine ⟨rfl, rfl, rfl, ?_⟩
    rw [hr]
    exact Nat.eq_sub_of_add_eq (portWork_served js rfl)

/-- A CTRL cycle serves both ports of a bank: the work that waits there falls. -/
theorem bankCycle_ports {s : State} {n : Nat} {b : Bank} (hb : s.banks[n]? = some b) :
    ∃ x, PortCycle s (bankCycle s n) n b x ∧ bankWork x ≤ bankWork b - 1 := by
  have hn := (List.getElem?_eq_some_iff.mp hb).1
  unfold bankCycle
  rw [hb]
  dsimp only
  split
  next hidle =>
    refine ⟨b, ⟨rfl, rfl, fun _ _ => rfl, hb, rfl, rfl⟩, ?_⟩
    simp only [Bool.and_eq_true, List.isEmpty_iff] at hidle
    simp [bankWork, hidle]
  next hbusy =>
    obtain ⟨x, hx, hxr, hxw⟩ := bankWriteEnd_ports (s := s) (bankReadWord (bankWriteWord b)) hn
    obtain ⟨y, hy, hyw, hyr⟩ := bankReadEnd_ports hx.here
    obtain ⟨hwp, hwo, hwr, hwork⟩ := bankWriteWord_ports b
    obtain ⟨hrp, hro, hrw, hrork⟩ := bankReadWord_ports (bankWriteWord b)
    have hcycle := hx.trans hy
    refine ⟨y, ⟨hcycle.md, hcycle.ds, hcycle.others, hcycle.here, hcycle.power.trans (hrp.trans hwp), hcycle.owner.trans (hro.trans hwo)⟩, ?_⟩
    rw [bankWork_eq, bankWork_eq, hyr, hxr, hrork, hwr, hyw, hxw, hrw, hwork]
    have : portWork b.reads ≠ 0 ∨ portWork b.writes ≠ 0 := by
      by_contra h
      push Not at h
      exact hbusy (by rw [portWork_zero h.1, portWork_zero h.2]; rfl)
    omega

/-- Cycle after cycle the work at a bank's ports falls. -/
theorem bankCycles_ports {α : Type} (l : List α) {s : State} {n : Nat} {b : Bank} (hb : s.banks[n]? = some b) :
    ∃ x, PortCycle s (l.foldl (fun s _ => bankCycle s n) s) n b x ∧ bankWork x ≤ bankWork b - l.length := by
  induction l generalizing s b with
  | nil => exact ⟨b, ⟨rfl, rfl, fun _ _ => rfl, hb, rfl, rfl⟩, le_rfl⟩
  | cons a l ih =>
    obtain ⟨x, hx, hwork⟩ := bankCycle_ports hb
    obtain ⟨y, hy, hrest⟩ := ih hx.here
    exact ⟨y, hx.trans hy, by simp only [List.length_cons]; omega⟩

/-- A drained bank has no access at its ports. -/
theorem bankDrain_ports {s : State} {n : Nat} {b : Bank} (hb : s.banks[n]? = some b) :
    ∃ x, PortCycle s (bankDrain s n) n b x ∧ x.reads = [] ∧ x.writes = [] := by
  unfold bankDrain
  rw [hb]
  obtain ⟨x, hx, hwork⟩ := bankCycles_ports (List.range (bankWork b)) hb
  rw [List.length_range, Nat.sub_self, Nat.le_zero, bankWork_eq, Nat.add_eq_zero_iff] at hwork
  exact ⟨x, hx, portWork_zero hwork.1, portWork_zero hwork.2⟩

theorem bankDrain_idle {s : State} {n : Nat} {b : Bank} (hb : s.banks[n]? = some b) (hr : b.reads = []) (hw : b.writes = []) : bankDrain s n = s := by
  unfold bankDrain
  rw [hb]
  simp [bankWork, hr, hw]

/-- A bank as BANK_POWER sets it: switched off, or switched on from off, it holds nothing. -/
def poweredBank (b : Bank) (p : Nat) : Bank :=
  let c := { b with power := p }
  if p == 2 || (b.power == 2 && p != b.power) then { c with words := [], poison := [] } else c

theorem poweredBank_keeps (b : Bank) (p : Nat) : (poweredBank b p).power = p ∧ (poweredBank b p).owner = b.owner ∧ (poweredBank b p).reads = b.reads
    ∧ (poweredBank b p).writes = b.writes ∧ (p = 2 → (poweredBank b p).words = [] ∧ (poweredBank b p).poison = [])
    ∧ (b.power ≠ 2 → p ≠ 2 → poweredBank b p = { b with power := p }) := by
  unfold poweredBank
  dsimp only
  split
  next h => exact ⟨rfl, rfl, rfl, rfl, fun _ => ⟨rfl, rfl⟩, fun hb hp => by simp [hb, hp] at h⟩
  next h => exact ⟨rfl, rfl, rfl, rfl, fun hp => by simp [hp] at h, fun _ _ => rfl⟩

/-- BANK_POWER sets the drained bank's power, and leaves the other banks, mode and design data. -/
theorem bankPower_sets {s : State} {n : Nat} (p : Nat) {b : Bank} (hb : s.banks[n]? = some b) :
    ∃ x, x.owner = b.owner ∧ x.reads = [] ∧ x.writes = [] ∧ (b.reads = [] → b.writes = [] → x = b)
      ∧ (bankPower s n p).banks[n]? = some (poweredBank x p) ∧ (∀ k, k ≠ n → (bankPower s n p).banks[k]? = s.banks[k]?)
      ∧ (bankPower s n p).ds = s.ds ∧ (bankPower s n p).md = s.md := by
  obtain ⟨x, hx, hr, hw⟩ := bankDrain_ports hb
  have hidle (h1 : b.reads = []) (h2 : b.writes = []) : x = b := by
    have := hx.here
    rw [bankDrain_idle hb h1 h2, hb] at this
    exact (Option.some.inj this).symm
  refine ⟨x, hx.owner, hr, hw, hidle, ?_⟩
  have hlt := (List.getElem?_eq_some_iff.mp hx.here).1
  have hset : (bankPower s n p).banks = (bankDrain s n).banks.set n (poweredBank x p) ∧ (bankPower s n p).ds = (bankDrain s n).ds
      ∧ (bankPower s n p).md = (bankDrain s n).md := by
    unfold bankPower
    dsimp only
    rw [hx.here]
    dsimp only
    split <;> exact ⟨rfl, rfl, rfl⟩
  obtain ⟨hbanks, hds, hmd⟩ := hset
  rw [hbanks]
  exact ⟨List.getElem?_set_self hlt, fun k hk => (List.getElem?_set_ne hk.symm).trans (hx.others k hk), hds.trans hx.ds, hmd.trans hx.md⟩

/-! ### TRACE_CTRL, BANK_POWER, MGMT_CONFIG and DIAG (R523, R575, R577, R578) -/

theorem traceBank_takeEntry {s : State} {c : Cmd} (h : c.path = .pcie) (n : Nat) : traceBank (takeEntry s c) n = traceBank s n := by
  have hctrl : trcCtrl (takeEntry s c) = trcCtrl s := ioReg_takeEntry h (by decide) (by decide) (by decide)
  simp [traceBank, trcDest, trcBank, hctrl]

/-- The trace that goes to a bank stops before the bank is switched (R577). -/
def traceStopped (s : State) (n p : Nat) : State := if p != 0 && traceBank s n then trcStop s else s

/-- The trace's records in a bank are lost with it. -/
def traceDropped (s : State) (n p : Nat) : State :=
  if p == 2 && trcDest s == 0 && trcBank s == n then { s with trc := { s.trc with data := [] } } else s

theorem traceDropped_keeps (s : State) (n p : Nat) : (traceDropped s n p).banks = s.banks ∧ (traceDropped s n p).ds = s.ds ∧ (traceDropped s n p).md = s.md := by
  unfold traceDropped
  split <;> exact ⟨rfl, rfl, rfl⟩

theorem traceStopped_leaves (s : State) (n p : Nat) : (traceStopped s n p).ds = s.ds ∧ (traceStopped s n p).md = s.md
    ∧ (∀ k, k ≠ n → (traceStopped s n p).banks[k]? = s.banks[k]?) ∧ ((traceStopped s n p).banks[n]?).map bankShell = (s.banks[n]?).map bankShell := by
  unfold traceStopped
  split
  next h =>
    have hn : trcBank s = n := by simp [traceBank] at h; exact h.2.1.2
    obtain ⟨hleaves, -⟩ := trcStop_leaves s
    exact ⟨hleaves.ds, hleaves.md, fun k hk => hleaves.others k (hn ▸ hk), hleaves.shell n⟩
  next => exact ⟨rfl, rfl, fun _ _ => rfl, rfl⟩

/-- BANK_POWER of a bank that may change. -/
theorem actBankPower_sets {s : State} {c : Cmd} {b : Bank} (hb : s.banks[cPar c 0]? = some b)
    (hok : cPar c 1 ≠ 2 ∨ b.power = 2 ∨ bankInUse s b = false) :
    actBankPower s c = (bankPower (traceDropped (traceStopped s (cPar c 0) (cPar c 1)) (cPar c 0) (cPar c 1)) (cPar c 0) (cPar c 1), .ok []) := by
  unfold actBankPower
  dsimp only
  rw [hb]
  dsimp only
  rw [if_neg (by obtain h | h | h := hok <;> simp [h])]
  rfl

theorem actBankPower_refuses {s : State} {c : Cmd} {b : Bank} (hb : s.banks[cPar c 0]? = some b) (hp : cPar c 1 = 2) (hon : b.power ≠ 2)
    (huse : bankInUse s b = true) : actBankPower s c = (s, .refuse 0x0202) := by
  unfold actBankPower
  dsimp only
  rw [hb]
  dsimp only
  rw [if_pos (by simp [hp, hon, huse])]

/-- The bank named, as BANK_POWER leaves it: with the power asked for, its owner, and nothing at its ports; the other banks, mode and design data stay. -/
theorem bankPower_traced (s : State) {n : Nat} (p : Nat) {b : Bank} (hb : s.banks[n]? = some b) :
    let t := bankPower (traceDropped (traceStopped s n p) n p) n p
    ∃ x, t.banks[n]? = some x ∧ x.power = p ∧ x.owner = b.owner ∧ x.reads = [] ∧ x.writes = [] ∧ (p = 2 → x.words = [] ∧ x.poison = [])
      ∧ (∀ k, k ≠ n → t.banks[k]? = s.banks[k]?)
      ∧ (b.reads = [] → b.writes = [] → traceBank s n = false → b.power ≠ 2 → p ≠ 2 → x = { b with power := p }) ∧ t.ds = s.ds ∧ t.md = s.md := by
  obtain ⟨hds, hmd, hothers, hshell⟩ := traceStopped_leaves s n p
  obtain ⟨hdb, hdd, hdm⟩ := traceDropped_keeps (traceStopped s n p) n p
  rw [hb, ← hdb] at hshell
  obtain ⟨y, hy, hyb⟩ := Option.map_eq_some_iff.mp hshell
  have hyo : (bankShell y).owner = (bankShell b).owner := congrArg Bank.owner hyb
  obtain ⟨x, hxo, hr, hw, hidle, hset, hset', hds', hmd'⟩ := bankPower_sets p hy
  obtain ⟨hpp, hpo, hpr, hpw, hpoff, hpon⟩ := poweredBank_keeps x p
  refine ⟨poweredBank x p, hset, hpp, hpo.trans (hxo.trans hyo), hpr.trans hr, hpw.trans hw, hpoff, fun k hk => ?_, fun hbr hbw hnot hbp hp => ?_,
    hds'.trans (hdd.trans hds), hmd'.trans (hdm.trans hmd)⟩
  · rw [hset' k hk, hdb, hothers k hk]
  · have hsame : traceStopped s n p = s := if_neg (by simp [hnot])
    rw [hdb, hsame, hb] at hy
    obtain rfl := Option.some.inj hy
    obtain rfl := hidle hbr hbw
    exact hpon hbp hp

/-- Settles O40: each command by what its action is on an accepted packet; a bank by the laws of its ports and of the funnel. -/
theorem traceBankManagementAndDiagnostics : Obligations.TraceBankManagementAndDiagnostics := by
  unfold Obligations.TraceBankManagementAndDiagnostics
  refine fun s c => ⟨fun h hp => ?host, fun h hp => ?restart, fun b h hb hok => ?power, fun b h hb hp hon huse => ?refused, fun h => ?config,
    fun h hroom => ?diag, fun w st ws hs hw hq hpcie hst => ?complete, fun st ws hno => ?nothing⟩
  case host =>
    have hact : actTraceCtrl (takeEntry s c) c = ({ takeEntry s c with trc := { (takeEntry s c).trc with hostIn := true } }, .ok []) := by
      unfold actTraceCtrl
      rw [hp]
      rfl
    exact ⟨_, rfl, hostCmd_replies h hact (by simp) (by simp)⟩
  case restart =>
    have hact : actTraceCtrl (takeEntry s c) c = (trcRestart (takeEntry s c), .ok []) := by
      unfold actTraceCtrl
      rw [hp]
      rfl
    refine ⟨_, congrArg Host.Outcome.next (hostCmd_ok_eq h hact (by simpa [trcRestart] using (accepts_live h).1)), ?_, ?_, ?_, ?_⟩
    · simp [trcRestart]
    · rw [ioReg, reg_writeReply_site _ _ (by decide)]
      exact (ioReg_setIo_other _ _ (by decide)).trans (ioReg_setIo_same _ _ _ _)
    · rw [ioReg, reg_writeReply_site _ _ (by decide)]
      exact ioReg_setIo_same _ _ _ _
    · rw [takeEntry_pcie (accepts_pcie h)]
      simp only [writeReply, signal, finishDisable]
      split <;> split <;> rfl
  case power =>
    have hb' : (takeEntry s c).banks[cPar c 0]? = some b := by simpa using hb
    have hact := actBankPower_sets (s := takeEntry s c) (c := c) hb' (by simpa [bankInUse] using hok)
    obtain ⟨x, hx, hxp, hxo, hxr, hxw, hxoff, hothers, hsame, hds, hmd⟩ := bankPower_traced (takeEntry s c) (cPar c 1) hb'
    rw [traceBank_takeEntry (accepts_pcie h)] at hsame
    refine ⟨_, x, congrArg Host.Outcome.next (hostCmd_ok_eq h hact (by rw [hmd]; simpa using (accepts_live h).1)), ?_⟩
    simp only [writeReply_frame, takeEntry_frame] at *
    exact ⟨hx, hxp, hxo, hxr, hxw, hxoff, hothers, hsame, hds, hmd⟩
  case refused =>
    have hact := actBankPower_refuses (s := takeEntry s c) (c := c) (by simpa using hb) hp hon (by simpa [bankInUse] using huse)
    obtain ⟨hframe, r, hr, hstatus⟩ := hostCmd_refuse h hact
    exact ⟨_, r, rfl, hframe, hr, hstatus⟩
  case config =>
    have hact : actMgmt (takeEntry s c) c = ({ takeEntry s c with ctl := { (takeEntry s c).ctl with mgmt := put s.ctl.mgmt (cPar c 0) (cWords c 1 6) } }, .ok []) := by
      simp [actMgmt]
    exact ⟨_, rfl, hostCmd_replies h hact (by simp) (by simp)⟩
  case diag => exact ⟨_, rfl, hostCmd_accept h hroom rfl (by simpa using (accepts_live h).1) (by simpa using (accepts_live h).2)⟩
  case complete =>
    have ht : exec (.diagComplete st ws) s = .next (completeFirst s (fun w => w.opcode == 0x0B07) st ws) := by
      refine congrArg Host.Outcome.next ?_
      unfold unlessHeld diagComplete
      rw [if_neg (by simp [inSafeHold, hs])]
      exact if_neg (by simp [hst])
    obtain ⟨e, he, hcode, htag, hestatus, hpay⟩ := completeFirst_event hw hq hpcie st ws
    exact ⟨_, ht, (completeFirst_host hw st ws).1, ⟨e, he, hcode, hestatus, htag, hpay⟩, by simp, by simp⟩
  case nothing =>
    refine congrArg Host.Outcome.next ?_
    unfold unlessHeld diagComplete
    obtain hst | hs := hno
    · simp [hst]
    · exact if_pos hs

end Sys2Proof.Machine

namespace Sys2Proof.Machine

/-! ### Records, rules and gates of the service trace (R571 to R577) -/

/-- A packet of 8 words brings one record. -/
theorem packetRecs_one {ws : List Word} (h : ws.length = 8) (n : Nat) : packetRecs (n + 1) ws = [ws] := by
  have hrest : packetRecs n (ws.drop 8) = [] := by
    cases n with
    | zero => rfl
    | succ n => simp [packetRecs, h]
  rw [packetRecs, if_neg (by omega), hrest, List.take_of_length_le h.le]

/-- A packet that reaches the funnel unpoisoned with one record. -/
theorem traceRecord_one {s : State} {p : Packet} (u : Nat) (hvn : p.vn = 2) (hsrc : naSite p.src = 8 → p.srcPos ≠ posOf s) (hgood : p.poison = false)
    (hlen : p.words.length = 8) : traceRecord s p u = funnelOne s p.words := by
  unfold traceRecord
  rw [if_neg (by simpa [hvn] using hsrc), if_neg (by simp [hgood]), if_neg (by intro h; simp [List.isEmpty_iff.mp h] at hlen), packetRecs_one hlen]
  rfl

/-- What a record stored at an offset of the trace buffer changes. -/
theorem trcStore_changes (s : State) (at0 : Nat) (r : List Word) :
    let t := trcStore s at0 r
    t = { s with trc := { s.trc with data := put s.trc.data at0 r, stored := s.trc.stored + 1 }, banks := t.banks, io := t.io }
    ∧ (trcDest s ≠ 0 → t.banks = s.banks) ∧ (trcDest s ≠ 2 → t.io = s.io)
    ∧ (trcDest s = 2 → t.io = { s.io with dma := put s.io.dma (ioReg s 0x16 0x008 + 2 ^ 32 * ioReg s 0x16 0x00C + at0) r }) := by
  have hdest (x : TrcState) : trcDest { s with trc := x } = trcDest s := rfl
  unfold trcStore
  dsimp only
  rw [hdest]
  split
  next h => exact ⟨by unfold bankStore; split <;> rfl, fun hne => absurd h hne, fun _ => by simp, fun h2 => by rw [h] at h2; cases h2⟩
  next h => exact ⟨rfl, fun _ => rfl, fun hne => absurd h hne, fun _ => rfl⟩
  next h0 h2 => exact ⟨rfl, fun _ => rfl, fun _ => rfl, fun h => absurd h h2⟩

/-- A record that the destination takes, with room: it goes to the write pointer. -/
theorem funnelOne_room {s : State} (r : List Word) (htake : bankRefuses s = false) (hroom : trcWptr s + 32 ≤ trcSize s) :
    funnelOne s r = setIo (trcStore s (trcWptr s) r) 0x16 0x014 (trcWptr s + 32) := by
  have hfull : decide (trcSize s < trcWptr s + 32) = false := by simpa using hroom
  unfold funnelOne
  dsimp only
  rw [if_neg (by simp [htake]), hfull]
  rfl

/-- Without WRAP a full buffer drops the record, stops the trace and counts the loss. -/
theorem funnelOne_full {s : State} (r : List Word) (htake : bankRefuses s = false) (hfull : trcSize s < trcWptr s + 32) (hwrap : bitOf (trcCtrl s) 13 = false) :
    funnelOne s r = bumpIo (orIo { s with trc := { s.trc with on := false } } 0x16 0x004 32) 0x16 0x018 32 1 := by
  unfold funnelOne
  dsimp only
  rw [if_neg (by simp [htake]), if_pos (by simp [hfull, hwrap])]

/-- A record put into a source's buffer gates no clock. -/
theorem storeTrc_gated (s : State) (u n : Nat) (o : Nat × Nat) (r : List Word) : (storeTrc s u n o r).trc.gated = s.trc.gated := by
  have hbuf : (bufRecord s u n r).1.trc.gated = s.trc.gated := by
    unfold bufRecord
    dsimp only
    split <;> rfl
  unfold storeTrc
  dsimp only
  split
  · exact hbuf
  · simpa using hbuf

theorem syncRecord_keeps (s : State) (u : Nat) :
    (syncRecord s u).trc.gated = s.trc.gated ∧ (syncRecord s u).ds = s.ds ∧ (syncRecord s u).md = s.md :=
  ⟨storeTrc_gated _ _ _ _ _, by simp [syncRecord], by simp [syncRecord]⟩

theorem trcRecord_gated (s : State) (u typ lo hi d : Nat) : (trcRecord s u typ lo hi d).trc.gated = s.trc.gated := by
  unfold trcRecord syncDue
  repeat' split
  · exact (syncRecord_keeps _ _).1.trans (storeTrc_gated _ _ _ _ _)
  · exact storeTrc_gated _ _ _ _ _
  · rfl

theorem trcStart_ds (s : State) : (trcStart s).ds = s.ds := by
  unfold trcStart
  split
  · rfl
  · dsimp only
    refine (foldl_keeps (·.ds) _ (fun v u => ?_) _ _).trans (funnelLeaves_funnelMark _ _).ds
    split
    · exact (syncRecord_keeps v u).2.1
    · rfl

/-- A rule that holds: STOP, START or neither, and the next state with no record stored. -/
theorem ruleFire_holds {s : State} {i : TraceInputs} (h : ruleFires s i = true) :
    ∃ u : State, ruleFire s i = { u with trc := { u.trc with st := fld (trcRule s) 11 9, stored := 0 } } ∧ u.ds = s.ds ∧ u.md = s.md
      ∧ (bitOf (trcRule s) 13 = true → u.trc.on = false) := by
  refine ⟨_, if_pos h, ?_⟩
  split
  · exact ⟨(trcStop_leaves s).1.ds, (trcStop_leaves s).1.md, fun _ => (trcStop_leaves s).2⟩
  next hstop =>
    split
    · exact ⟨trcStart_ds s, trcStart_md s, fun hb => absurd hb hstop⟩
    · exact ⟨rfl, rfl, fun hb => absurd hb hstop⟩

/-- Gating an open source: it sends what it has, and is gated. -/
theorem clockGate_gates {s : State} {u : Nat} (hu : u < 11) (h : s.trc.gated.contains u = false) :
    (clockGate s u).trc.gated = ins s.trc.gated u ∧ (clockGate s u).ds = s.ds ∧ (clockGate s u).md = s.md := by
  unfold clockGate
  rw [if_neg (by rw [h]; simpa using hu)]
  dsimp only
  split
  · have hsend := funnelLeaves_sendBuffer (trcRecord (tickFree (tickFree s)) u 0x48 (Config.freeNat s.freeCtr) (Config.freeNat (s.freeCtr + 1)) 0) u 128
    refine ⟨?_, hsend.ds.trans (by simp [tickFree]), hsend.md.trans (by simp [tickFree])⟩
    exact congrArg (ins · u) (hsend.gated.trans (trcRecord_gated _ _ _ _ _ _))
  · exact ⟨rfl, rfl, rfl⟩

/-- A gated source that wakes is gated no longer. -/
theorem sourceWake_wakes {s : State} {u : Nat} (h : s.trc.gated.contains u = true) :
    (sourceWake s u).trc.gated = s.trc.gated.filter (fun x => x != u) ∧ (sourceWake s u).ds = s.ds ∧ (sourceWake s u).md = s.md := by
  unfold sourceWake
  rw [if_pos h]
  dsimp only
  split
  · exact syncRecord_keeps _ u
  · exact ⟨rfl, rfl, rfl⟩

/-- Settles O58: a record by what the funnel does of it; rules and gates by their own laws. -/
theorem traceFunnelRulesAndGates : Obligations.TraceFunnelRulesAndGates := by
  unfold Obligations.TraceFunnelRulesAndGates
  refine fun s u => ⟨fun p hp hbad => ?poisoned, fun p hp => ?absorbed, fun p hp hgood hlen htake hroom hptr => ?stored,
    fun p hp hgood hlen htake hfull hwrap => ?full, fun i h => congrArg Host.Outcome.next (if_neg (by simp [h])), fun i h => ?fires,
    fun hu h => ⟨_, rfl, clockGate_gates hu h⟩, fun h => congrArg Host.Outcome.next (if_pos (by rw [h]; simp)),
    fun h => ⟨_, rfl, sourceWake_wakes h⟩, fun h => congrArg Host.Outcome.next (if_neg (by rw [h]; simp))⟩
  case poisoned =>
    obtain ⟨hvn, hsrc⟩ := hp
    refine congrArg Host.Outcome.next ?_
    unfold traceRecord
    rw [if_neg (by simpa [hvn] using hsrc), if_pos hbad]
  case absorbed => exact congrArg Host.Outcome.next (if_pos (by simpa using hp))
  case stored =>
    obtain ⟨hvn, hsrc⟩ := hp
    have ht : exec (.traceRecord p u) s = .next (setIo (trcStore s (trcWptr s) p.words) 0x16 0x014 (trcWptr s + 32)) :=
      congrArg Host.Outcome.next ((traceRecord_one u hvn hsrc hgood hlen).trans (funnelOne_room _ htake hroom))
    obtain ⟨hchange, hbanks, hio, hdma⟩ := trcStore_changes s (trcWptr s) p.words
    have htrc : (setIo (trcStore s (trcWptr s) p.words) 0x16 0x014 (trcWptr s + 32)).trc
        = { s.trc with data := put s.trc.data (trcWptr s) p.words, stored := s.trc.stored + 1 } := by
      rw [hchange]
      rfl
    refine ⟨_, ht, ?_, ?_, fun a ha => ?_, ?_, ?_, hbanks, hio, hdma⟩
    · rw [htrc]
      exact lookup_put_same _ _ _
    · exact (ioReg_setIo_same _ _ _ _).trans (Nat.mod_eq_of_lt hptr)
    · rw [htrc]
      exact lookup_put_other _ _ _ _ ha
    · rw [htrc]
    · rw [htrc]
      exact congrArg (fun v : State => { v with regs := (setIo (trcStore s (trcWptr s) p.words) 0x16 0x014 (trcWptr s + 32)).regs }) hchange
  case full =>
    obtain ⟨hvn, hsrc⟩ := hp
    have ht : exec (.traceRecord p u) s = .next (bumpIo (orIo { s with trc := { s.trc with on := false } } 0x16 0x004 32) 0x16 0x018 32 1) :=
      congrArg Host.Outcome.next ((traceRecord_one u hvn hsrc hgood hlen).trans (funnelOne_full _ htake hfull hwrap))
    refine ⟨_, ht, by simp [orIo], ?_, ?_, rfl⟩
    · exact (congrArg (bitOf · 5) (congrArg BitVec.toNat (reg_bump_other _ _ _ (by decide)))).trans (bitOf_orIo _ _ _ 32 (by decide) (by decide))
    · rw [ioReg_bumpIo_same _ _ _ _ (by decide)]
      exact congrArg (satAdd 32 · 1) (ioReg_setIo_other _ _ (by decide))
  case fires =>
    obtain ⟨v, hv, hds, hmd, hoff⟩ := ruleFire_holds h
    exact ⟨_, congrArg Host.Outcome.next hv, rfl, rfl, hoff, hds, hmd⟩

end Sys2Proof.Machine

namespace Sys2Proof.Machine

/-! ### Privileged code leaves a trace, and a command may fail (R574, R591, R593) -/

/-- A trace record and what it moves on are all that changes: the trace, TRC_LOST and the model's own counter. -/
def tracedOnly (s t : State) : Prop :=
  t = { s with regs := t.regs, trc := t.trc, freeCtr := t.freeCtr } ∧ ∀ k, k ≠ rkey 15 0x16 0x018 → reg t k = reg s k

theorem tracedOnly_trans {s t u : State} (h : tracedOnly s t) (k : tracedOnly t u) : tracedOnly s u := by
  obtain ⟨ht, hreg⟩ := h
  obtain ⟨hu, hreg'⟩ := k
  refine ⟨?_, fun x hx => (hreg' x hx).trans (hreg x hx)⟩
  rw [hu, ht]

theorem tracedOnly_storeTrc (s : State) (u n : Nat) (r : List Word) : tracedOnly s (storeTrc s u n (0x16, 0x018) r) := by
  have hbuf : tracedOnly s (bufRecord s u n r).1 := by
    unfold bufRecord
    dsimp only
    split <;> exact ⟨rfl, fun _ _ => rfl⟩
  unfold storeTrc
  dsimp only
  split
  · exact hbuf
  · exact tracedOnly_trans hbuf ⟨rfl, fun k hk => reg_bump_other _ _ _ hk⟩

theorem tracedOnly_tickFree (s : State) : tracedOnly s (tickFree s) := ⟨rfl, fun _ _ => rfl⟩

theorem tracedOnly_trcRecord (s : State) (u typ lo hi d : Nat) : tracedOnly s (trcRecord s u typ lo hi d) := by
  unfold trcRecord
  split
  · refine tracedOnly_trans (tracedOnly_storeTrc s u 12 (trcWords s u typ lo hi d)) ?_
    unfold syncDue
    split
    · unfold syncRecord
      exact tracedOnly_trans (tracedOnly_trans (tracedOnly_tickFree _) (tracedOnly_tickFree _))
        (tracedOnly_trans (tracedOnly_storeTrc _ _ _ _) ⟨rfl, fun _ _ => rfl⟩)
    · exact ⟨rfl, fun _ _ => rfl⟩
  · exact ⟨rfl, fun _ _ => rfl⟩

theorem tracedOnly_privGap (s : State) : tracedOnly s (privGap s) := by
  unfold privGap
  dsimp only
  split
  · exact ⟨rfl, fun _ _ => rfl⟩
  · exact tracedOnly_trans (tracedOnly_trcRecord _ _ _ _ _ _)
      (tracedOnly_trans (tracedOnly_trans (tracedOnly_tickFree _) (tracedOnly_tickFree _)) (tracedOnly_trcRecord _ _ _ _ _ _))

@[simp] theorem privGap_sec (s : State) : (privGap s).sec = s.sec := by rw [(tracedOnly_privGap s).1]
@[simp] theorem privGap_ident (s : State) : (privGap s).ident = s.ident := by rw [(tracedOnly_privGap s).1]
theorem privGap_reg (s : State) {k : Nat} (h : k ≠ rkey 15 0x16 0x018) : reg (privGap s) k = reg s k := (tracedOnly_privGap s).2 k h

/-- An accepted command that fails: its effect stays, and the reply in the ring has the status. -/
theorem hostCmd_fail_eq {op : Nat} {chk : State → Cmd → Nat} {act : State → Cmd → State × Res} {c : Cmd} {s e : State} {st : Nat}
    (h : accepts s op chk c = true) (ha : act (takeEntry s c) c = (e, .fail st)) (hs : e.md.safeHold = none) :
    hostCmd op chk act c s = writeReply e (mkReply e op c st 0 []) := by
  rw [hostCmd_accepts h, ha]
  exact answer_pcie (accepts_pcie h) hs

/-- The reply of a command that changed neither RPLR_PROD nor the ring's size stands where RPLR_PROD pointed before the command. -/
theorem lookup_reply_of {s e : State} (hprod : reg e (bkey 0x103C) = reg s (bkey 0x103C)) (hsize : reg e (bkey 0x1038) = reg s (bkey 0x1038)) (r : Reply) :
    lookup (writeReply e r).io.replies ((reg s (bkey 0x103C)).toNat % 2 ^ (reg s (bkey 0x1038)).toNat) = some r := by
  rw [← hprod, ← hsize]
  exact lookup_writeReply e r

/-! ### Key slots (R584, R585) -/

/-- One slot set, read back slot by slot. -/
theorem slotOf_put {s t : State} {k : Nat} {v : SlotSt × Digest} (h : t.sec.slots = put s.sec.slots k v) :
    slotOf? t k = v ∧ ∀ o, o ≠ k → slotOf? t o = slotOf? s o := by
  refine ⟨by simp [slotOf?, h], fun o ho => ?_⟩
  simp [slotOf?, h, lookup_put_other _ _ _ _ ho]

/-- An accepted KEY_SLOT that sets its slot: the slot alone changes. -/
theorem keySlot_sets {s : State} {c : Cmd} {st : SlotSt} {key : Digest} (h : accepts s 0x0A03 chkKeySlot c = true)
    (hact : actKeySlot (takeEntry s c) c = (setSlot (privGap (takeEntry s c)) (ksSlot c) st key, .ok [])) :
    let t := hostCmd 0x0A03 chkKeySlot actKeySlot c s
    slotOf? t (ksSlot c) = (st, key) ∧ (∀ o, o ≠ ksSlot c → slotOf? t o = slotOf? s o) ∧ t.sec.reqSigned = s.sec.reqSigned ∧ t.ds = s.ds ∧ t.md = s.md := by
  have hsec : (takeEntry s c).sec = s.sec := takeEntry_sec (accepts_pcie h)
  rw [hostCmd_ok_eq h hact (by simpa [setSlot] using (accepts_live h).1)]
  obtain ⟨hsame, hothers⟩ := slotOf_put (s := s) (t := writeReply (setSlot (privGap (takeEntry s c)) (ksSlot c) st key)
    (mkReply (setSlot (privGap (takeEntry s c)) (ksSlot c) st key) 0x0A03 c 0 0 [])) (k := ksSlot c) (v := (st, key)) (by simp [setSlot, hsec])
  exact ⟨hsame, hothers, by simp [setSlot, hsec], by simp [setSlot], by simp [setSlot]⟩

/-- The slot's state and the loads do not depend on the ring. -/
theorem slotState_takeEntry {s : State} {c : Cmd} (h : c.path = .pcie) (k : Nat) :
    slotOf? (takeEntry s c) k = slotOf? s k ∧ slotInUse (takeEntry s c) k = slotInUse s k := by
  simp [slotOf?, slotInUse, takeEntry_sec h]

/-- What KEY_SLOT answers for an OP below 3 on a slot in a state that no load uses. -/
def keySlotDone (s : State) (c : Cmd) (key : Digest) : Nat → SlotSt → State × Res
  | 0, .empty | 0, .installed => (setSlot (privGap s) (ksSlot c) .installed (sm3 (wordBytes (cWords c 1 16))), .ok [])
  | 1, .installed => (setSlot (privGap s) (ksSlot c) .locked key, .ok [])
  | 2, .installed | 2, .locked => (setSlot (privGap s) (ksSlot c) .revoked key, .ok [])
  | _, _ => (s, .refuse 0x0403)

theorem actKeySlot_eq {s : State} {c : Cmd} {op : Nat} {st : SlotSt} (hop : ksOp c = op) (h3 : op ≠ 3) (huse : slotInUse s (ksSlot c) = false)
    (hst : (slotOf? s (ksSlot c)).1 = st) : actKeySlot s c = keySlotDone s c (slotOf? s (ksSlot c)).2 op st := by
  subst hop hst
  unfold actKeySlot
  dsimp only
  rw [if_neg (by simpa using h3), if_neg (by simp [huse])]
  rfl

/-- The same of an accepted command, by the slot's state before it. -/
theorem actKeySlot_accepted {s : State} {c : Cmd} {op : Nat} {st : SlotSt} (h : accepts s 0x0A03 chkKeySlot c = true) (hop : ksOp c = op) (h3 : op ≠ 3)
    (huse : slotInUse s (ksSlot c) = false) (hst : (slotOf? s (ksSlot c)).1 = st) :
    actKeySlot (takeEntry s c) c = keySlotDone (takeEntry s c) c (slotOf? s (ksSlot c)).2 op st := by
  obtain ⟨hslot, hused⟩ := slotState_takeEntry (s := s) (accepts_pcie h) (ksSlot c)
  rw [actKeySlot_eq hop h3 (hused.trans huse) (hslot ▸ hst), hslot]

/-- Settles O37: each OP by the slot's state. -/
theorem keySlotsFollowTheirStates : Obligations.KeySlotsFollowTheirStates := by
  unfold Obligations.KeySlotsFollowTheirStates
  refine fun s c => ⟨fun h hop huse hst => ?install, fun h hop huse hst => ?lock, fun h hop huse hst => ?revoke, fun h hop => ?signed,
    fun i h huse hcase => ?refused⟩
  case install =>
    refine ⟨_, rfl, keySlot_sets h ?_⟩
    obtain hst | hst := hst <;> exact actKeySlot_accepted h hop (by decide) huse hst
  case lock => exact ⟨_, rfl, keySlot_sets h (actKeySlot_accepted h hop (by decide) huse hst)⟩
  case revoke =>
    refine ⟨_, rfl, keySlot_sets h ?_⟩
    obtain hst | hst := hst <;> exact actKeySlot_accepted h hop (by decide) huse hst
  case signed =>
    have hact : actKeySlot (takeEntry s c) c = ({ privGap (takeEntry s c) with sec := { (privGap (takeEntry s c)).sec with reqSigned := true } }, .ok []) :=
      if_pos (by simp [hop])
    refine ⟨_, congrArg Host.Outcome.next (hostCmd_ok_eq h hact (by simpa using (accepts_live h).1)), ?_⟩
    simp [takeEntry_sec (accepts_pcie h)]
  case refused =>
    have hrefuse (hno : actKeySlot (takeEntry s c) c = (takeEntry s c, .refuse 0x0403)) :
        let t := hostCmd 0x0A03 chkKeySlot actKeySlot c s
        t.sec.slots = s.sec.slots
          ∧ ∃ r, lookup t.io.replies ((reg s (bkey 0x103C)).toNat % 2 ^ (reg s (bkey 0x1038)).toNat) = some r ∧ r.status = 0x0403 := by
      obtain ⟨hframe, hreply⟩ := hostCmd_refuse h hno
      exact ⟨congrArg (·.sec.slots) hframe, hreply⟩
    obtain ⟨rfl, hop, hst | hst⟩ | ⟨rfl, hop, hst⟩ | ⟨rfl, hop, hst⟩ := hcase
    all_goals exact ⟨_, rfl, hrefuse (actKeySlot_accepted h hop (by decide) huse hst)⟩

end Sys2Proof.Machine

namespace Sys2Proof.Machine

/-! ### Certificates, attestation and authorisation (R583, R590, R591) -/

theorem attestWords_length (s : State) {nonce : List Word} (h : nonce.length = 8) : (attestWords s nonce).length = 72 := by
  simp [attestWords, digestWords_length, dwords, words96, h]

/-- The report does not show what a trace record changes. -/
theorem attestWords_traced {s t : State} (h : tracedOnly s t) (nonce : List Word) : attestWords t nonce = attestWords s nonce := by
  obtain ⟨ht, -⟩ := h
  rw [ht]
  rfl

/-- The state in which a report has been written to host memory. -/
def reportWritten (s : State) (w : Waiting) : State :=
  let u := privGap s
  let ws := attestWords u (cWords w.cmd 0 8) ++ digestWords (Config.freeDigest u.freeCtr) ++ digestWords (Config.freeDigest (u.freeCtr + 1))
  { tickN u 2 with io := { u.io with dma := put u.io.dma (cPar64 w.cmd 8) ws } }

theorem attestComplete_writes {s : State} {w : Waiting} (h : firstWaiting s (fun w => w.opcode == 0x0A01) = some w) :
    attestComplete s = completeFirst (reportWritten s w) (fun w => w.opcode == 0x0A01) 0 [352] := by
  unfold attestComplete
  dsimp only
  rw [h]
  rfl

/-- The commands of AUTHORISE keep the reply ring where it is. -/
theorem authorise_ring (s : State) {c : Cmd} (h : c.path = .pcie) :
    reg (privGap (takeEntry s c)) (bkey 0x103C) = reg s (bkey 0x103C) ∧ reg (privGap (takeEntry s c)) (bkey 0x1038) = reg s (bkey 0x1038) :=
  ⟨(privGap_reg _ (by decide)).trans (reg_takeEntry h (by decide)), (privGap_reg _ (by decide)).trans (reg_takeEntry h (by decide))⟩

/-- The challenge spent. -/
def challengeSpent (s : State) : State := { privGap s with sec := { (privGap s).sec with challenge := none } }

/-- What AUTHORISE does with a record. -/
theorem actAuthorise_record {s : State} {c : Cmd} (h : cPar c 0 = 1) :
    actAuthorise s c = if authRecordOk s c = false then (challengeSpent s, .fail 0x0401)
      else if sigKey c ≠ some Config.lenauxKey then (verifyFailed (challengeSpent s), .fail 0x0401)
      else if cPar c 2 = 1 then ({ challengeSpent s with sec := { (challengeSpent s).sec with authService := true } }, .ok [])
      else ({ challengeSpent s with sec := { (challengeSpent s).sec with authTrace := true }, trc := { (challengeSpent s).trc with priv := true } }, .ok []) := by
  have hok : authRecordOk (privGap s) c = authRecordOk s c := by simp [authRecordOk]
  unfold actAuthorise
  dsimp only
  rw [if_neg (by simp [h]), hok]
  simp only [challengeSpent, Bool.not_eq_true', bne_iff_ne, beq_iff_eq]

/-- A record that fails spends the challenge, sets no authorisation, and is counted where its signature is what failed. -/
theorem actAuthorise_fails {s : State} {c : Cmd} (h : cPar c 0 = 1) (hbad : authRecordOk s c = false ∨ sigKey c ≠ some Config.lenauxKey) :
    ∃ e, actAuthorise s c = (e, .fail 0x0401) ∧ e.md = s.md ∧ e.ds = s.ds ∧ e.sec = { s.sec with challenge := none }
      ∧ ∀ k, k ≠ rkey 15 0x17 0x018 → reg e k = reg (privGap s) k := by
  rw [actAuthorise_record h]
  by_cases hok : authRecordOk s c = false
  · exact ⟨_, if_pos hok, by simp [challengeSpent], by simp [challengeSpent], by simp [challengeSpent], fun _ _ => rfl⟩
  · obtain hbad | hbad := hbad
    · exact absurd hbad hok
    refine ⟨_, (if_neg hok).trans (if_pos hbad), by simp [challengeSpent, verifyFailed], by simp [challengeSpent, verifyFailed],
      by simp [challengeSpent, verifyFailed], fun k hk => reg_bump_other _ _ _ hk⟩

theorem authRecordOk_takeEntry {s : State} {op : Nat} {chk : State → Cmd → Nat} {c : Cmd} (h : accepts s op chk c = true) :
    authRecordOk (takeEntry s c) c = authRecordOk s c := by
  simp [authRecordOk, takeEntry_sec (accepts_pcie h)]

/-- A fresh challenge kept. -/
def challengeSet (s : State) : State := tickN { privGap s with sec := { (privGap s).sec with challenge := some (Config.freeDigest (privGap s).freeCtr) } } 2

theorem challengeSet_reg (s : State) (k : Nat) : reg (challengeSet s) k = reg (privGap s) k := by simp [challengeSet, tickN, reg]

theorem actAuthorise_challenge {s : State} {c : Cmd} (h : cPar c 0 = 0) :
    actAuthorise s c = (challengeSet s, .ok (digestWords (Config.freeDigest (privGap s).freeCtr) ++ [Config.freeWord ((privGap s).freeCtr + 1)])) :=
  if_pos (by simp [h])

/-- Settles O38: each command by its action on the accepted packet, the report by what ATTEST_COMPLETE writes. -/
theorem certificatesAttestationAndAuthorisation : Obligations.CertificatesAttestationAndAuthorisation := by
  unfold Obligations.CertificatesAttestationAndAuthorisation
  refine fun s c => ⟨fun h => ⟨_, rfl, hostCmd_replies h rfl (by simp) (by simp)⟩,
    fun h hroom => ⟨_, rfl, hostCmd_accept h hroom rfl (by simpa using (accepts_live h).1) (by simpa using (accepts_live h).2)⟩,
    fun w hs hw => ?report, fun h hp => ?challenge, fun h hp hok hkey => ?authorised, fun h hp hbad => ?failed⟩
  case report =>
    have ht : exec .attestComplete s = .next (completeFirst (reportWritten s w) (fun w => w.opcode == 0x0A01) 0 [352]) := by
      refine congrArg Host.Outcome.next ((if_neg (by simp [inSafeHold, hs])).trans (attestComplete_writes hw))
    have hio : (reportWritten s w).io.waiting = s.io.waiting := congrArg (·.waiting) (privGap_frame s).2.2.2
    have hw' : firstWaiting (reportWritten s w) (fun w => w.opcode == 0x0A01) = some w := by rw [firstWaiting, hio]; exact hw
    obtain ⟨hcount, -, hdma, -⟩ := completeFirst_host hw' 0 [352]
    refine ⟨_, attestWords s (cWords w.cmd 0 8) ++ digestWords (Config.freeDigest (privGap s).freeCtr) ++ digestWords (Config.freeDigest ((privGap s).freeCtr + 1)),
      ht, ?_, ?_, ?_, ?_, ?_, ?_⟩
    · rw [hdma, ← attestWords_traced (tracedOnly_privGap s)]
      exact lookup_put_same _ _ _
    · simp [attestWords_length, cWords, digestWords_length]
    · rw [List.append_assoc]
      exact List.take_left' (attestWords_length s (by simp [cWords]))
    · rw [hcount, hio]
    · simp [reportWritten, tickN]
    · simp [reportWritten, tickN]
  case challenge =>
    have hact := actAuthorise_challenge (s := takeEntry s c) hp
    obtain ⟨hprod, hsize⟩ := authorise_ring s (accepts_pcie h)
    rw [← challengeSet_reg] at hprod hsize
    have hsec : (takeEntry s c).sec = s.sec := takeEntry_sec (accepts_pcie h)
    refine ⟨_, Config.freeDigest (privGap (takeEntry s c)).freeCtr, _, congrArg Host.Outcome.next (hostCmd_ok_eq h hact (by simpa [challengeSet, tickN] using (accepts_live h).1)), ?_, lookup_reply_of hprod hsize _, ?_, ?_⟩
    · simp [challengeSet, tickN]
    · exact List.take_left' (digestWords_length _)
    · simp [challengeSet, tickN, hsec]
  case authorised =>
    have hact := actAuthorise_record (s := takeEntry s c) hp
    have hsec : (takeEntry s c).sec = s.sec := takeEntry_sec (accepts_pcie h)
    rw [if_neg (by simp [authRecordOk_takeEntry h, hok]), if_neg (by simp [hkey])] at hact
    by_cases hp2 : cPar c 2 = 1
    · rw [if_pos hp2] at hact
      refine ⟨_, congrArg Host.Outcome.next (hostCmd_ok_eq h hact (by simpa [challengeSpent] using (accepts_live h).1)), ?_⟩
      simp [challengeSpent, hsec, hp2]
    · rw [if_neg hp2] at hact
      refine ⟨_, congrArg Host.Outcome.next (hostCmd_ok_eq h hact (by simpa [challengeSpent] using (accepts_live h).1)), ?_⟩
      simp [challengeSpent, hsec, hp2]
  case failed =>
    obtain ⟨e, hact, hmd, hds, hspent, hring⟩ := actAuthorise_fails (s := takeEntry s c) hp (by rwa [authRecordOk_takeEntry h])
    obtain ⟨hprod, hsize⟩ := authorise_ring s (accepts_pcie h)
    have hsec : (takeEntry s c).sec = s.sec := takeEntry_sec (accepts_pcie h)
    refine ⟨_, _, congrArg Host.Outcome.next (hostCmd_fail_eq h hact (by rw [hmd]; simpa using (accepts_live h).1)), ?_, ?_, ?_,
      lookup_reply_of ((hring _ (by decide)).trans hprod) ((hring _ (by decide)).trans hsize) _, rfl, ?_, ?_⟩
    all_goals simp [hspent, hsec, hds, hmd]

end Sys2Proof.Machine

namespace Sys2Proof.Machine

/-! ### Management sessions (R376 to R379, R592) -/

/-- A word that no new session may have for its identifier: 0, or an open session's. -/
def idTaken (s : State) (w : Word) : Bool := w == 0 || s.sec.sessions.any (fun x => x.id == w)

/-- Of the words looked at, the one chosen is free, or every one was taken. -/
theorem freshId_free_or_all (s : State) (n : Nat) (w : Word) :
    idTaken s (freshId s n w) = false ∨ ∀ i : Nat, i < n → idTaken s (w + BitVec.ofNat 32 i) = true := by
  induction n generalizing w with
  | zero => exact .inr fun i hi => absurd hi (by omega)
  | succ n ih =>
    by_cases hw : idTaken s w = true
    · have hnext : freshId s (n + 1) w = freshId s n (w + 1) := if_pos hw
      rw [hnext]
      refine (ih (w + 1)).imp_right fun h i hi => ?_
      cases i with
      | zero => simpa using hw
      | succ i => rw [show w + BitVec.ofNat 32 (i + 1) = w + 1 + BitVec.ofNat 32 i by bv_omega]; exact h i (by omega)
    · have hthis : freshId s (n + 1) w = w := if_neg hw
      rw [hthis]
      exact .inl (by simpa using hw)

/-- With fewer than 8 sessions open, one of nine words in a row is free (R592). -/
theorem freshId_free {s : State} (h : s.sec.sessions.length < 8) (w : Word) : idTaken s (freshId s 9 w) = false := by
  refine (freshId_free_or_all s 9 w).resolve_right fun hall => ?_
  have hsub : (List.range 9).map (fun i => w + BitVec.ofNat 32 i) ⊆ 0 :: s.sec.sessions.map (·.id) := by
    intro v hv
    obtain ⟨i, hi, rfl⟩ := List.mem_map.mp hv
    have htaken := hall i (List.mem_range.mp hi)
    simpa [idTaken] using htaken
  have hnodup : ((List.range 9).map (fun i => w + BitVec.ofNat 32 i)).Nodup := by
    refine List.Nodup.map_on (fun i hi j hj hij => ?_) List.nodup_range
    rw [List.mem_range] at hi hj
    bv_omega
  have hle := (hnodup.subperm hsub).length_le
  simp at hle
  omega

/-- A change of a session that keeps its number, its mask and whether it closes. -/
def keepsIdentity (f : Session → Session) : Prop := ∀ y, (f y).id = y.id ∧ (f y).closing = y.closing ∧ (f y).mask = y.mask

theorem sendMgmt_onSession (s : State) (id : Word) (m : Reply ⊕ Event) :
    ∃ f, keepsIdentity f ∧ (sendMgmt s id m).sec = { s.sec with sessions := changeSessions s.sec.sessions id f } := by
  unfold sendMgmt
  split
  · exact ⟨fun y => y, fun y => ⟨rfl, rfl, rfl⟩, by simp [changeSessions]⟩
  · exact ⟨sentMore, fun y => ⟨rfl, rfl, rfl⟩, rfl⟩

/-- A reply to a session changes that session's counters and kept replies alone. -/
theorem sendReply_onSession (s : State) (id : Word) (r : Reply) :
    ∃ f, keepsIdentity f ∧ (sendReply s (.session id) r).sec = { s.sec with sessions := changeSessions s.sec.sessions id f }
      ∧ (sendReply s (.session id) r).ds = s.ds ∧ (sendReply s (.session id) r).md = s.md := by
  unfold sendReply
  split
  · exact ⟨fun y => y, fun y => ⟨rfl, rfl, rfl⟩, by simp [changeSessions], rfl, rfl⟩
  · dsimp only
    obtain ⟨f, hf, hsec⟩ := sendMgmt_onSession { s with sec := { s.sec with sessions := changeSessions s.sec.sessions id (keepReply r) } } id (.inl r)
    refine ⟨fun y => f (keepReply r y), fun y => hf (keepReply r y), ?_, by simp, by simp⟩
    rw [← changeSessions_twice (f := keepReply r) (fun _ => rfl)]
    exact hsec

/-- A session whose next command's SEQ has moved on. -/
def seqMoved (c : Cmd) (y : Session) : Session := { y with nextSeq := some (c.seq + 1) }

/-- An accepted command of a session came from it. -/
theorem acceptsOn_path {s : State} {id : Word} {op : Nat} {chk : State → Cmd → Nat} {c : Cmd} (h : acceptsOn s id op chk c = true) : c.path = .session id := by
  by_contra hne
  simp [acceptsOn, hne] at h

/-- The sessions after an answered SESSION of a session: that session changed, and those gone that close. -/
theorem sessionCommand_leaves {s : State} {c : Cmd} {id : Word} {g : Session → Session} (hg : ∀ y, (g y).id = y.id)
    (h : acceptsOn s id 0x0A02 chkSession c = true)
    (hact : actSession (takeEntry s c) c = (mapSession (privGap (takeEntry s c)) id g, .ok [])) :
    let t := dropClosing (hostCmd 0x0A02 chkSession actSession c s)
    ∃ f, (∀ y, (f y).id = y.id) ∧ (∀ y, ∃ z, (f y).mask = (g z).mask ∧ (f y).closing = (g z).closing)
      ∧ t.sec = { s.sec with sessions := (changeSessions s.sec.sessions id f).filter (fun x => !x.closing) } ∧ t.ds = s.ds ∧ t.md = s.md := by
  have hp := acceptsOn_path h
  have hu : (mapSession (privGap (takeEntry s c)) id g).sec = { s.sec with sessions := changeSessions s.sec.sessions id (fun y => g (seqMoved c y)) } := by
    rw [mapSession_sessions, privGap_sec, ← changeSessions_twice (f := seqMoved c) (fun _ => rfl)]
    simp only [takeEntry, hp]
    rfl
  have hkept : (mapSession (privGap (takeEntry s c)) id g).ds = s.ds ∧ (mapSession (privGap (takeEntry s c)) id g).md = s.md := by simp [mapSession_sessions]
  rw [hostCmd_acceptsOn h, hact]
  generalize mapSession (privGap (takeEntry s c)) id g = u at hu hkept
  obtain ⟨f, hf, hsec, hds, hmd⟩ := sendReply_onSession u id (mkReply u 0x0A02 c 0 0 [])
  rw [hu] at hsec
  dsimp only at hsec
  rw [changeSessions_twice (f := fun y => g (seqMoved c y)) fun y => hg _] at hsec
  have ht : settle (takeEntry s c) 0x0A02 c (u, .ok []) = sendReply u (.session id) (mkReply u 0x0A02 c 0 0 []) := by rw [← hp]; rfl
  rw [ht]
  refine ⟨fun y => f (g (seqMoved c y)), fun y => (hf _).1.trans (hg _), fun y => ⟨seqMoved c y, (hf _).2.2, (hf _).2.1⟩, ?_, hds.trans hkept.1, hmd.trans hkept.2⟩
  rw [dropClosing, hsec]

/-- The sessions of other numbers stay, unless they close. -/
theorem mem_changedSessions {l : List Session} {id : Word} {f : Session → Session} {x : Session} (hx : x ∈ l) (hid : x.id ≠ id) (hopen : x.closing = false) :
    x ∈ (changeSessions l id f).filter (fun y => !y.closing) :=
  List.mem_filter.mpr ⟨List.mem_map.mpr ⟨x, hx, by simp [hid]⟩, by simp [hopen]⟩

/-- The session that OP 0 adds. -/
def openedSession (s : State) (c : Cmd) : Session :=
  let n := (privGap s).freeCtr
  let ed := digestWords (Config.freeDigest (n + 1)) ++ digestWords (Config.freeDigest (n + 2))
  { id := freshId (privGap s) 9 (Config.freeWord n), key := sessionKey n (cWords c 2 16) ed, slot := cPar c 1, ctrIn := 0, ctrOut := 0, nextSeq := none
    version := none, mask := 0, replies := [], closing := false }

/-- The state with that session. -/
def sessionOpened (s : State) (c : Cmd) : State :=
  tickN { privGap s with sec := { s.sec with sessions := s.sec.sessions ++ [openedSession s c] } } 7

theorem actSession_opens {s : State} {c : Cmd} (hop : cPar c 0 = 0) (hroom : s.sec.sessions.length < 8) (huse : slotUsable (slotOf? s (cPar c 1)).1 = true)
    (hkey : sigKey c = some (slotOf? s (cPar c 1)).2) : ∃ ws, actSession s c = (sessionOpened s c, .ok ws) := by
  have hslot : slotOf? (privGap s) (cPar c 1) = slotOf? s (cPar c 1) := by simp [slotOf?]
  unfold actSession
  dsimp only
  rw [hop]
  show ∃ ws, openSession (privGap s) c = _
  unfold openSession
  dsimp only
  rw [hslot, privGap_sec, if_neg (by omega), if_neg (by simp [huse]), if_neg (by simp [hkey])]
  exact ⟨_, rfl⟩

/-- Settles O36: an opened session by the words its identifier is chosen from, the others by what a session's own command leaves. -/
theorem sessionsOpenSubscribeAndClose : Obligations.SessionsOpenSubscribeAndClose := by
  unfold Obligations.SessionsOpenSubscribeAndClose
  refine fun s c => ⟨fun h hop hroom huse hkey hopen => ?opened, fun id h hop => ?subscribe, fun id h hop => ?close⟩
  case opened =>
    have hsec : (takeEntry s c).sec = s.sec := takeEntry_sec (accepts_pcie h)
    have hslot := (slotState_takeEntry (accepts_pcie h) (s := s) (cPar c 1)).1
    obtain ⟨ws, hact⟩ := actSession_opens (s := takeEntry s c) (c := c) hop (by rwa [hsec]) (by rwa [hslot]) (by rwa [hslot])
    have hfree := freshId_free (s := privGap (takeEntry s c)) (by rwa [privGap_sec, hsec]) (Config.freeWord (privGap (takeEntry s c)).freeCtr)
    simp only [idTaken, privGap_sec, hsec, Bool.or_eq_false_iff, beq_eq_false_iff_ne, List.any_eq_false, beq_iff_eq] at hfree
    have hstay : (s.sec.sessions ++ [openedSession (takeEntry s c) c]).filter (fun x => !x.closing) = s.sec.sessions ++ [openedSession (takeEntry s c) c] := by
      refine List.filter_eq_self.mpr fun x hx => ?_
      obtain hx | hx := List.mem_append.mp hx
      · simp [hopen x hx]
      · simp [List.mem_singleton.mp hx, openedSession]
    refine ⟨_, openedSession (takeEntry s c) c,
      congrArg (fun u => Host.Outcome.next (dropClosing u)) (hostCmd_ok_eq h hact (by simpa [sessionOpened, tickN] using (accepts_live h).1)),
      ?_, rfl, rfl, rfl, rfl, rfl, ⟨_, _, rfl⟩, rfl, hfree.1, hfree.2, ?_⟩
    · simp only [dropClosing, writeReply_frame, sessionOpened, tickN, hsec]
      exact hstay
    · simp [dropClosing, sessionOpened, tickN, hsec]
  case subscribe =>
    have hact : actSession (takeEntry s c) c = (mapSession (privGap (takeEntry s c)) id (fun x => { x with mask := BitVec.ofNat 32 (cPar c 1) }), .ok []) := by
      unfold actSession
      rw [hop, acceptsOn_path h]
      rfl
    obtain ⟨f, hid, hf, hsec, hds, hmd⟩ := sessionCommand_leaves (by exact fun _ => rfl) h hact
    refine ⟨_, rfl, fun x hx hxid => ?_, fun x hx hxid hxo => ?_, congrArg (·.slots) hsec, congrArg (·.authService) hsec, hds, hmd⟩
    · rw [hsec] at hx
      obtain ⟨y, rfl⟩ := mem_changeSessions (List.mem_filter.mp hx).1 hxid
      obtain ⟨z, hz, -⟩ := hf y
      exact hz
    · rw [hsec]
      exact mem_changedSessions hx hxid hxo
  case close =>
    have hact : actSession (takeEntry s c) c = (mapSession (privGap (takeEntry s c)) id (fun x => { x with closing := true }), .ok []) := by
      unfold actSession
      rw [hop, acceptsOn_path h]
      rfl
    obtain ⟨f, hid, hf, hsec, hds, hmd⟩ := sessionCommand_leaves (by exact fun _ => rfl) h hact
    refine ⟨_, rfl, fun x hx hxid => ?_, fun x hx hxid hxo => ?_, congrArg (·.slots) hsec, congrArg (·.authService) hsec, hds, hmd⟩
    · rw [hsec] at hx
      obtain ⟨hmem, hstays⟩ := List.mem_filter.mp hx
      obtain ⟨y, rfl⟩ := mem_changeSessions hmem hxid
      obtain ⟨z, -, hz⟩ := hf y
      simp [hz] at hstays
    · rw [hsec]
      exact mem_changedSessions hx hxid hxo

end Sys2Proof.Machine

namespace Sys2Proof.Machine

/-! ### Loads of fabric regions (R402 to R405, R429 to R433) -/

/-- What the configuration of pins leaves alone. -/
def pinView (s : State) := ((s.fab.regions, s.fab.logic.frames, s.boot, s.ctl, s.banks), (s.io, s.err), s.sec, (s.ds, s.md, s.seq))

theorem pinView_configurePins (s : State) (cells : List (Nat × Word)) : pinView (configurePins s cells) = pinView s := by
  refine foldl_keeps pinView _ (fun u e => ?_) cells s
  split
  · rw [(holdPad_spec _ _).1]
    rfl
  · rfl

theorem regionSt_put {s t : State} {r : Nat} {st : RegionSt} (h : t.fab.regions = put s.fab.regions r st) :
    regionSt t r = st ∧ ∀ o, o ≠ r → regionSt t o = regionSt s o := by
  refine ⟨by simp [regionSt, h], fun o ho => ?_⟩
  simp [regionSt, h, lookup_put_other _ _ _ _ ho]

/-- A region being loaded with a bitstream. -/
def loadBegun (s : State) (r : Nat) (p : PartialBits) : State :=
  { privGap s with fab := { s.fab with regions := put s.fab.regions r .loading, loads := put s.fab.loads r p } }

@[simp] theorem privGap_fab (s : State) : (privGap s).fab = s.fab := by rw [(tracedOnly_privGap s).1]
@[simp] theorem privGap_seq (s : State) : (privGap s).seq = s.seq := by rw [(tracedOnly_privGap s).1]

theorem actPrLoad_begins {s : State} {c : Cmd} {p : PartialBits} (hp : bitsOf c = some p) (hbar : prBars s (cPar c 0) = 0) (hkey : prKeyOk s p = true)
    (hsig : prSigOk s p = true) (hlen : p.table.length = p.nFrames) (hrise : risingFrames p.table = true) (hhere : p.table.all (entryHere (cPar c 0)) = true) :
    actPrLoad s c = (loadBegun s (cPar c 0) p, .accept) := by
  unfold actPrLoad
  rw [hp]
  dsimp only
  rw [if_neg (by simp [hbar]), if_neg (by simp [hkey]), if_neg (by simp [hsig]), if_neg (by simp [hlen, hrise, hhere])]
  simp [loadBegun]

/-- The keys, slots and bars of a load do not depend on the ring. -/
theorem prChecks_takeEntry {s : State} {c : Cmd} (h : c.path = .pcie) (p : PartialBits) (r : Nat) :
    prBars (takeEntry s c) r = prBars s r ∧ prKeyOk (takeEntry s c) p = prKeyOk s p ∧ prSigOk (takeEntry s c) p = prSigOk s p := by
  simp [prBars, prKeyOk, prSigOk, slotOf?, takeEntry_sec h, regionSt, connected]

/-- A load's frames written, and its region in the state of its end. -/
def loadEnded (s : State) (r : Nat) (p : PartialBits) (st : RegionSt) : State :=
  let u := writeFrames s (writtenRecords p)
  { u with fab := { u.fab with loads := del u.fab.loads r, regions := put u.fab.regions r st } }

/-- The region's digest kept, for a region that is to be released. -/
def digestKept (s : State) (r : Nat) (d : Digest) : State :=
  { s with sec := { s.sec with prDigests := put s.sec.prDigests r d }, fab := { s.fab with logic := { s.fab.logic with fresh := ins s.fab.logic.fresh r } } }

theorem endPrLoad_eq (s : State) (r : Nat) (p : PartialBits) :
    endPrLoad s r p = if bodyStatus p = 0 then
      (dropReq (configurePins (digestKept (loadEnded s r p .valid) r p.bodyDigest) (if r == 32 then p.ioCells else [])) 8 (regionUnit r), 0)
    else (fault (loadEnded s r p .invalid) { cls := 2, cause := 0x0903, unit := siteLoc (if r < 32 then r / 4 else 15), d1 := r }, bodyStatus p) := by
  have hdef : endPrLoad s r p = if (bodyStatus p == 0) = true then
      (dropReq (configurePins (digestKept (loadEnded s r p (if (bodyStatus p == 0) = true then .valid else .invalid)) r p.bodyDigest)
        (if r == 32 then p.ioCells else [])) 8 (regionUnit r), 0)
    else (fault (loadEnded s r p (if (bodyStatus p == 0) = true then .valid else .invalid))
      { cls := 2, cause := 0x0903, unit := siteLoc (if r < 32 then r / 4 else 15), d1 := r }, bodyStatus p) := rfl
  rw [hdef]
  by_cases h : bodyStatus p = 0 <;> simp only [h, beq_self_eq_true, beq_iff_eq, if_true, if_false]

/-- The end of a load: its region VALID or INVALID, its good frames written, and with a good body its digest kept. -/
theorem endPrLoad_ends (s : State) (r : Nat) (p : PartialBits) :
    let t := (endPrLoad s r p).1
    t.fab.regions = put s.fab.regions r (if bodyStatus p = 0 then .valid else .invalid)
    ∧ t.fab.logic.frames = (writtenRecords p).foldl (fun m f => put m f.addr.toNat f.items) s.fab.logic.frames
    ∧ (bodyStatus p = 0 → t.sec.prDigests = put s.sec.prDigests r p.bodyDigest) ∧ t.io.waiting = s.io.waiting
    ∧ t.ds = s.ds ∧ t.md = s.md ∧ t.seq = s.seq := by
  rw [endPrLoad_eq]
  by_cases hst : bodyStatus p = 0
  · rw [if_pos hst, if_pos hst]
    have hpins := pinView_configurePins (digestKept (loadEnded s r p .valid) r p.bodyDigest) (if r == 32 then p.ioCells else [])
    simp only [pinView, Prod.mk.injEq] at hpins
    obtain ⟨⟨hregions, hframes, -⟩, ⟨hio, -⟩, hsec, hds, hmd, hseq⟩ := hpins
    exact ⟨hregions, hframes, fun _ => congrArg (·.prDigests) hsec, congrArg (·.waiting) hio, hds, hmd, hseq⟩
  · rw [if_neg hst, if_neg hst]
    have hview := transferView_fault (loadEnded s r p .invalid) { cls := 2, cause := 0x0903, unit := siteLoc (if r < 32 then r / 4 else 15), d1 := r } (by simp)
    simp only [transferView, Prod.mk.injEq] at hview
    obtain ⟨⟨hwait, -⟩, ⟨hmd, hseq, -⟩, -⟩ := hview
    exact ⟨by simp only [fault_frame]; rfl, by simp only [fault_frame]; rfl, fun h => absurd h hst, hwait, by simp only [fault_frame]; rfl, hmd, hseq⟩

/-! The digests of the loads are no part of a session (R590). -/

theorem sendMgmt_prDigests (s : State) (id : Word) (m : Reply ⊕ Event) : (sendMgmt s id m).sec.prDigests = s.sec.prDigests := by
  obtain ⟨f, -, hsec⟩ := sendMgmt_onSession s id m
  rw [hsec]

theorem queueEvent_prDigests (s : State) (code st : Nat) (tag : BitVec 16) (ws : List Word) : (queueEvent s code st tag ws).sec.prDigests = s.sec.prDigests := by
  unfold queueEvent copyEvent
  dsimp only
  split
  · rfl
  · exact foldl_keeps (·.sec.prDigests) _ (fun u x => sendMgmt_prDigests u _ _) _ _

theorem completeFirst_prDigests (s : State) (p : Waiting → Bool) (st : Nat) (ws : List Word) : (completeFirst s p st ws).sec.prDigests = s.sec.prDigests := by
  unfold completeFirst postCompletion
  repeat' split
  · rfl
  · rfl
  · rfl
  · exact queueEvent_prDigests _ _ _ _ _

/-- Settles O41: a load by what its action is on an accepted packet, its end by what becomes of the region. -/
theorem partialLoadsOfFabricRegions : Obligations.PartialLoadsOfFabricRegions := by
  unfold Obligations.PartialLoadsOfFabricRegions
  refine fun s c => ⟨fun p h hp hbar hkey hsig hlen hrise hhere hroom => ?load, fun w p hs hw hp => ?ends, fun h => ?status⟩
  case load =>
    obtain ⟨hbar', hkey', hsig'⟩ := prChecks_takeEntry (s := s) (accepts_pcie h) p (cPar c 0)
    have hact := actPrLoad_begins (s := takeEntry s c) hp (hbar'.trans hbar) (hkey'.trans hkey) (hsig'.trans hsig) hlen hrise hhere
    obtain ⟨hregion, hothers⟩ := regionSt_put (s := s) (t := writeReply (nowWaiting (loadBegun (takeEntry s c) (cPar c 0) p) 0x0C01 c)
      (mkReply (nowWaiting (loadBegun (takeEntry s c) (cPar c 0) p) 0x0C01 c) 0x0C01 c 1 0 [])) (r := cPar c 0) (st := .loading)
      (by simp [nowWaiting, loadBegun])
    refine ⟨_, congrArg Host.Outcome.next (hostCmd_accept_eq h hroom hact (by simpa [loadBegun] using (accepts_live h).1)), hregion, hothers, ?_,
      waitingOf_mem_writeReply _ _ _ _, ?_, ?_, ?_⟩
    all_goals simp [nowWaiting, loadBegun]
  case ends =>
    obtain ⟨hregions, hframes, hdigest, hwait, hds, hmd, hseq⟩ := endPrLoad_ends s (cPar w.cmd 0) p
    have hw' : firstWaiting (endPrLoad s (cPar w.cmd 0) p).1 (fun w => w.opcode == 0x0C01) = some w := by rw [firstWaiting, hwait]; exact hw
    have ht : exec .prLoadComplete s = .next (completeFirst (endPrLoad s (cPar w.cmd 0) p).1 (fun w => w.opcode == 0x0C01) (endPrLoad s (cPar w.cmd 0) p).2 []) := by
      refine congrArg Host.Outcome.next ((if_neg (by simp [inSafeHold, hs])).trans ?_)
      unfold prLoadComplete
      dsimp only
      rw [hw]
      dsimp only
      rw [hp]
    refine ⟨_, ht, ?_⟩
    generalize endPrLoad s (cPar w.cmd 0) p = e at *
    obtain ⟨hregion, hothers⟩ := regionSt_put (s := s) (t := completeFirst e.1 (fun w => w.opcode == 0x0C01) e.2 []) (r := cPar w.cmd 0)
      (by rw [← hregions]; simp)
    refine ⟨hregion, hothers, fun h => ?_, ?_, ?_, ?_, ?_, ?_⟩
    · rw [completeFirst_prDigests, hdigest h]
      exact lookup_put_same _ _ _
    · simpa using hframes
    · rw [(completeFirst_host hw' e.2 []).1, hwait]
    · simpa using hds
    · simpa using hmd
    · simpa using hseq
  case status =>
    have hact : actFabStatus (takeEntry s c) c = (takeEntry s c, .ok [BitVec.ofNat 32 (regionCode (regionSt s (cPar c 0)))]) := by simp [actFabStatus, regionSt]
    exact ⟨_, rfl, hostCmd_replies h hact (by simp) (by simp)⟩

end Sys2Proof.Machine

namespace Sys2Proof.Machine

/-! ### What a warm reset keeps of the trace (R408, R573) -/

/-- A record in handling whose class number is far beyond the five of R528: its counter, 4 bytes on for each class, lies at TRC_CTRL. -/
def strayClass : ErrRec := {
  cause := 0, cls := 524285, flags := 0, unit := 0, dcn := 0, time := 0, seq := 0, memClass := 0xFF, source := 0, stallUs := 0, address := 0
  d1 := 0, d2 := 0, syndrome := 0 }

/-- A device with a RESET due, a trace into a bank with all of TRC_CTRL [13:0] set, and that record in handling. -/
def strayCounted : State := { State.reset with
  regs := [(rkey 15 0x16 0x000, 0x3FFF)], err := { State.reset.err with pending := [strayClass] }
  trc := { State.reset.trc with data := [(0, [])] }, boot := { State.resetBoot with resetDue := true } }

theorem strayCounted_data : trcDest strayCounted = 0 ∧ (warmReset strayCounted 0x11).trc.data = [(0, [])] := by decide +kernel

/-- Refutes O6: as its records are made, a fault in handling of a class beyond 5 counts itself in TRC_CTRL, which moves DEST from 0 to 1;
the trace of a bank then stays at the warm reset, where it is to be lost. -/
theorem not_resetsKeepAndClear : ¬ Obligations.ResetsKeepAndClear := by
  unfold Obligations.ResetsKeepAndClear
  intro h
  obtain ⟨t, ht, -, -, -, -, -, -, -, -, -, -, -, -, -, -, -, -, hdata, -⟩ :=
    (h.1 strayCounted State.reset.straps).2 (.warmReset 0x11) 0x11 (.inr (.inl ⟨rfl, rfl, rfl⟩))
  have hreset : exec (.warmReset 0x11) strayCounted = .next (warmReset strayCounted 0x11) := rfl
  obtain rfl := Host.Outcome.next.inj (hreset.symm.trans ht)
  rw [strayCounted_data.1, strayCounted_data.2] at hdata
  cases hdata

end Sys2Proof.Machine

namespace Sys2Proof.Machine

/-! ### Start-up checks and the base personality (R87, R167, R169, R417 to R419) -/

/-- A start-up failure: PHASE 7 with its cause and CFG_ERR_N; beside the start-up only what completes the waiting BASE_LOADs changes. -/
theorem startUpFailure_fails {s : State} (h : s.boot.phase ≠ 7) (cause st : Nat) :
    let t := startUpFailure s cause st
    t.boot = { s.boot with phase := 7, cause := cause, cfgErr := true } ∧ t.ds = s.ds ∧ t.fab = s.fab ∧ t.ident = s.ident
    ∧ t.io.waiting.all (fun w => w.opcode != 0x0C00) = true := by
  unfold startUpFailure
  rw [if_neg (by simpa using h)]
  exact ⟨by simp, by simp, by simp, by simp, completeAll_waiting _ _ _ _⟩

/-- The groups that a self-test adds to those that have failed before. -/
def wornWith (worn found : List (Nat × Nat)) : List (Nat × Nat) :=
  found.foldl (fun a e => if e.2 < 33 && !a.contains e then a ++ [e] else a) worn

theorem mem_wornWith (found worn : List (Nat × Nat)) (e : Nat × Nat) : e ∈ wornWith worn found ↔ e ∈ worn ∨ e ∈ found ∧ e.2 < 33 := by
  induction found generalizing worn with
  | nil => simp [wornWith]
  | cons x xs ih =>
    have hstep : wornWith worn (x :: xs) = wornWith (if x.2 < 33 && !worn.contains x then worn ++ [x] else worn) xs := rfl
    rw [hstep, ih, List.mem_cons]
    split
    next hnew => grind
    next hold => grind

/-- The part with what a self-test found among its worn groups. -/
def wornState (s : State) (found : List (Nat × Nat)) : State := { s with ident := { s.ident with worn := wornWith s.ident.worn found } }

theorem groupSelfTest_eq {s : State} (found : List (Nat × Nat)) (hmode : s.md.mode = .boot) (hremap : s.boot.remap = false) :
    groupSelfTest s found = if (diesOf s).any (dieBeyond (failedMap (s.ident.badGroups ++ s.ident.worn ++ found))) then startUpFailure (wornState s found) 0x09 0x0501
      else { wornState s found with ds := { s.ds with failed := failedMap (s.ident.badGroups ++ s.ident.worn ++ found) }, boot := { s.boot with remap := true } } := by
  unfold groupSelfTest
  rw [if_neg (by simp [hmode, hremap])]
  rfl

/-- DDR5_CTRL as the training shows it: channels, DIMMs per channel, and READY. -/
def ddrShown (s : State) (ch : Nat) (two ok : Bool) : State := setIo s 0x03 0x000 (ch % 256 + 256 * b2n two + 512 * b2n ok)

/-- DDR5 in use, with its installed size and the pages of the design area. -/
def ddrReady (s : State) (gb pages : Nat) : State :=
  { s with img := { s.img with ddrGb := gb, area := pages, free := pages }, boot := { s.boot with ddr := true } }

theorem ioReg_ddrReady (s : State) (gb pages b o : Nat) : ioReg (ddrReady s gb pages) b o = ioReg s b o := rfl

theorem ddr5Training_eq {s : State} (ch gb : Nat) (two same : Bool) (hmode : s.md.mode = .boot) (hddr : s.boot.ddr = false) :
    ddr5Training s ch two same gb = if (ch % 256 == 255 && same) = true then
      ddrReady (ddrShown s ch two (ch % 256 == 255 && same)) gb (gb * 2 ^ 18 - cdiv (areaBase s 5) 4096)
      else startUpFailure (ddrShown s ch two (ch % 256 == 255 && same)) 0x08 0x0501 := by
  unfold ddr5Training
  rw [if_neg (by simp [hmode, hddr])]
  rfl

/-- Where the firmware's 4 GB alone are set aside, the design area is the rest (R169). -/
theorem designArea_firmwareOnly {s : State} (gb : Nat) (h1 : s.img.golden = 0) (h2 : s.img.cowGb = 0) (h3 : s.img.spillGb = 0) (h4 : s.img.logMb = 0) :
    gb * 2 ^ 18 - cdiv (areaBase s 5) 4096 = (gb - 4) * 2 ^ 18 := by
  have hbase : areaBase s 5 = 4 * 2 ^ 30 := by simp [areaBase, areaSizes, storeBytes, h1, h2, h3, h4]
  have hpages : cdiv (4 * 2 ^ 30) 4096 = 4 * 2 ^ 18 := by norm_num [cdiv]
  rw [hbase, hpages, Nat.sub_mul]

theorem ddrShown_ready (s : State) {ch : Nat} (two : Bool) (h : ch % 256 = 255) : bitOf (ioReg (ddrShown s ch two true) 0x03 0x000) 9 = true := by
  rw [ddrShown, ioReg_setIo_same, h]
  cases two <;> decide

/-- The device once the last byte of its base personality has come. -/
def baseReceived (s : State) : State := privGap { s with boot := { s.boot with received := true, phase := 3 } }

/-- The check of R418 that a base personality fails first, or 0. -/
def baseCheck (s : State) (b : BasePersonality) (bytes : Nat) : Nat :=
  if packageCheck s b bytes == 0 && !framesOk b then 6 else packageCheck s b bytes

theorem baseLoadComplete_eq {s : State} {b : BasePersonality} {w : Waiting} (hb : s.boot.base = some b) (hw : firstWaiting s (fun w => w.opcode == 0x0C00) = some w)
    (hphase : s.boot.phase = 2) :
    baseLoadComplete s = if baseCheck (baseReceived s) b (cPar64 w.cmd 3) ≠ 0 then
      startUpFailure (if baseCheck (baseReceived s) b (cPar64 w.cmd 3) = 3 then verifyFailed (baseReceived s) else baseReceived s)
        (checkCause (baseCheck (baseReceived s) b (cPar64 w.cmd 3))).1 (checkCause (baseCheck (baseReceived s) b (cPar64 w.cmd 3))).2
      else completeAll (startPersonality (baseReceived s) b) 0x0C00 0 [] := by
  unfold baseLoadComplete
  rw [hb, hw]
  dsimp only
  rw [if_neg (by simp [hphase])]
  simp only [bne_iff_ne, beq_iff_eq]
  rfl

@[simp] theorem privGap_boot (s : State) : (privGap s).boot = s.boot := by rw [(tracedOnly_privGap s).1]

theorem baseReceived_keeps (s : State) : (baseReceived s).boot = { s.boot with received := true, phase := 3 } ∧ (baseReceived s).fab = s.fab
    ∧ (baseReceived s).ds = s.ds ∧ (baseReceived s).md = s.md := by simp [baseReceived]

/-- A base personality that fails a check of R418. -/
theorem baseLoadComplete_fails {s : State} {b : BasePersonality} {w : Waiting} (hb : s.boot.base = some b) (hw : firstWaiting s (fun w => w.opcode == 0x0C00) = some w)
    (hphase : s.boot.phase = 2) (hbad : baseCheck (baseReceived s) b (cPar64 w.cmd 3) ≠ 0) :
    let t := baseLoadComplete s
    t.boot = { s.boot with received := true, phase := 7, cause := (checkCause (baseCheck (baseReceived s) b (cPar64 w.cmd 3))).1, cfgErr := true } ∧ t.fab = s.fab
    ∧ t.io.waiting.all (fun w => w.opcode != 0x0C00) = true := by
  rw [baseLoadComplete_eq hb hw hphase, if_pos hbad]
  have hkept : ∀ u, u = (if baseCheck (baseReceived s) b (cPar64 w.cmd 3) = 3 then verifyFailed (baseReceived s) else baseReceived s) →
      u.boot = { s.boot with received := true, phase := 3 } ∧ u.fab = s.fab := by
    rintro u rfl
    split <;> simp [baseReceived, verifyFailed]
  obtain ⟨hboot, hfab⟩ := hkept _ rfl
  generalize (if baseCheck (baseReceived s) b (cPar64 w.cmd 3) = 3 then verifyFailed (baseReceived s) else baseReceived s) = u at *
  obtain ⟨hboot', -, hfab', -, hwait⟩ := startUpFailure_fails (s := u) (by simp [hboot]) (checkCause (baseCheck (baseReceived s) b (cPar64 w.cmd 3))).1
    (checkCause (baseCheck (baseReceived s) b (cPar64 w.cmd 3))).2
  exact ⟨by rw [hboot', hboot], hfab'.trans hfab, hwait⟩

/-- The firmware starts with its version; the regions that the frames name become VALID (R418). -/
theorem startPersonality_starts (s : State) (b : BasePersonality) :
    let t := startPersonality s b
    t.boot = { s.boot with accepted := true, phase := 3 } ∧ t.ctl.fw = b.fwVersion
    ∧ t.fab.regions = (namedRegions b.frames).foldl (fun m r => put m r .valid) s.fab.regions ∧ t.ds = s.ds ∧ t.md = s.md := by
  unfold startPersonality
  dsimp only
  refine ⟨?_, ?_, ?_, ?_, ?_⟩
  · exact (congrArg (·.1.2.2.1) (pinView_configurePins _ b.ioCells)).trans rfl
  · exact (congrArg (·.1.2.2.2.1.fw) (pinView_configurePins _ b.ioCells)).trans rfl
  · exact (congrArg (·.1.1) (pinView_configurePins _ b.ioCells)).trans rfl
  · exact (congrArg (·.2.2.2.1) (pinView_configurePins _ b.ioCells)).trans rfl
  · exact (congrArg (·.2.2.2.2.1) (pinView_configurePins _ b.ioCells)).trans rfl

/-- A base personality that passes the checks of R418. -/
theorem baseLoadComplete_accepts {s : State} {b : BasePersonality} {w : Waiting} (hb : s.boot.base = some b) (hw : firstWaiting s (fun w => w.opcode == 0x0C00) = some w)
    (hphase : s.boot.phase = 2) (hgood : baseCheck (baseReceived s) b (cPar64 w.cmd 3) = 0) :
    let t := baseLoadComplete s
    t.boot = { s.boot with received := true, phase := 3, accepted := true } ∧ t.ctl.fw = b.fwVersion
    ∧ t.fab.regions = (namedRegions b.frames).foldl (fun m r => put m r .valid) s.fab.regions
    ∧ t.io.waiting.all (fun w => w.opcode != 0x0C00) = true ∧ t.ds = s.ds ∧ t.md = s.md := by
  rw [baseLoadComplete_eq hb hw hphase, if_neg (by simp [hgood])]
  obtain ⟨hboot, hctl, hfab, hds, hmd⟩ := startPersonality_starts (baseReceived s) b
  obtain ⟨hboot', hfab', hds', hmd'⟩ := baseReceived_keeps s
  generalize startPersonality (baseReceived s) b = u at *
  refine ⟨?_, ?_, ?_, completeAll_waiting _ _ _ _, ?_, ?_⟩
  · simp [hboot, hboot']
  · simp [hctl]
  · simp [hfab, hfab']
  · simp [hds, hds']
  · simp [hmd, hmd']

/-- The personality that a BASE_LOAD names, and its data still to come. -/
def loadNamed (s : State) (p : BasePersonality) : State := { s with boot := { s.boot with base := some p, phase := 2 } }

/-- Settles O7: the checks of groups and DDR5 by their equations, the base load by its action, its end by the check that fails first. -/
theorem startUpChecksAndBaseLoad : Obligations.StartUpChecksAndBaseLoad := by
  unfold Obligations.StartUpChecksAndBaseLoad
  refine ⟨fun s found ch gb two same hmode hphase => ⟨fun hremap hgood => ?groups, fun hremap hbad => ?beyond, fun hddr hch hsame => ?trained, fun hddr hbad => ?untrained⟩,
    fun s c b => ⟨fun h hphase hbase hroom => ?load, fun h hlate => ?second, fun hbase hphase hs hw => ?otherData, fun w hs hphase hbase hw =>
      ⟨fun hcheck hframes => ?accepted, fun hbad => ?failed⟩⟩⟩
  case groups =>
    have ht := groupSelfTest_eq found hmode hremap
    rw [if_neg (by rw [hgood]; decide)] at ht
    exact ⟨_, congrArg Host.Outcome.next ht, rfl, rfl, rfl, mem_wornWith found _⟩
  case beyond =>
    have ht := groupSelfTest_eq found hmode hremap
    rw [if_pos hbad] at ht
    obtain ⟨hboot, hds, -, hident, -⟩ := startUpFailure_fails (s := wornState s found) hphase 0x09 0x0501
    refine ⟨_, congrArg Host.Outcome.next ht, ?_, ?_, ?_, hds, ?_⟩
    · rw [hboot]
    · rw [hboot]
    · rw [hboot]
    · rw [hident]
      exact mem_wornWith found _
  case trained =>
    have hok : (ch % 256 == 255 && same) = true := by simp [hch, hsame]
    have ht := ddr5Training_eq ch gb two same hmode hddr
    rw [if_pos hok, hok] at ht
    refine ⟨_, congrArg Host.Outcome.next ht, rfl, rfl, rfl, fun h1 h2 h3 h4 => ?_, rfl, ?_, rfl, rfl⟩
    · exact designArea_firmwareOnly gb h1 h2 h3 h4
    · rw [ioReg_ddrReady]
      exact ddrShown_ready s two hch
  case untrained =>
    have hok : (ch % 256 == 255 && same) = false := by obtain h | h := hbad <;> simp [h]
    have ht := ddr5Training_eq ch gb two same hmode hddr
    rw [if_neg (by simp [hok]), hok] at ht
    obtain ⟨hboot, -⟩ := startUpFailure_fails (s := ddrShown s ch two false) hphase 0x08 0x0501
    refine ⟨_, congrArg Host.Outcome.next ht, ?_, ?_, ?_, ?_⟩
    · rw [hboot]
    · rw [hboot]
    · rw [hboot]
    · rw [hboot]
      exact hddr
  case load =>
    have hact : actBaseLoad (takeEntry s c) c = (loadNamed (takeEntry s c) ((packageOf c).getD noPersonality), .accept) :=
      if_neg (by simp [hphase, hbase])
    refine ⟨_, congrArg Host.Outcome.next (hostCmd_accept_eq h hroom hact (by simpa [loadNamed] using (accepts_live h).1)),
      ⟨(packageOf c).getD noPersonality, ?_, fun hdata => by simp [packageOf, hdata]⟩, ?_, ?_⟩
    · simp [nowWaiting, loadNamed]
    · simp [nowWaiting, loadNamed]
    · rw [takeEntry_pcie (accepts_pcie h)]
      simp only [writeReply, signal, finishDisable]
      split <;> split <;> rfl
  case second => exact ⟨_, rfl, hostCmd_refuse_replied h (if_pos (by simpa using hlate))⟩
  case otherData =>
    obtain ⟨w, hw⟩ := Option.isSome_iff_exists.mp hw
    have hcheck : baseCheck (baseReceived s) noPersonality (cPar64 w.cmd 3) = 1 := by
      have hpack : packageCheck (baseReceived s) noPersonality (cPar64 w.cmd 3) = 1 := if_pos (by simp [noPersonality])
      simp [baseCheck, hpack]
    obtain ⟨hboot, -⟩ := baseLoadComplete_fails hbase hw hphase (by simp [hcheck])
    refine ⟨_, congrArg Host.Outcome.next (if_neg (by simp [inSafeHold, hs])), ?_, ?_, ?_⟩
    · rw [hboot]
    · rw [hboot, hcheck]
      rfl
    · rw [hboot]
  case accepted =>
    have hgood : baseCheck (baseReceived s) b (cPar64 w.cmd 3) = 0 := by
      unfold baseCheck
      rw [if_neg (by simp [hframes])]
      exact hcheck
    exact ⟨_, congrArg Host.Outcome.next (if_neg (by simp [inSafeHold, hs])), baseLoadComplete_accepts hbase hw hphase hgood⟩
  case failed =>
    have hfails : baseCheck (baseReceived s) b (cPar64 w.cmd 3) ≠ 0 := by
      unfold baseCheck
      split
      · decide
      next h =>
        obtain hbad | hbad := hbad
        · exact hbad
        · simpa [hbad] using h
    obtain ⟨hboot, hfab, hwait⟩ := baseLoadComplete_fails hbase hw hphase hfails
    refine ⟨_, congrArg Host.Outcome.next (if_neg (by simp [inSafeHold, hs])), ?_, ?_, ?_, hfab, hwait⟩
    · rw [hboot]
    · rw [hboot]
    · rw [hboot]

end Sys2Proof.Machine

namespace Sys2Proof.Machine

/-! ### A write acknowledgement and the room that its requester holds (R463) -/

/-- A requester of die 0 that holds one flit of room for the acknowledgement under tag 0. -/
def roomHeld : State := { State.reset with net := { State.reset.net with asked := [(0, 0, 1)], spill := [] } }

/-- That acknowledgement, good and on its own network. -/
def ackOfRoom : Packet := {
  src := 0, dst := 0, tag := 0, srcPos := 0, dstPos := 0, vn := 1, status := 0, addr := 0, bytes := 0, words := [], poison := false }

theorem ackOfRoom_good : ackOfRoom.vn = 1 ∧ accessoryBars roomHeld 1 ackOfRoom = false ∧ (roomHeld.md.mode = .boot → ackOfRoom.srcPos = posOf roomHeld)
    ∧ ackOfRoom.dstPos = posOf roomHeld ∧ roomHeld.net.spill.contains (naSite ackOfRoom.dst) = false ∧ endpointHere roomHeld ackOfRoom.dst = true := by decide +kernel

/-- The model answers the state in which the acknowledgement came, with the room still held. -/
theorem ackOfRoom_keepsRoom : (ackPacket roomHeld ackOfRoom).net.asked = [(0, 0, 1)] ∧ (answered roomHeld ackOfRoom.dst ackOfRoom.tag).net.asked = [] := by
  decide +kernel

/-- Refutes O57: a good WRITE_ACKNOWLEDGEMENT that its endpoint takes leaves the state in which it came, and does not free what its requester held. -/
theorem not_packetsAreAnsweredCountedOrTaken : ¬ Obligations.PacketsAreAnsweredCountedOrTaken := by
  unfold Obligations.PacketsAreAnsweredCountedOrTaken
  intro h
  obtain ⟨hvn, hbars, hboot, hdst, hspill, hend⟩ := ackOfRoom_good
  obtain ⟨-, -, -, -, hresponses, -⟩ := h roomHeld ackOfRoom
  obtain ⟨-, hack⟩ := hresponses ⟨⟨hvn, hbars, hboot, hdst⟩, hspill, rfl, hend⟩
  have hfreed : (ackPacket roomHeld ackOfRoom).net.asked = (answered roomHeld ackOfRoom.dst ackOfRoom.tag).net.asked :=
    congrArg (·.net.asked) (Host.Outcome.next.inj hack)
  rw [ackOfRoom_keepsRoom.1, ackOfRoom_keepsRoom.2] at hfreed
  cases hfreed

end Sys2Proof.Machine

namespace Sys2Proof.Machine

/-! ### Faults and the network side of the state -/

/-- The network side but for what goes to the management sessions. -/
def netBeside (n : NetState) : NetState := { n with mgmtOut := [] }

@[simp] theorem sendMgmt_netBeside (s : State) (id : Word) (m : Reply ⊕ Event) : netBeside (sendMgmt s id m).net = netBeside s.net := by
  unfold sendMgmt; split <;> rfl

@[simp] theorem copyEvent_netBeside (s : State) (e : Event) : netBeside (copyEvent s e).net = netBeside s.net := by
  unfold copyEvent
  split
  · rfl
  · exact foldl_keeps (fun s => netBeside s.net) _ (fun _ _ => sendMgmt_netBeside _ _ _) _ _

@[simp] theorem storeErr_netBeside (s : State) (r : ErrRec) : netBeside (storeErr s r).net = netBeside s.net := by
  unfold storeErr
  dsimp only
  repeat' split
  all_goals simp [tickEvent]

@[simp] theorem addRecord_netBeside (s : State) (r : ErrRec) (b : Bool) : netBeside (addRecord s r b).net = netBeside s.net := by
  unfold addRecord
  dsimp only
  repeat' split
  all_goals simp

@[simp] theorem flushRecords_netBeside (s : State) : netBeside (flushRecords s).net = netBeside s.net := by
  unfold flushRecords
  exact foldl_keeps (fun s => netBeside s.net) _ (fun _ _ => addRecord_netBeside _ _ _) _ _

@[simp] theorem makeRecord_netBeside (s : State) (r : ErrRec) (b : Bool) : netBeside (makeRecord s r b).net = netBeside s.net := by
  unfold makeRecord
  split <;> simp

@[simp] theorem fault_netBeside (s : State) (f : FaultInfo) : netBeside (fault s f).net = netBeside s.net := by simp [fault]

/-! ### One board link and its counters -/

@[simp] theorem linkOf_setLink (s : State) (d : Nat) (b : BoardLink) : linkOf (setLink s d b) d = some b := lookup_put_same _ _ _

theorem linkOf_setLink_other (s : State) {d o : Nat} (b : BoardLink) (h : o ≠ d) : linkOf (setLink s d b) o = linkOf s o := lookup_put_other _ _ _ _ h

theorem linkOf_of_bl {s t : State} (h : t.bl = s.bl) (d : Nat) : linkOf t d = linkOf s d := congrArg (lookup · d) h

/-- Offsets below a block's size tell the keys of one block apart. -/
theorem rkey_off_ne {site block o p : Nat} (h : o ≠ p) : rkey site block o ≠ rkey site block p := by
  simp only [rkey]
  omega

/-- A key of a board-link block is none of the I/O die's other blocks. -/
theorem linkKey_ne_io (d o block p : Nat) (ho : o < 2 ^ 20) (hp : p < 2 ^ 20) (hb : block < 0x100) (hne : block ≠ 0x11) : rkey d 0x11 o ≠ rkey 15 block p := by
  simp only [rkey]
  omega

theorem reg_of_regs {s t : State} (h : t.regs = s.regs) (k : Nat) : reg t k = reg s k := by rw [reg, h]; rfl

/-- A CORRECTED fault counts itself in its class's counter and in no other register. -/
theorem reg_fault_corrected {s : State} {f : FaultInfo} (hf : f.cls = 1) {k : Nat} (hk : k ≠ rkey 15 0x14 0x010) : reg (fault s f) k = reg s k := by
  have hrec : (recordOf s f).cls = 1 := hf
  have hcount : reg (countFault (noteOverlap s) 1) k = reg s k := reg_bump_other (noteOverlap s) _ _ hk
  rw [fault, makeRecord, if_neg (by simp [hrec]), addRecord]
  simp only [hrec]
  split
  · exact hcount
  · rw [← hcount]
    apply reg_of_regs
    simp [asksReplace]

/-- With no packet come, none is taken. -/
theorem takeArrived_none {s : State} (h : s.net.arrived = []) : takeArrived s = s := by
  rw [takeArrived, h]
  calc noneArrived s = { s with net := { s.net with arrived := s.net.arrived } } := by rw [h]; rfl
    _ = s := rfl

/-- The request of a retry, of two slots while the board steps, moves counters and pulses only. -/
theorem retryRequest_spec (s : State) :
    (retryRequest s).slu.pulses = (if stepping s then s.slu.pulses ++ [(2, 2)] else s.slu.pulses) ∧ (retryRequest s).bl = s.bl ∧ (retryRequest s).ds = s.ds
    ∧ (retryRequest s).md = s.md ∧ (retryRequest s).net = s.net ∧ ∀ k, k ≠ rkey 15 0x02 0x088 → reg (retryRequest s) k = reg s k := by
  unfold retryRequest
  split
  · exact ⟨rfl, rfl, rfl, rfl, rfl, fun k hk => reg_bump_other s _ _ hk⟩
  · exact ⟨rfl, rfl, rfl, rfl, rfl, fun _ _ => rfl⟩

/-! ### The drift of a weir (R124) -/

theorem linkOf_markWeir (s : State) (d x : Nat) :
    linkOf (markWeir s d) x = (linkOf s x).map (fun b => if x = d ∧ b.version = 3 ∧ s.seq.epoch = true then weirAnew b else b) :=
  linkOf_trainWeir s d x

theorem linkOf_markWeir_other (s : State) {d o : Nat} (h : o ≠ d) : linkOf (markWeir s d) o = linkOf s o := by
  rw [linkOf_markWeir]
  simp [h]

/-- A weir that is trained anew starts its link's timing markers again. -/
theorem linkOf_markWeir_timing {s : State} {d : Nat} {v : BoardLink} (hv : linkOf s d = some v) :
    ∃ ms n, linkOf (markWeir s d) d = some { v with timing := ms, tx := { v.tx with timing := n } } := by
  rw [linkOf_markWeir, hv]
  by_cases hnew : v.version = 3 ∧ s.seq.epoch = true
  · exact ⟨[], 1024, by simp [hnew, weirAnew]⟩
  · exact ⟨v.timing, v.tx.timing, by simp [hnew]⟩

/-- A weir whose drift is tracked may be trained anew: its link's markers and timing start again, and no link changes otherwise. -/
theorem trackDrift_spec (s : State) (d c : Nat) (x : Int) :
    let t := trackDrift s d c x
    t.ds = s.ds ∧ t.net = s.net ∧ t.md = s.md ∧ t.time = s.time ∧ (∀ o, o ≠ d → linkOf t o = linkOf s o)
    ∧ ∀ v, linkOf s d = some v → ∃ ms n, linkOf t d = some { v with timing := ms, tx := { v.tx with timing := n } } := by
  unfold trackDrift
  dsimp only
  split
  · exact ⟨rfl, rfl, rfl, rfl, fun _ _ => rfl, fun v hv => ⟨v.timing, v.tx.timing, hv⟩⟩
  · have hbl (o : Nat) (r : Repair) : linkOf (startRepair (setDrift s d c x) r) o = linkOf s o := linkOf_of_bl (by simp [setDrift]) o
    split
    · exact ⟨by simp [setDrift], by simp [setDrift], by simp, by simp [setDrift], fun o _ => hbl o _,
        fun v hv => ⟨v.timing, v.tx.timing, (hbl d _).trans hv⟩⟩
    · exact ⟨by simp [setDrift], by simp [setDrift, markWeir], by simp, by simp [setDrift, markWeir],
        fun o ho => (linkOf_markWeir_other _ ho).trans (hbl o _), fun v hv => linkOf_markWeir_timing ((hbl d _).trans hv)⟩

/-! ### What a flit's blocks leave (R483, R490) -/

/-- The link after its receivers took a flit's blocks. -/
def heardBlocks (s : State) (b : BoardLink) (f : LinkFlit) : BoardLink :=
  adapt { b with rx := b.rx.map (fun l => (((takeBlocks (nowNs s) b f.blocks).find? (fun g => g.1.lane == l.lane)).map (·.1)).getD l) } f

/-- The state then: the receivers, and the counts of invalid headers and of locks lost. -/
def blocksTaken (s : State) (d : Nat) (b : BoardLink) (f : LinkFlit) : State :=
  let got := takeBlocks (nowNs s) b f.blocks
  let lost := got.filter (fun g => !g.1.locked && b.rx.any (fun l => l.lane == g.1.lane && l.locked))
  bumpBl (bumpBl (setLink (noneArrived s) d (heardBlocks s b f)) d 0x050 32 (got.filter (fun g => g.2.1)).length) d 0x054 16 lost.length

/-- The bits that the payloads of the lanes in use make. -/
def flitHeard (s : State) (b : BoardLink) (f : LinkFlit) : Nat := ofLanes ((takeBlocks (nowNs s) b f.blocks).map (fun g => g.2.2))

/-- The body of the flit that they make. -/
def bodyHeard (s : State) (d : Nat) (b : BoardLink) (f : LinkFlit) : FlitBody :=
  let wide := b.rxUsed.length == 16
  parseBody wide (rxS s d b) (fld (flitHeard s b f) (bodyBits wide + 7) 8)

/-- The state after that flit was judged under the sequence number expected. -/
def flitJudged (s : State) (d : Nat) (b : BoardLink) (f : LinkFlit) : State :=
  if flitGood (b.rxUsed.length == 16) b.expect (flitHeard s b f) then
    goodFlit (blocksTaken s d b f) d (heardBlocks s b f) f (flitHeard s b f % 256) (bodyHeard s d b f)
  else badFlit (blocksTaken s d b f) d (heardBlocks s b f)

/-- The blocks move the receivers and the equaliser alone. -/
theorem heardBlocks_spec (s : State) (b : BoardLink) (f : LinkFlit) :
    let v := heardBlocks s b f
    v = { adapt b f with rx := v.rx } ∧ v.tx = b.tx ∧ v.nakSent = b.nakSent ∧ v.version = b.version ∧ v.st = b.st ∧ v.expect = b.expect
    ∧ v.parts = b.parts ∧ v.peerPos = b.peerPos ∧ v.peerDie = b.peerDie := by
  unfold heardBlocks adapt
  repeat' split
  all_goals exact ⟨rfl, rfl, rfl, rfl, rfl, rfl, rfl, rfl, rfl⟩

theorem linkOf_blocksTaken (s : State) (d : Nat) (b : BoardLink) (f : LinkFlit) : linkOf (blocksTaken s d b f) d = some (heardBlocks s b f) :=
  lookup_put_same _ _ _

/-- The blocks tell nothing about the far end, so the share to be received stays. -/
theorem rxS_blocksTaken {s : State} {d : Nat} {b : BoardLink} (hb : linkOf s d = some b) (f : LinkFlit) : rxS (blocksTaken s d b f) d b = rxS s d b := by
  obtain ⟨-, -, -, -, -, -, -, hpos, hdie⟩ := heardBlocks_spec s b f
  rw [rxS, rxS, rxShare, rxShare, linkOf_blocksTaken, hb]
  simp only [hpos, hdie]
  rfl

/-- A flit on the lanes in use that fails none of them, and leaves the time as it is, is judged and no more. -/
theorem boardFlit_judged {s : State} {d : Nat} {b : BoardLink} {f : LinkFlit} (hb : linkOf s d = some b) (hcarries : linkCarries b = true)
    (hlen : f.blocks.length = b.rxUsed.length) (hlanes : (takeBlocks (nowNs s) b f.blocks).all (fun g => !laneFails (nowNs s) g.1) = true)
    (htime : (flitJudged s d b f).time = s.time) : boardFlit (noneArrived s) d f = flitJudged s d b f := by
  have hlink : linkOf (noneArrived s) d = some b := hb
  have hst : (b.st == 5) = false := by
    simp only [linkCarries, Bool.or_eq_true, beq_iff_eq] at hcarries
    simp only [beq_eq_false_iff_ne]
    omega
  have hnow : nowNs (flitJudged s d b f) = nowNs s := by rw [nowNs, htime]; rfl
  have hnone : (takeBlocks (nowNs s) b f.blocks).filter (fun g => laneFails (nowNs (flitJudged s d b f)) g.1) = [] := by
    rw [hnow]
    simpa [List.filter_eq_nil_iff] using hlanes
  have hfold : ((takeBlocks (nowNs s) b f.blocks).filter (fun g => laneFails (nowNs (flitJudged s d b f)) g.1)).foldl
      (fun s g => laneFailure s d g.1.lane false) (flitJudged s d b f) = flitJudged s d b f := by rw [hnone]; rfl
  rw [boardFlit, hlink]
  dsimp only
  rw [if_neg (by simp [hst]), if_neg (by simp [hcarries, hlen])]
  refine Eq.trans ?_ hfold
  unfold flitJudged bodyHeard
  rw [← rxS_blocksTaken hb f]
  rfl

/-! ### Good flits (R104, R464, R485, R486) -/

/-- A link on which a good flit came, before its items and records are taken. -/
def goodLink (s : State) (b : BoardLink) (f : LinkFlit) (ack : Nat) : BoardLink :=
  { b with
    expect := (b.expect + 1) % 2 ^ 16, nakSent := false, acked := ack, tx := ackFlits b.tx ack
    st := if f.held && b.st == 3 then 6 else if !f.held && b.st == 6 && !inSafeHold s then 3 else b.st }

/-- The state after the items of a good flit. -/
def itemsTaken (s : State) (d : Nat) (b : BoardLink) (f : LinkFlit) (ack : Nat) (items : List Nat) : State :=
  items.foldl (takeItem d) (setLink s d (goodLink s b f ack))

/-- After the items the records go into the weir, and its drift is tracked. -/
theorem goodFlit_spec (s : State) (d : Nat) (b : BoardLink) (f : LinkFlit) (ctl : Nat) (body : FlitBody) :
    let u := itemsTaken s d b f (ctl % 128) body.items
    let t := goodFlit s d b f ctl body
    t.ds = (takeRecords u d body.records).ds ∧ t.net = u.net ∧ t.md = u.md ∧ t.time = u.time ∧ (∀ o, o ≠ d → linkOf t o = linkOf u o)
    ∧ ∀ v, linkOf u d = some v → ∃ ms n, linkOf t d = some { v with timing := ms, tx := { v.tx with timing := n } } := by
  have hdef : goodFlit s d b f ctl body = if body.records.isEmpty then takeRecords (itemsTaken s d b f (ctl % 128) body.items) d body.records
    else trackDrift (takeRecords (itemsTaken s d b f (ctl % 128) body.items) d body.records) d 0 f.drift := rfl
  dsimp only
  rw [hdef]
  split
  · exact ⟨rfl, rfl, rfl, rfl, fun _ _ => rfl, fun v hv => ⟨v.timing, v.tx.timing, hv⟩⟩
  · exact trackDrift_spec (takeRecords (itemsTaken s d b f (ctl % 128) body.items) d body.records) d 0 f.drift

/-- The step records that a weir takes (R122). -/
theorem mem_takeRecords {s : State} {d : Nat} {rs : List (Nat × Nat)} {r : Nat × Nat} (hr : r ∈ rs) {n : Nat} (hn : lookup s.seq.recent r.1 = some n)
    (hdue : n + 160 < depthOf s) (hshort : weirShort s d 0 = false) :
    ({ die := d, code := 0, sent := n, due := n + 160, channels := numsWhere 192 (bitOf r.2), wait := [] } : WeirRec) ∈ (takeRecords s d rs).ds.weirs := by
  refine List.mem_append_right _ (List.mem_filterMap.mpr ⟨r, hr, ?_⟩)
  simp [hn, hdue, hshort]

/-- Credits returned move what is outstanding and nothing else. -/
theorem takeItem_credits {d x : Nat} (hx : fld x 143 140 = 2) (s : State) : ∃ c, takeItem d s x = { s with net := { s.net with credits := c } } := by
  have hone (u : State) (v : Nat) : ∃ c, creditReturn u (32 + d) v (fld x (8 * v + 7) (8 * v)) = { u with net := { u.net with credits := c } } := by
    unfold creditReturn
    split
    · exact ⟨_, rfl⟩
    · exact ⟨u.net.credits, rfl⟩
  have hall (l : List Nat) (u : State) : ∃ c, l.foldl (fun s v => creditReturn s (32 + d) v (fld x (8 * v + 7) (8 * v))) u
      = { u with net := { u.net with credits := c } } := by
    induction l generalizing u with
    | nil => exact ⟨u.net.credits, rfl⟩
    | cons v vs ih =>
      obtain ⟨c, hc⟩ := hone u v
      rw [List.foldl_cons, hc]
      obtain ⟨c', hc'⟩ := ih { u with net := { u.net with credits := c } }
      exact ⟨c', hc'⟩
  unfold takeItem
  rw [hx]
  exact hall _ s

theorem foldl_takeItem_credits {d : Nat} {items : List Nat} (hitems : items.all (fun x => fld x 143 140 == 2) = true) (s : State) :
    ∃ c, items.foldl (takeItem d) s = { s with net := { s.net with credits := c } } := by
  induction items generalizing s with
  | nil => exact ⟨s.net.credits, rfl⟩
  | cons x xs ih =>
    obtain ⟨hx, hxs⟩ := Bool.and_eq_true_iff.mp hitems
    obtain ⟨c, hc⟩ := takeItem_credits (d := d) (eq_of_beq hx) s
    rw [List.foldl_cons, hc]
    obtain ⟨c', hc'⟩ := ih hxs { s with net := { s.net with credits := c } }
    exact ⟨c', hc'⟩

/-- A cycle marker whose TAG names a step 0 waits in its weir under a DCN that is not to come. -/
theorem takeMark_waits {s : State} {x : Nat} (d : Nat) (h : (s.seq.recent.find? (fun r => r.1 == fld x 25 16)).map (·.2) = some 0) :
    ∃ n, n ≤ s.seq.dcn ∧ takeMark s d x = { s with net := { s.net with marksIn := s.net.marksIn ++ [(d, n, fld x 15 0)] } } := by
  rw [List.find?_eq_head?_dropWhile_not] at h
  obtain ⟨⟨tag, ph⟩, hhead, hph : ph = 0⟩ := Option.map_eq_some_iff.mp h
  obtain ⟨rest, holder⟩ := List.head?_eq_some_iff.mp hhead
  have holder' : s.seq.recent.dropWhile (fun r => r.1 != fld x 25 16) = (tag, 0) :: rest := hph ▸ holder
  unfold takeMark
  rw [holder']
  exact ⟨_, (Nat.sub_le _ _).trans (Nat.sub_le _ _), rfl⟩

theorem ackFlits_owed (t : LinkTx) (ack : Nat) : (ackFlits t ack).owed = t.owed := by
  unfold ackFlits
  split <;> rfl

/-- A link at which a network flit waits for the rest of its packet, its credit owed. -/
def netFlitLink (b : BoardLink) (x : Nat) : BoardLink :=
  let vc := vcIndex (fld x 132 131) (fld x 134 133)
  { b with
    tx := { b.tx with owed := b.tx.owed.set vc (b.tx.owed.getD vc 0 + 1) }
    parts := put b.parts vc ((if isHead x then [] else (lookup b.parts vc).getD []) ++ [x % 2 ^ 135]) }

theorem takeNet_waits {s : State} {d x : Nat} {b : BoardLink} (hb : linkOf s d = some b) (htail : isTail x = false) :
    takeNet s d x = setLink s d (netFlitLink b x) := by
  rw [takeNet, hb]
  simp only [htail, Bool.false_eq_true, if_false, netFlitLink]

/-! ### Flits that fail their CRC (R497, R498) -/

/-- A NAK is asked for, and the wait for the next begins. -/
def askNak (version : Nat) (t : LinkTx) : LinkTx := { t with nakDue := true, nakWait := if version == 2 then 32 else 64 }

theorem badFlit_waits {s : State} {d : Nat} {b : BoardLink} (hsent : b.nakSent = true) (hwait : b.tx.nakWait ≠ 0) : badFlit s d b = s := by
  simp [badFlit, hsent, hwait]

/-- A further bad flit asks again; it is not counted. -/
theorem badFlit_again {s : State} {d : Nat} {b : BoardLink} (hsent : b.nakSent = true) (hwait : b.tx.nakWait = 0) :
    badFlit s d b = retryRequest (setLink s d { b with nakSent := true, tx := askNak b.version b.tx }) := by
  simp [badFlit, hsent, hwait, askNak]

/-- A link on which a discard has begun. -/
def discardLink (b : BoardLink) : BoardLink := { b with nakSent := true, tx := if b.tx.nakWait == 0 then askNak b.version b.tx else b.tx }

/-- The first bad flit starts a discard and is counted as a CORRECTED fault. -/
theorem badFlit_first {s : State} {d : Nat} {b : BoardLink} (hsent : b.nakSent = false) :
    ∃ i : FaultInfo, i.cls = 1 ∧ badFlit s d b = fault (bumpBl (retryRequest (setLink s d (discardLink b))) d 0x040 32 1) i := by
  refine ⟨{ linkInfo d 1 0x0301 with source := 2, stallUs := b2n (stepping (retryRequest (setLink s d (discardLink b)))) }, rfl, ?_⟩
  simp only [badFlit, discardLink, askNak, hsent, Bool.false_and, Bool.false_eq_true, if_false]

/-- A bad flit of a link, judged. -/
theorem flitJudged_bad {s : State} {d : Nat} {b : BoardLink} {f : LinkFlit} (hbad : flitGood (b.rxUsed.length == 16) b.expect (flitHeard s b f) = false) :
    flitJudged s d b f = badFlit (blocksTaken s d b f) d (heardBlocks s b f) := if_neg (by simp [hbad])

/-- The blocks count on two registers of the block. -/
theorem reg_blocksTaken (s : State) (d : Nat) (b : BoardLink) (f : LinkFlit) : reg (blocksTaken s d b f) (rkey d 0x11 0x040) = reg s (rkey d 0x11 0x040) := by
  unfold blocksTaken bumpBl
  dsimp only
  rw [reg_bump_other _ _ _ (rkey_off_ne (by decide)), reg_bump_other _ _ _ (rkey_off_ne (by decide))]
  rfl

/-- The state of a row that leaves one link, registers and the network side. -/
def flitState (s : State) (d : Nat) (r : Cells Word) (v : BoardLink) (n : NetState) : State := { s with regs := r, bl := put s.bl d v, net := n }

theorem linkOf_flitState (s : State) (d : Nat) (r : Cells Word) (v : BoardLink) (n : NetState) : linkOf (flitState s d r v n) d = some v := lookup_put_same _ _ _

theorem linkOf_flitState_other (s : State) {d o : Nat} (r : Cells Word) (v : BoardLink) (n : NetState) (h : o ≠ d) :
    linkOf (flitState s d r v n) o = linkOf s o := lookup_put_other _ _ _ _ h

theorem takeRecords_flitState (s : State) (d : Nat) (r : Cells Word) (v : BoardLink) (n : NetState) (rs : List (Nat × Nat)) :
    (takeRecords (flitState s d r v n) d rs).ds = (takeRecords s d rs).ds := rfl

theorem setLink_flitState (s : State) (d : Nat) (r : Cells Word) (v w : BoardLink) (n : NetState) :
    setLink (flitState s d r v n) d w = flitState s d r w n := by
  simp only [setLink, flitState, put_put]

theorem setLink_blocksTaken (s : State) (d : Nat) (b v : BoardLink) (f : LinkFlit) :
    setLink (blocksTaken s d b f) d v = flitState s d (blocksTaken s d b f).regs v { s.net with arrived := [] } := by
  have hbl : blocksTaken s d b f
      = { s with regs := (blocksTaken s d b f).regs, bl := put s.bl d (heardBlocks s b f), net := { s.net with arrived := [] } } := rfl
  rw [hbl]
  simp only [setLink, put_put, flitState]

/-- The link that a flit of this body leaves before its items. -/
def freshGoodLink (s : State) (d : Nat) (b : BoardLink) (f : LinkFlit) : BoardLink :=
  goodLink (blocksTaken s d b f) (heardBlocks s b f) f (flitHeard s b f % 256 % 128)

theorem freshGoodLink_spec (s : State) (d : Nat) (b : BoardLink) (f : LinkFlit) :
    let v := freshGoodLink s d b f
    v = { adapt b f with
      rx := v.rx, tx := ackFlits b.tx (flitHeard s b f % 256 % 128), expect := (b.expect + 1) % 2 ^ 16, nakSent := false
      acked := flitHeard s b f % 256 % 128
      st := if f.held && b.st == 3 then 6 else if !f.held && b.st == 6 && !inSafeHold s then 3 else b.st } ∧ v.parts = b.parts := by
  obtain ⟨hheard, htx, -, -, hst, hexpect, hparts, -, -⟩ := heardBlocks_spec s b f
  refine ⟨?_, hparts⟩
  rw [freshGoodLink, goodLink, hst, hexpect, htx, hheard]
  rfl

/-- The items of a flit, in the state that its blocks leave. -/
theorem itemsTaken_eq (s : State) (d : Nat) (b : BoardLink) (f : LinkFlit) (items : List Nat) :
    itemsTaken (blocksTaken s d b f) d (heardBlocks s b f) f (flitHeard s b f % 256 % 128) items
      = items.foldl (takeItem d) (flitState s d (blocksTaken s d b f).regs (freshGoodLink s d b f) { s.net with arrived := [] }) := by
  rw [itemsTaken, setLink_blocksTaken]
  rfl

/-- The state in which a bad flit has left its link, and a retry is requested. -/
def retried (s : State) (d : Nat) (b : BoardLink) (f : LinkFlit) (v : BoardLink) : State :=
  retryRequest (flitState s d (blocksTaken s d b f).regs v { s.net with arrived := [] })

theorem retried_spec (s : State) (d : Nat) (b : BoardLink) (f : LinkFlit) (v : BoardLink) :
    let t := retried s d b f v
    t.slu.pulses = (if stepping s then s.slu.pulses ++ [(2, 2)] else s.slu.pulses) ∧ t.bl = put s.bl d v ∧ t.ds = s.ds ∧ t.md = s.md ∧ t.time = s.time
    ∧ t.net.arrived = [] ∧ reg t (rkey d 0x11 0x040) = reg s (rkey d 0x11 0x040) := by
  obtain ⟨hpulses, hbl, hds, hmd, hnet, hregs⟩ := retryRequest_spec (flitState s d (blocksTaken s d b f).regs v { s.net with arrived := [] })
  refine ⟨hpulses, hbl, hds, hmd, ?_, congrArg (·.arrived) hnet, ?_⟩
  · unfold retried retryRequest
    split <;> rfl
  · rw [retried, hregs _ (linkKey_ne_io _ _ _ _ (by decide) (by decide) (by decide) (by decide))]
    exact reg_blocksTaken s d b f

section
variable {s : State} {d : Nat} {b : BoardLink} {f : LinkFlit} (hb : linkOf s d = some b) (hcarries : linkCarries b = true)
  (hlen : f.blocks.length = b.rxUsed.length) (hlanes : (takeBlocks (nowNs s) b f.blocks).all (fun g => !laneFails (nowNs s) g.1) = true)
include hb hcarries hlen hlanes

/-- The row of a flit that brings no packet is its judgement. -/
theorem exec_boardFlitReceive (htime : (flitJudged s d b f).time = s.time) (hnone : (flitJudged s d b f).net.arrived = []) :
    exec (.boardFlitReceive d f) s = .next (flitJudged s d b f) := by
  have hexec : exec (.boardFlitReceive d f) s = .next (takeArrived (boardFlit (noneArrived s) d f)) := rfl
  rw [hexec, boardFlit_judged hb hcarries hlen hlanes htime, takeArrived_none hnone]

/-- The row of a good flit whose items leave the link, counters and the network side: the records go into the weir. -/
theorem exec_goodFlit (hgood : flitGood (b.rxUsed.length == 16) b.expect (flitHeard s b f) = true) {r : Cells Word} {v : BoardLink} {n : NetState}
    (hitems : (bodyHeard s d b f).items.foldl (takeItem d) (flitState s d (blocksTaken s d b f).regs (freshGoodLink s d b f) { s.net with arrived := [] })
      = flitState s d r v n) (hnone : n.arrived = []) :
    ∃ t ms k, exec (.boardFlitReceive d f) s = .next t ∧ linkOf t d = some { v with timing := ms, tx := { v.tx with timing := k } }
      ∧ t.ds = (takeRecords s d (bodyHeard s d b f).records).ds ∧ t.net = n ∧ t.md = s.md ∧ ∀ o, o ≠ d → linkOf t o = linkOf s o := by
  obtain ⟨hds, hnet, hmd, hclock, hothers, hlink⟩ := goodFlit_spec (blocksTaken s d b f) d (heardBlocks s b f) f (flitHeard s b f % 256) (bodyHeard s d b f)
  rw [itemsTaken_eq, hitems] at hds hnet hmd hclock hothers hlink
  have hjudged : flitJudged s d b f = goodFlit (blocksTaken s d b f) d (heardBlocks s b f) f (flitHeard s b f % 256) (bodyHeard s d b f) := if_pos hgood
  rw [← hjudged] at hds hnet hmd hclock hothers hlink
  obtain ⟨ms, k, hlink⟩ := hlink v (linkOf_flitState s d r v n)
  exact ⟨_, ms, k, exec_boardFlitReceive hb hcarries hlen hlanes hclock ((congrArg (·.arrived) hnet).trans hnone), hlink,
    hds.trans (takeRecords_flitState s d r v n _), hnet, hmd, fun o ho => (hothers o ho).trans (linkOf_flitState_other s r v n ho)⟩

/-- A good flit with credits alone: the sequence number, the ACK, and the records into the weir. -/
theorem exec_creditFlit (hgood : flitGood (b.rxUsed.length == 16) b.expect (flitHeard s b f) = true)
    (hitems : (bodyHeard s d b f).items.all (fun x => fld x 143 140 == 2) = true) : ∃ t u, exec (.boardFlitReceive d f) s = .next t ∧ linkOf t d = some u
      ∧ u = { adapt b f with
          rx := u.rx, tx := u.tx, timing := u.timing, expect := (b.expect + 1) % 2 ^ 16, nakSent := false, acked := flitHeard s b f % 256 % 128
          st := if f.held && b.st == 3 then 6 else if !f.held && b.st == 6 && !inSafeHold s then 3 else b.st }
      ∧ u.tx.retry = (ackFlits b.tx (flitHeard s b f % 256 % 128)).retry ∧ u.tx.resend = (ackFlits b.tx (flitHeard s b f % 256 % 128)).resend
      ∧ t.ds = (takeRecords s d (bodyHeard s d b f).records).ds ∧ (∀ o, o ≠ d → linkOf t o = linkOf s o) ∧ t.md = s.md := by
  obtain ⟨c, hc⟩ := foldl_takeItem_credits hitems (flitState s d (blocksTaken s d b f).regs (freshGoodLink s d b f) { s.net with arrived := [] })
  obtain ⟨t, ms, k, hexec, hlink, hds, -, hmd, hothers⟩ := exec_goodFlit hb hcarries hlen hlanes hgood
    (hc : _ = flitState s d (blocksTaken s d b f).regs (freshGoodLink s d b f) { s.net with arrived := [], credits := c }) rfl
  obtain ⟨hfresh, -⟩ := freshGoodLink_spec s d b f
  rw [hfresh] at hlink
  exact ⟨t, _, hexec, hlink, rfl, rfl, rfl, hds, hothers, hmd⟩

/-- A good flit with a cycle marker whose TAG names a step 0. -/
theorem exec_markerFlit (hgood : flitGood (b.rxUsed.length == 16) b.expect (flitHeard s b f) = true) {x : Nat} (hone : (bodyHeard s d b f).items = [x])
    (hx : fld x 143 140 = 3) (hfind : (s.seq.recent.find? (fun r => r.1 == fld x 25 16)).map (·.2) = some 0) :
    ∃ t n, exec (.boardFlitReceive d f) s = .next t ∧ t.net.marksIn = s.net.marksIn ++ [(d, n, fld x 15 0)] ∧ n ≤ s.seq.dcn
      ∧ t.ds = (takeRecords s d (bodyHeard s d b f).records).ds ∧ t.md = s.md := by
  obtain ⟨k, hk, hmark⟩ := takeMark_waits (s := flitState s d (blocksTaken s d b f).regs (freshGoodLink s d b f) { s.net with arrived := [] }) d hfind
  have htaken : (bodyHeard s d b f).items.foldl (takeItem d) (flitState s d (blocksTaken s d b f).regs (freshGoodLink s d b f) { s.net with arrived := [] })
      = flitState s d (blocksTaken s d b f).regs (freshGoodLink s d b f) { s.net with arrived := [], marksIn := s.net.marksIn ++ [(d, k, fld x 15 0)] } := by
    rw [hone, List.foldl_cons, List.foldl_nil, takeItem, hx]
    exact hmark
  obtain ⟨t, ms, n, hexec, -, hds, hnet, hmd, -⟩ := exec_goodFlit hb hcarries hlen hlanes hgood htaken rfl
  exact ⟨t, k, hexec, by rw [hnet], hk, hds, hmd⟩

/-- A good flit with a network flit that ends no packet. -/
theorem exec_middleFlit (hgood : flitGood (b.rxUsed.length == 16) b.expect (flitHeard s b f) = true) {x : Nat} (hone : (bodyHeard s d b f).items = [x])
    (hx : fld x 143 140 = 1) (htail : isTail x = false) :
    let vc := vcIndex (fld x 132 131) (fld x 134 133)
    ∃ t u, exec (.boardFlitReceive d f) s = .next t ∧ linkOf t d = some u
      ∧ lookup u.parts vc = some ((if isHead x then [] else (lookup b.parts vc).getD []) ++ [x % 2 ^ 135])
      ∧ u.tx.owed = b.tx.owed.set vc (b.tx.owed.getD vc 0 + 1) ∧ t.ds = (takeRecords s d (bodyHeard s d b f).records).ds ∧ t.md = s.md := by
  have htaken : (bodyHeard s d b f).items.foldl (takeItem d) (flitState s d (blocksTaken s d b f).regs (freshGoodLink s d b f) { s.net with arrived := [] })
      = flitState s d (blocksTaken s d b f).regs (netFlitLink (freshGoodLink s d b f) x) { s.net with arrived := [] } := by
    rw [hone, List.foldl_cons, List.foldl_nil, takeItem, hx]
    exact (takeNet_waits (linkOf_flitState _ _ _ _ _) htail).trans (setLink_flitState _ _ _ _ _ _)
  obtain ⟨t, ms, n, hexec, hlink, hds, -, hmd, -⟩ := exec_goodFlit hb hcarries hlen hlanes hgood htaken rfl
  obtain ⟨hfresh, hparts⟩ := freshGoodLink_spec s d b f
  have howed : (freshGoodLink s d b f).tx.owed = b.tx.owed := by rw [hfresh]; exact ackFlits_owed _ _
  refine ⟨t, _, hexec, hlink, ?_, ?_, hds, hmd⟩
  · rw [← hparts]
    exact lookup_put_same _ _ _
  · rw [← howed]
    rfl

/-- The first bad flit: counted, a discard begun, a retry requested. -/
theorem exec_firstBadFlit (hbad : flitGood (b.rxUsed.length == 16) b.expect (flitHeard s b f) = false) (hfirst : b.nakSent = false) :
    ∃ t u, exec (.boardFlitReceive d f) s = .next t ∧ linkOf t d = some u
      ∧ u = { adapt b f with rx := u.rx, nakSent := true, tx := if b.tx.nakWait == 0 then askNak b.version b.tx else b.tx }
      ∧ (reg t (rkey d 0x11 0x040)).toNat = satAdd 32 (reg s (rkey d 0x11 0x040)).toNat 1
      ∧ t.slu.pulses = (if stepping s then s.slu.pulses ++ [(2, 2)] else s.slu.pulses) ∧ t.ds = s.ds ∧ t.md = s.md := by
  obtain ⟨hheard, htx, hsent, hversion, -⟩ := heardBlocks_spec s b f
  obtain ⟨i, hi, hfault⟩ := badFlit_first (s := blocksTaken s d b f) (d := d) (hsent.trans hfirst)
  have hjudged := (flitJudged_bad hbad).trans hfault
  rw [setLink_blocksTaken] at hjudged
  obtain ⟨hpulses, hbl, hds, hmd, htime, hnet, hregs⟩ := retried_spec s d b f (discardLink (heardBlocks s b f))
  rw [← retried] at hjudged
  generalize retried s d b f (discardLink (heardBlocks s b f)) = t at *
  obtain ⟨hmd', htime', hslu', hbl'⟩ := fault_below_fatal (bumpBl t d 0x040 32 1) i (by simp [hi])
  have hcount : reg (fault (bumpBl t d 0x040 32 1) i) (rkey d 0x11 0x040) = reg (bumpBl t d 0x040 32 1) (rkey d 0x11 0x040) :=
    reg_fault_corrected hi (linkKey_ne_io _ _ _ _ (by decide) (by decide) (by decide) (by decide))
  refine ⟨_, discardLink (heardBlocks s b f), exec_boardFlitReceive hb hcarries hlen hlanes (by rw [hjudged, htime']; exact htime) ?_, ?_, ?_, ?_, ?_, ?_, ?_⟩
  · rw [hjudged]
    exact (congrArg (·.arrived) (fault_netBeside (bumpBl t d 0x040 32 1) i) : _ = t.net.arrived).trans hnet
  · rw [hjudged, linkOf, hbl']
    exact (congrArg (lookup · d) hbl).trans (lookup_put_same _ _ _)
  · have hask : askNak (heardBlocks s b f).version = askNak b.version := by rw [hversion]
    rw [discardLink, hask, htx, hheard]
  · rw [hjudged, hcount, ← hregs]
    exact reg_bump_same _ _ (by decide) _
  · rw [hjudged, hslu']
    exact hpulses
  · rw [hjudged]
    simpa [bumpBl] using hds
  · rw [hjudged, hmd']
    exact hmd

/-- A further bad flit once 128 ns have passed: a retry requested, nothing counted. -/
theorem exec_laterBadFlit (hbad : flitGood (b.rxUsed.length == 16) b.expect (flitHeard s b f) = false) (hagain : b.nakSent = true) (hwait : b.tx.nakWait = 0) :
    ∃ t u, exec (.boardFlitReceive d f) s = .next t ∧ linkOf t d = some u ∧ u = { adapt b f with rx := u.rx, tx := askNak b.version b.tx }
      ∧ reg t (rkey d 0x11 0x040) = reg s (rkey d 0x11 0x040)
      ∧ t.slu.pulses = (if stepping s then s.slu.pulses ++ [(2, 2)] else s.slu.pulses) ∧ t.ds = s.ds ∧ t.md = s.md := by
  obtain ⟨hheard, htx, hsent, hversion, -⟩ := heardBlocks_spec s b f
  have hjudged := (flitJudged_bad hbad).trans (badFlit_again (s := blocksTaken s d b f) (d := d) (hsent.trans hagain) (htx ▸ hwait))
  rw [setLink_blocksTaken, ← retried] at hjudged
  obtain ⟨hpulses, hbl, hds, hmd, htime, hnet, hregs⟩ := retried_spec s d b f
    { heardBlocks s b f with nakSent := true, tx := askNak (heardBlocks s b f).version (heardBlocks s b f).tx }
  rw [← hjudged] at hpulses hbl hds hmd htime hnet hregs
  refine ⟨_, _, exec_boardFlitReceive hb hcarries hlen hlanes htime hnet, (congrArg (lookup · d) hbl).trans (lookup_put_same _ _ _), ?_, hregs, hpulses, hds, hmd⟩
  have hask : askNak (heardBlocks s b f).version = askNak b.version := by rw [hversion]
  rw [hask, htx, ← hsent.trans hagain, hheard]

end

/-- Markers of a weir that did not come as expected, outside a recovery: counted, and a recovery asked for. -/
theorem markerMismatch_asks {s : State} (d c : Nat) (hrec : s.ckp.recovery = none) :
    let t := markerMismatch s d c
    t.slu.held.contains (13, 0) = true ∧ (reg t (rkey d 0x01 0x01C)).toNat = satAdd 16 (reg s (rkey d 0x01 0x01C)).toNat 1 ∧ t.ds = s.ds ∧ t.md = s.md := by
  obtain ⟨hheld, hmd, -, hregs⟩ := needRecovery_asks (s := bump s (rkey d 0x01 0x01C) 16 1) hrec
    { cls := 3, cause := 0x0403, unit := siteLoc d, address := if c == 0 then d else 0 }
  refine ⟨hheld, ?_, by simp [markerMismatch], hmd⟩
  rw [markerMismatch, hregs _ (by simp only [rkey]; omega)]
  exact reg_bump_same s _ (by decide) 1

theorem markerMismatch_fatal {s : State} (d c : Nat) (hrec : s.ckp.recovery ≠ none) :
    (markerMismatch s d c).md.safeHold ≠ none ∧ (markerMismatch s d c).ds = s.ds := by
  refine ⟨?_, by simp [markerMismatch]⟩
  have hsome : (bump s (rkey d 0x01 0x01C) 16 1).ckp.recovery.isSome = true := Option.isSome_iff_ne_none.mpr hrec
  rw [markerMismatch, needRecovery, if_pos hsome]
  exact fault_fatal_held _ _ rfl

theorem cycleMarker_expected {s : State} {d c : Nat} {dcn16 : BitVec 16} {tag : BitVec 10} (h : markerOk s c dcn16 tag = true) :
    cycleMarker s d c dcn16 tag = s := if_pos (by simp [h])

theorem cycleMarker_wrong {s : State} {d c : Nat} {dcn16 : BitVec 16} {tag : BitVec 10} (hstep : stepping s = true) (hd : d < nDies s) (hc : c < 8)
    (hroute : routeHere s d c = true) (h : markerOk s c dcn16 tag = false) : cycleMarker s d c dcn16 tag = markerMismatch s d c :=
  if_neg (by simp [hstep, hd, hc, hroute, h])

/-! ### NAKs, time-outs, and a reset of the far die (R498, R508) -/

theorem nakReceived_resends {s : State} {d ack : Nat} {b : BoardLink} (hb : linkOf s d = some b) (hcarries : linkCarries b = true) :
    let tx := resendAll (ackFlits b.tx (ack % 128))
    nakReceived s d ack true = bumpBl (bumpBl (setLink s d { b with acked := ack % 128, tx := tx }) d 0x044 32 1) d 0x04C 32 tx.retry.length := by
  rw [nakReceived, hb]
  simp only [hcarries, Bool.not_true, Bool.or_false, Bool.false_eq_true, if_false]
  rfl

theorem retryTimeout_resends {s : State} {d age : Nat} {b : BoardLink} (hb : linkOf s d = some b) (hcarries : linkCarries b = true) (hretry : b.tx.retry ≠ [])
    (hage : 128 ≤ age) : retryTimeout s d age = retryRequest (bumpBl (bumpBl (setLink s d { b with tx := { b.tx with resend := b.tx.retry } }) d 0x048 16 1)
      d 0x04C 32 b.tx.retry.length) := by
  rw [retryTimeout, hb]
  simp only [hcarries, Bool.not_true, Bool.false_or]
  rw [if_neg (by simp [hretry, hage])]
  rfl

theorem retryTimeout_young {s : State} {d age : Nat} {b : BoardLink} (hb : linkOf s d = some b) (h : b.tx.retry = [] ∨ age < 128) : retryTimeout s d age = s := by
  rw [retryTimeout, hb]
  exact if_pos (by rcases h with h | h <;> simp [h])

theorem peerDieReset_up {s : State} {d : Nat} {b : BoardLink} (hb : linkOf s d = some b) (hup : linkUp b = true) (hparts : b.parts = []) :
    exec (.boardPeerDieReset d) s
      = .next (buildRoutes (setLink (noneArrived s) d { b with st := 2, spill := true, quick := false, fresh := true })) := by
  have hcut : cutPackets (noneArrived s) d = setLink (noneArrived s) d b := by
    have hsame : ({ b with parts := [] } : BoardLink) = b := by rw [← hparts]
    rw [cutPackets, show linkOf (noneArrived s) d = some b from hb]
    dsimp only
    rw [hsame, hparts]
    rfl
  have hexec : exec (.boardPeerDieReset d) s
    = .next (takeArrived (peerDieReset (if (linkOf s d).any linkUp then cutPackets (noneArrived s) d else noneArrived s) d)) := rfl
  have hreset : peerDieReset (setLink (noneArrived s) d b) d
      = buildRoutes (setLink (noneArrived s) d { b with st := 2, spill := true, quick := false, fresh := true }) := by
    rw [peerDieReset, linkOf_setLink]
    simp only [hup, if_true, setLink, put_put]
  rw [hexec, hb, Option.any_some, if_pos hup, hcut, hreset, takeArrived_none rfl]

theorem peerDieReset_down {s : State} {d : Nat} {b : BoardLink} (hb : linkOf s d = some b) (hup : linkUp b = false) :
    exec (.boardPeerDieReset d) s = .next (noneArrived s) := by
  have hexec : exec (.boardPeerDieReset d) s
    = .next (takeArrived (peerDieReset (if (linkOf s d).any linkUp then cutPackets (noneArrived s) d else noneArrived s) d)) := rfl
  have hreset : peerDieReset (noneArrived s) d = noneArrived s := by
    rw [peerDieReset, show linkOf (noneArrived s) d = some b from hb]
    simp [hup]
  rw [hexec, hb, Option.any_some, if_neg (by simp [hup]), hreset, takeArrived_none rfl]

/-- Settles O55: a flit that fails no lane is only judged; a good one takes its items and records, a bad one starts or goes on with a
discard, and no row brings a packet here. -/
theorem boardFlitsRetriesAndMarkers : Obligations.BoardFlitsRetriesAndMarkers := by
  intro s d
  dsimp only
  refine ⟨fun b f hb hcarries hlen hlanes => ?_, ?_, ?_, ?_, ?_, ?_, ?_, ?_, ?_⟩
  · refine ⟨fun hgood hitems => ?_, fun x hgood hitems hx hfind => ?_, fun x hgood hitems hx htail => ?_, fun hbad hfirst => ?_, fun hbad hagain hwait => ?_,
      fun hbad hagain hwait => ?_⟩
    · obtain ⟨t, u, hexec, hlink, hu, hretry, hresend, hds, hothers, hmd⟩ := exec_creditFlit hb hcarries hlen hlanes hgood hitems
      exact ⟨t, u, hexec, hlink, hu, hretry, hresend, fun w hw => hds ▸ List.mem_append_left _ hw,
        fun r hr k hk hdue hshort => hds ▸ mem_takeRecords hr hk hdue hshort, by rw [hds]; rfl, hothers, hmd⟩
    · obtain ⟨t, n, hexec, hmarks, hn, hds, hmd⟩ := exec_markerFlit hb hcarries hlen hlanes hgood hitems hx hfind
      exact ⟨t, n, hexec, hmarks, hn, by rw [hds]; rfl, hmd⟩
    · obtain ⟨t, u, hexec, hlink, hparts, howed, hds, hmd⟩ := exec_middleFlit hb hcarries hlen hlanes hgood hitems hx htail
      exact ⟨t, u, hexec, hlink, hparts, howed, by rw [hds]; rfl, hmd⟩
    · exact exec_firstBadFlit hb hcarries hlen hlanes hbad hfirst
    · exact exec_laterBadFlit hb hcarries hlen hlanes hbad hagain hwait
    · obtain ⟨hheard, htx, hsent, -⟩ := heardBlocks_spec s b f
      have hjudged := (flitJudged_bad hbad).trans (badFlit_waits (s := blocksTaken s d b f) (d := d) (hsent.trans hagain) (htx ▸ hwait))
      have hexec := exec_boardFlitReceive hb hcarries hlen hlanes (by rw [hjudged]; rfl) (by rw [hjudged]; rfl)
      rw [hjudged] at hexec
      exact ⟨_, _, hexec, linkOf_blocksTaken s d b f, hheard, rfl, reg_blocksTaken s d b f⟩
  · intro b ack hb hcarries
    have hexec : exec (.nakReceived d ack true) s = .next (nakReceived s d ack true) := rfl
    rw [nakReceived_resends hb hcarries] at hexec
    refine ⟨_, _, hexec, linkOf_setLink _ _ _, rfl, rfl, rfl, ?_, ?_, rfl, rfl, rfl⟩
    · rw [bumpBl, reg_bump_other _ _ _ (rkey_off_ne (by decide))]
      exact reg_bump_same _ _ (by decide) _
    · have hother := reg_bump_other (setLink s d { b with acked := ack % 128, tx := resendAll (ackFlits b.tx (ack % 128)) }) 32 1
        (rkey_off_ne (site := d) (block := 0x11) (o := 0x04C) (p := 0x044) (by decide))
      rw [bumpBl, reg_bump_same _ _ (by decide), bumpBl, hother]
      rfl
  · intro b age hb hcarries hretry hage
    have hexec : exec (.retryTimeout d age) s = .next (retryTimeout s d age) := rfl
    rw [retryTimeout_resends hb hcarries hretry hage] at hexec
    obtain ⟨hpulses, hbl, hds, hmd, -, hregs⟩ := retryRequest_spec (bumpBl (bumpBl (setLink s d { b with tx := { b.tx with resend := b.tx.retry } }) d 0x048 16 1)
      d 0x04C 32 b.tx.retry.length)
    refine ⟨_, hexec, (linkOf_of_bl hbl d).trans (linkOf_setLink _ _ _), ?_, ?_, hpulses, hds, hmd⟩
    · rw [hregs _ (linkKey_ne_io _ _ _ _ (by decide) (by decide) (by decide) (by decide)), bumpBl, reg_bump_other _ _ _ (rkey_off_ne (by decide))]
      exact reg_bump_same _ _ (by decide) _
    · have hother := reg_bump_other (setLink s d { b with tx := { b.tx with resend := b.tx.retry } }) 16 1
        (rkey_off_ne (site := d) (block := 0x11) (o := 0x04C) (p := 0x048) (by decide))
      rw [hregs _ (linkKey_ne_io _ _ _ _ (by decide) (by decide) (by decide) (by decide)), bumpBl, reg_bump_same _ _ (by decide), bumpBl, hother]
      rfl
  · exact fun b age hb h => congrArg Host.Outcome.next (retryTimeout_young hb h)
  · exact fun c dcn16 tag h => congrArg Host.Outcome.next (cycleMarker_expected h)
  · intro c dcn16 tag hstep hd hc hroute hwrong hrec
    exact ⟨_, congrArg Host.Outcome.next (cycleMarker_wrong hstep hd hc hroute hwrong), markerMismatch_asks d c hrec⟩
  · intro c dcn16 tag hstep hd hc hroute hwrong hrec
    exact ⟨_, congrArg Host.Outcome.next (cycleMarker_wrong hstep hd hc hroute hwrong), markerMismatch_fatal d c hrec⟩
  · exact fun b hb hup hparts => peerDieReset_up hb hup hparts
  · exact fun b hb hup => peerDieReset_down hb hup

end Sys2Proof.Machine

namespace Sys2Proof.Machine

/-! ### Registers and requests of a fault below FATAL (R535, R540, R545) -/

/-- A record of a class counts itself, may ask for replacement, and keeps the longest stall: no other register changes. -/
theorem reg_addRecord_other (s : State) (r : ErrRec) (b : Bool) {k : Nat} (hask : k ≠ rkey 15 0x14 0x008)
    (hcls : k ≠ rkey 15 0x14 (0x010 + 4 * (r.cls - 1))) (hstall : k ≠ rkey 15 0x14 0x024) : reg (addRecord s r b) k = reg s k := by
  have hcount : reg (countFault s r.cls) k = reg s k := reg_bump_other s _ _ hcls
  have hstored (u : State) (hu : u.regs = (countFault s r.cls).regs) (c : Prop) [Decidable c] (cause : Nat) :
      reg (if c then assertReplace u cause else u) k = reg s k := by
    have hkeep : reg u k = reg s k := (reg_of_regs hu k).trans hcount
    split
    · rw [reg_assertReplace u cause hask, hkeep]
    · exact hkeep
  unfold addRecord
  dsimp only
  split
  · exact hcount
  · split
    · rw [reg_maxIo_other _ _ hstall]
      exact hstored _ (by simp) _ _
    · exact hstored _ (by simp) _ _

theorem fault_addRecord (s : State) {f : FaultInfo} (h : f.cls ≠ 5) : fault s f = addRecord (noteOverlap s) (recordOf s f) f.noReplace := by
  have hrec : ((recordOf s f).cls == 5) = false := by simpa [recordOf] using h
  rw [fault, makeRecord, hrec]
  rfl

theorem reg_fault_other (s : State) {f : FaultInfo} (h : f.cls ≠ 5) {k : Nat} (hask : k ≠ rkey 15 0x14 0x008)
    (hcls : k ≠ rkey 15 0x14 (0x010 + 4 * (f.cls - 1))) (hstall : k ≠ rkey 15 0x14 0x024) : reg (fault s f) k = reg s k := by
  rw [fault_addRecord s h]
  exact reg_addRecord_other (noteOverlap s) (recordOf s f) _ hask hcls hstall

/-- A single fault of a unit that is below FATAL changes no mode. -/
theorem unitFault_md (s : State) (code unit : Nat) {f : FaultInfo} (h : f.cls ≠ 5) : (unitFault s code unit f).md = s.md := by
  unfold unitFault
  split
  · exact (fault_below_fatal s { f with source := code } h).1
  · simp [tickFree]

theorem joinRepair_md (s : State) (code unit : Nat) {f : FaultInfo} (h : f.cls ≠ 5) : (joinRepair s code unit f).md = s.md := by
  unfold joinRepair
  split
  · simp [noteOverlap, tickFree]
  · exact unitFault_md s code unit h

/-! ### One module, its counters, and the end of its training -/

theorem modOf_of_ucie {s t : State} (h : t.ucie = s.ucie) (m : Nat) : modOf t m = modOf s m := congrArg (lookup · m) h

@[simp] theorem modOf_setMod (s : State) (m : Nat) (u : UcieMod) : modOf (setMod s m u) m = some u := lookup_put_same _ _ _

theorem modOf_setMod_other (s : State) {m o : Nat} (u : UcieMod) (h : o ≠ m) : modOf (setMod s m u) o = modOf s o := lookup_put_other _ _ _ _ h

/-- A counter of a module, of which the block keeps three at offsets 0, 8 and 16 of 64 bytes. -/
def modKey (m k : Nat) : Nat := rkey (moduleSite m) 0x12 (0x800 + 64 * m + k)

theorem modKey_mod (m k : Nat) : modKey m k % 64 = k % 64 := by
  simp only [modKey, rkey]
  omega

theorem modKey_ne {m k key : Nat} (h : k % 64 ≠ key % 64) : modKey m k ≠ key := fun he => h (by rw [← modKey_mod m k, he])

/-- The network side but for messages, events, datagrams and routes. -/
def netRest (n : NetState) : NetState := { n with fwOut := [], mgmtOut := [], relayBack := [], out := [], routes := [] }

theorem netRest_of_netBeside {n m : NetState} (h : netBeside n = netBeside m) : netRest n = netRest m := by
  have hrest : netRest (netBeside n) = netRest (netBeside m) := by rw [h]
  exact hrest

theorem completeWhere_netRest (s : State) (p : Waiting → Bool) (st : Nat) (ws : List Word) : netRest (completeWhere s p st ws).net = netRest s.net := by
  have hpost (u : State) (w : Waiting) : netRest (postCompletion u w st ws).net = netRest u.net := by
    unfold postCompletion
    split
    · rfl
    · split
      · rfl
      · exact netRest_of_netBeside (copyEvent_netBeside _ _)
  unfold completeWhere
  exact foldl_keeps (fun s => netRest s.net) _ (fun _ _ => hpost _ _) _ _

theorem buildSig_netRest (s : State) : netRest (buildSig s).net = netRest s.net := by
  unfold buildSig
  dsimp only
  split <;> rfl

/-- The end of a training builds routes and the signature, and completes LINK_TRAINs: beside these nothing changes. -/
theorem trainDone_frame (s : State) (isModule : Bool) (n status : Nat) :
    let t := trainDone s isModule n status
    t.ucie = s.ucie ∧ t.bl = s.bl ∧ t.acc = s.acc ∧ t.boot = s.boot ∧ t.ds = s.ds ∧ t.md = s.md ∧ t.err = s.err ∧ t.regs = s.regs
    ∧ t.phys = s.phys ∧ netRest t.net = netRest s.net := by
  have hsig := buildSig_frame s
  have hnet := completeWhere_netRest (buildRoutes (if s.md.mode == .boot then s else buildSig s))
    (fun w => w.opcode == 0x0802 && lnkModule w.cmd == isModule && lnkIndex w.cmd == n) status []
  have hsame : let u := if s.md.mode == .boot then s else buildSig s
      u.ucie = s.ucie ∧ u.bl = s.bl ∧ u.acc = s.acc ∧ u.boot = s.boot ∧ u.ds = s.ds ∧ u.md = s.md ∧ u.err = s.err ∧ u.regs = s.regs
      ∧ u.phys = s.phys ∧ netRest u.net = netRest s.net := by
    dsimp only
    split
    · exact ⟨rfl, rfl, rfl, rfl, rfl, rfl, rfl, rfl, rfl, rfl⟩
    · rw [hsig]
      exact ⟨rfl, rfl, rfl, rfl, rfl, rfl, rfl, rfl, rfl, buildSig_netRest s⟩
  obtain ⟨hucie, hbl, hacc, hboot, hds, hmd, herr, hregs, hphys, hrest⟩ := hsame
  exact ⟨by simpa [trainDone] using hucie, by simpa [trainDone] using hbl, by simpa [trainDone] using hacc, by simpa [trainDone] using hboot,
    by simpa [trainDone] using hds, by simp, by simpa [trainDone] using herr, by simpa [trainDone] using hregs,
    by simpa [trainDone] using hphys, hnet.trans hrest⟩

/-! ### Module training (R441 to R446) -/

/-- A training of a module other than the accessory site's that reaches a width. -/
theorem ucieStartup_trains {s : State} {m : Nat} {u : UcieMod} (hu : modOf s m = some u) (htrain : inTraining u.st = true) (hsite : m ≠ 24) {r : UcieTraining}
    (hside : r.sideband = true) (hmain : r.mainband = true) (hcredits : r.creditsOk = true ∨ afterReset s m = true)
    (hwidth : (trainWidth u (fusedMap s m) r).st ≠ 1) :
    let v := trainWidth u (fusedMap s m) r
    let t := bumpMod (setMod s m { v with heard := [], sent := sentRecords s m }) m 0x10 16 1
    ucieStartup s m r = if v.st = 4 then remark (fault t (modInfo m 4 0x0203)) else t := by
  have hsame : afterReset (bumpMod (setMod s m { trainWidth u (fusedMap s m) r with heard := [], sent := sentRecords s m }) m 0x10 16 1) m = afterReset s m := rfl
  have hok : (r.creditsOk || afterReset s m) = true := by simpa using hcredits
  unfold ucieStartup
  rw [hu]
  simp [htrain, hside, hmain, hwidth, hsame, hok, hsite]

theorem remark_regs (s : State) : (remark s).regs = s.regs := by simp

theorem ucieStartup_width {s : State} {m : Nat} {v : UcieMod} (x : UcieMod) :
    let t := bumpMod (setMod s m x) m 0x10 16 1
    let a := if v.st = 4 then remark (fault t (modInfo m 4 0x0203)) else t
    modOf a m = some x ∧ (reg a (modKey m 0x10)).toNat = satAdd 16 (reg s (modKey m 0x10)).toNat 1 ∧ (v.st = 4 → replaceAsked a = true)
    ∧ (∀ o, o ≠ m → modOf a o = modOf s o) ∧ a.ds = s.ds ∧ a.md = s.md := by
  have hcount : (reg (bumpMod (setMod s m x) m 0x10 16 1) (modKey m 0x10)).toNat = satAdd 16 (reg s (modKey m 0x10)).toNat 1 :=
    reg_bump_same (setMod s m x) _ (by decide) 1
  dsimp only
  split
  next hst =>
    have hclass : (modInfo m 4 0x0203).cls = 4 := rfl
    have hcls : (modInfo m 4 0x0203).cls ≠ 5 := by rw [hclass]; decide
    obtain ⟨hmd, -, -, -⟩ := fault_below_fatal (bumpMod (setMod s m x) m 0x10 16 1) (modInfo m 4 0x0203) hcls
    refine ⟨?_, ?_, fun _ => ?_, fun o ho => ?_, by simp [bumpMod, setMod], by simp [hmd]⟩
    · exact (modOf_of_ucie (by simp [bumpMod]) m).trans (modOf_setMod s m x)
    · rw [reg_of_regs (remark_regs _), reg_fault_other _ hcls (modKey_ne (by decide)) (modKey_ne (by rw [hclass]; decide)) (modKey_ne (by decide))]
      exact hcount
    · exact (replaceAsked_congr (remark_regs _)).trans (replaceAsked_fault _ hclass)
    · exact (modOf_of_ucie (by simp [bumpMod]) o).trans (modOf_setMod_other s x ho)
  next hst => exact ⟨modOf_setMod s m x, hcount, fun h => absurd h hst, fun o ho => modOf_setMod_other s x ho, rfl, rfl⟩

/-- A spoke without sideband at start fails the start-up. -/
theorem ucieStartup_noSideband {s : State} {m : Nat} {u : UcieMod} (hu : modOf s m = some u) (htrain : inTraining u.st = true) (hspoke : m < 16)
    (hmode : s.md.mode = .boot) (hphase : s.boot.phase ≠ 7) {r : UcieTraining} (hside : r.sideband = false) :
    let t := ucieStartup s m r
    modOf t m = some { u with st := 1, proto := 0, cause := 1 } ∧ t.boot = { s.boot with phase := 7, cause := 0x0A, cfgErr := true }
    ∧ (∀ o, o ≠ m → modOf t o = modOf s o) ∧ t.ds = s.ds ∧ t.md = s.md := by
  have hdown : ucieStartup s m r = trainDone (startUpFailure (setMod s m { u with st := 1, proto := 0, cause := 1 }) 0x0A 0x0501) true m 0x0501 := by
    have hsite : (m == 24) = false := by simp; omega
    have hboot : (setMod s m { u with st := 1, proto := 0, cause := 1 }).md.mode = .boot := hmode
    unfold ucieStartup
    rw [hu]
    simp [htrain, hside, moduleDown, hsite, hspoke, hmode]
  obtain ⟨hboot, hds, -, -, -⟩ := startUpFailure_fails (s := setMod s m { u with st := 1, proto := 0, cause := 1 }) hphase 0x0A 0x0501
  have hucie : (startUpFailure (setMod s m { u with st := 1, proto := 0, cause := 1 }) 0x0A 0x0501).ucie = (setMod s m { u with st := 1, proto := 0, cause := 1 }).ucie := by
    unfold startUpFailure
    split <;> simp [completeAll]
  obtain ⟨tucie, -, -, tboot, tds, tmd, -⟩ := trainDone_frame (startUpFailure (setMod s m { u with st := 1, proto := 0, cause := 1 }) 0x0A 0x0501) true m 0x0501
  dsimp only
  rw [hdown]
  exact ⟨(modOf_of_ucie (tucie.trans hucie) m).trans (modOf_setMod _ _ _), tboot.trans hboot,
    fun o ho => (modOf_of_ucie (tucie.trans hucie) o).trans (modOf_setMod_other _ _ ho), tds.trans hds, tmd.trans (by simp)⟩

theorem agreedProto_comm (a b : Nat) : agreedProto a b = agreedProto b a := by
  unfold agreedProto
  simp only [Bool.and_comm]

theorem recordsMet_agrees (s : State) {m : Nat} (u : UcieMod) {a b : Nat × Nat} (hsite : m ≠ 24) (hagree : agreedProto a.1 b.1 ≠ 0) :
    recordsMet s m u a b = trainDone (setMod s m { u with proto := agreedProto a.1 b.1, caps := a.2 &&& b.2 }) true m 0 := by
  unfold recordsMet
  dsimp only
  rw [if_neg (by simpa using hagree), if_pos (by simpa using hsite)]

/-- A right identity of one end is kept, and with the other end's the ends agree. -/
theorem parameterRecord_right {s : State} {m : Nat} {u : UcieMod} (hu : modOf s m = some u) (htrained : modTrained u = true) (hsite : m ≠ 24) {r : ParamRecord}
    (hident : identOf (if r.second then (moduleEnds s m).2 else (moduleEnds s m).1) r = true) :
    let h := put u.heard (b2n r.second) (r.proto, r.caps)
    (lookup u.heard (1 - b2n r.second) = none → parameterRecord s m r = setMod s m { u with heard := h })
    ∧ ∀ o : Nat × Nat, lookup u.heard (1 - b2n r.second) = some o → agreedProto o.1 r.proto ≠ 0 →
      parameterRecord s m r = trainDone (setMod (setMod s m { u with heard := h }) m
        { u with heard := h, proto := agreedProto o.1 r.proto, caps := o.2 &&& r.caps }) true m 0 := by
  have hno24 : (m == 24) = false := by simpa using hsite
  have hown (v : Nat × Nat) : lookup (put u.heard (b2n r.second) v) (b2n r.second) = some v := lookup_put_same _ _ _
  have hother (v : Nat × Nat) : lookup (put u.heard (b2n r.second) v) (1 - b2n r.second) = lookup u.heard (1 - b2n r.second) :=
    lookup_put_other _ _ _ _ (by cases r.second <;> decide)
  unfold parameterRecord
  rw [hu]
  simp only [htrained, Bool.not_true, Bool.false_eq_true, if_false, hident, hno24, Bool.false_and]
  cases hsecond : r.second with
  | false =>
    simp only [hsecond, b2n, Bool.false_eq_true, if_false] at hown hother ⊢
    refine ⟨fun hnone => ?_, fun o ho hagree => ?_⟩
    · rw [hown, hother, hnone]
    · rw [hown, hother, ho]
      dsimp only
      rw [recordsMet_agrees _ _ hsite (by rwa [agreedProto_comm]), agreedProto_comm r.proto, Nat.and_comm r.caps]
  | true =>
    simp only [hsecond, b2n, if_true] at hown hother ⊢
    refine ⟨fun hnone => ?_, fun o ho hagree => ?_⟩
    · rw [hown, hother, hnone]
    · rw [hown, hother, ho]
      exact recordsMet_agrees _ _ hsite hagree

/-! ### Modules in operation (R446, R447) -/

/-- The state after the adapter's retry of a flit of a module: counted, code 3 for one slot, a CORRECTED fault. -/
def crcCounted (s : State) (m n : Nat) : State :=
  fault (pulse (bumpMod (bumpMod (bumpMod s m 0 32 1) m 4 32 1) m 8 32 n) 3 1) { modInfo m 1 0x0201 with source := 3, stallUs := 1 }

theorem crcCounted_spec (s : State) (m n : Nat) :
    let t := crcCounted s m n
    (reg t (modKey m 0)).toNat = satAdd 32 (reg s (modKey m 0)).toNat 1 ∧ (reg t (modKey m 8)).toNat = satAdd 32 (reg s (modKey m 8)).toNat n
    ∧ t.slu.pulses = s.slu.pulses ++ [(3, 1)] ∧ t.ucie = s.ucie ∧ t.ds = s.ds ∧ t.md = s.md ∧ t.time = s.time := by
  obtain ⟨hmd, htime, hslu, -⟩ := fault_below_fatal (pulse (bumpMod (bumpMod (bumpMod s m 0 32 1) m 4 32 1) m 8 32 n) 3 1)
    { modInfo m 1 0x0201 with source := 3, stallUs := 1 } (by simp [modInfo])
  have hkeep {k : Nat} (hk : k % 64 ≠ 16 ∧ k % 64 ≠ 12) : reg (crcCounted s m n) (modKey m k)
      = reg (bumpMod (bumpMod (bumpMod s m 0 32 1) m 4 32 1) m 8 32 n) (modKey m k) := by
    rw [crcCounted, reg_fault_corrected rfl (modKey_ne hk.1)]
    exact reg_bump_other _ _ _ (modKey_ne hk.2)
  have hapart {k l : Nat} (h : k % 64 ≠ l % 64) : modKey m k ≠ modKey m l := modKey_ne (by rwa [modKey_mod])
  have hbump {k l : Nat} (h : k % 64 ≠ l % 64) (u : State) (w j : Nat) : reg (bumpMod u m l w j) (modKey m k) = reg u (modKey m k) :=
    reg_bump_other u w j (hapart h)
  refine ⟨?_, ?_, by rw [crcCounted, hslu]; rfl, by simp [crcCounted, bumpMod], by simp [crcCounted, bumpMod], by rw [crcCounted, hmd]; simp,
    by rw [crcCounted, htime]; simp [bumpMod]⟩
  · rw [hkeep (by decide), hbump (by decide), hbump (by decide)]
    exact reg_bump_same s _ (by decide) 1
  · rw [hkeep (by decide)]
    refine (reg_bump_same _ _ (by decide) n).trans ?_
    have hold := hbump (k := 8) (l := 4) (by decide) (bumpMod s m 0 32 1) 32 1
    have hold' := hbump (k := 8) (l := 0) (by decide) s 32 1
    exact congrArg (fun w : Word => satAdd 32 w.toNat n) (hold.trans hold')

theorem ucieCrcFail_module {s : State} {m : Nat} {u : UcieMod} (hu : modOf s m = some u) (htrained : modTrained u = true) (n : Nat) :
    ucieCrcFail s m ⟨none, n⟩ = crcCounted s m n := by
  unfold ucieCrcFail
  rw [hu]
  simp only [htrained, Bool.not_true, Bool.false_eq_true, if_false]
  rfl

/-- The failure of a lane is kept, and the eighth within 1 ms is that lane's. -/
theorem ucieCrcFail_lane {s : State} {m : Nat} {u : UcieMod} (hu : modOf s m = some u) (htrained : modTrained u = true) (l : Nat) (tx : Bool) (n : Nat) :
    let ts := laneCrc s u (l + 64 * b2n tx)
    let a := setMod (crcCounted s m n) m { u with crcAt := put u.crcAt (l + 64 * b2n tx) ts }
    ucieCrcFail s m ⟨some (l, tx), n⟩ = if laneCrcFails s ts then laneLost a m l tx else a := by
  obtain ⟨-, -, -, -, -, -, htime⟩ := crcCounted_spec s m n
  have hnow : nowNs (crcCounted s m n) = nowNs s := by rw [nowNs, htime]; rfl
  have hcrc : laneCrc (crcCounted s m n) u (l + 64 * b2n tx) = laneCrc s u (l + 64 * b2n tx) := by rw [laneCrc, hnow]; rfl
  have hfails (x : UcieMod) (ts : List Nat) : laneCrcFails (setMod (crcCounted s m n) m x) ts = laneCrcFails s ts := by
    have hsame : nowNs (setMod (crcCounted s m n) m x) = nowNs s := hnow
    rw [laneCrcFails, hsame]
    rfl
  have hdef : ucieCrcFail s m ⟨some (l, tx), n⟩ =
      (let ts := laneCrc (crcCounted s m n) u (l + 64 * b2n tx)
        let a := setMod (crcCounted s m n) m { u with crcAt := put u.crcAt (l + 64 * b2n tx) ts }
        if laneCrcFails a ts then laneLost a m l tx else a) := by
    unfold ucieCrcFail
    rw [hu]
    simp only [htrained, Bool.not_true, Bool.false_eq_true, if_false]
    rfl
  rw [hdef]
  dsimp only
  rw [hfails, hcrc]

/-- A module whose failed lane a spare of its direction replaces. -/
def spareTaken (u : UcieMod) (l : Nat) (tx : Bool) : UcieMod :=
  if tx then { u with failed := ins u.failed l, txTrained := u.txTrained + 1 } else { u with failed := ins u.failed l, rxTrained := u.rxTrained + 1 }

/-- A remap is counted, and asks for its stall. -/
theorem moduleRemap_spec (s : State) (m : Nat) (x : UcieMod) {f : FaultInfo} (hf : f.cls ≠ 5) :
    let t := joinRepair (bumpMod (setMod s m x) m 0x0C 16 1) 9 (m + 1) f
    modOf t m = some x ∧ asksRepair s t 9 ∧ (∀ o, o ≠ m → modOf t o = modOf s o) ∧ t.ds = s.ds ∧ t.md = s.md := by
  have hucie : (joinRepair (bumpMod (setMod s m x) m 0x0C 16 1) 9 (m + 1) f).ucie = (setMod s m x).ucie := by simp [bumpMod]
  refine ⟨(modOf_of_ucie hucie m).trans (modOf_setMod s m x), ?_, fun o ho => (modOf_of_ucie hucie o).trans (modOf_setMod_other s x ho), ?_, ?_⟩
  · exact (asksRepair_congr rfl rfl rfl rfl rfl rfl 9).mp (joinRepair_asks (bumpMod (setMod s m x) m 0x0C 16 1) 9 (m + 1) f)
  · simp [bumpMod, setMod]
  · exact joinRepair_md _ 9 (m + 1) hf

/-- A lane at x64 whose direction has a spare is remapped onto it. -/
theorem laneLost_spare {s : State} {m l : Nat} {u : UcieMod} {tx : Bool} (hu : modOf s m = some u) (hst : u.st = 3) (hl : l < 64)
    (hspare : (if tx then u.txFused + u.txTrained else u.rxFused + u.rxTrained) < 4) :
    laneLost s m l tx = joinRepair (bumpMod (setMod s m (spareTaken u l tx)) m 0x0C 16 1) 9 (m + 1) { modInfo m 3 0x0202 with d1 := l } := by
  unfold laneLost
  rw [hu]
  have htrained : modTrained u = true := by simp [modTrained, hst]
  simp only [htrained, Bool.not_true, Bool.false_or, hst, decide_eq_true_eq, not_le.mpr hl, if_false, show ((3 : Nat) == 4) = false from rfl, Bool.false_eq_true,
    hspare, if_true, spareTaken]

/-- A lane at x64 whose direction has no spare left takes the module to the other half. -/
theorem laneLost_half {s : State} {m l : Nat} {u : UcieMod} {tx : Bool} (hu : modOf s m = some u) (hst : u.st = 3) (hl : l < 64)
    (hspare : 4 ≤ (if tx then u.txFused + u.txTrained else u.rxFused + u.rxTrained)) :
    laneLost s m l tx = widthFault (setMod s m { u with failed := ins u.failed l, st := 4, half := if l < 32 then 1 else 0, cause := 4 }) (m + 1)
      { modInfo m 4 0x0203 with d1 := l } := by
  unfold laneLost
  rw [hu]
  have htrained : modTrained u = true := by simp [modTrained, hst]
  simp only [htrained, Bool.not_true, Bool.false_or, hst, decide_eq_true_eq, not_le.mpr hl, if_false, show ((3 : Nat) == 4) = false from rfl, Bool.false_eq_true,
    not_lt.mpr hspare]

/-- At x32 a lane of the idle half changes nothing, and one of the active half loses the module. -/
theorem laneLost_narrow {s : State} {m l : Nat} {u : UcieMod} (tx : Bool) (hu : modOf s m = some u) (hst : u.st = 4) (hl : l < 64) :
    laneLost s m l tx = if l / 32 = u.half then moduleLost s m { u with failed := ins u.failed l } l else s := by
  unfold laneLost
  rw [hu]
  have htrained : modTrained u = true := by simp [modTrained, hst]
  simp only [htrained, Bool.not_true, Bool.false_or, hst, decide_eq_true_eq, not_le.mpr hl, if_false, beq_self_eq_true, if_true, beq_iff_eq]

/-- A repair that a fault joins or starts has the fault among its records. -/
theorem joinRepair_records {s : State} {unit : Nat} {f : FaultInfo} (hrun : slotsRun s = true) (hlive : s.md.safeHold = none) (code : Nat) :
    ∃ r ∈ (joinRepair s code unit f).err.repairs, r.code = code ∧ r.unit = unit ∧ ∃ e ∈ r.recs, e.cause = f.cause ∧ e.cls = f.cls := by
  have hno : inSafeHold s = false := by simp [inSafeHold, hlive]
  unfold joinRepair
  split
  next hin =>
    obtain ⟨r, hr, hp⟩ := List.any_eq_true.mp (Bool.and_eq_true_iff.mp hin).1
    have hm : overlapped r ∈ (noteOverlap (tickFree s)).err.repairs := List.mem_map_of_mem (f := overlapped) hr
    refine ⟨_, List.mem_map_of_mem hm, ?_⟩
    have hp' : ((overlapped r).code == code && (overlapped r).unit == unit) = true := hp
    simp only [hp', if_true]
    simp only [Bool.and_eq_true, beq_iff_eq] at hp
    exact ⟨hp.1, hp.2, recordOf s { f with source := code }, by simp, rfl, rfl⟩
  next hout =>
    unfold unitFault
    rw [if_neg (by simp [hrun, hno])]
    exact ⟨unitRepair s code unit f, by simp [startRepair, unitRepair], rfl, rfl, recordOf s { f with source := code }, by simp [unitRepair], rfl, rfl⟩

/-- A module lost in operation is FATAL. -/
theorem moduleLost_fatal {s : State} {m : Nat} (u : UcieMod) (lane : Nat) (hsite : m ≠ 24) :
    let t := moduleLost s m u lane
    t.md.safeHold ≠ none ∧ t.ds = s.ds ∧ modOf t m = some { u with st := 1, proto := 0, cause := 6 } := by
  have hdef : moduleLost s m u lane = fault (buildRoutes (setMod s m { u with st := 1, proto := 0, cause := 6 })) { modInfo m 5 0x0204 with d1 := lane, flags := 16 } :=
    if_neg (by simpa using hsite)
  dsimp only
  rw [hdef]
  exact ⟨fault_fatal_held _ _ rfl, by simp [setMod], (modOf_of_ucie (by simp) m).trans (modOf_setMod s m _)⟩

/-- What a module at half width leaves. -/
theorem widthFault_spec (s : State) (unit : Nat) {f : FaultInfo} (hf : f.cls = 4) :
    let t := widthFault s unit f
    t.ucie = s.ucie ∧ t.ds = s.ds ∧ t.md = s.md ∧ asksRepair s t 9
    ∧ (slotsRun s = true → s.md.safeHold = none → ∃ r ∈ t.err.repairs, r.code = 9 ∧ r.unit = unit ∧ ∃ e ∈ r.recs, e.cause = f.cause ∧ e.cls = 4)
    ∧ (slotsRun s = false → inRepair s 9 unit = false → replaceAsked t = true) := by
  have hmd : (joinRepair s 9 unit f).md = s.md := joinRepair_md s 9 unit (by rw [hf]; decide)
  unfold widthFault
  by_cases hrun : (slotsRun s && !inSafeHold s) = true
  · rw [if_pos hrun]
    refine ⟨by simp, by simp, hmd, joinRepair_asks s 9 unit f, fun hr hl => hf ▸ joinRepair_records hr hl 9, fun hr => ?_⟩
    rw [hr] at hrun
    cases hrun
  · rw [if_neg hrun]
    have hidle : slotsRun s = true → s.md.safeHold ≠ none := fun hr hl => hrun (by simp [hr, inSafeHold, hl])
    refine ⟨by simp, by simp, by simp [hmd], fun hr hl => absurd hl (hidle hr), fun hr hl => absurd hl (hidle hr), fun hr hin => ?_⟩
    have hfault : joinRepair s 9 unit f = fault s { f with source := 9 } := by simp [joinRepair, hin, unitFault, hr]
    rw [hfault]
    exact (replaceAsked_congr (remark_regs _)).trans (replaceAsked_fault _ hf)

/-! ### Step bits and drift (R119, R124) -/

/-- A drift of at most 2 steps is shown and no more. -/
theorem trackDrift_small {s : State} (d c : Nat) {x : Int} (hx : x.natAbs ≤ 2) : trackDrift s d c x = setDrift s d c x := if_pos (by simp [hx])

theorem foldl_trackDrift_small (d : Nat) {x : Int} (hx : x.natAbs ≤ 2) (cs : List Nat) (s : State) :
    ∃ r, cs.foldl (fun s c => trackDrift s d c x) s = { s with regs := r } := by
  induction cs generalizing s with
  | nil => exact ⟨s.regs, rfl⟩
  | cons c cs ih =>
    rw [List.foldl_cons, trackDrift_small d c hx]
    obtain ⟨r, hr⟩ := ih (setDrift s d c x)
    exact ⟨r, hr⟩

theorem inRepair_noteOverlap (s : State) (code unit : Nat) : inRepair (noteOverlap s) code unit = inRepair s code unit := by
  simp [inRepair, noteOverlap, Function.comp_def]

/-- Tracking a drift drops no repair, and one beyond 2 steps is in repair then. -/
theorem inRepair_trackDrift {s : State} (d c : Nat) {x : Int} :
    (∀ unit, inRepair s 10 unit = true → inRepair (trackDrift s d c x) 10 unit = true)
    ∧ (2 < x.natAbs → s.md.safeHold = none → inRepair (trackDrift s d c x) 10 (8 * d + c) = true) := by
  have hset (code unit : Nat) : inRepair (setDrift s d c x) code unit = inRepair s code unit := rfl
  have hstart (r : Repair) (unit : Nat) : inRepair (startRepair (setDrift s d c x) r) 10 unit = (inRepair s 10 unit || (r.code == 10 && r.unit == unit)) := by
    have hcount : inRepair (startRepair (setDrift s d c x) r) 10 unit = (inRepair (noteOverlap (setDrift s d c x)) 10 unit || (r.code == 10 && r.unit == unit)) := by
      simp [inRepair, startRepair]
    rw [hcount, inRepair_noteOverlap, hset]
  have hmark (u : State) (unit : Nat) : inRepair (markWeir u d) 10 unit = inRepair u 10 unit := rfl
  unfold trackDrift
  dsimp only
  split
  next hno =>
    refine ⟨fun _ h => h, fun hx hl => ?_⟩
    have hsafe : inSafeHold (setDrift s d c x) = false := by simp [inSafeHold, hl]
    simpa [hsafe, not_le.mpr hx] using hno
  next =>
    split
    · exact ⟨fun unit h => by rw [hstart, h]; rfl, fun _ _ => by rw [hstart]; simp⟩
    · exact ⟨fun unit h => by rw [hmark, hstart, h]; rfl, fun _ _ => by rw [hmark, hstart]; simp⟩

theorem foldl_trackDrift_large (d : Nat) {x : Int} (hx : 2 < x.natAbs) (cs : List Nat) (s : State) :
    let t := cs.foldl (fun s c => trackDrift s d c x) s
    t.md = s.md ∧ (∀ unit, inRepair s 10 unit = true → inRepair t 10 unit = true)
    ∧ (s.md.safeHold = none → ∀ c ∈ cs, inRepair t 10 (8 * d + c) = true) := by
  induction cs generalizing s with
  | nil => exact ⟨rfl, fun _ h => h, fun _ c hc => absurd hc List.not_mem_nil⟩
  | cons c cs ih =>
    obtain ⟨hmd, hkeep, hall⟩ := ih (trackDrift s d c x)
    obtain ⟨hold, hnew⟩ := inRepair_trackDrift (s := s) d c (x := x)
    have hsame : (trackDrift s d c x).md = s.md := trackDrift_md s d c x
    refine ⟨hmd.trans hsame, fun unit h => hkeep unit (hold unit h), fun hl y hy => ?_⟩
    rcases List.mem_cons.mp hy with rfl | hy
    · exact hkeep _ (hnew hx hl)
    · exact hall (by rw [hsame]; exact hl) y hy

/-- The step bits of a module's flit stop waiting for it. -/
def bitsStand (s : State) (m d step : Nat) : State :=
  { s with ds := { s.ds with weirs := s.ds.weirs.map (fun r =>
    if r.die == d && r.sent ≤ step then { r with wait := r.wait.filter (fun x => x != m) } else r) } }

theorem ucieFlit_comes {s : State} {m d : Nat} {u : UcieMod} (hu : modOf s m = some u) (htrained : modTrained u = true) (hd : d < nDies s)
    (hend : (moduleEnds s m).1 = d ∨ (moduleEnds s m).2 = d) (step : Nat) (drift : Int) :
    ucieFlit s m d step drift = (routesOver s m d).foldl (fun s c => trackDrift s d c drift) (bitsStand s m d step) := by
  unfold ucieFlit
  rw [hu]
  dsimp only
  rw [if_neg (by simpa [htrained, not_le.mpr hd, imp_iff_not_or] using hend)]
  rfl

/-! ### Credits and the spillway (R464, R468) -/

theorem lookup_del_same {α : Type} (m : List (Nat × α)) (k : Nat) : lookup (del m k) k = none := by
  induction m with
  | nil => rfl
  | cons e m ih =>
    rw [del, List.filter_cons]
    split
    next hne => exact (if_neg (by simpa using hne)).trans ih
    next => exact ih

theorem outstanding_creditReturn (s : State) (unit n : Nat) {vc : Nat} (hvc : vc < 10) :
    outstanding (creditReturn s unit vc n) unit vc = outstanding s unit vc - n := by
  unfold creditReturn
  rw [if_pos hvc]
  unfold outstanding setOutstanding
  dsimp only
  split
  next hzero => rw [lookup_del_same]; exact (eq_of_beq hzero).symm
  next => rw [lookup_put_same]; rfl

/-! ### The accessory site (R469 to R473) -/

theorem spill_of_netRest {n m : NetState} (h : netRest n = netRest m) : n.spill = m.spill := congrArg (·.spill) h

theorem refuseAccessory_spec (s : State) (cause : Nat) :
    let t := refuseAccessory s cause
    t.acc = { s.acc with st := 5, kind := 0, cause := cause } ∧ t.net.spill = s.net.spill ∧ t.ds = s.ds ∧ t.md = s.md ∧ t.ucie = s.ucie := by
  obtain ⟨hucie, -, hacc, -, hds, hmd, -, -, -, hnet⟩ := trainDone_frame { s with acc := { s.acc with st := 5, kind := 0, cause := cause } } true 24 0x0501
  exact ⟨hacc, spill_of_netRest hnet, hds, hmd, hucie⟩

theorem accessoryAdmission_begins {s : State} {u : UcieMod} (hu : modOf s 24 = some u) (hstart : s.boot.accepted = true) (hst : s.acc.st = 0) :
    accessoryAdmission s = admissionStep { s with acc := { s.acc with st := 1 } } := by
  simp [accessoryAdmission, hu, hstart, hst]

theorem accessoryAdmission_over {s : State} {u : UcieMod} (hu : modOf s 24 = some u) (hstart : s.boot.accepted = true) (hlow : 1 ≤ s.acc.st)
    (hhigh : s.acc.st ≤ 3) : accessoryAdmission s = refuseAccessory s 1 := by
  have hne : s.acc.st ≠ 0 := by omega
  simp [accessoryAdmission, hu, hstart, admitting, hne, hlow, hhigh]

theorem admissionStep_waits {s : State} {u : UcieMod} (hu : modOf s 24 = some u) (htrain : inTraining u.st = true) : admissionStep s = s := by
  simp [admissionStep, hu, htrain]

theorem admissionStep_identified {s : State} {u : UcieMod} (hu : modOf s 24 = some u) (hst : u.st = 3 ∨ u.st = 4) (hproto : u.proto ≠ 0)
    (hident : s.acc.identOk = true) : admissionStep s = { s with acc := { s.acc with st := 3 } } := by
  rcases hst with hst | hst <;> simp [admissionStep, hu, hst, inTraining, hproto, hident]

theorem admitting_awaits {s : State} (hstart : s.boot.accepted = true) (hst : s.acc.st = 3) : (!(admitting s && s.acc.st == 3)) = false := by
  simp [admitting, hstart, hst]

theorem admissionDescriptor_admits {s : State} {d : AdmissionDesc} (hstart : s.boot.accepted = true) (hst : s.acc.st = 3) (hgood : descriptorCause s d = 0) :
    let t := admissionDescriptor s d
    t.acc = { s.acc with st := 4, kind := d.kind, channels := d.channels, gbps := d.gbps } ∧ t.net.spill = s.net.spill.filter (fun x => x != 8)
    ∧ t.ds = s.ds ∧ t.md = s.md ∧ t.ucie = s.ucie := by
  have hdef : admissionDescriptor s d = trainDone { s with
      acc := { s.acc with st := 4, kind := d.kind, channels := d.channels, gbps := d.gbps }
      net := { s.net with spill := s.net.spill.filter (fun x => x != 8) } } true 24 0 := by
    rw [admissionDescriptor, if_neg (by rw [admitting_awaits hstart hst]; decide), if_neg (by simp [hgood])]
  obtain ⟨hucie, -, hacc, -, hds, hmd, -, -, -, hnet⟩ := trainDone_frame { s with
    acc := { s.acc with st := 4, kind := d.kind, channels := d.channels, gbps := d.gbps }
    net := { s.net with spill := s.net.spill.filter (fun x => x != 8) } } true 24 0
  dsimp only
  rw [hdef]
  exact ⟨hacc, spill_of_netRest hnet, hds, hmd, hucie⟩

theorem admissionDescriptor_refuses {s : State} {d : AdmissionDesc} (hstart : s.boot.accepted = true) (hst : s.acc.st = 3) (hbad : descriptorCause s d ≠ 0) :
    let t := admissionDescriptor s d
    t.acc = { s.acc with st := 5, kind := 0, cause := descriptorCause s d } ∧ t.net.spill = s.net.spill ∧ t.ds = s.ds ∧ t.md = s.md ∧ t.ucie = s.ucie := by
  have hdef : admissionDescriptor s d = refuseAccessory (if d.sigOk then s else bumpIo s 0x17 0x018 32 1) (descriptorCause s d) := by
    rw [admissionDescriptor, if_neg (by rw [admitting_awaits hstart hst]; decide), if_pos (by simpa using hbad)]
  dsimp only
  rw [hdef]
  split
  · exact refuseAccessory_spec s _
  · exact refuseAccessory_spec (bumpIo s 0x17 0x018 32 1) _

theorem driveEvent_only (s : State) (line cause die m : Nat) : ∃ c, driveEvent s line cause die m = { s with casc := c } := by
  unfold driveEvent
  split
  · exact ⟨s.casc, rfl⟩
  · exact ⟨_, rfl⟩

/-- The state in which the accessory site's module is lost and the site isolated. -/
def siteLost (s : State) (u : UcieMod) : State :=
  let s := setMod s 24 { u with st := 1, proto := 0, cause := 6 }
  buildRoutes { s with acc := { s.acc with st := 6 }, net := { s.net with spill := ins s.net.spill 8 } }

/-- Beside the stop event of a capture and the record nothing more comes of it. -/
theorem accessoryLost_eq {s : State} {u : UcieMod} (hu : modOf s 24 = some u) (htrained : modTrained u = true) :
    ∃ c, accessoryLost s = fault { siteLost s u with casc := c } { cls := 4, cause := 0x0A01, unit := siteLoc 8, address := 24 } := by
  have hdef : accessoryLost s = (let v := setMod s 24 { u with st := 1, proto := 0, cause := 6 }
      let deep := v.acc.st == 4 && v.acc.kind == 1 && capTarget v && capturing v && isLead v
      fault (if deep then driveEvent (siteLost s u) 1 6 15 (siteLost s u).seq.dcn else siteLost s u)
        { cls := 4, cause := 0x0A01, unit := siteLoc 8, address := 24 }) := by
    unfold accessoryLost
    rw [hu]
    simp only [htrained, Bool.not_true, Bool.false_eq_true, if_false]
    rfl
  rw [hdef]
  dsimp only
  split
  · obtain ⟨c, hc⟩ := driveEvent_only (siteLost s u) 1 6 15 (siteLost s u).seq.dcn
    exact ⟨c, by rw [hc]⟩
  · exact ⟨(siteLost s u).casc, rfl⟩

/-- Module 24 lost in operation: the site is isolated, and replacement asked for. -/
theorem accessoryLost_spec {s : State} {u : UcieMod} (hu : modOf s 24 = some u) (htrained : modTrained u = true) :
    let t := accessoryLost s
    t.acc.st = 6 ∧ t.net.spill = ins s.net.spill 8 ∧ t.ucie = put s.ucie 24 { u with st := 1, proto := 0, cause := 6 } ∧ replaceAsked t = true
    ∧ t.ds = s.ds ∧ t.md = s.md := by
  obtain ⟨c, hlost⟩ := accessoryLost_eq hu htrained
  obtain ⟨hmd, -, -, -⟩ := fault_below_fatal { siteLost s u with casc := c } { cls := 4, cause := 0x0A01, unit := siteLoc 8, address := 24 } (by decide)
  have hnet := netRest_of_netBeside (fault_netBeside { siteLost s u with casc := c } { cls := 4, cause := 0x0A01, unit := siteLoc 8, address := 24 })
  dsimp only
  rw [hlost]
  exact ⟨by simp [siteLost], spill_of_netRest hnet, by simp [siteLost, setMod], replaceAsked_fault _ rfl, by simp [siteLost, setMod], hmd⟩

/-- Settles O56: clause by clause, by what a row of a module and of the accessory site leaves. -/
theorem ucieModulesAndAccessorySite : Obligations.UcieModulesAndAccessorySite := by
  unfold Obligations.UcieModulesAndAccessorySite
  dsimp only
  refine ⟨fun s m u hu => ⟨fun r htrain hsite hside hmain hcredits hwidth => ?_, fun r htrain hspoke hmode hphase hside => ?_, fun r htrained hsite hident => ?_,
    fun n htrained => ?_, fun l tx n htrained => ?_, fun l tx hst hl hspare => ?_, fun l tx hst hl hspare => ?_, fun l tx hst hl hhalf => ?_,
    fun l tx hst hl hhalf hsite => ?_, fun tx htrained hsite => ?_, fun d n dr htrained hd hend hsmall => ?_, fun d n dr htrained hd hend hlarge => ?_,
    fun d => ?_, fun unit vc n hvc => ?_⟩, fun s u hu => ⟨fun hstart hst htrain => ?_, fun hstart hst hup hproto hident => ?_, fun hstart hlow hhigh => ?_,
    fun d hstart hst hgood => ?_, fun d hstart hst hbad => ?_, fun htrained => ?_⟩⟩
  · have hexec : exec (.ucieStartup m r) s = .next (ucieStartup s m r) := rfl
    rw [ucieStartup_trains hu htrain hsite hside hmain hcredits hwidth] at hexec
    exact ⟨_, hexec, ucieStartup_width _⟩
  · obtain ⟨hmod, hboot, hothers⟩ := ucieStartup_noSideband hu htrain hspoke hmode hphase hside
    exact ⟨_, rfl, hmod, by rw [hboot], by rw [hboot], by rw [hboot], hothers⟩
  · obtain ⟨hfirst, hsecond⟩ := parameterRecord_right hu htrained hsite hident
    refine ⟨fun hnone => ?_, fun o ho hagree => ?_⟩
    · exact ⟨_, congrArg Host.Outcome.next (hfirst hnone), modOf_setMod _ _ _, fun x hx => modOf_setMod_other _ _ hx, rfl, rfl⟩
    · have hexec : exec (.ucieParameterRecord m r) s = .next _ := congrArg Host.Outcome.next (hsecond o ho hagree)
      obtain ⟨hucie, -, -, -, hds, hmd, -⟩ := trainDone_frame (setMod (setMod s m { u with heard := put u.heard (b2n r.second) (r.proto, r.caps) }) m
        { u with heard := put u.heard (b2n r.second) (r.proto, r.caps), proto := agreedProto o.1 r.proto, caps := o.2 &&& r.caps }) true m 0
      exact ⟨_, hexec, (modOf_of_ucie hucie m).trans (modOf_setMod _ _ _),
        fun x hx => (modOf_of_ucie hucie x).trans ((modOf_setMod_other _ _ hx).trans (modOf_setMod_other _ _ hx)), hds, hmd⟩
  · obtain ⟨hfail, hresent, hpulses, hucie, hds, hmd, -⟩ := crcCounted_spec s m n
    exact ⟨_, congrArg Host.Outcome.next (ucieCrcFail_module hu htrained n), hfail, hresent, hpulses, hucie, fun o _ => modOf_of_ucie hucie o, hds, hmd⟩
  · obtain ⟨hfail, -, hpulses, hucie, hds, hmd, -⟩ := crcCounted_spec s m n
    refine ⟨setMod (crcCounted s m n) m _, modOf_setMod _ _ _, hfail, hpulses,
      ⟨fun o ho => (modOf_setMod_other _ _ ho).trans (modOf_of_ucie hucie o), hds, hmd⟩, ?_⟩
    refine (congrArg Host.Outcome.next (ucieCrcFail_lane hu htrained l tx n)).trans ?_
    split <;> rfl
  · have hexec : exec (.ucieLaneFail m (some l) tx) s = .next _ := congrArg Host.Outcome.next (laneLost_spare hu hst hl hspare)
    exact ⟨_, hexec, moduleRemap_spec s m (spareTaken u l tx) (by simp [modInfo])⟩
  · have hexec : exec (.ucieLaneFail m (some l) tx) s = .next _ := congrArg Host.Outcome.next (laneLost_half hu hst hl hspare)
    obtain ⟨hucie, hds, hmd, hasks, hrecord, hreplace⟩ := widthFault_spec
      (setMod s m { u with failed := ins u.failed l, st := 4, half := if l < 32 then 1 else 0, cause := 4 }) (m + 1)
      (f := { modInfo m 4 0x0203 with d1 := l }) rfl
    exact ⟨_, hexec, (modOf_of_ucie hucie m).trans (modOf_setMod _ _ _), (asksRepair_congr rfl rfl rfl rfl rfl rfl 9).mp hasks, hrecord, hreplace,
      fun o ho => (modOf_of_ucie hucie o).trans (modOf_setMod_other _ _ ho), hds, hmd⟩
  · exact congrArg Host.Outcome.next ((laneLost_narrow tx hu hst hl).trans (if_neg hhalf))
  · obtain ⟨hheld, hds, -⟩ := moduleLost_fatal (s := s) { u with failed := ins u.failed l } l hsite
    exact ⟨_, congrArg Host.Outcome.next ((laneLost_narrow tx hu hst hl).trans (if_pos hhalf)), hheld, hds⟩
  · have hdef : ucieLaneFail s m none tx = moduleLost s m u 0 := by simp [ucieLaneFail, hu, htrained]
    exact ⟨_, congrArg Host.Outcome.next hdef, moduleLost_fatal u 0 hsite⟩
  · obtain ⟨r, hr⟩ := foldl_trackDrift_small d hsmall (routesOver s m d) (bitsStand s m d n)
    exact ⟨_, congrArg Host.Outcome.next ((ucieFlit_comes hu htrained hd hend n dr).trans hr), rfl, rfl⟩
  · obtain ⟨hmd, -, hin⟩ := foldl_trackDrift_large d hlarge (routesOver s m d) (bitsStand s m d n)
    exact ⟨_, congrArg Host.Outcome.next (ucieFlit_comes hu htrained hd hend n dr), hin, hmd⟩
  · refine congrArg Host.Outcome.next ?_
    unfold spillwayRelease
    congr 1
    simp only [Bool.and_eq_true, decide_eq_true_eq, Bool.not_eq_true', eq_iff_iff]
    tauto
  · refine ⟨_, rfl, outstanding_creditReturn s unit n hvc, ?_⟩
    rw [creditReturn, if_pos hvc]
    rfl
  · exact congrArg Host.Outcome.next ((accessoryAdmission_begins hu hstart hst).trans (admissionStep_waits hu htrain))
  · exact congrArg Host.Outcome.next ((accessoryAdmission_begins hu hstart hst).trans (admissionStep_identified hu hup hproto hident))
  · exact ⟨_, congrArg Host.Outcome.next (accessoryAdmission_over hu hstart hlow hhigh), refuseAccessory_spec s 1⟩
  · exact ⟨_, rfl, admissionDescriptor_admits hstart hst hgood⟩
  · exact ⟨_, rfl, admissionDescriptor_refuses hstart hst hbad⟩
  · exact ⟨_, rfl, accessoryLost_spec hu htrained⟩

end Sys2Proof.Machine

namespace Sys2Proof.Machine

/-! ### The end of a link's training, and a link that goes down (R426, R487, R499, R500) -/

theorem linkTrained_frame (s : State) (d status : Nat) :
    let t := linkTrained s d status
    t.bl = s.bl ∧ t.ds = s.ds ∧ t.md = s.md ∧ t.err = s.err ∧ t.regs = s.regs ∧ t.phys = s.phys ∧ netRest t.net = netRest s.net := by
  obtain ⟨-, hbl, -, -, hds, hmd, herr, hregs, hphys, hnet⟩ := trainDone_frame s false d status
  have hrelay : linkTrained s d status = { trainDone s false d status with boot := (linkTrained s d status).boot } := by
    unfold linkTrained relayPhase
    split <;> rfl
  dsimp only
  rw [hrelay]
  exact ⟨hbl, hds, hmd, herr, hregs, hphys, hnet⟩

/-- A link that is down for a cause, its gateway absorbing traffic. -/
def linkFallen (b : BoardLink) (cause : Nat) : BoardLink :=
  { b with st := 1, cause := cause, spill := true, quick := false, fresh := true, parts := [], timing := [], tx := { State.resetTx with prbs := b.tx.prbs } }

/-- A counter of a link's block. -/
theorem bumpBl_same (s : State) (d off n : Nat) {w : Nat} (hw : w ≤ 32) :
    (reg (bumpBl s d off w n) (rkey d 0x11 off)).toNat = satAdd w (reg s (rkey d 0x11 off)).toNat n := reg_bump_same s _ hw n

theorem bumpBl_other (s : State) {d off o : Nat} (w n : Nat) (h : o ≠ off) : reg (bumpBl s d off w n) (rkey d 0x11 o) = reg s (rkey d 0x11 o) :=
  reg_bump_other s w n (rkey_off_ne h)

/-- A fault below FATAL writes no register of a link's block. -/
theorem reg_fault_link (s : State) {f : FaultInfo} (h : f.cls ≤ 4) (d : Nat) {o : Nat} (ho : o < 2 ^ 20) :
    reg (fault s f) (rkey d 0x11 o) = reg s (rkey d 0x11 o) :=
  reg_fault_other s (by omega) (linkKey_ne_io d o 0x14 _ ho (by decide) (by decide) (by decide))
    (linkKey_ne_io d o 0x14 _ ho (by omega) (by decide) (by decide)) (linkKey_ne_io d o 0x14 _ ho (by decide) (by decide) (by decide))

/-- An unbooked link goes down: its gateway absorbs what waits, and the fault is not FATAL. -/
theorem linkDown_unbooked {s : State} {d : Nat} (b : BoardLink) (cause lane : Nat) (hfree : linkBooked s d = false) :
    let t := linkDown s d b cause lane
    linkOf t d = some (linkFallen b cause) ∧ (reg t (rkey d 0x11 0x074)).toNat = satAdd 32 (reg s (rkey d 0x11 0x074)).toNat (headsWaiting b)
    ∧ (∀ o, o ≠ d → linkOf t o = linkOf s o) ∧ t.ds = s.ds ∧ t.md = s.md := by
  have hdef : linkDown s d b cause lane = fault (buildRoutes (setLink (bumpBl s d 0x074 32 (headsWaiting b)) d (linkFallen b cause)))
      { linkInfo d 4 0x0305 with d1 := lane, flags := 0 } := by
    unfold linkDown
    simp only [hfree, Bool.false_eq_true, if_false, Bool.not_false, Bool.or_true]
    rfl
  have hcls : ({ linkInfo d 4 0x0305 with d1 := lane, flags := 0 } : FaultInfo).cls = 4 := rfl
  generalize ({ linkInfo d 4 0x0305 with d1 := lane, flags := 0 } : FaultInfo) = f at *
  obtain ⟨hmd, -, -, hbl⟩ := fault_below_fatal (buildRoutes (setLink (bumpBl s d 0x074 32 (headsWaiting b)) d (linkFallen b cause))) f (by rw [hcls]; decide)
  dsimp only
  rw [hdef]
  refine ⟨(linkOf_of_bl (hbl.trans (by simp)) d).trans (linkOf_setLink (bumpBl s d 0x074 32 (headsWaiting b)) d _), ?_,
    fun o ho => (linkOf_of_bl (hbl.trans (by simp)) o).trans (linkOf_setLink_other (bumpBl s d 0x074 32 (headsWaiting b)) (linkFallen b cause) ho),
    by simp [setLink, bumpBl], hmd.trans (by simp)⟩
  have hregs : (buildRoutes (setLink (bumpBl s d 0x074 32 (headsWaiting b)) d (linkFallen b cause))).regs = (bumpBl s d 0x074 32 (headsWaiting b)).regs := by
    simp [setLink]
  rw [reg_fault_link _ (by rw [hcls]) d (by decide), reg_of_regs hregs]
  exact bumpBl_same s d 0x074 _ (by decide)

/-- A booked link that goes down is FATAL. -/
theorem linkDown_booked {s : State} {d : Nat} (b : BoardLink) (cause lane : Nat) (hbooked : linkBooked s d = true) :
    (linkDown s d b cause lane).md.safeHold ≠ none ∧ (linkDown s d b cause lane).ds = s.ds := by
  unfold linkDown
  simp only [hbooked, if_true]
  exact ⟨fault_fatal_held _ _ rfl, by simp [setLink]⟩

/-! ### Training (R487 to R491, R501) -/

theorem boardTraining_fails {s : State} {d : Nat} {b : BoardLink} (hb : linkOf s d = some b) (htrain : inTraining b.st = true) {r : LinkTraining}
    (hcause : trainingCause s d (heardLink s d b r) r ≠ 0) :
    let c := trainingCause s d (heardLink s d b r) r
    boardTraining s d r = linkTrained (linkDown s d (if c = 7 then b else heardLink s d b r) c 0) d 0x0501 := by
  unfold boardTraining
  rw [hb]
  simp [htrain, hcause]

/-- A training does not touch the packets that wait, nor the PRBS generator. -/
theorem heardLink_waiting (s : State) (d : Nat) (b : BoardLink) (r : LinkTraining) :
    headsWaiting (heardLink s d b r) = headsWaiting b ∧ (heardLink s d b r).tx.prbs = b.tx.prbs ∧ (heardLink s d b r).tx.owed = b.tx.owed
    ∧ (heardLink s d b r).tx.timing = b.tx.timing ∧ (heardLink s d b r).timing = b.timing := by
  unfold heardLink headsWaiting
  dsimp only
  split <;> exact ⟨rfl, rfl, rfl, rfl, rfl⟩

/-- A failed training of an unbooked link. -/
theorem boardTraining_falls {s : State} {d : Nat} {b v : BoardLink} (hb : linkOf s d = some b) (htrain : inTraining b.st = true) {r : LinkTraining}
    (hcause : trainingCause s d (heardLink s d b r) r ≠ 0) (hfree : linkBooked s d = false)
    (hv : (if trainingCause s d (heardLink s d b r) r = 7 then b else heardLink s d b r) = v) :
    let t := boardTraining s d r
    linkOf t d = some (linkFallen v (trainingCause s d (heardLink s d b r) r))
    ∧ (reg t (rkey d 0x11 0x074)).toNat = satAdd 32 (reg s (rkey d 0x11 0x074)).toNat (headsWaiting b)
    ∧ (∀ o, o ≠ d → linkOf t o = linkOf s o) ∧ t.ds = s.ds ∧ t.md = s.md := by
  have hwait : headsWaiting v = headsWaiting b := by
    rw [← hv]
    split
    · rfl
    · exact (heardLink_waiting s d b r).1
  have hdef := boardTraining_fails hb htrain hcause
  dsimp only at hdef
  rw [hv] at hdef
  obtain ⟨hlink, habsorb, hothers, hds, hmd⟩ := linkDown_unbooked v (trainingCause s d (heardLink s d b r) r) 0 hfree
  obtain ⟨tbl, tds, tmd, -, tregs, -, -⟩ := linkTrained_frame (linkDown s d v (trainingCause s d (heardLink s d b r) r) 0) d 0x0501
  dsimp only
  rw [hdef]
  exact ⟨(linkOf_of_bl tbl d).trans hlink, by rw [reg_of_regs tregs, habsorb, hwait], fun o ho => (linkOf_of_bl tbl o).trans (hothers o ho), tds.trans hds,
    tmd.trans hmd⟩

theorem boardTraining_fatal {s : State} {d : Nat} {b : BoardLink} (hb : linkOf s d = some b) (htrain : inTraining b.st = true) {r : LinkTraining}
    (hcause : trainingCause s d (heardLink s d b r) r ≠ 0) (hbooked : linkBooked s d = true) :
    (boardTraining s d r).md.safeHold ≠ none ∧ (boardTraining s d r).ds = s.ds := by
  have hdef := boardTraining_fails hb htrain hcause
  dsimp only at hdef
  generalize (if trainingCause s d (heardLink s d b r) r = 7 then b else heardLink s d b r) = v at hdef
  obtain ⟨hheld, hds⟩ := linkDown_booked v (trainingCause s d (heardLink s d b r) r) 0 hbooked
  obtain ⟨-, tds, tmd, -⟩ := linkTrained_frame (linkDown s d v (trainingCause s d (heardLink s d b r) r) 0) d 0x0501
  rw [hdef]
  exact ⟨by rw [tmd]; exact hheld, tds.trans hds⟩

/-- No clock takes the link down without a fault. -/
theorem boardUnconnected_falls {s : State} {d : Nat} {b : BoardLink} (hb : linkOf s d = some b) (htrain : inTraining b.st = true) :
    let t := boardUnconnected s d
    linkOf t d = some { State.resetLink with st := 1, cause := 1, spill := b.spill, txFail := b.txFail, rxFail := b.rxFail } ∧ t.err = s.err
    ∧ (∀ o, o ≠ d → linkOf t o = linkOf s o) ∧ t.ds = s.ds ∧ t.md = s.md := by
  have hdef : boardUnconnected s d = linkTrained (setLink s d
      { State.resetLink with st := 1, cause := 1, spill := b.spill, txFail := b.txFail, rxFail := b.rxFail }) d 0x0501 := by
    unfold boardUnconnected
    rw [hb]
    simp [htrain]
  obtain ⟨hbl, hds, hmd, herr, -⟩ := linkTrained_frame (setLink s d
    { State.resetLink with st := 1, cause := 1, spill := b.spill, txFail := b.txFail, rxFail := b.rxFail }) d 0x0501
  dsimp only
  rw [hdef]
  exact ⟨(linkOf_of_bl hbl d).trans (linkOf_setLink _ _ _), herr, fun o ho => (linkOf_of_bl hbl o).trans (linkOf_setLink_other _ _ ho), hds, hmd⟩

/-! ### A link that comes up (R464, R480, R487 to R491) -/

/-- The link as it takes its place after a training, in a state of it. -/
def linkPlaced (s : State) (d : Nat) (v : BoardLink) (r : LinkTraining) (st : Nat) : BoardLink :=
  { equalised s d v r with st := st, cause := 0, quick := false, fresh := false }

/-- A link that comes up after a reset of an end owes no credits. -/
def creditsAnew (fresh : Bool) (b : BoardLink) : BoardLink :=
  if fresh then { b with tx := { b.tx with owed := State.resetTx.owed } } else b

theorem lookup_filter_other {α : Type} (m : List (Nat × α)) (p : Nat → Bool) (k : Nat) (h : p k = false) : lookup (m.filter (fun e => p e.1)) k = none := by
  induction m with
  | nil => rfl
  | cons e m ih =>
    rw [List.filter_cons]
    split
    next hp => exact (if_neg (fun he => by rw [he, h] at hp; cases hp)).trans ih
    next => exact ih

/-- The state in which a link has its place, before its credits are settled. -/
def placedAt (s : State) (d : Nat) (v : BoardLink) (r : LinkTraining) (st : Nat) : State :=
  { s with
    freeCtr := s.freeCtr + 16, net := { s.net with training := put s.net.training d (sentTraining s d v) }
    bl := put s.bl d (linkPlaced s d v r st), regs := (bumpBl s d 0x05C 16 1).regs }

theorem placeLink_eq (s : State) (d : Nat) (b v : BoardLink) (r : LinkTraining) (st : Nat) :
    placeLink s d b { v with st := st } r = settleCredits (placedAt s d v r st) d b.fresh r.creditsOk := rfl

/-- After a reset of an end the link owes nothing, and nothing is outstanding over it. -/
theorem settleCredits_fresh {s : State} {d : Nat} {b : BoardLink} (hb : linkOf s d = some b) (ok : Bool) :
    let t := settleCredits s d true ok
    linkOf t d = some (creditsAnew true b) ∧ (∀ o, o ≠ d → linkOf t o = linkOf s o) ∧ (∀ vc, vc < 10 → outstanding t (32 + d) vc = 0)
    ∧ t = { s with net := { s.net with credits := t.net.credits }, bl := t.bl } := by
  have hlookup (x : Nat) : linkOf (settleCredits s d true ok) x = if x = d then (linkOf s x).map (creditsAnew true) else linkOf s x :=
    lookup_map_at (creditsAnew true) s.bl d x
  refine ⟨by rw [hlookup, if_pos rfl, hb]; rfl, fun o ho => by rw [hlookup, if_neg ho], fun vc hvc => ?_, rfl⟩
  have hkey : (creditKey (32 + d) vc / 16 != 32 + d) = false := by
    simp only [creditKey, bne_eq_false_iff_eq]
    omega
  exact congrArg (·.getD 0) (lookup_filter_other s.net.credits (fun k => k / 16 != 32 + d) _ hkey)

/-- A link that takes its place: its training blocks, its count, and its credits. -/
theorem placeLink_spec (s : State) (d : Nat) (b v : BoardLink) (r : LinkTraining) (st : Nat) (hcredits : b.fresh = true ∨ r.creditsOk = true) :
    let t := placeLink s d b { v with st := st } r
    linkOf t d = some (creditsAnew b.fresh (linkPlaced s d v r st)) ∧ (∀ o, o ≠ d → linkOf t o = linkOf s o)
    ∧ lookup t.net.training d = some (sentTraining s d v)
    ∧ (∀ vc, vc < 10 → outstanding t (32 + d) vc = (if b.fresh then 0 else outstanding s (32 + d) vc))
    ∧ t = { s with freeCtr := t.freeCtr, net := t.net, bl := t.bl, regs := (bumpBl s d 0x05C 16 1).regs } := by
  have hlink : linkOf (placedAt s d v r st) d = some (linkPlaced s d v r st) := lookup_put_same _ _ _
  have hothers {o : Nat} (ho : o ≠ d) : linkOf (placedAt s d v r st) o = linkOf s o := lookup_put_other _ _ _ _ ho
  have htraining : lookup (placedAt s d v r st).net.training d = some (sentTraining s d v) := lookup_put_same _ _ _
  rw [placeLink_eq]
  cases hfresh : b.fresh with
  | true =>
    obtain ⟨hnew, hkeep, hcleared, hshape⟩ := settleCredits_fresh hlink r.creditsOk
    refine ⟨hnew, fun o ho => (hkeep o ho).trans (hothers ho), ?_, hcleared, ?_⟩
    · rw [hshape]
      exact htraining
    · rw [hshape]
      rfl
  | false =>
    have hok : r.creditsOk = true := by simpa [hfresh] using hcredits
    have hsame : settleCredits (placedAt s d v r st) d false r.creditsOk = placedAt s d v r st := by rw [settleCredits, hok]; rfl
    rw [hsame]
    exact ⟨hlink, fun o ho => hothers ho, htraining, fun _ _ => rfl, rfl⟩

/-- A link at 8 lanes is DEGRADED, and the board's steps are marked anew (R127, R489). -/
def widthNoted (s : State) (d : Nat) (narrow : Bool) : State := if narrow then remark (fault s (linkInfo d 4 0x0303)) else s

theorem widthNoted_spec (s : State) (d : Nat) (narrow : Bool) :
    let t := widthNoted s d narrow
    t.bl = s.bl ∧ t.ds = s.ds ∧ t.md = s.md ∧ t.phys = s.phys ∧ t.seq.epoch = s.seq.epoch ∧ netRest t.net = netRest s.net
    ∧ ∀ o, o < 2 ^ 20 → reg t (rkey d 0x11 o) = reg s (rkey d 0x11 o) := by
  unfold widthNoted
  dsimp only
  split
  · have hcls : (linkInfo d 4 0x0303).cls = 4 := rfl
    generalize linkInfo d 4 0x0303 = f at *
    obtain ⟨hmd, -, -, hbl⟩ := fault_below_fatal s f (by rw [hcls]; decide)
    have hnet : netRest (remark (fault s f)).net = netRest (fault s f).net := by
      unfold remark
      split
      · rfl
      · dsimp only
        split <;> rfl
    refine ⟨by simp [hbl], by simp, by simp [hmd], by simp, by rw [remark_seq]; simp, hnet.trans (netRest_of_netBeside (fault_netBeside s f)), fun o ho => ?_⟩
    rw [reg_of_regs (remark_regs _), reg_fault_link s (by rw [hcls]) d ho]
  · exact ⟨rfl, rfl, rfl, rfl, rfl, rfl, fun _ _ => rfl⟩

/-- A link whose weir is trained anew at version 3 of a board with an epoch. -/
def weirDue (epoch : Bool) (b : BoardLink) : BoardLink := if b.version == 3 && epoch then weirAnew b else b

theorem linkOf_trainWeir_same {s : State} {d : Nat} {b : BoardLink} (hb : linkOf s d = some b) : linkOf (trainWeir s d) d = some (weirDue s.seq.epoch b) := by
  rw [linkOf_trainWeir, hb]
  simp [weirDue]

theorem linkOf_trainWeir_other (s : State) {d o : Nat} (h : o ≠ d) : linkOf (trainWeir s d) o = linkOf s o := by
  rw [linkOf_trainWeir]
  simp [h]

theorem boardTraining_up {s : State} {d : Nat} {b : BoardLink} (hb : linkOf s d = some b) (htrain : inTraining b.st = true) {r : LinkTraining}
    (hcause : trainingCause s d (heardLink s d b r) r = 0) :
    let v := heardLink s d b r
    boardTraining s d r = linkTrained (trainWeir (widthNoted (placeLink s d b { v with st := 3 } r) d (v.width8 || v.rxUsed.length == 8)) d) d 0 := by
  unfold boardTraining
  rw [hb]
  simp only [htrain, Bool.not_true, Bool.false_eq_true, if_false, hcause, beq_self_eq_true, if_true]
  rfl

/-- The link that a good training leaves. -/
def linkTrainedUp (s : State) (d : Nat) (b : BoardLink) (r : LinkTraining) : BoardLink :=
  weirDue s.seq.epoch (creditsAnew b.fresh (linkPlaced s d (heardLink s d b r) r 3))

theorem boardTraining_leaves {s : State} {d : Nat} {b : BoardLink} (hb : linkOf s d = some b) (htrain : inTraining b.st = true) {r : LinkTraining}
    (hcause : trainingCause s d (heardLink s d b r) r = 0) (hcredits : b.fresh = true ∨ r.creditsOk = true) :
    let t := boardTraining s d r
    linkOf t d = some (linkTrainedUp s d b r) ∧ lookup t.net.training d = some (sentTraining s d (heardLink s d b r)) ∧ t.phys = del s.phys (8 * d)
    ∧ (∀ vc, vc < 10 → outstanding t (32 + d) vc = (if b.fresh then 0 else outstanding s (32 + d) vc))
    ∧ (reg t (rkey d 0x11 0x05C)).toNat = satAdd 16 (reg s (rkey d 0x11 0x05C)).toNat 1
    ∧ (∀ o, o ≠ d → linkOf t o = linkOf s o) ∧ t.ds = s.ds ∧ t.md = s.md := by
  have hup := boardTraining_up hb htrain hcause
  dsimp only at hup
  generalize ((heardLink s d b r).width8 || (heardLink s d b r).rxUsed.length == 8) = narrow at hup
  obtain ⟨plink, pothers, ptraining, pcredits, pshape⟩ := placeLink_spec s d b (heardLink s d b r) r 3 hcredits
  generalize placeLink s d b { heardLink s d b r with st := 3 } r = p at *
  have pds : p.ds = s.ds := by rw [pshape]
  have pmd : p.md = s.md := by rw [pshape]
  have pphys : p.phys = s.phys := by rw [pshape]
  have pepoch : p.seq.epoch = s.seq.epoch := by rw [pshape]
  have pregs : p.regs = (bumpBl s d 0x05C 16 1).regs := by rw [pshape]
  obtain ⟨wbl, wds, wmd, wphys, wepoch, wnet, wreg⟩ := widthNoted_spec p d narrow
  generalize widthNoted p d narrow = w at *
  obtain ⟨tbl, tds, tmd, -, tregs, tphys, tnet⟩ := linkTrained_frame (trainWeir w d) d 0
  have hnet : netRest (linkTrained (trainWeir w d) d 0).net = netRest p.net := tnet.trans wnet
  dsimp only
  rw [hup]
  refine ⟨?_, ?_, ?_, fun vc hvc => ?_, ?_, fun o ho => ?_, tds.trans (wds.trans pds), tmd.trans (wmd.trans pmd)⟩
  · rw [linkOf_of_bl tbl, linkOf_trainWeir_same ((linkOf_of_bl wbl d).trans plink), wepoch, pepoch]
    rfl
  · rw [show (linkTrained (trainWeir w d) d 0).net.training = p.net.training from congrArg (·.training) hnet]
    exact ptraining
  · rw [tphys]
    exact congrArg (del · (8 * d)) (wphys.trans pphys)
  · rw [← pcredits vc hvc, outstanding, outstanding]
    rw [show (linkTrained (trainWeir w d) d 0).net.credits = p.net.credits from congrArg (·.credits) hnet]
  · rw [reg_of_regs tregs, show reg (trainWeir w d) (rkey d 0x11 0x05C) = reg w (rkey d 0x11 0x05C) from rfl, wreg _ (by decide), reg_of_regs pregs]
    exact bumpBl_same s d 0x05C 1 (by decide)
  · rw [linkOf_of_bl tbl, linkOf_trainWeir_other _ ho, linkOf_of_bl wbl]
    exact pothers o ho

/-- What a good training leaves of a link, field by field. -/
theorem linkTrainedUp_spec (s : State) (d : Nat) (b : BoardLink) (r : LinkTraining) :
    let u := linkTrainedUp s d b r
    u = { equalised s d (heardLink s d b r) r with st := 3, cause := 0, quick := false, fresh := false, timing := u.timing, tx := u.tx }
    ∧ u.tx = { (heardLink s d b r).tx with
        owed := if b.fresh then State.resetTx.owed else b.tx.owed
        timing := if u.version == 3 && s.seq.epoch then 1024 else b.tx.timing }
    ∧ u.timing = (if u.version == 3 && s.seq.epoch then [] else b.timing) := by
  obtain ⟨-, -, howed, htiming, hms⟩ := heardLink_waiting s d b r
  have hversion : (creditsAnew b.fresh (linkPlaced s d (heardLink s d b r) r 3)).version = (heardLink s d b r).version := by
    unfold creditsAnew
    split <;> rfl
  have hsame : (linkTrainedUp s d b r).version = (heardLink s d b r).version := by
    rw [← hversion]
    unfold linkTrainedUp weirDue
    split <;> rfl
  dsimp only
  rw [← howed, ← htiming, ← hms, hsame]
  unfold linkTrainedUp weirDue
  rw [hversion]
  cases b.fresh <;> cases ((heardLink s d b r).version == 3 && s.seq.epoch) <;> exact ⟨rfl, rfl, rfl⟩

/-- What its training told of it. -/
theorem linkTrainedUp_told (s : State) (d : Nat) (b : BoardLink) (r : LinkTraining) :
    let u := linkTrainedUp s d b r
    u.version = agreedVersion s d (wfld (ts1Of r) 15 8) ∧ u.peerPos = wfld (ts1Of r) 19 16 ∧ u.peerDie = wfld (ts1Of r) 22 20
    ∧ u.txUsed = chooseLanes u.txFail ∧ u.rxUsed = ts2Lanes r ∧ u.expect = 0 ∧ u.acked = 0 ∧ (b.quick = false → u.tx.seq = 0 ∧ u.tx.retry = [])
    ∧ u.peak = (if u.version = 2 ∧ bitOf (blReg s d 0x104) 4 = false then blReg s d 0x104 % 16 else r.peak) ∧ u.eye = r.eye
    ∧ sentTraining s d u = sentTraining s d (heardLink s d b r) := by
  obtain ⟨hu, htx, -⟩ := linkTrainedUp_spec s d b r
  dsimp only at hu htx ⊢
  generalize linkTrainedUp s d b r = u at *
  have hanew (hquick : b.quick = false) : (heardLink s d b r).tx.seq = 0 ∧ (heardLink s d b r).tx.retry = [] := by
    have hfresh : (heardLink s d b r).tx = freshTx b.tx (freshScr s) := if_neg (by simp [hquick])
    rw [hfresh]
    exact ⟨rfl, rfl⟩
  refine ⟨by rw [hu]; rfl, by rw [hu]; rfl, by rw [hu]; rfl, by rw [hu]; rfl, by rw [hu]; rfl, by rw [hu]; rfl, by rw [hu]; rfl,
    fun hquick => by rw [htx]; exact hanew hquick, ?_, by rw [hu]; rfl, by rw [hu]; rfl⟩
  have hpeak : u.peak = (equalised s d (heardLink s d b r) r).peak := by rw [hu]
  have hversion : u.version = (heardLink s d b r).version := by rw [hu]; rfl
  rw [hpeak, hversion]
  simp [equalised]

/-! ### Weir training (R120, R122, R124, R501) -/

/-- The fields beside a cleared DRIFT do not reach into it. -/
theorem wfld_drift_zero (a c : Nat) : wfld (packW [(0, 16, a), (16, 4, 0), (20, 12, c)]) 19 16 = 0 := by
  have hor : a % 2 ^ 16 ||| (c % 2 ^ 12) <<< 20 = (c % 2 ^ 12) <<< 20 + a % 2 ^ 16 := by
    rw [Nat.or_comm, Nat.shiftLeft_add_eq_or_of_lt (by have := Nat.mod_lt a (show 0 < 2 ^ 16 by decide); omega)]
  have hsum : (packW [(0, 16, a), (16, 4, 0), (20, 12, c)]).toNat = c % 2 ^ 12 * 2 ^ 20 + a % 2 ^ 16 := by
    have hw : packW [(0, 16, a), (16, 4, 0), (20, 12, c)] = BitVec.ofNat 32 (a % 2 ^ 16 ||| (c % 2 ^ 12) <<< 20) := by
      simp [packW, BitVec.ofNat_or]
    rw [hw, hor, Nat.shiftLeft_eq, BitVec.toNat_ofNat]
    omega
  simp only [wfld, fld, hsum, Nat.shiftRight_eq_div_pow]
  omega

/-- RECENTRED set leaves DRIFT as it is. -/
theorem wfld_recentred (w : Word) : wfld (w ||| BitVec.ofNat 32 (2 ^ 21)) 21 21 = 1 ∧ wfld (w ||| BitVec.ofNat 32 (2 ^ 21)) 19 16 = wfld w 19 16 := by
  have hor : (w ||| BitVec.ofNat 32 (2 ^ 21)).toNat = w.toNat ||| 2 ^ 21 := by simp
  simp only [wfld, fld, hor, Nat.shiftRight_or_distrib, Nat.or_mod_two_pow]
  refine ⟨?_, by simp⟩
  have hbit : w.toNat >>> 21 % 2 ^ (21 + 1 - 21) = 0 ∨ w.toNat >>> 21 % 2 ^ (21 + 1 - 21) = 1 := by omega
  rcases hbit with hbit | hbit <;> rw [hbit] <;> decide

/-- DRIFT from 0. -/
theorem drift_setDrift_zero (s : State) (d c : Nat) : wfld (reg (setDrift s d c 0) (weirKey d c)) 19 16 = 0 := by
  rw [setDrift, reg_setReg_same]
  exact wfld_drift_zero _ _

/-- A weir's register is none of the I/O die's. -/
theorem weirKey_below {d c : Nat} (hd : d < 8) (hc : c < 8) : weirKey d c < rkey 15 0x14 0 := by
  simp only [weirKey, rkey]
  omega

theorem canTrainWeir_bounds {s : State} {d c : Nat} {ms : List (Nat × Nat)} (h : canTrainWeir s d c ms = true) : d < 8 ∧ c < 8 := by
  simp only [canTrainWeir, Bool.and_eq_true, decide_eq_true_eq] at h
  obtain ⟨⟨⟨⟨hc, hd⟩, -⟩, -⟩, -⟩ := h
  have hmost : nDies s ≤ 8 := by unfold nDies; split <;> decide
  exact ⟨by omega, hc⟩

theorem reg_endRepair (s : State) (r : Repair) {k : Nat} (h : k < rkey 15 0x14 0) : reg (endRepair s r) k = reg s k := by
  obtain ⟨-, -, hregs, -, -⟩ := endRepair_records s r
  rw [reg_of_regs hregs]
  refine (foldl_keeps (fun u => reg u k) _ (fun u _ => reg_addRecord u _ _ h) _ _).trans ?_
  rw [(wordRight_frame s r).1]
  rfl

/-- A gateway that absorbs no more. -/
def gatewayOpen (b : BoardLink) : BoardLink := { b with spill := false }

/-- The state in which a weir has its P, and DRIFT 0. -/
def weirSettled (s : State) (d c : Nat) (ms : List (Nat × Nat)) : State := setDrift { s with phys := put s.phys (8 * d + c) (trainedPhys ms) } d c 0

theorem weirTrained_eq {s : State} {d c : Nat} {ms : List (Nat × Nat)} (h : canTrainWeir s d c ms = true) :
    let u := recentred (weirSettled s d c ms) d c
    weirTrained s d c ms = { u with bl := if c = 0 then u.bl.map (fun e => if e.1 == d then (e.1, gatewayOpen e.2) else e) else u.bl } := by
  unfold weirTrained
  simp only [h, Bool.not_true, Bool.false_eq_true, if_false, beq_iff_eq]
  split <;> rfl

theorem linkOf_weirTrained {s u : State} {d c : Nat} {t : State} (hbl : u.bl = s.bl)
    (ht : t.bl = if c = 0 then u.bl.map (fun e => if e.1 == d then (e.1, gatewayOpen e.2) else e) else u.bl) (o : Nat) :
    linkOf t o = if c = 0 ∧ o = d then (linkOf s o).map gatewayOpen else linkOf s o := by
  have hopen := lookup_map_at gatewayOpen u.bl d o
  rw [linkOf, ht, hbl]
  rw [hbl] at hopen
  by_cases hc : c = 0
  · simp only [hc, if_true, true_and]
    exact hopen
  · simp only [hc, if_false, false_and]
    rfl

theorem recentring_iff {s : State} {d c : Nat} : recentring s d c = true ↔ ∃ r rs, s.err.repairs = r :: rs ∧ r.code = 10 ∧ r.unit = 8 * d + c := by
  unfold recentring
  split
  next r rs hline => simp [hline]
  next hline => simp [hline]

/-- A weir that no repair re-centres is trained, and no repair ends by it. -/
theorem weirTrained_outside {s : State} {d c : Nat} {b : BoardLink} {ms : List (Nat × Nat)} (hb : linkOf s d = some b) (h : canTrainWeir s d c ms = true)
    (hrepair : inRepair s 10 (8 * d + c) = false) :
    let t := weirTrained s d c ms
    t.phys = put s.phys (8 * d + c) (trainedPhys ms) ∧ wfld (reg t (weirKey d c)) 19 16 = 0 ∧ (c = 0 → linkOf t d = some { b with spill := false })
    ∧ (c ≠ 0 → t.bl = s.bl) ∧ t = { s with regs := t.regs, phys := t.phys, bl := t.bl } ∧ ∀ o, o ≠ d → linkOf t o = linkOf s o := by
  have hno : recentring s d c = false := by
    refine Bool.eq_false_iff.mpr fun hre => ?_
    obtain ⟨r, rs, hline, hcode, hunit⟩ := recentring_iff.mp hre
    simp [inRepair, hline, hcode, hunit] at hrepair
  have hsame : recentred (weirSettled s d c ms) d c
      = weirSettled s d c ms := by
    have hno' : recentring (weirSettled s d c ms) d c = false := hno
    unfold recentred
    split
    · exact if_neg (by simp [hno'])
    · rfl
  have hdef := weirTrained_eq h
  dsimp only at hdef
  rw [hsame] at hdef
  have hlink (o : Nat) := linkOf_weirTrained (s := s) (u := weirSettled s d c ms) (d := d) (c := c) rfl
    (congrArg State.bl hdef) o
  refine ⟨by rw [hdef]; rfl, ?_, fun hc => ?_, fun hc => ?_, by rw [hdef]; rfl, fun o ho => ?_⟩
  · rw [hdef]
    exact drift_setDrift_zero _ d c
  · rw [hlink, if_pos ⟨hc, rfl⟩, hb]
    rfl
  · rw [hdef]
    exact if_neg hc
  · rw [hlink, if_neg (fun h => ho h.2)]

/-- The state in which a re-centring leaves the line, RECENTRED set. -/
def weirRecentred (s : State) (d c : Nat) (rs : List Repair) : State :=
  setReg { s with err := { s.err with repairs := rs } } (weirKey d c) (reg s (weirKey d c) ||| BitVec.ofNat 32 (2 ^ 21))

theorem recentred_eq {s : State} {d c : Nat} {r : Repair} {rs : List Repair} (hre : recentring s d c = true) (hline : s.err.repairs = r :: rs) :
    recentred s d c = endRepair (weirRecentred s d c rs) r := by
  unfold recentred
  rw [hline]
  simp only [hre, if_true]
  rfl

/-- A re-centring that is first in line ends with the training of its weir. -/
theorem weirTrained_recentres {s : State} {d c : Nat} {ms : List (Nat × Nat)} (h : canTrainWeir s d c ms = true) (hre : recentring s d c = true) :
    let t := weirTrained s d c ms
    t.phys = put s.phys (8 * d + c) (trainedPhys ms) ∧ wfld (reg t (weirKey d c)) 21 21 = 1 ∧ wfld (reg t (weirKey d c)) 19 16 = 0
    ∧ t.err.repairs = s.err.repairs.tail ∧ (∀ o, o ≠ d → linkOf t o = linkOf s o) ∧ t.ds = { s.ds with faulty := t.ds.faulty } ∧ t.md = s.md := by
  obtain ⟨r, rs, hline, -, -⟩ := recentring_iff.mp hre
  obtain ⟨hd, hc⟩ := canTrainWeir_bounds h
  have hdef := weirTrained_eq h
  dsimp only at hdef
  rw [recentred_eq (s := weirSettled s d c ms) (d := d) (c := c) hre hline] at hdef
  have vreg : reg (weirRecentred (weirSettled s d c ms) d c rs) (weirKey d c) = reg (weirSettled s d c ms) (weirKey d c) ||| BitVec.ofNat 32 (2 ^ 21) :=
    reg_setReg_same _ _ _
  have vphys : (weirRecentred (weirSettled s d c ms) d c rs).phys = put s.phys (8 * d + c) (trainedPhys ms) := rfl
  have vrepairs : (weirRecentred (weirSettled s d c ms) d c rs).err.repairs = rs := rfl
  have vbl : (weirRecentred (weirSettled s d c ms) d c rs).bl = s.bl := rfl
  have vds : (weirRecentred (weirSettled s d c ms) d c rs).ds = s.ds := rfl
  have vmd : (weirRecentred (weirSettled s d c ms) d c rs).md = s.md := rfl
  generalize weirRecentred (weirSettled s d c ms) d c rs = v at *
  obtain ⟨hrepairs, -⟩ := endRepair_done v r
  obtain ⟨hds, -⟩ := endRepair_leaves v r
  have hbl : (endRepair v r).bl = s.bl := by simp [vbl]
  have hlink (o : Nat) := linkOf_weirTrained (u := endRepair v r) (d := d) (c := c) hbl (congrArg State.bl hdef) o
  have hreg : reg (weirTrained s d c ms) (weirKey d c)
      = reg (weirSettled s d c ms) (weirKey d c) ||| BitVec.ofNat 32 (2 ^ 21) := by
    rw [hdef, ← vreg]
    exact reg_endRepair v r (weirKey_below hd hc)
  obtain ⟨hset, hkept⟩ := wfld_recentred (reg (weirSettled s d c ms) (weirKey d c))
  dsimp only
  rw [hreg, hset, hkept]
  refine ⟨by rw [hdef]; simp [vphys], rfl, drift_setDrift_zero _ d c, ?_, fun o ho => by rw [hlink, if_neg (fun h => ho h.2)], ?_, by rw [hdef]; simp [vmd]⟩
  · rw [hdef, hline]
    exact hrepairs.trans vrepairs
  · rw [hdef]
    exact vds ▸ hds

/-! ### A weir trained anew after a remap or retrain (R499) -/

/-- What the new training of a link's weir leaves, within the stall of its repair or at once. -/
theorem retrainWeir_spec {s : State} {d : Nat} {b : BoardLink} (hb : linkOf s d = some b) :
    let t := retrainWeir s d
    linkOf t d = some (if inRepair s 9 (linkUnit d) then b else weirDue s.seq.epoch b) ∧ (∀ o, o ≠ d → linkOf t o = linkOf s o)
    ∧ (inRepair s 9 (linkUnit d) = true → t.phys = s.phys) ∧ t = { s with bl := t.bl, phys := t.phys } := by
  unfold retrainWeir
  dsimp only
  split
  next hin => exact ⟨hb, fun _ _ => rfl, fun _ => rfl, rfl⟩
  next hout => exact ⟨linkOf_trainWeir_same hb, fun o ho => linkOf_trainWeir_other s ho, fun h => absurd h hout, rfl⟩

theorem weirDue_spec (epoch : Bool) (b : BoardLink) :
    let u := weirDue epoch b
    u = { b with timing := u.timing, tx := { b.tx with timing := u.tx.timing } } ∧ (b.version = 3 → epoch = true → u.tx.timing = 1024) := by
  unfold weirDue
  dsimp only
  split
  · exact ⟨rfl, fun _ _ => rfl⟩
  next hno => exact ⟨rfl, fun hv he => absurd (by simp [hv, he]) hno⟩

/-! ### Repairs and the board links -/

theorem unitFault_bl (s : State) (code unit : Nat) {f : FaultInfo} (h : f.cls ≠ 5) : (unitFault s code unit f).bl = s.bl := by
  unfold unitFault
  split
  · exact (fault_below_fatal s { f with source := code } h).2.2.2
  · simp [tickFree]

theorem joinRepair_bl (s : State) (code unit : Nat) {f : FaultInfo} (h : f.cls ≠ 5) : (joinRepair s code unit f).bl = s.bl := by
  unfold joinRepair
  split
  · simp [noteOverlap, tickFree]
  · exact unitFault_bl s code unit h

theorem widthFault_bl (s : State) (unit : Nat) {f : FaultInfo} (h : f.cls ≠ 5) : (widthFault s unit f).bl = s.bl := by
  unfold widthFault
  split
  · exact joinRepair_bl s 9 unit h
  · simp [joinRepair_bl s 9 unit h]

/-- A repair of code 9 writes no register of a link's block. -/
theorem reg_unitFault_link (s : State) (unit : Nat) {f : FaultInfo} (h : f.cls ≤ 4) (d : Nat) {o : Nat} (ho : o < 2 ^ 20) :
    reg (unitFault s 9 unit f) (rkey d 0x11 o) = reg s (rkey d 0x11 o) := by
  unfold unitFault
  split
  · exact reg_fault_link s (f := { f with source := 9 }) h d ho
  · exact reg_bump_other (noteOverlap (tickFree s)) 16 1 (linkKey_ne_io d o 0x02 0x0A4 ho (by decide) (by decide) (by decide))

theorem reg_joinRepair_link (s : State) (unit : Nat) {f : FaultInfo} (h : f.cls ≤ 4) (d : Nat) {o : Nat} (ho : o < 2 ^ 20) :
    reg (joinRepair s 9 unit f) (rkey d 0x11 o) = reg s (rkey d 0x11 o) := by
  unfold joinRepair
  split
  · rfl
  · exact reg_unitFault_link s unit h d ho

/-! ### Lanes that fail (R489, R499) -/

/-- The logical lanes of a direction, and those after one of them failed. -/
def usedLanes (b : BoardLink) (tx : Bool) : List Nat := if tx then b.txUsed else b.rxUsed
def failedLanes (b : BoardLink) (l : Nat) (tx : Bool) : List Nat := ins (if tx then b.txFail else b.rxFail) l
def lanesNext (b : BoardLink) (l : Nat) (tx : Bool) : List Nat := lanesAfter (usedLanes b tx) (failedLanes b l tx) l

/-- A link on those lanes. -/
def laneMoved (b : BoardLink) (l : Nat) (tx : Bool) : BoardLink :=
  if tx then { b with txFail := failedLanes b l tx, txUsed := lanesNext b l tx, width8 := (lanesNext b l tx).length == 8 }
  else { b with rxFail := failedLanes b l tx, rxUsed := lanesNext b l tx }

theorem mem_goodLanes {failed : List Nat} {l : Nat} (h : l ∈ goodLanes failed) : l ∉ failed := by
  simpa [goodLanes, numsWhere] using (List.mem_filter.mp h).2

/-- The lane that failed is in use no more. -/
theorem lanesAfter_drops {used failed : List Nat} {l : Nat} (hl : l ∈ failed) (hused : l ∈ used) : (lanesAfter used failed l).contains l = false := by
  have hno : l ∉ lanesAfter used failed l := by
    unfold lanesAfter
    split
    next sp rest hspare =>
      have hsp : sp ∈ (goodLanes failed).filter (fun x => !used.contains x) := by rw [hspare]; exact List.mem_cons_self
      obtain ⟨-, hfree⟩ := List.mem_filter.mp hsp
      intro hmem
      obtain ⟨x, hx, hxl⟩ := List.mem_map.mp hmem
      by_cases hsame : x = l
      · rw [if_pos (by simpa using hsame)] at hxl
        rw [hxl] at hfree
        simp [hused] at hfree
      · rw [if_neg (by simpa using hsame)] at hxl
        exact hsame hxl
    next =>
      split
      · exact fun hmem => mem_goodLanes (List.mem_of_mem_take hmem) hl
      · exact List.not_mem_nil
  simpa using hno

/-- Without a spare at most 8 lanes are left. -/
theorem lanesAfter_narrow {used failed : List Nat} {l : Nat} (h : (lanesAfter used failed l).length ≠ used.length) : (lanesAfter used failed l).length ≤ 8 := by
  unfold lanesAfter at h ⊢
  split
  next sp rest hspare =>
    rw [hspare] at h
    exact absurd (List.length_map _) h
  next =>
    split
    · exact List.length_take_le _ _
    · exact Nat.zero_le _

section
variable {s : State} {d l : Nat} {b : BoardLink} {tx : Bool} (hb : linkOf s d = some b) (hcarries : linkCarries b = true) (hused : (usedLanes b tx).contains l = true)
include hb hcarries hused

/-- A lane in use: the link has spare lanes, or 8 of them, or falls. -/
theorem laneFailure_eq : laneFailure s d l tx = if (lanesNext b l tx).isEmpty then linkDown s d (laneMoved b l tx) 5 l
    else if (lanesNext b l tx).length == (usedLanes b tx).length then
      retrainWeir (joinRepair (bumpBl (setLink s d (laneMoved b l tx)) d 0x058 16 1) 9 (linkUnit d) { linkInfo d 3 0x0302 with d1 := l }) d
    else
      let v := laneMoved b l tx
      let first := match v.tx.retry with | f :: _ => f.seq | [] => v.tx.seq
      let v := if tx then { v with tx := { freshTx v.tx v.tx.scr with seq := first } } else v
      retrainWeir (widthFault (setLink s d v) (linkUnit d) { linkInfo d 4 0x0303 with d1 := l }) d := by
  have hguard : ¬(!linkCarries b || !(usedLanes b tx).contains l) = true := by simp only [hcarries, hused]; decide
  unfold laneFailure
  rw [hb]
  exact if_neg hguard

end

/-- A lane's failure as its receiver counts it. -/
def laneCounted (s : State) (d : Nat) (lock : Bool) : State := if lock then bumpBl s d 0x054 16 1 else bumpBl s d 0x050 32 8

theorem laneCounted_spec (s : State) (d : Nat) (lock : Bool) :
    laneCounted s d lock = { s with regs := (laneCounted s d lock).regs }
    ∧ ∀ o, o ≠ 0x054 → o ≠ 0x050 → reg (laneCounted s d lock) (rkey d 0x11 o) = reg s (rkey d 0x11 o) := by
  unfold laneCounted
  split
  · exact ⟨rfl, fun o h _ => bumpBl_other s _ _ h⟩
  · exact ⟨rfl, fun o _ h => bumpBl_other s _ _ h⟩

/-- The weir's new training leaves what a repair is asked of. -/
theorem retrainWeir_asks {s u : State} {d : Nat} {b : BoardLink} (hb : linkOf u d = some b) (h : asksRepair s u 9) : asksRepair s (retrainWeir u d) 9 := by
  obtain ⟨-, -, -, hshape⟩ := retrainWeir_spec hb
  rw [hshape]
  exact asksRepair_of_line h rfl rfl

/-- A remap under code 9: counted, and the weir trained anew within its stall or at once. -/
theorem laneRemap_spec (s : State) (d : Nat) (v : BoardLink) {f : FaultInfo} (hf : f.cls = 3) :
    let t := retrainWeir (joinRepair (bumpBl (setLink s d v) d 0x058 16 1) 9 (linkUnit d) f) d
    linkOf t d = some (if inRepair t 9 (linkUnit d) then v else weirDue s.seq.epoch v) ∧ (inRepair t 9 (linkUnit d) = true → t.phys = s.phys)
    ∧ asksRepair s t 9 ∧ (reg t (rkey d 0x11 0x058)).toNat = satAdd 16 (reg s (rkey d 0x11 0x058)).toNat 1
    ∧ (∀ o, o ≠ d → linkOf t o = linkOf s o) ∧ t.ds = s.ds ∧ t.md = s.md := by
  have hbl : (joinRepair (bumpBl (setLink s d v) d 0x058 16 1) 9 (linkUnit d) f).bl = put s.bl d v := joinRepair_bl _ 9 _ (by rw [hf]; decide)
  have hmd : (joinRepair (bumpBl (setLink s d v) d 0x058 16 1) 9 (linkUnit d) f).md = s.md := joinRepair_md _ 9 _ (by rw [hf]; decide)
  have hds : (joinRepair (bumpBl (setLink s d v) d 0x058 16 1) 9 (linkUnit d) f).ds = s.ds := by simp [bumpBl, setLink]
  have hphys : (joinRepair (bumpBl (setLink s d v) d 0x058 16 1) 9 (linkUnit d) f).phys = s.phys := by simp [bumpBl, setLink]
  have hseq : (joinRepair (bumpBl (setLink s d v) d 0x058 16 1) 9 (linkUnit d) f).seq = s.seq := by simp [bumpBl, setLink]
  have hasks : asksRepair s (joinRepair (bumpBl (setLink s d v) d 0x058 16 1) 9 (linkUnit d) f) 9 :=
    (asksRepair_congr rfl rfl rfl rfl rfl rfl 9).mp (joinRepair_asks (bumpBl (setLink s d v) d 0x058 16 1) 9 (linkUnit d) f)
  have hreg : (reg (joinRepair (bumpBl (setLink s d v) d 0x058 16 1) 9 (linkUnit d) f) (rkey d 0x11 0x058)).toNat
      = satAdd 16 (reg s (rkey d 0x11 0x058)).toNat 1 := by
    rw [reg_joinRepair_link _ _ (by rw [hf]; decide) d (by decide)]
    exact bumpBl_same (setLink s d v) d 0x058 1 (by decide)
  generalize joinRepair (bumpBl (setLink s d v) d 0x058 16 1) 9 (linkUnit d) f = j at *
  have hlink : linkOf j d = some v := (congrArg (lookup · d) hbl).trans (lookup_put_same _ _ _)
  obtain ⟨rlink, rothers, rphys, rshape⟩ := retrainWeir_spec hlink
  have hin : inRepair (retrainWeir j d) 9 (linkUnit d) = inRepair j 9 (linkUnit d) := by rw [rshape]; rfl
  dsimp only
  rw [hin, ← hseq]
  refine ⟨rlink, fun h => (rphys h).trans hphys, retrainWeir_asks hlink hasks, ?_, fun o ho => ?_, ?_, ?_⟩
  · rw [rshape]
    exact hreg
  · exact (rothers o ho).trans ((congrArg (lookup · o) hbl).trans (lookup_put_other _ _ _ _ ho))
  · rw [rshape]
    exact hds
  · rw [rshape]
    exact hmd

/-- A link that narrows to 8 lanes: its unit's failure under code 9, and the weir as after a remap. -/
theorem linkNarrow_spec (s : State) (d : Nat) (v : BoardLink) {f : FaultInfo} (hf : f.cls = 4) :
    let t := retrainWeir (widthFault (setLink s d v) (linkUnit d) f) d
    (∃ ms n, linkOf t d = some { v with timing := ms, tx := { v.tx with timing := n } }) ∧ asksRepair s t 9
    ∧ (∀ o, o ≠ d → linkOf t o = linkOf s o) ∧ t.ds = s.ds ∧ t.md = s.md := by
  have hbl : (widthFault (setLink s d v) (linkUnit d) f).bl = put s.bl d v := widthFault_bl _ _ (by rw [hf]; decide)
  obtain ⟨-, hds, hmd, hasks, -, -⟩ := widthFault_spec (setLink s d v) (linkUnit d) hf
  have hasks' : asksRepair s (widthFault (setLink s d v) (linkUnit d) f) 9 := (asksRepair_congr rfl rfl rfl rfl rfl rfl 9).mp hasks
  generalize widthFault (setLink s d v) (linkUnit d) f = j at *
  have hlink : linkOf j d = some v := (congrArg (lookup · d) hbl).trans (lookup_put_same _ _ _)
  obtain ⟨rlink, rothers, -, rshape⟩ := retrainWeir_spec hlink
  refine ⟨?_, retrainWeir_asks hlink hasks', fun o ho => ?_, ?_, ?_⟩
  · split at rlink
    · exact ⟨v.timing, v.tx.timing, rlink⟩
    · exact ⟨_, _, rlink.trans (congrArg some (weirDue_spec j.seq.epoch v).1)⟩
  · exact (rothers o ho).trans ((congrArg (lookup · o) hbl).trans (lookup_put_other _ _ _ _ ho))
  · rw [rshape]
    exact hds
  · rw [rshape]
    exact hmd

section
variable {s : State} {d l : Nat} {b : BoardLink} {tx : Bool} (hb : linkOf s d = some b) (hcarries : linkCarries b = true) (hused : (usedLanes b tx).contains l = true)
include hb hcarries hused

theorem boardLaneFail_eq (lock : Bool) : boardLaneFail s d l tx lock = laneFailure (laneCounted s d lock) d l tx := by
  have hguard : ¬(!linkCarries b || !(usedLanes b tx).contains l) = true := by simp only [hcarries, hused]; decide
  unfold boardLaneFail
  rw [hb]
  exact if_neg hguard

omit hcarries hused in
theorem linkOf_laneCounted (lock : Bool) : linkOf (laneCounted s d lock) d = some b := by
  rw [(laneCounted_spec s d lock).1]
  exact hb

/-- A lane that gives way to a spare. -/
theorem boardLaneFail_remaps (lock : Bool) (hsome : lanesNext b l tx ≠ []) (hlen : (lanesNext b l tx).length = (usedLanes b tx).length) :
    ∃ u, let t := boardLaneFail s d l tx lock
      linkOf t d = some u ∧ u = { laneMoved b l tx with timing := u.timing, tx := { b.tx with timing := u.tx.timing } }
      ∧ (inRepair t 9 (linkUnit d) = false → b.version = 3 → s.seq.epoch = true → u.tx.timing = 1024)
      ∧ (inRepair t 9 (linkUnit d) = true → u.tx.timing = b.tx.timing ∧ t.phys = s.phys)
      ∧ asksRepair s t 9 ∧ (reg t (rkey d 0x11 0x058)).toNat = satAdd 16 (reg s (rkey d 0x11 0x058)).toNat 1
      ∧ (∀ o, o ≠ d → linkOf t o = linkOf s o) ∧ t.ds = s.ds ∧ t.md = s.md := by
  have hmoved : (laneMoved b l tx).tx = b.tx ∧ (laneMoved b l tx).version = b.version := by
    unfold laneMoved
    split <;> exact ⟨rfl, rfl⟩
  obtain ⟨htx, hversion⟩ := hmoved
  obtain ⟨hsame, hregs⟩ := laneCounted_spec s d lock
  have hdef : boardLaneFail s d l tx lock = retrainWeir (joinRepair (bumpBl (setLink (laneCounted s d lock) d (laneMoved b l tx)) d 0x058 16 1) 9 (linkUnit d)
      { linkInfo d 3 0x0302 with d1 := l }) d := by
    rw [boardLaneFail_eq hb hcarries hused, laneFailure_eq (linkOf_laneCounted hb lock) hcarries hused,
      if_neg (by simpa using hsome), if_pos (by simpa using hlen)]
  obtain ⟨tlink, tphys, tasks, tcount, tothers, tds, tmd⟩ := laneRemap_spec (laneCounted s d lock) d (laneMoved b l tx)
    (f := { linkInfo d 3 0x0302 with d1 := l }) rfl
  rw [← hdef, hregs _ (by decide) (by decide)] at tcount
  rw [← hdef, hsame] at tlink tphys tasks tothers tds tmd
  obtain ⟨hdue, htimed⟩ := weirDue_spec s.seq.epoch (laneMoved b l tx)
  rw [htx] at hdue
  refine ⟨_, tlink, ?_, fun hout hv he => ?_, fun hin => ⟨?_, tphys hin⟩, (asksRepair_congr rfl rfl rfl rfl rfl rfl 9).mp tasks, tcount, tothers, tds, tmd⟩
  · split
    · rw [← htx]
    · exact hdue
  · rw [if_neg (by simp [hout])]
    exact htimed (hversion.trans hv) he
  · rw [if_pos hin, htx]

/-- A lane that no spare replaces, of a bundle that has 8 lanes left. -/
theorem boardLaneFail_narrows (lock : Bool) (hsome : lanesNext b l tx ≠ []) (hlen : (lanesNext b l tx).length ≠ (usedLanes b tx).length) :
    ∃ u, let t := boardLaneFail s d l tx lock
      linkOf t d = some u ∧ usedLanes u tx = lanesNext b l tx ∧ (lanesNext b l tx).length ≤ 8 ∧ u.st = b.st ∧ asksRepair s t 9
      ∧ (∀ o, o ≠ d → linkOf t o = linkOf s o) ∧ t.ds = s.ds ∧ t.md = s.md := by
  obtain ⟨hsame, hregs⟩ := laneCounted_spec s d lock
  have hdef : ∃ v : BoardLink, usedLanes v tx = lanesNext b l tx ∧ v.st = b.st ∧ boardLaneFail s d l tx lock
      = retrainWeir (widthFault (setLink (laneCounted s d lock) d v) (linkUnit d) { linkInfo d 4 0x0303 with d1 := l }) d := by
    rw [boardLaneFail_eq hb hcarries hused, laneFailure_eq (linkOf_laneCounted hb lock) hcarries hused,
      if_neg (by simpa using hsome), if_neg (by simpa using hlen)]
    refine ⟨_, ?_, ?_, rfl⟩
    all_goals
      cases tx
      · rfl
      · rfl
  obtain ⟨v, hlanes, hst, hdef⟩ := hdef
  obtain ⟨⟨ms, n, tlink⟩, tasks, tothers, tds, tmd⟩ := linkNarrow_spec (laneCounted s d lock) d v (f := { linkInfo d 4 0x0303 with d1 := l }) rfl
  rw [← hdef] at tlink tasks tothers tds tmd
  rw [hsame] at tasks tothers tds tmd
  exact ⟨_, tlink, hlanes, lanesAfter_narrow hlen, hst, (asksRepair_congr rfl rfl rfl rfl rfl rfl 9).mp tasks, tothers, tds, tmd⟩

/-- A lane without which the bundle has fewer than 8. -/
theorem boardLaneFail_falls (lock : Bool) (hnone : lanesNext b l tx = []) (hfree : linkBooked s d = false) :
    let t := boardLaneFail s d l tx lock
    linkOf t d = some (linkFallen (laneMoved b l tx) 5)
    ∧ (reg t (rkey d 0x11 0x074)).toNat = satAdd 32 (reg s (rkey d 0x11 0x074)).toNat (headsWaiting b)
    ∧ (∀ o, o ≠ d → linkOf t o = linkOf s o) ∧ t.ds = s.ds ∧ t.md = s.md := by
  obtain ⟨hsame, hregs⟩ := laneCounted_spec s d lock
  have hfree' : linkBooked (laneCounted s d lock) d = false := by rw [hsame]; exact hfree
  have hdef : boardLaneFail s d l tx lock = linkDown (laneCounted s d lock) d (laneMoved b l tx) 5 l := by
    rw [boardLaneFail_eq hb hcarries hused, laneFailure_eq (linkOf_laneCounted hb lock) hcarries hused, if_pos (by simp [hnone])]
  have hwait : headsWaiting (laneMoved b l tx) = headsWaiting b := by
    unfold laneMoved
    split <;> rfl
  obtain ⟨tlink, tabsorbs, tothers, tds, tmd⟩ := linkDown_unbooked (laneMoved b l tx) 5 l hfree'
  rw [hregs _ (by decide) (by decide), hwait] at tabsorbs
  have hlinks (o : Nat) : linkOf (laneCounted s d lock) o = linkOf s o := by rw [hsame]; rfl
  have hds : (laneCounted s d lock).ds = s.ds := by rw [hsame]
  have hmd : (laneCounted s d lock).md = s.md := by rw [hsame]
  dsimp only
  rw [hdef]
  exact ⟨tlink, tabsorbs, fun o ho => (tothers o ho).trans (hlinks o), tds.trans hds, tmd.trans hmd⟩

end

/-! ### LOS and LOL (R196, R499) -/

/-- The loss of signal or of lock, counted. -/
def lossCounted (s : State) (d : Nat) (lol : Bool) : State := bumpBl s d (if lol then 0x06C else 0x068) 16 1

theorem lossCounted_spec (s : State) (d : Nat) (lol : Bool) :
    lossCounted s d lol = { s with regs := (lossCounted s d lol).regs }
    ∧ ∀ o, o ≠ 0x06C → o ≠ 0x068 → reg (lossCounted s d lol) (rkey d 0x11 o) = reg s (rkey d 0x11 o) := by
  refine ⟨rfl, fun o h h' => bumpBl_other s _ _ ?_⟩
  split
  · exact h
  · exact h'

theorem blReg_lossCounted (s : State) (d : Nat) (lol : Bool) {o : Nat} (h : o ≠ 0x06C) (h' : o ≠ 0x068) : blReg (lossCounted s d lol) d o = blReg s d o :=
  congrArg BitVec.toNat ((lossCounted_spec s d lol).2 o h h')

/-- A link that is to train without lane test. -/
def quickLink (b : BoardLink) : BoardLink := { b with quick := true }

/-- The count does not touch what a training is judged by. -/
theorem agreedVersion_lossCounted (s : State) (d : Nat) (lol : Bool) (v : Nat) : agreedVersion (lossCounted s d lol) d v = agreedVersion s d v := by
  simp only [agreedVersion, offered, blReg_lossCounted s d lol (show 0x100 ≠ 0x06C by decide) (show 0x100 ≠ 0x068 by decide)]
  rfl

theorem heardLink_lossCounted (s : State) (d : Nat) (lol : Bool) (b : BoardLink) (r : LinkTraining) :
    heardLink (lossCounted s d lol) d b r = heardLink s d b r := by
  unfold heardLink
  simp only [agreedVersion_lossCounted]
  rfl

theorem trainingCause_lossCounted (s : State) (d : Nat) (lol : Bool) (v : BoardLink) (r : LinkTraining) :
    trainingCause (lossCounted s d lol) d v r = trainingCause s d v r := rfl

theorem equalised_lossCounted (s : State) (d : Nat) (lol : Bool) (v : BoardLink) (r : LinkTraining) :
    equalised (lossCounted s d lol) d v r = equalised s d v r := by
  simp only [equalised, blReg_lossCounted s d lol (show 0x104 ≠ 0x06C by decide) (show 0x104 ≠ 0x068 by decide)]

theorem signNow_frame (s : State) :
    let t := signNow s
    t.bl = s.bl ∧ t.ds = s.ds ∧ t.md = s.md ∧ t.err = s.err ∧ t.regs = s.regs ∧ t.phys = s.phys ∧ t.slu = s.slu ∧ t.seq = s.seq := by
  unfold signNow
  dsimp only
  split
  · exact ⟨rfl, rfl, rfl, rfl, rfl, rfl, rfl, rfl⟩
  · rw [buildSig_frame]
    exact ⟨rfl, rfl, rfl, rfl, rfl, rfl, rfl, rfl⟩

theorem creditsAnew_owed (fresh : Bool) (b : BoardLink) : ∃ o, creditsAnew fresh b = { b with tx := { b.tx with owed := o } } := by
  cases fresh
  · exact ⟨b.tx.owed, rfl⟩
  · exact ⟨State.resetTx.owed, rfl⟩

theorem weirDue_timing (epoch : Bool) (b : BoardLink) : ∃ ms n, weirDue epoch b = { b with timing := ms, tx := { b.tx with timing := n } } :=
  ⟨_, _, (weirDue_spec epoch b).1⟩

/-- A retrain keeps the flits that no ACK covers, numbered from 0, to be sent again. -/
theorem retrainTx_spec (t : LinkTx) (scr : List (BitVec 58)) :
    let u := retrainTx t scr
    u.records = t.records ∧ u.retry.map (·.body) = t.retry.map (·.body) ∧ u.retry.map (·.seq) = List.range t.retry.length ∧ u.resend = u.retry
    ∧ u.seq = t.retry.length := by
  refine ⟨rfl, ?_, ?_, rfl, ?_⟩
  · have hbody : (t.retry.zipIdx.map Prod.fst).map (·.body) = t.retry.map (·.body) := by rw [List.zipIdx_map_fst]
    rw [List.map_map] at hbody
    exact List.map_map.trans hbody
  · simp [retrainTx, List.map_map, Function.comp_def, List.range_eq_range']
  · simp [retrainTx]

/-- The stall of a retrain, the marked steps, routes and the signature: what a retrain leaves beside the link in its place. -/
def retrained (s : State) (d : Nat) (same : Bool) : State :=
  let u := unitFault s 9 (linkUnit d) (linkInfo d 3 0x0304)
  signNow (buildRoutes (if same then u else remark u))

theorem retrained_spec (s : State) (d : Nat) (same : Bool) :
    let t := retrained s d same
    t.bl = s.bl ∧ t.ds = s.ds ∧ t.md = s.md ∧ asksRepair s t 9 := by
  have hcls : (linkInfo d 3 0x0304).cls ≠ 5 := by rw [show (linkInfo d 3 0x0304).cls = 3 from rfl]; decide
  have hbl := unitFault_bl s 9 (linkUnit d) hcls
  have hmd := unitFault_md s 9 (linkUnit d) hcls
  have hds : (unitFault s 9 (linkUnit d) (linkInfo d 3 0x0304)).ds = s.ds := by simp
  have hasks := unitFault_asks s 9 (linkUnit d) (linkInfo d 3 0x0304)
  unfold retrained
  dsimp only
  generalize unitFault s 9 (linkUnit d) (linkInfo d 3 0x0304) = u at *
  have hmark : let v := if same then u else remark u
      v.bl = u.bl ∧ v.ds = u.ds ∧ v.md = u.md ∧ v.err = u.err ∧ v.slu = u.slu := by
    dsimp only
    split
    · exact ⟨rfl, rfl, rfl, rfl, rfl⟩
    · exact ⟨by simp, by simp, by simp, by simp, by simp⟩
  dsimp only at hmark
  generalize (if same then u else remark u) = v at *
  obtain ⟨vbl, vds, vmd, verr, vslu⟩ := hmark
  obtain ⟨gbl, gds, gmd, gerr, -, -, gslu, -⟩ := signNow_frame (buildRoutes v)
  refine ⟨gbl.trans ?_, gds.trans ?_, gmd.trans ?_, asksRepair_of_line hasks ?_ ?_⟩
  · simp [vbl, hbl]
  · simp [vds, hds]
  · simp [vmd, hmd]
  · rw [gslu]
    simp [vslu]
  · rw [gerr]
    simp [verr]

section
variable {s : State} {d : Nat} {b : BoardLink} (lol : Bool) (hb : linkOf s d = some b) (hcarries : linkCarries b = true)
include hb hcarries

theorem losLol_eq (x : Option LinkTraining) :
    losLol s d lol x = (let u := lossCounted s d lol
      let q := quickLink b
      match x.filter (fun t => trainingCause s d (heardLink s d q t) t == 0) with
      | none => signNow (linkDown u d b (if lol then 3 else 2) 0)
      | some t =>
        let v := heardLink s d q t
        let u := unitFault (placeLink u d q { v with st := b.st } t) 9 (linkUnit d) (linkInfo d 3 0x0304)
        retrainWeir (signNow (buildRoutes (if v.width8 == b.width8 && v.rxUsed.length == b.rxUsed.length then u else remark u))) d) := by
  have hsame : (fun t => trainingCause (lossCounted s d lol) d (heardLink (lossCounted s d lol) d (quickLink b) t) t == 0)
      = fun t => trainingCause s d (heardLink s d (quickLink b) t) t == 0 := by
    funext t
    rw [heardLink_lossCounted, trainingCause_lossCounted]
  unfold losLol
  rw [hb]
  dsimp only
  rw [if_neg (by simp [hcarries]), ← hsame]
  simp only [← heardLink_lossCounted s d lol]
  rfl

/-- Without a training, or with one that fails, the link goes down. -/
theorem losLol_falls {x : Option LinkTraining} (hfails : ∀ r, x = some r → trainingCause s d (heardLink s d (quickLink b) r) r ≠ 0) :
    losLol s d lol x = signNow (linkDown (lossCounted s d lol) d b (if lol then 3 else 2) 0) := by
  rw [losLol_eq lol hb hcarries]
  have hnone : x.filter (fun t => trainingCause s d (heardLink s d (quickLink b) t) t == 0) = none := by
    cases x with
    | none => rfl
    | some r => simp [Option.filter, hfails r rfl]
  dsimp only
  rw [hnone]

/-- A retrain that succeeds. -/
theorem losLol_retrains {r : LinkTraining} (hgood : trainingCause s d (heardLink s d (quickLink b) r) r = 0)
    (hcredits : b.fresh = true ∨ r.creditsOk = true) :
    let v := heardLink s d (quickLink b) r
    let t := losLol s d lol (some r)
    (∃ ms n o, linkOf t d = some { linkPlaced s d v r b.st with timing := ms, tx := { v.tx with timing := n, owed := o } }) ∧ asksRepair s t 9
    ∧ (∀ o, o ≠ d → linkOf t o = linkOf s o) ∧ t.ds = s.ds ∧ t.md = s.md := by
  have hdef : losLol s d lol (some r) = retrainWeir (retrained (placeLink (lossCounted s d lol) d (quickLink b)
      { heardLink s d (quickLink b) r with st := b.st } r) d
      ((heardLink s d (quickLink b) r).width8 == b.width8 && (heardLink s d (quickLink b) r).rxUsed.length == b.rxUsed.length)) d := by
    rw [losLol_eq lol hb hcarries]
    simp only [Option.filter, hgood, beq_self_eq_true, if_true]
    rfl
  obtain ⟨plink, pothers, -, -, pshape⟩ := placeLink_spec (lossCounted s d lol) d (quickLink b) (heardLink s d (quickLink b) r) r b.st hcredits
  have hplaced : linkPlaced (lossCounted s d lol) d (heardLink s d (quickLink b) r) r b.st
      = linkPlaced s d (heardLink s d (quickLink b) r) r b.st := by
    rw [linkPlaced, equalised_lossCounted]
    rfl
  rw [hplaced] at plink
  dsimp only
  rw [hdef]
  generalize ((heardLink s d (quickLink b) r).width8 == b.width8 && (heardLink s d (quickLink b) r).rxUsed.length == b.rxUsed.length) = same
  generalize placeLink (lossCounted s d lol) d (quickLink b) { heardLink s d (quickLink b) r with st := b.st } r = p at *
  have pds : p.ds = s.ds := by rw [pshape]; rfl
  have pmd : p.md = s.md := by rw [pshape]; rfl
  have hasked (t : State) : asksRepair p t 9 ↔ asksRepair s t 9 :=
    asksRepair_congr pmd (by rw [pshape]; rfl) (by rw [pshape]; rfl) (by rw [pshape]; rfl) (by rw [pshape]; rfl) (by rw [pshape]; rfl) 9
  obtain ⟨rbl, rds, rmd, rasks⟩ := retrained_spec p d same
  generalize retrained p d same = g at *
  obtain ⟨wlink, wothers, -, wshape⟩ := retrainWeir_spec ((linkOf_of_bl rbl d).trans plink)
  obtain ⟨o, howed⟩ := creditsAnew_owed (quickLink b).fresh (linkPlaced s d (heardLink s d (quickLink b) r) r b.st)
  rw [howed] at wlink
  refine ⟨?_, retrainWeir_asks ((linkOf_of_bl rbl d).trans plink) ((hasked g).mp rasks), fun x hx => ?_, ?_, ?_⟩
  · split at wlink
    · exact ⟨_, _, o, wlink⟩
    · obtain ⟨ms, n, hdue⟩ := weirDue_timing g.seq.epoch { linkPlaced s d (heardLink s d (quickLink b) r) r b.st with
        tx := { (linkPlaced s d (heardLink s d (quickLink b) r) r b.st).tx with owed := o } }
      exact ⟨ms, n, o, wlink.trans (congrArg some hdue)⟩
  · exact (wothers x hx).trans ((linkOf_of_bl rbl x).trans (pothers x hx))
  · rw [wshape]
    exact rds.trans pds
  · rw [wshape]
    exact rmd.trans pmd

end

/-! ### Electrical idle (R505, R506) -/

theorem linkOf_setTx (s : State) (d x : Nat) (f : LinkTx → LinkTx) :
    linkOf (setTx s d f) x = if x = d then (linkOf s x).map (fun b => { b with tx := f b.tx }) else linkOf s x :=
  lookup_map_at (fun b : BoardLink => { b with tx := f b.tx }) s.bl d x

/-- A row that moves transmitters of one link moves nothing else of any. -/
def TxMoves (s t : State) (d : Nat) : Prop :=
  (∀ b, linkOf s d = some b → ∃ x, linkOf t d = some { b with tx := x }) ∧ (∀ o, o ≠ d → linkOf t o = linkOf s o) ∧ t.ds = s.ds ∧ t.md = s.md

theorem TxMoves.refl (s : State) (d : Nat) : TxMoves s s d := ⟨fun b hb => ⟨b.tx, hb⟩, fun _ _ => rfl, rfl, rfl⟩

theorem TxMoves.trans {s t u : State} {d : Nat} (h : TxMoves s t d) (h' : TxMoves t u d) : TxMoves s u d := by
  obtain ⟨hlink, hothers, hds, hmd⟩ := h
  obtain ⟨hlink', hothers', hds', hmd'⟩ := h'
  refine ⟨fun b hb => ?_, fun o ho => (hothers' o ho).trans (hothers o ho), hds'.trans hds, hmd'.trans hmd⟩
  obtain ⟨x, hx⟩ := hlink b hb
  obtain ⟨y, hy⟩ := hlink' _ hx
  exact ⟨y, hy⟩

theorem TxMoves.of_bl {s t : State} (d : Nat) (hbl : t.bl = s.bl) (hds : t.ds = s.ds) (hmd : t.md = s.md) : TxMoves s t d :=
  ⟨fun b hb => ⟨b.tx, (linkOf_of_bl hbl d).trans hb⟩, fun o _ => linkOf_of_bl hbl o, hds, hmd⟩

theorem txMoves_setTx (s : State) (d : Nat) (f : LinkTx → LinkTx) : TxMoves s (setTx s d f) d :=
  ⟨fun b hb => ⟨f b.tx, by rw [linkOf_setTx, if_pos rfl, hb]; rfl⟩, fun o ho => by rw [linkOf_setTx, if_neg ho], rfl, rfl⟩

theorem txMoves_net (s : State) (d : Nat) (n : NetState) : TxMoves s { s with net := n } d := TxMoves.of_bl d rfl rfl rfl

theorem txMoves_sendFlit (s : State) (d : Nat) (b : BoardLink) (S : Nat) (f : SentFlit) : TxMoves s (sendFlit s d b S f) d := by
  unfold sendFlit
  dsimp only
  split
  · exact txMoves_setTx _ _ _
  · exact (txMoves_setTx s d _).trans (txMoves_net _ d _)

theorem txMoves_spendCredits (s : State) (d unit : Nat) (vcs : List Nat) : TxMoves s (spendCredits s unit vcs) d :=
  TxMoves.of_bl d (by simp) (by simp) (by simp)

/-- A block slot of a link moves its transmitter alone. -/
theorem txMoves_flitSlot (s : State) (d : Nat) : TxMoves s (flitSlot s d) d := by
  unfold flitSlot
  split
  · exact TxMoves.refl s d
  · dsimp only
    split
    · exact (txMoves_setTx _ _ _).trans (txMoves_sendFlit _ _ _ _ _)
    · split
      · exact txMoves_setTx _ _ _
      · exact (txMoves_setTx _ _ _).trans ((txMoves_spendCredits _ _ _ _).trans (txMoves_sendFlit _ _ _ _ _))

/-- A link that sends IDLE on every logical lane. -/
theorem sendIdle_spec {s : State} {d : Nat} {b : BoardLink} (hb : linkOf s d = some b) :
    let t := sendIdle s d
    (∃ ks, linkOf t d = some { b with st := 4, tx := { b.tx with scr := ks } })
    ∧ (∃ bs : List LaneBlock, t.net.control.head? = some (d, bs) ∧ bs.length = b.txUsed.length ∧ ∀ x ∈ bs, x.header = 2)
    ∧ (∀ o, o ≠ d → linkOf t o = linkOf s o) ∧ t.ds = s.ds ∧ t.md = s.md := by
  unfold sendIdle
  rw [hb]
  dsimp only
  refine ⟨⟨_, lookup_put_same _ _ _⟩, ⟨_, rfl, by simp, fun x hx => ?_⟩, fun o ho => lookup_put_other _ _ _ _ ho, rfl, rfl⟩
  obtain ⟨e, -, rfl⟩ := List.mem_map.mp hx
  rfl

theorem idleEntry_enters {s : State} {d : Nat} {b : BoardLink} (hb : linkOf s d = some b) (hst : b.st = 3)
    (hen : bitOf (reg s (rkey d 0x11 0x100)).toNat 0 = true) (hmode : s.md.mode = .standby ∨ s.md.mode = .loaded) (hwork : linkWork s d b = false) :
    idleEntry s d = sendIdle (if b.tx.owed.all (· == 0) then s else flitSlot s d) d := by
  have hen' : bitOf (blReg s d 0x100) 0 = true := hen
  unfold idleEntry
  rw [hb]
  dsimp only
  refine if_pos ?_
  rcases hmode with hmode | hmode <;> simp [hst, hen', hmode, hwork]

/-- A link enters idle, a flit with the credits that it owes before it. -/
theorem idleEntry_spec {s : State} {d : Nat} {b : BoardLink} (hb : linkOf s d = some b) (hst : b.st = 3)
    (hen : bitOf (reg s (rkey d 0x11 0x100)).toNat 0 = true) (hmode : s.md.mode = .standby ∨ s.md.mode = .loaded) (hwork : linkWork s d b = false) :
    ∃ u, let t := idleEntry s d
      linkOf t d = some u ∧ u = { b with st := 4, tx := u.tx } ∧ (b.tx.owed.all (· == 0) = true → u.tx = { b.tx with scr := u.tx.scr })
      ∧ (∃ bs : List LaneBlock, t.net.control.head? = some (d, bs) ∧ bs.length = b.txUsed.length ∧ ∀ x ∈ bs, x.header = 2)
      ∧ (∀ o, o ≠ d → linkOf t o = linkOf s o) ∧ t.ds = s.ds ∧ t.md = s.md := by
  rw [idleEntry_enters hb hst hen hmode hwork]
  by_cases howed : b.tx.owed.all (· == 0) = true
  · rw [if_pos howed]
    obtain ⟨⟨ks, hlink⟩, hidle, hothers, hds, hmd⟩ := sendIdle_spec hb
    exact ⟨_, hlink, rfl, fun _ => rfl, hidle, hothers, hds, hmd⟩
  · rw [if_neg howed]
    obtain ⟨fmoves, fothers, fds, fmd⟩ := txMoves_flitSlot s d
    obtain ⟨x, hx⟩ := fmoves b hb
    obtain ⟨⟨ks, hlink⟩, hidle, hothers, hds, hmd⟩ := sendIdle_spec hx
    exact ⟨_, hlink, rfl, fun h => absurd h howed, hidle, fun o ho => (hothers o ho).trans (fothers o ho), hds.trans fds, hmd.trans fmd⟩

theorem idleEntry_work {s : State} {d : Nat} {b : BoardLink} (hb : linkOf s d = some b) (hwork : linkWork s d b = true) : idleEntry s d = s := by
  unfold idleEntry
  rw [hb]
  exact if_neg (by simp [hwork])

theorem idleEntry_mode {s : State} {d : Nat} {b : BoardLink} (hb : linkOf s d = some b)
    (hmode : s.md.mode = .run ∨ s.md.mode = .replay ∨ s.md.mode = .boot ∨ s.md.mode = .service) : idleEntry s d = s := by
  unfold idleEntry
  rw [hb]
  refine if_neg ?_
  rcases hmode with hmode | hmode | hmode | hmode <;> simp [hmode]

theorem idleExit_stays {s : State} {d : Nat} {b : BoardLink} (hb : linkOf s d = some b) {w : IdleWake}
    (h : b.st ≠ 4 ∨ (w.peer = false ∧ linkWork s d b = false)) : idleExit s d w = s := by
  unfold idleExit
  rw [hb]
  refine if_pos ?_
  rcases h with h | ⟨hpeer, hwork⟩
  · simp [h]
  · simp [hpeer, hwork]

/-- Idle is left, counted; a link whose lanes give no headers is to be retrained. -/
theorem idleExit_leaves {s : State} {d : Nat} {b : BoardLink} (hb : linkOf s d = some b) {w : IdleWake} (hst : b.st = 4)
    (hwake : w.peer = true ∨ linkWork s d b = true) :
    idleExit s d w = if w.heads.all headerOk then setLink (bumpBl s d 0x060 32 1) d { b with st := 3 }
      else buildRoutes (setLink (bumpBl (bumpBl s d 0x060 32 1) d 0x064 16 1) d { b with st := 2, quick := true }) := by
  unfold idleExit
  rw [hb]
  refine if_neg ?_
  rcases hwake with h | h <;> simp [hst, h]

theorem idleExit_spec {s : State} {d : Nat} {b : BoardLink} (hb : linkOf s d = some b) {w : IdleWake} (hst : b.st = 4)
    (hwake : w.peer = true ∨ linkWork s d b = true) :
    let t := idleExit s d w
    linkOf t d = some (if w.heads.all headerOk then { b with st := 3 } else { b with st := 2, quick := true })
    ∧ (reg t (rkey d 0x11 0x060)).toNat = satAdd 32 (reg s (rkey d 0x11 0x060)).toNat 1
    ∧ (w.heads.all headerOk = true → reg t (rkey d 0x11 0x064) = reg s (rkey d 0x11 0x064))
    ∧ (w.heads.all headerOk = false → (reg t (rkey d 0x11 0x064)).toNat = satAdd 16 (reg s (rkey d 0x11 0x064)).toNat 1)
    ∧ (∀ o, o ≠ d → linkOf t o = linkOf s o) ∧ t.ds = s.ds ∧ t.md = s.md := by
  have hcount := bumpBl_same s d 0x060 1 (show 32 ≤ 32 by decide)
  have hother : reg (bumpBl s d 0x060 32 1) (rkey d 0x11 0x064) = reg s (rkey d 0x11 0x064) := bumpBl_other s _ _ (by decide)
  dsimp only
  rw [idleExit_leaves hb hst hwake]
  by_cases hheads : w.heads.all headerOk = true
  · rw [if_pos hheads, if_pos hheads]
    exact ⟨linkOf_setLink (bumpBl s d 0x060 32 1) d _, hcount, fun _ => hother, fun h => absurd (hheads.symm.trans h) (by decide),
      fun o ho => linkOf_setLink_other (bumpBl s d 0x060 32 1) _ ho, rfl, rfl⟩
  · rw [if_neg hheads, if_neg hheads]
    refine ⟨linkOf_setLink (bumpBl (bumpBl s d 0x060 32 1) d 0x064 16 1) d _, ?_, fun h => absurd h hheads, fun _ => ?_,
      fun o ho => linkOf_setLink_other (bumpBl (bumpBl s d 0x060 32 1) d 0x064 16 1) _ ho, rfl, rfl⟩
    · exact (congrArg BitVec.toNat (bumpBl_other (bumpBl s d 0x060 32 1) (d := d) (off := 0x064) (o := 0x060) 16 1 (by decide))).trans hcount
    · exact (bumpBl_same (bumpBl s d 0x060 32 1) d 0x064 1 (by decide)).trans (by rw [hother])

/-! ### Loops that the peer asks for (R507) -/

theorem farLoop_on {s : State} {d : Nat} {b : BoardLink} (hb : linkOf s d = some b) (hv : b.version = 3) (hst : b.st = 3 ∨ b.st = 4)
    (hmode : s.md.mode = .standby ∨ s.md.mode = .loaded ∨ s.md.mode = .service) :
    farLoop s d true = buildRoutes (setLink s d { b with st := 5, loopMode := 4, rx := b.rx.map (fun l => { l with scr := 0 }) }) := by
  unfold farLoop
  rw [hb]
  dsimp only
  rw [if_pos rfl]
  refine if_pos ?_
  rcases hst with hst | hst <;> rcases hmode with hmode | hmode | hmode <;> simp [hv, hst, hmode]

theorem farLoop_off {s : State} {d : Nat} {b : BoardLink} (hb : linkOf s d = some b) (hloop : b.loopMode = 4) :
    farLoop s d false = setLink s d { b with st := 2, loopMode := 0 } := by
  unfold farLoop
  rw [hb]
  simp [hloop]

/-- A link that falls absorbs traffic on its gateway, with its cause. -/
theorem losLol_unbooked {s : State} {d : Nat} {b : BoardLink} (lol : Bool) (hb : linkOf s d = some b) (hcarries : linkCarries b = true) {x : Option LinkTraining}
    (hfails : ∀ r, x = some r → trainingCause s d (heardLink s d (quickLink b) r) r ≠ 0) (hfree : linkBooked s d = false) :
    let t := losLol s d lol x
    linkOf t d = some (linkFallen b (if lol then 3 else 2))
    ∧ (reg t (rkey d 0x11 0x074)).toNat = satAdd 32 (reg s (rkey d 0x11 0x074)).toNat (headsWaiting b)
    ∧ (∀ o, o ≠ d → linkOf t o = linkOf s o) ∧ t.ds = s.ds ∧ t.md = s.md := by
  have hcount := (lossCounted_spec s d lol).2 0x074 (by decide) (by decide)
  obtain ⟨dlink, dabsorbs, dothers, dds, dmd⟩ := linkDown_unbooked (s := lossCounted s d lol) (d := d) b (if lol then 3 else 2) 0 hfree
  obtain ⟨gbl, gds, gmd, -, gregs, -, -, -⟩ := signNow_frame (linkDown (lossCounted s d lol) d b (if lol then 3 else 2) 0)
  dsimp only
  rw [losLol_falls lol hb hcarries hfails]
  exact ⟨(linkOf_of_bl gbl d).trans dlink, by rw [reg_of_regs gregs, dabsorbs, hcount], fun o ho => (linkOf_of_bl gbl o).trans (dothers o ho), gds.trans dds,
    gmd.trans dmd⟩

theorem losLol_booked {s : State} {d : Nat} {b : BoardLink} (lol : Bool) (hb : linkOf s d = some b) (hcarries : linkCarries b = true) {x : Option LinkTraining}
    (hfails : ∀ r, x = some r → trainingCause s d (heardLink s d (quickLink b) r) r ≠ 0) (hbooked : linkBooked s d = true) :
    (losLol s d lol x).md.safeHold ≠ none ∧ (losLol s d lol x).ds = s.ds := by
  obtain ⟨hheld, hds⟩ := linkDown_booked (s := lossCounted s d lol) (d := d) b (if lol then 3 else 2) 0 hbooked
  obtain ⟨-, gds, gmd, -⟩ := signNow_frame (linkDown (lossCounted s d lol) d b (if lol then 3 else 2) 0)
  rw [losLol_falls lol hb hcarries hfails]
  exact ⟨by rw [gmd]; exact hheld, gds.trans hds⟩

/-- Settles O54: row by row, by what each leaves of the link in its place, of its registers and of every other link. -/
theorem boardLinksTrainRemapAndFall : Obligations.BoardLinksTrainRemapAndFall := by
  intro s d b hb
  dsimp only
  refine ⟨fun r htrain hcause hcredits => ?_, fun r htrain hcause hfree => ?_, fun r c htrain hcause hne hne7 hfree => ?_, fun r htrain hcause hbooked => ?_,
    fun htrain => ?_, fun c ms hcan hrepair => ?_, fun c ms hcan hre => ?_, fun ms c hcan => ?_, fun l tx lock hcarries hused hsome hlen => ?_,
    fun l tx lock hcarries hused hsome hlen => ?_, fun l tx lock hcarries hused hnone hfree => ?_, fun lol r hcarries hgood hcredits => ?_,
    fun lol x hcarries hfails => ?_, fun hst hen hmode hwork => ?_, fun hwork => ?_, fun hmode => ?_, fun w hst hwake => ?_, fun w hstay => ?_,
    fun hv hst hmode => ?_, fun hloop => ?_⟩
  · obtain ⟨hlink, htraining, hphys, houtstanding, hcount, hothers, hds, hmd⟩ := boardTraining_leaves hb htrain hcause hcredits
    obtain ⟨hu, htx, htiming⟩ := linkTrainedUp_spec s d b r
    obtain ⟨hversion, hpos, hdie, htxUsed, hrxUsed, hexpect, hacked, hseq, hpeak, heye, hsent⟩ := linkTrainedUp_told s d b r
    exact ⟨_, _, rfl, hlink, hu, htx, htiming, hversion, hpos, hdie, htxUsed, hrxUsed, hexpect, hacked, hseq, hpeak, heye, by rw [hsent]; exact htraining, hphys,
      houtstanding, hcount, hothers, hds, hmd⟩
  · obtain ⟨hlink, habsorbs, hothers, hds, hmd⟩ := boardTraining_falls hb htrain (by rw [hcause]; decide) hfree (if_pos hcause)
    rw [hcause] at hlink
    exact ⟨_, rfl, hlink, habsorbs, hothers, hds, hmd⟩
  · subst hcause
    obtain ⟨hlink, habsorbs, hothers, hds, hmd⟩ := boardTraining_falls hb htrain hne hfree (if_neg hne7)
    obtain ⟨-, hprbs, -⟩ := heardLink_waiting s d b r
    rw [linkFallen, hprbs] at hlink
    exact ⟨_, rfl, hlink, habsorbs, hothers, hds, hmd⟩
  · exact ⟨_, rfl, boardTraining_fatal hb htrain hcause hbooked⟩
  · exact ⟨_, rfl, boardUnconnected_falls hb htrain⟩
  · obtain ⟨hphys, hdrift, hopen, hkeep, hshape, hothers⟩ := weirTrained_outside hb hcan hrepair
    exact ⟨_, rfl, hphys, hdrift, hopen, hkeep, hshape, hothers, by rw [hshape], by rw [hshape]⟩
  · exact ⟨_, rfl, weirTrained_recentres hcan hre⟩
  · exact congrArg Host.Outcome.next (if_pos (by simp [hcan]))
  · obtain ⟨u, hlink, hu, hdue, hin, hasks, hcount, hothers, hds, hmd⟩ := boardLaneFail_remaps (l := l) (tx := tx) hb hcarries hused lock hsome hlen
    have hdrop : (lanesNext b l tx).contains l = false := lanesAfter_drops ((mem_ins _ _ _).mpr (.inl rfl)) (List.contains_iff_mem.mp hused)
    exact ⟨_, u, rfl, hlink, hu, hdue, hin, hdrop, hasks, hcount, hothers, hds, hmd⟩
  · obtain ⟨u, hu⟩ := boardLaneFail_narrows (l := l) (tx := tx) hb hcarries hused lock hsome hlen
    exact ⟨_, u, rfl, hu⟩
  · obtain ⟨hlink, habsorbs, hothers, hds, hmd⟩ := boardLaneFail_falls (l := l) (tx := tx) hb hcarries hused lock hnone hfree
    exact ⟨_, _, rfl, hlink, rfl, rfl, rfl, habsorbs, hothers, hds, hmd⟩
  · obtain ⟨⟨ms, n, o, hlink⟩, hasks, hothers, hds, hmd⟩ := losLol_retrains lol hb hcarries hgood hcredits
    have htx : (heardLink s d (quickLink b) r).tx = retrainTx b.tx (freshScr s) := rfl
    obtain ⟨hrecords, hbody, hseq, hresend, hnext⟩ := retrainTx_spec b.tx (freshScr s)
    rw [htx] at hlink
    exact ⟨_, _, rfl, hlink, rfl, rfl, rfl, rfl, hrecords, hbody, hseq, hresend, hnext, hasks, hothers, hds, hmd⟩
  · exact ⟨_, rfl, fun hfree => losLol_unbooked lol hb hcarries hfails hfree, fun hbooked => losLol_booked lol hb hcarries hfails hbooked⟩
  · obtain ⟨u, hu⟩ := idleEntry_spec hb hst hen hmode hwork
    exact ⟨_, u, rfl, hu⟩
  · exact congrArg Host.Outcome.next (idleEntry_work hb hwork)
  · exact congrArg Host.Outcome.next (idleEntry_mode hb hmode)
  · exact ⟨_, rfl, idleExit_spec hb hst hwake⟩
  · exact congrArg Host.Outcome.next (idleExit_stays hb hstay)
  · exact congrArg Host.Outcome.next (farLoop_on hb hv hst hmode)
  · exact congrArg Host.Outcome.next (farLoop_off hb hloop)

end Sys2Proof.Machine
